-- ==== Sys2Proof/Word.lean ====
section
/-! DEFINITION. Word.lean: the word types of the Z8 and their plainest views (spec/00 R4, R5; spec/03 R51). -/

namespace Sys2Proof

/-- A byte of memory. -/
abbrev Byte := BitVec 8

/-- The width of one vector, scalar or accumulator register (Table 3-1). -/
abbrev Word := BitVec 32

/-- A register pair, an address, an instruction word (R51, R69). -/
abbrev DWord := BitVec 64

/-- A set of lanes of a wave: bit l stands for lane l. -/
abbrev Lanes := BitVec 32

/-- The 64-bit value of a pair: bits [31:0] in the first register (R51). -/
def pairOf (lo hi : Word) : DWord := hi ++ lo

/-- The register of a pair that holds bits [31:0]. -/
def loOf (x : DWord) : Word := x.setWidth 32

/-- The register of a pair that holds bits [63:32]. -/
def hiOf (x : DWord) : Word := (x >>> 32).setWidth 32

/-- The lanes 0 to 31 in ascending order. -/
def laneList : List Nat := List.range 32

/-- Whether lane `l` is in the set. -/
def hasLane (m : Lanes) (l : Nat) : Bool := m.getLsbD l

/-- The set of the lanes that satisfy `p`. -/
def lanesOf (p : Nat → Bool) : Lanes :=
  BitVec.ofNat 32 (laneList.foldl (fun n l => if p l then n + 2 ^ l else n) 0)

/-- The lanes of a set, ascending. -/
def lanesIn (m : Lanes) : List Nat := laneList.filter (hasLane m)

/-- The one-bit view of a Boolean. -/
def b2n (b : Bool) : Nat := if b then 1 else 0

end Sys2Proof
end

