-- ==== Sys2Proof/Syntax.lean ====
section
/-! DEFINITION. Syntax.lean: the instructions of the Z8 and the events of its units, one constructor of Instr per row of
spec/opcode_table.json. An instruction carries its guard and chain bit (Head, Table 3-5) and the fields of its format
(Tables 3-6 to 3-15); an event carries the unit it happens to, the choice the spec leaves open, or the input that an
outside party gives. -/

namespace Sys2Proof

/-! ### Instruction operands -/

/-- A guard: the thread performs the instruction when its predicate `p` differs from `neg` (R70). -/
structure Guard where
  neg : Bool
  p : BitVec 4
  deriving DecidableEq, Repr

/-- The common fields of Table 3-5 below OP: the guard, absent when GE = 0, and CH. -/
structure Head where
  guard : Option Guard
  chain : Bool
  deriving DecidableEq, Repr

/-- A lane pattern on source B (Table 3-8). -/
inductive Pat where
  | none | rotate | broadcast | butterfly | mirror | downShift
  deriving DecidableEq, Repr

/-- Source B of format A3 (BK, PP, PA; R72, R74). -/
inductive SrcB where
  | vec (r : BitVec 8) (pat : Pat) (amount : BitVec 5)
  | scal (r : BitVec 8)
  | imm (v : BitVec 8)
  deriving DecidableEq, Repr

/-- Rounding modes (Table 10-2). -/
inductive RM where
  | rne | rz | rdn | rup
  deriving DecidableEq, Repr

/-- Format A3 (Table 3-6). `ty` is read by the instruction's class (Table 3-7). -/
structure A3 where
  d : BitVec 8
  a : BitVec 8
  b : SrcB
  c : BitVec 8
  ty : BitVec 3
  rm : RM
  sat : Bool
  deriving DecidableEq, Repr

/-- Format A3 of `ltab` and `sltab`, whose RM, SA and PA hold the truth table (R129); `scalB` is BK = 01. -/
structure Tab3 where
  d : BitVec 8
  a : BitVec 8
  b : BitVec 8
  c : BitVec 8
  ty : BitVec 3
  scalB : Bool
  tab : BitVec 8
  deriving DecidableEq, Repr

/-- Format AI (Table 3-10). -/
structure AI where
  d : BitVec 8
  a : BitVec 8
  k : Bool
  imm : BitVec 32
  deriving DecidableEq, Repr

/-- Format M (Table 3-11). -/
structure MFmt where
  d : BitVec 8
  a : BitVec 8
  b : BitVec 8
  ak : Bool
  sc : BitVec 2
  wd : BitVec 3
  ht : BitVec 3
  off : BitVec 16
  deriving DecidableEq, Repr

/-- Format E (Table 3-12). -/
structure EFmt where
  x : BitVec 8
  a : BitVec 8
  b : BitVec 8
  c : BitVec 8
  eng : BitVec 17
  deriving DecidableEq, Repr

/-- Format C (Table 3-14). -/
structure CFmt where
  d : BitVec 8
  a : BitVec 8
  offp : BitVec 32
  deriving DecidableEq, Repr

/-- Format Y (Table 3-15). -/
structure YFmt where
  d : BitVec 8
  a : BitVec 8
  sysno : BitVec 16
  deriving DecidableEq, Repr

/-! ### Event operands -/

/-- Which barrier of a block (R372): the block barrier, or a counted one. -/
inductive BarName where
  | block
  | counted (id : Nat)
  deriving DecidableEq, Repr

/-- The storage in which an error is found: HBM or tier-2 memory, the L2, the core (Table 22-1). -/
inductive EccUnit where
  | memory | l2 | core
  deriving DecidableEq, Repr

/-- What the error-correcting code finds in the data an access reads (R493): an outside input. -/
inductive Ecc where
  | clean
  | corrected (u : EccUnit)
  | uncorrectable (u : EccUnit)
  deriving DecidableEq, Repr

/-- A line that the module reads for itself, by number, and what the code finds in it (R494). -/
structure LineRead where
  line : Nat
  ecc : Ecc
  deriving DecidableEq, Repr

/-- The units Table 22-3 fences. -/
inductive FenceUnit where
  | core | cluster | hbmStack | fabricPort
  deriving DecidableEq, Repr

/-- What precedes the payload of a host frame (R454): the EtherType and the 16 header bytes; for a message over a fabric port nothing
does. -/
structure HostHead where
  etherType : Nat
  header : List Byte
  deriving DecidableEq, Repr

/-- What the receiver finds about a protected frame of a session before its payload is used (R454, R455): the session, its header,
the counter, whether the GCM tag verifies (under the new keys when `newKeys`), and the first word of the payload of a session or service frame (R456, R458). -/
structure FrameHead where
  session : Nat
  head : HostHead
  counter : Nat
  tagOk : Bool
  newKeys : Bool
  word : DWord
  deriving DecidableEq, Repr

/-- HELLO as it arrives: its first word and its body (Table 19-6), `tail` being the three reserved bytes. -/
structure HelloMsg where
  head : HostHead
  word : DWord
  nonce : List Byte
  hostLo : Nat
  hostHi : Nat
  fwLo : Nat
  fwHi : Nat
  fabLo : Nat
  fabHi : Nat
  prio : BitVec 8
  tail : BitVec 24
  deriving DecidableEq, Repr

/-- KEY as it arrives: its first word and its body (Table 19-6), `tail` being the four reserved bytes. -/
structure KeyMsg where
  head : HostHead
  word : DWord
  session : Nat
  cipher : List Byte
  modulus : List Byte
  exponent : BitVec 32
  tail : BitVec 32
  signature : List Byte
  deriving DecidableEq, Repr

/-- What the signed configuration holds (R449): `peers` are the root key hashes of acceptable session peers. How its payload lays
these out is not given, so they are an input (notes/assumptions/6.md). -/
structure SignedConfig where
  mac : Nat
  etherType : Nat
  peers : List (List Byte)
  pfcMask : BitVec 8
  coreFence : Nat
  clusterFence : Nat
  stackFence : Nat
  portFence : Nat
  deriving DecidableEq, Repr

/-- A fabric packet (Table 22-10) with its data. -/
structure FabPacket where
  typ : Nat
  src : Nat
  dst : Nat
  path : Nat
  tag : Nat
  atop : Nat
  status : Nat
  addr : Nat
  data : List Byte
  deriving DecidableEq, Repr

/-- The instructions and events, one constructor per row of spec/opcode_table.json. -/
inductive Instr where
  /-- NOP (R94): Does nothing and belongs to no pipe. -/
  | nop (chain : Bool)
  /-- BR (R116): Sends every active thread to a target relative to the packet. -/
  | br (h : Head) (f : CFmt)
  /-- BRX (R117): Sends each active thread to the 64-bit target held in its register pair. -/
  | brx (h : Head) (f : CFmt)
  /-- CALL (R117): Writes the address of the following packet to a link pair and branches to a relative target. -/
  | call (h : Head) (f : CFmt)
  /-- CALLX (R117): Writes the link pair and branches to the target held in a register pair. -/
  | callx (h : Head) (f : CFmt)
  /-- RET (R117): Returns to the address held in a register pair. -/
  | ret (h : Head) (f : CFmt)
  /-- EXIT (R118): Makes each active thread EXITED once its packet has been performed. -/
  | exit (h : Head) (f : CFmt)
  /-- RCV (R36): Makes each active thread WAIT at the wave's reconvergence barrier. -/
  | rcv (h : Head) (f : CFmt)
  /-- RCV_RELEASE (R36): Every non-exited thread of the wave is waiting at an rcv, so all of them resume in one issue slot. -/
  | rcvRelease (blk wave : Nat)
  /-- LOOP (R120): Decrements a scalar count once per issue and branches while the count is not zero. -/
  | loop (h : Head) (f : CFmt)
  /-- BRANY (R116): Branches every active thread if the predicate is set in any active lane. -/
  | brany (h : Head) (f : CFmt)
  /-- BRALL (R116): Branches every active thread if the predicate is set in every active lane. -/
  | brall (h : Head) (f : CFmt)
  /-- YIELD (R121): Ends the wave's current run of consecutive issues on its sub-core. -/
  | yield (h : Head) (f : CFmt)
  /-- SLEEP (R122): Stops the whole wave from issuing for n clocks. -/
  | sleep (h : Head) (f : CFmt)
  /-- SLEEP_END (R122): The n clocks of a sleep have passed and the wave may issue again. -/
  | sleepEnd (blk wave : Nat)
  /-- TRAP (R481): Raises SOFTWARE with code n for every active thread. -/
  | trap (h : Head) (f : YFmt)
  /-- BRK (R481): Raises BREAK, or without a handler holds the threads and writes a BREAK fault entry. -/
  | brk (h : Head) (f : YFmt)
  /-- RTE (R480): Returns a thread from its handler in RETRY mode, issuing the trapping group again. -/
  | rte (h : Head) (f : YFmt)
  /-- RTE_NEXT (R480): Returns a thread from its handler to the first slot after the trapping chain group. -/
  | rteNext (h : Head) (f : YFmt)
  /-- SYS_RD (R487): Reads a system register into a scalar register or pair. -/
  | sysRd (h : Head) (f : YFmt)
  /-- SYS_WR (R487): Writes a system register from a scalar register or pair and clears IDEM. -/
  | sysWr (h : Head) (f : YFmt)
  /-- TLB_INV_PAGE (R489): Invalidates the translations and L1 lines of one 64 KiB page of an address space. -/
  | tlbInvPage (h : Head) (f : YFmt)
  /-- TLB_INV_LARGE (R489): Invalidates the translations and L1 lines of one 64 MiB range of an address space. -/
  | tlbInvLarge (h : Head) (f : YFmt)
  /-- TLB_INV_ASN (R489): Invalidates every translation of one address-space number. -/
  | tlbInvAsn (h : Head) (f : YFmt)
  /-- TLB_INV_ALL (R489): Invalidates every translation of every address-space number. -/
  | tlbInvAll (h : Head) (f : YFmt)
  /-- ERR_RD_COUNTER (R490): Reads one error counter. -/
  | errRdCounter (h : Head) (f : YFmt)
  /-- ERR_RD_LOG (R490): Reads one word of the oldest unread error log record. -/
  | errRdLog (h : Head) (f : YFmt)
  /-- ERR_RD_RETIRE (R490): Retires the oldest error log record and returns the number of records that remain. -/
  | errRdRetire (h : Head) (f : YFmt)
  /-- ICL_LOCK (R205): Locks instruction-cache lines over a range and returns the bytes now locked. -/
  | iclLock (h : Head) (f : MFmt)
  /-- ICL_FREE (R206): Releases the block's instruction-cache locks over a range. -/
  | iclFree (h : Head) (f : MFmt)
  /-- ICL_COUNT (R206): Returns the bytes of instruction cache locked for the block. -/
  | iclCount (h : Head) (f : MFmt)
  /-- HALT (R491): Takes the fatal-error path with a reason code. -/
  | halt (h : Head) (f : YFmt)
  /-- WVOTE (R101): Retired Z6 vote on the trapped rung: raises FEATURE_TRAPPED if bound, otherwise ILLEGAL_ENCODING. -/
  | wvote (w : DWord)
  /-- IADD (R124): Integer add, wrapping or saturating. -/
  | iadd (h : Head) (f : A3)
  /-- ISUB (R124): Integer subtract, wrapping or saturating. -/
  | isub (h : Head) (f : A3)
  /-- IADD64 (R125): Adds an extended 32-bit value to a 64-bit pair. -/
  | iadd64 (h : Head) (f : A3)
  /-- IMUL (R124): Integer multiply. -/
  | imul (h : Head) (f : A3)
  /-- IMULH (R125): Upper word of a 32-bit product. -/
  | imulh (h : Head) (f : A3)
  /-- IMAD (R124): Integer multiply-add with a single wrap or saturation. -/
  | imad (h : Head) (f : A3)
  /-- IMADW (R125): Widening multiply-add into a 64-bit pair. -/
  | imadw (h : Head) (f : A3)
  /-- IADDC (R126): Add with carry held in a predicate. -/
  | iaddc (h : Head) (f : A3)
  /-- ISUBB (R126): Subtract with borrow held in a predicate. -/
  | isubb (h : Head) (f : A3)
  /-- IDIV (R127): Microcoded integer division truncating toward zero. -/
  | idiv (h : Head) (f : A3)
  /-- IREM (R127): Microcoded integer remainder. -/
  | irem (h : Head) (f : A3)
  /-- IMIN (R124): Integer minimum. -/
  | imin (h : Head) (f : A3)
  /-- IMAX (R124): Integer maximum. -/
  | imax (h : Head) (f : A3)
  /-- IABS (R124): Integer absolute value. -/
  | iabs (h : Head) (f : A3)
  /-- ISAD (R128): Accumulates an absolute difference. -/
  | isad (h : Head) (f : A3)
  /-- IDOT4 (R128): Accumulates a dot product of four bytes. -/
  | idot4 (h : Head) (f : A3)
  /-- AND (R129): Bitwise AND. -/
  | and (h : Head) (f : A3)
  /-- OR (R129): Bitwise OR. -/
  | or (h : Head) (f : A3)
  /-- XOR (R129): Bitwise XOR. -/
  | xor (h : Head) (f : A3)
  /-- ANDN (R129): Bitwise AND with the inverse of B. -/
  | andn (h : Head) (f : A3)
  /-- LTAB (R129): Applies any three-input bitwise function given as a truth table. -/
  | ltab (h : Head) (f : Tab3)
  /-- SHL (R130): Shift left. -/
  | shl (h : Head) (f : A3)
  /-- SHR (R130): Logical shift right. -/
  | shr (h : Head) (f : A3)
  /-- SAR (R130): Arithmetic shift right. -/
  | sar (h : Head) (f : A3)
  /-- ROT (R130): Rotate left. -/
  | rot (h : Head) (f : A3)
  /-- BFE (R131): Extracts a bit field. -/
  | bfe (h : Head) (f : A3)
  /-- BFI (R131): Inserts a bit field. -/
  | bfi (h : Head) (f : A3)
  /-- POPC (R132): Counts set bits. -/
  | popc (h : Head) (f : A3)
  /-- CLZ (R132): Counts leading zero bits. -/
  | clz (h : Head) (f : A3)
  /-- BREV (R132): Reverses bit order. -/
  | brev (h : Head) (f : A3)
  /-- LEA (R125): Forms a 64-bit address as base plus scaled index. -/
  | lea (h : Head) (f : A3)
  /-- MOVI (R133): Writes an immediate to a vector register or pair. -/
  | movi (h : Head) (f : AI)
  /-- ICMP (R135): Integer compare into a predicate. -/
  | icmp (h : Head) (f : A3)
  /-- FCMP (R136): Floating-point compare into a predicate. -/
  | fcmp (h : Head) (f : A3)
  /-- PAND (R137): Predicate AND. -/
  | pand (h : Head) (f : A3)
  /-- POR (R137): Predicate OR. -/
  | por (h : Head) (f : A3)
  /-- PXOR (R137): Predicate XOR. -/
  | pxor (h : Head) (f : A3)
  /-- PMOV (R137): Predicate move, optionally inverted. -/
  | pmov (h : Head) (f : A3)
  /-- SEL (R137): Selects A or B by a predicate. -/
  | sel (h : Head) (f : A3)
  /-- BALLOT (R138): Gathers a predicate of the active lanes into a scalar mask. -/
  | ballot (h : Head) (f : A3)
  /-- VANY (R138): Sets a predicate in every active lane if any active lane's predicate is set. -/
  | vany (h : Head) (f : A3)
  /-- VALL (R138): Sets a predicate in every active lane if every active lane's predicate is set. -/
  | vall (h : Head) (f : A3)
  /-- VMATCH (R138): Writes the mask of active lanes holding an equal value. -/
  | vmatch (h : Head) (f : A3)
  /-- LANES (R138): Writes the mask of active lanes to a scalar register. -/
  | lanes (h : Head) (f : A3)
  /-- MOV (R139): Vector move, a shuffle when a lane pattern is used. -/
  | mov (h : Head) (f : A3)
  /-- MOVS (R139): Copies one lane's vector register into a scalar register. -/
  | movs (h : Head) (f : A3)
  /-- SMOV (R139): Scalar move. -/
  | smov (h : Head) (f : A3)
  /-- SLTAB (R140): Scalar three-input truth-table function. -/
  | sltab (h : Head) (f : Tab3)
  /-- SADD (R140): Scalar add. -/
  | sadd (h : Head) (f : A3)
  /-- SSUB (R140): Scalar subtract. -/
  | ssub (h : Head) (f : A3)
  /-- SMUL (R140): Scalar multiply. -/
  | smul (h : Head) (f : A3)
  /-- SAND (R140): Scalar AND. -/
  | sand (h : Head) (f : A3)
  /-- SOR (R140): Scalar OR. -/
  | sor (h : Head) (f : A3)
  /-- SXOR (R140): Scalar XOR. -/
  | sxor (h : Head) (f : A3)
  /-- SSHL (R140): Scalar shift left. -/
  | sshl (h : Head) (f : A3)
  /-- SSHR (R140): Scalar shift right, arithmetic or logical by type. -/
  | sshr (h : Head) (f : A3)
  /-- SCMP (R135): Scalar compare whose result goes to a predicate in every active lane. -/
  | scmp (h : Head) (f : A3)
  /-- SMOVI (R139): Writes an immediate to a scalar register or pair. -/
  | smovi (h : Head) (f : AI)
  /-- SMIN (R140): Scalar minimum. -/
  | smin (h : Head) (f : A3)
  /-- SMAX (R140): Scalar maximum. -/
  | smax (h : Head) (f : A3)
  /-- MOVRI (R141): Reads the vector register at a per-lane computed index. -/
  | movri (h : Head) (f : A3)
  /-- MOVWI (R141): Writes the vector register at a per-lane computed index. -/
  | movwi (h : Head) (f : A3)
  /-- XPERM (R142): General lane permutation, tracked by a wait flag. -/
  | xperm (h : Head) (f : A3)
  /-- SPEC (R143): Reads a special value. -/
  | spec (h : Head) (f : YFmt)
  /-- FADD (R285): Floating add rounded once. -/
  | fadd (h : Head) (f : A3)
  /-- FSUB (R285): Floating subtract rounded once. -/
  | fsub (h : Head) (f : A3)
  /-- FMUL (R285): Floating multiply rounded once. -/
  | fmul (h : Head) (f : A3)
  /-- FFMA (R285): Fused multiply-add rounded once. -/
  | ffma (h : Head) (f : A3)
  /-- FMIN (R287): Floating minimum. -/
  | fmin (h : Head) (f : A3)
  /-- FMAX (R287): Floating maximum. -/
  | fmax (h : Head) (f : A3)
  /-- FABS (R288): Floating absolute value. -/
  | fabs (h : Head) (f : A3)
  /-- FNEG (R288): Floating negation. -/
  | fneg (h : Head) (f : A3)
  /-- FRCP (R289): Correctly rounded reciprocal on the SFU. -/
  | frcp (h : Head) (f : A3)
  /-- FSQRT (R289): Correctly rounded square root on the SFU. -/
  | fsqrt (h : Head) (f : A3)
  /-- FRSQ (R289): Correctly rounded reciprocal square root on the SFU. -/
  | frsq (h : Head) (f : A3)
  /-- FEXP2 (R289): Correctly rounded 2 to the power a on the SFU. -/
  | fexp2 (h : Head) (f : A3)
  /-- FLOG2 (R289): Correctly rounded base-2 logarithm on the SFU. -/
  | flog2 (h : Head) (f : A3)
  /-- FSINP (R289): Correctly rounded sin(pi a) on the SFU. -/
  | fsinp (h : Head) (f : A3)
  /-- FCOSP (R289): Correctly rounded cos(pi a) on the SFU. -/
  | fcosp (h : Head) (f : A3)
  /-- SFU_RESULT (R290): An SFU or xperm result is written in every performing lane and its wait flag clears. -/
  | sfuResult (blk wave op : Nat)
  /-- FDIV (R291): Microcoded, correctly rounded division. -/
  | fdiv (h : Head) (f : A3)
  /-- FRND (R292): Rounds to an integral value in the same format. -/
  | frnd (h : Head) (f : A3)
  /-- FCLASS (R294): Writes the class mask of a value. -/
  | fclass (h : Head) (f : A3)
  /-- FSCALE (R293): Multiplies by a power of two, rounded once. -/
  | fscale (h : Head) (f : A3)
  /-- FDOT2 (R295): Adds two 16-bit products to an f32 value with one rounding. -/
  | fdot2 (h : Head) (f : A3)
  /-- FTWOSUM (R296): Writes a rounded sum and its exact error. -/
  | ftwosum (h : Head) (f : A3)
  /-- FCPYSGN (R288): Copies the sign of B onto the magnitude of A. -/
  | fcpysgn (h : Head) (f : A3)
  /-- FMAD_FTZ (R297): Retired unfused multiply-add that flushes subnormals, on the microcoded rung. -/
  | fmadFtz (h : Head) (f : A3)
  /-- CVT_FF (R298): Converts between floating-point formats. -/
  | cvtFf (h : Head) (f : A3)
  /-- CVT_FI (R300): Converts float to integer with saturation. -/
  | cvtFi (h : Head) (f : A3)
  /-- CVT_IF (R299): Converts integer to float. -/
  | cvtIf (h : Head) (f : A3)
  /-- CVT_II (R301): Converts between integer types. -/
  | cvtIi (h : Head) (f : A3)
  /-- CVT_E8 (R302): Encodes a value as an 8-bit code under a header. -/
  | cvtE8 (h : Head) (f : A3)
  /-- CVT_E4 (R302): Encodes a value as a 4-bit code under a header. -/
  | cvtE4 (h : Head) (f : A3)
  /-- DCVT_E8 (R303): Decodes an 8-bit code under a header. -/
  | dcvtE8 (h : Head) (f : A3)
  /-- DCVT_E4 (R303): Decodes a 4-bit code under a header. -/
  | dcvtE4 (h : Head) (f : A3)
  /-- QBLK (R307): Quantises the values of the wave into blocks with headers. -/
  | qblk (h : Head) (f : A3)
  /-- DQBLK (R309): Decodes blocks laid out across the wave. -/
  | dqblk (h : Head) (f : A3)
  /-- QHDR (R305): Computes the header for a largest magnitude and one selector. -/
  | qhdr (h : Head) (f : A3)
  /-- HCHK (R306): Checks a header into a predicate. -/
  | hchk (h : Head) (f : A3)
  /-- PACK4 (R310): Inserts a 4-bit code into a word. -/
  | pack4 (h : Head) (f : A3)
  /-- PACK8 (R310): Inserts an 8-bit code into a word. -/
  | pack8 (h : Head) (f : A3)
  /-- UNPK4 (R310): Extracts a 4-bit code from a word. -/
  | unpk4 (h : Head) (f : A3)
  /-- UNPK8 (R310): Extracts an 8-bit code from a word. -/
  | unpk8 (h : Head) (f : A3)
  /-- FPK2 (R311): Rounds two f32 values into a packed 16-bit pair. -/
  | fpk2 (h : Head) (f : A3)
  /-- FUPK2 (R311): Converts one element of a packed pair to f32. -/
  | fupk2 (h : Head) (f : A3)
  /-- LD (R191): Loads from global memory, setting a wait flag. -/
  | ld (h : Head) (f : MFmt)
  /-- LD_BLK (R193): Block-atomic load of a block's data and header. -/
  | ldBlk (h : Head) (f : MFmt)
  /-- ST (R191): Stores to global memory. -/
  | st (h : Head) (f : MFmt)
  /-- ST_BLK (R193): Block-atomic store of a block's data and header. -/
  | stBlk (h : Head) (f : MFmt)
  /-- LDS (R194): Loads from the block's scratchpad window. -/
  | lds (h : Head) (f : MFmt)
  /-- STS (R194): Stores to the block's scratchpad window. -/
  | sts (h : Head) (f : MFmt)
  /-- ATOM_ADD (R195): Atomic add at the home, returning the old value. -/
  | atomAdd (h : Head) (f : MFmt)
  /-- ATOM_MIN (R195): Atomic minimum at the home. -/
  | atomMin (h : Head) (f : MFmt)
  /-- ATOM_MAX (R195): Atomic maximum at the home. -/
  | atomMax (h : Head) (f : MFmt)
  /-- ATOM_AND (R195): Atomic AND at the home. -/
  | atomAnd (h : Head) (f : MFmt)
  /-- ATOM_OR (R195): Atomic OR at the home. -/
  | atomOr (h : Head) (f : MFmt)
  /-- ATOM_XOR (R195): Atomic XOR at the home. -/
  | atomXor (h : Head) (f : MFmt)
  /-- ATOM_XCH (R195): Atomic exchange at the home. -/
  | atomXch (h : Head) (f : MFmt)
  /-- ATOM_CAS (R195): Atomic compare-and-swap at the home. -/
  | atomCas (h : Head) (f : MFmt)
  /-- ATOM_FADD (R195): Atomic f32 add at the home. -/
  | atomFadd (h : Head) (f : MFmt)
  /-- RED (R197): Atomic reduction at the home that returns nothing. -/
  | red (h : Head) (f : MFmt)
  /-- SATOM (R198): Atomic operation on a scratchpad location. -/
  | satom (h : Head) (f : MFmt)
  /-- PHASE_CL (R199): Close: completes when the wave's earlier writes have performed at the scope. -/
  | phaseCl (h : Head) (f : MFmt)
  /-- PHASE_CL_COMPLETE (R234): Every write a close waited for has performed and every flush marker is acknowledged, so the wave issues again. -/
  | phaseClComplete (blk wave : Nat)
  /-- PHASE_OP (R200): Open: invalidates non-stable L1 lines and sets the snapshot bound. -/
  | phaseOp (h : Head) (f : MFmt)
  /-- FENCE_Q (R201): Orders the block's copy and collective commands across the named queues. -/
  | fenceQ (h : Head) (f : MFmt)
  /-- CINV (R202): Invalidates one line in the issuing core's L1. -/
  | cinv (h : Head) (f : MFmt)
  /-- CINV_ALL (R202): Invalidates every line of the issuing core's L1. -/
  | cinvAll (h : Head) (f : MFmt)
  /-- PREFETCH (R203): Brings a line into the L2 and optionally the L1. -/
  | prefetch (h : Head) (f : MFmt)
  /-- MPROBE (R204): Reports the compressed storage of a line. -/
  | mprobe (h : Head) (f : MFmt)
  /-- MON_ARM (R382): Arms the wave's monitor on a line. -/
  | monArm (h : Head) (f : MFmt)
  /-- MON_WAIT (R384): Makes the active threads wait until the monitor ends. -/
  | monWait (h : Head) (f : MFmt)
  /-- MONITOR_TRIGGER (R383): A write by another party becomes visible at the watched line's home and ends the monitor. -/
  | monitorTrigger (blk wave : Nat)
  /-- MONITOR_TIMEOUT (R384): The mon.wait timeout passes and the wait ends with reason 3. -/
  | monitorTimeout (blk wave : Nat)
  /-- TILE_DEF (R208): Defines a tile descriptor. -/
  | tileDef (h : Head) (f : EFmt)
  /-- TILE_REL (R209): Releases a READY tile to EMPTY. -/
  | tileRel (h : Head) (f : EFmt)
  /-- TILE_WAIT (R211): Sets a flag that clears when the tile reaches READY or EMPTY. -/
  | tileWait (h : Head) (f : EFmt)
  /-- TILE_Q (R211): Returns a tile's state. -/
  | tileQ (h : Head) (f : EFmt)
  /-- CP_LD (R215): Queues a fill of a tile from global memory. -/
  | cpLd (h : Head) (f : EFmt)
  /-- CP_ST (R215): Queues a drain of a tile to global memory. -/
  | cpSt (h : Head) (f : EFmt)
  /-- CP_GTH (R217): Queues a gather of rows through an index array. -/
  | cpGth (h : Head) (f : EFmt)
  /-- CP_SCT (R217): Queues a scatter of rows through an index array. -/
  | cpSct (h : Head) (f : EFmt)
  /-- CP_HINT (R220): Brings a range into the L2 under the retain policy. -/
  | cpHint (h : Head) (f : EFmt)
  /-- CP_SET (R214): Sets the block's DSTRIDE or HSTRIDE. -/
  | cpSet (h : Head) (f : EFmt)
  /-- COPY_BEGIN (R467): A queued copy command begins, reads its index array and presents its row requests to the port. -/
  | copyBegin (core queue : Nat)
  /-- COPY_COMPLETE (R215): A copy command finishes or faults, changes its tile's state and clears its flag. -/
  | copyComplete (core queue : Nat) (ecc : Ecc)
  /-- COLL_AR (R224): Queues an all-reduce over a collective group. -/
  | collAr (h : Head) (f : EFmt)
  /-- COLL_BC (R225): Queues a broadcast from the root over a collective group. -/
  | collBc (h : Head) (f : EFmt)
  /-- COLL_WAIT (R227): Waits for the queue's collectives and returns their status. -/
  | collWait (h : Head) (f : EFmt)
  /-- COLL_BEGIN (R226): A collective begins in queue order and reads the member's buffer. -/
  | collBegin (core queue : Nat)
  /-- COLL_COMPLETE (R226): A collective's result is written at dev scope and its flag clears. -/
  | collComplete (core queue : Nat) (mismatch lost : Bool)
  /-- CONV_DECL (R320): Declares a wave mask on a convergence register. -/
  | convDecl (h : Head) (f : EFmt)
  /-- MMA (R321): Signs a matrix operation round on a convergence register. -/
  | mma (h : Head) (f : EFmt)
  /-- MMA_G (R326): Signs a grouped matrix operation with a B tile per row block. -/
  | mmaG (h : Head) (f : EFmt)
  /-- SIGNING_ROUND_COMPLETE (R322): Every declared thread has signed, so the signatures are checked and the operation issues once its tiles are READY. -/
  | signingRoundComplete (blk conv : Nat)
  /-- MMA_KSTEP (R330): The engine checks a step's headers and commits its updates, or stops and records a fault. -/
  | mmaKstep (blk acc : Nat)
  /-- MMA_WAIT (R333): Waits for the accumulator's commands and delivers any fault record. -/
  | mmaWait (h : Head) (f : EFmt)
  /-- ACC_ZERO (R337): Sets an accumulator to +0. -/
  | accZero (h : Head) (f : EFmt)
  /-- ACC_LD (R337): Copies a tile into an accumulator. -/
  | accLd (h : Head) (f : EFmt)
  /-- ACC_ST (R337): Copies an accumulator into a tile. -/
  | accSt (h : Head) (f : EFmt)
  /-- ACC_STQ (R338): Quantises an accumulator into blocks in a tile. -/
  | accStq (h : Head) (f : EFmt)
  /-- ACC_FLG (R339): Reads the accumulator's sticky flags. -/
  | accFlg (h : Head) (f : EFmt)
  /-- ACC_FCLR (R339): Clears the masked sticky flags. -/
  | accFclr (h : Head) (f : EFmt)
  /-- ACC_COMMAND_PERFORM (R334): A queued accumulator command is performed in the accumulator's order and its flag clears. -/
  | accCommandPerform (blk acc : Nat)
  /-- MMA8 (R101): Retired Z6 matrix form on the trapped rung. -/
  | mma8 (w : DWord)
  /-- BAR (R374): Arrives at the block barrier and waits. -/
  | bar (h : Head) (f : YFmt)
  /-- BARN (R374): Arrives at a counted barrier and waits. -/
  | barn (h : Head) (f : YFmt)
  /-- BARA (R374): Arrives at a counted barrier without waiting. -/
  | bara (h : Head) (f : YFmt)
  /-- BARW (R374): Waits on a counted barrier the thread has arrived at. -/
  | barw (h : Head) (f : YFmt)
  /-- BARRIER_PHASE_COMPLETE (R373): A barrier's arrived count reaches its target and its waiting threads resume. -/
  | barrierPhaseComplete (blk : Nat) (bar : BarName)
  /-- PROG_ADD (R376): Adds to the block's progress register. -/
  | progAdd (h : Head) (f : AI)
  /-- IDEM_END (R377): Clears the wave's IDEM bit. -/
  | idemEnd (h : Head) (f : YFmt)
  /-- SHF_PUT (R388): Appends items to Sheaf lists. -/
  | shfPut (h : Head) (f : EFmt)
  /-- SHF_PUT_ARRIVE (R388): A put reaches the group's home and its runs are appended or dropped with a status. -/
  | shfPutArrive (put : Nat)
  /-- SHF_TAKE (R389): Waits for items in a list and takes up to one per active lane. -/
  | shfTake (h : Head) (f : EFmt)
  /-- SHF_TAKE_RETURN (R389): The list holds an item or the group is QUIET, so the take returns its items. -/
  | shfTakeReturn (blk wave : Nat)
  /-- SHF_WAIT (R390): Waits for the group to become QUIET. -/
  | shfWait (h : Head) (f : EFmt)
  /-- SHF_OPEN (R387): Registers the wave as a producer. -/
  | shfOpen (h : Head) (f : EFmt)
  /-- SHF_DONE (R387): Clears the wave's taker bit, and its producer bit with P. -/
  | shfDone (h : Head) (f : EFmt)
  /-- STILLWATER_QUIET (R390): Stillwater reports a RUNNING group quiescent and releases its waiting takes and waits. -/
  | stillwaterQuiet (group : Nat)
  /-- CANCEL_BLK (R378): Cancels the issuing block. -/
  | cancelBlk (h : Head) (f : YFmt)
  /-- CANCEL_GRID (R378): Cancels the issuing block's grid. -/
  | cancelGrid (h : Head) (f : YFmt)
  /-- CANCEL_GRAPH (R378): Cancels the issuing block's graph. -/
  | cancelGraph (h : Head) (f : YFmt)
  /-- CANCEL_JOB (R378): Cancels the issuing block's job. -/
  | cancelJob (h : Head) (f : YFmt)
  /-- TICK_RD (R379): Reads the tick count and the clocks since the latest tick boundary. -/
  | tickRd (h : Head) (f : YFmt)
  /-- CLK (R380): Reads %clock after the wave's earlier work. -/
  | clk (h : Head) (f : YFmt)
  /-- LOAD_RESULT (R58): A load or returning atomic writes its results and its wait flag clears. -/
  | loadResult (req : Nat) (ecc : Ecc)
  /-- WRITE_PERFORM (R232): A store, atomic or reduction arrives at its home and becomes visible. -/
  | writePerform (req : Nat) (ecc : Ecc)
  /-- FETCH_FAULT (R479): A packet fetch finds its page not present or denied. -/
  | fetchFault (blk wave : Nat)
  /-- BLOCK_RETIRE (R29): A block whose threads have exited and whose work has performed retires and frees its grants. -/
  | blockRetire (blk : Nat)
  /-- GRID_COMPLETE (R31): A grid finishes and its status word is written to its completion record. -/
  | gridComplete (grid : Nat)
  /-- COMMAND_FRAME (R354): The frame receiver writes a command frame's payload into the ring and advances WIDX. -/
  | commandFrame (f : FrameHead) (queue offset : Nat) (payload : List DWord)
  /-- LAUNCH (R358): Checks a launch, runs the rank program and inserts the grid into Millrace. -/
  | launch (queue : Nat)
  /-- WAIT (R358): Holds the queue until a memory, grid, graph or job condition holds. -/
  | wait (queue : Nat)
  /-- WAIT_SATISFIED (R358): A held WAIT finds its condition true and the queue continues. -/
  | waitSatisfied (queue : Nat)
  /-- SIGNAL (R358): Writes or adds a value at dom scope, optionally after earlier grids finish. -/
  | signal (queue : Nat)
  /-- CANCEL (R358): Cancels a grid, graph or job named by a packet. -/
  | cancel (queue : Nat)
  /-- BIND (R441): Binds the queue to a root, address space, tenancy and job. -/
  | bind (queue : Nat)
  /-- TICKALIGN (R358): Holds the queue until the N-th tick boundary after it began. -/
  | tickalign (queue : Nat)
  /-- CLOSE (R360): Closes a graph or a job. -/
  | close (queue : Nat)
  /-- TICK_BOUNDARY (R364): A tick boundary falls, advancing %tick and releasing TICK grids and TICKALIGN packets. -/
  | tickBoundary
  /-- DISPATCH_TAKE_GRID (R363): The ready dispatcher takes the lowest-rank released grid from Millrace. -/
  | dispatchTakeGrid
  /-- BLOCK_PLACE (R366): The dispatcher places a block, saved or new, on a fitting core of its core set. -/
  | blockPlace
  /-- BACKFILL (R367): After 4,096 clocks with no head block placed, blocks of later grids may be placed. -/
  | backfill (behind : Nat)
  /-- WEIR_RUN (R399): Weir chooses drain, flush or save for victims and reserves cores for a bounded grid. -/
  | weirRun
  /-- SAVE_IMAGE_WRITE (R413): Once outstanding replies have returned, the image is written to the Granary and resources freed. -/
  | saveImageWrite (blk : Nat)
  /-- RESUME_ISSUE (R416): The reissued commands whose flags were busy complete and the resumed waves begin to issue. -/
  | resumeIssue (blk : Nat)
  /-- PORT_REFILL (R446): At each 1,024-clock window the port refills buckets, quotas and extra allowances. -/
  | portRefill
  /-- PORT_SEND (R445): A waiting request leaves the core port and takes its tokens. -/
  | portSend (core : Nat) (ecc : Ecc)
  /-- REED_DEMOTE (R175): Reed demotes a cold frame to tier-2 memory to free sectors. -/
  | reedDemote (stack frame leaf : Nat)
  /-- HELD_WRITE_COMMIT (R174): A held write gets its sectors and is committed. -/
  | heldWriteCommit (line : Nat)
  /-- PAGE_MOVE_COMPLETE (R176): A page copy ends; the leaf is rewritten, held writes are performed, translations invalidated and the source freed. -/
  | pageMoveComplete (frame : Nat)
  /-- MOVE_START (R181): A write of START to MOVE_CTL begins a page move. -/
  | moveStart (value : DWord)
  /-- L2_FLUSH_START (R182): A write of START to L2_FLUSH_CTL begins a writeback of a range of lines. -/
  | l2FlushStart (value : DWord)
  /-- L2_FLUSH_DONE (R182): Every writeback of the range has been committed and BUSY clears. -/
  | l2FlushDone
  /-- T2_FREE_PUSH (R183): Pushes a frame address onto the tier-2 free list. -/
  | t2FreePush (value : DWord)
  /-- T2_FREE_COUNT_WRITE (R183): Sets the tier-2 free-list count unless Reed is active. -/
  | t2FreeCountWrite (value : DWord)
  /-- POOL_THRESHOLD_WRITE (R180): Writes POOL_LOW or POOL_HIGH, refused if the order would break. -/
  | poolThresholdWrite (high : Bool) (stack : Nat) (value : DWord)
  /-- FAULT_ACK_RETRY (R484): Answers a fault RETRY, replaying its held accesses. -/
  | faultAckRetry (fault : Nat)
  /-- FAULT_ACK_FATAL (R485): Answers a fault FATAL, ending the job or aborting the block. -/
  | faultAckFatal (fault : Nat)
  /-- FAULTQ_BASE_WRITE (R482): Sets the fault queue ring and resets its indices. -/
  | faultqBaseWrite (value : DWord)
  /-- FAULTQ_SIZE_WRITE (R482): Sets the fault queue size and releases held fault entries. -/
  | faultqSizeWrite (value : DWord)
  /-- SHF_CFG_WRITE (R385): Configures a Sheaf group; EN = 1 resets it to ARMED. -/
  | shfCfgWrite (group : Nat) (value : DWord)
  /-- TEN_CFG_WRITE (R439): Configures a tenancy, refusing quota overruns and disabling a busy tenancy. -/
  | tenCfgWrite (tenancy : Nat) (value : DWord)
  /-- COLL_CFG_WRITE (R222): Defines a collective group, refusing an inconsistent enable. -/
  | collCfgWrite (group : Nat) (map : Option Nat) (value : DWord)
  /-- GRANARY_CHUNKS_WRITE (R411): Sets the Granary size and rebuilds its free list. -/
  | granaryChunksWrite (value : DWord)
  /-- MODULE_NUM_WRITE (R145): Sets the module number, refused while a fabric session is open. -/
  | moduleNumWrite (value : DWord)
  /-- QDESC_BASE_WRITE (R505): Sets the queue descriptor table address, refused while a queue is mapped. -/
  | qdescBaseWrite (value : DWord)
  /-- FAB_ROUTE_WRITE (R510): Sets a fabric path, refused while packets are in flight on it. -/
  | fabRouteWrite (module path : Nat) (value : DWord)
  /-- POWER_LIMIT_WRITE (R16): Sets the package power limit within 2,000 to 8,000 W. -/
  | powerLimitWrite (value : DWord)
  /-- TICK_PERIOD_WRITE (R364): Sets the tick period, effective after the next boundary. -/
  | tickPeriodWrite (value : DWord)
  /-- DUMP_RELEASE (R500): Writing 1 to DUMP releases the held fatal dump. -/
  | dumpRelease
  /-- REGISTER_WRITE (R512): Writes a device register that has no behaviour of its own. -/
  | registerWrite (offset : Nat) (value : DWord)
  /-- POWER_SAMPLE (R16): The governor samples the rails every 10 µs and starts or ends pacing. -/
  | powerSample (watts : Nat)
  /-- POWER_OVERLIMIT_FAULT (R16): Power stays above the limit for 10 ms with every die paced, a rail fault. -/
  | powerOverlimitFault
  /-- TEMPERATURE_SAMPLE (R17): A die temperature crosses a threshold, moving THERM_ALERT or raising a fatal error. -/
  | temperatureSample (hottest : Nat)
  /-- RAIL_OUT_OF_WINDOW (R17): A rail stays outside its window for more than 1 ms, a fatal error. -/
  | railOutOfWindow (rail : Nat)
  /-- RESET_ASSERT (R21): RESET_N low holds the module in reset. -/
  | resetAssert
  /-- RESET_RELEASE (R21): RESET_N rises and the module verifies its images, initialises memory and brings up its ports. -/
  | resetRelease (cfg : SignedConfig) (presented : Nat)
  /-- FATAL_ERROR (R501): Stops every core, saves resident blocks into a signed dump and resets. -/
  | fatalError (reason arg : Nat)
  /-- SCRUB_READ (R494): A device-made read meets an uncorrectable error and writes back a zero line. -/
  | scrubRead (read : LineRead)
  /-- UNIT_FENCE (R499): A unit reaching its error threshold is fenced and REPLACE_REQUESTED set. -/
  | unitFence (unit : FenceUnit) (number : Nat)
  /-- FABRIC_SEQUENCE (R508): A flit sequence is received, checked, acknowledged or NAKed, and credits taken. -/
  | fabricSequence (port : Nat) (bytes : List Byte)
  /-- PORT_RETRAIN (R497): After 16 failed retries a port retrains and may drop a lane or be fenced. -/
  | portRetrain (port lanes : Nat)
  /-- FABRIC_READ (R509): A READ packet is performed at its home and answered by REPLY. -/
  | fabricRead (p : FabPacket) (ecc : Ecc)
  /-- FABRIC_WRITE (R509): A WRITE packet is performed at its home. -/
  | fabricWrite (p : FabPacket) (ecc : Ecc)
  /-- FABRIC_ATOMIC (R509): An ATOMIC packet is performed at its home and answered unless NORET. -/
  | fabricAtomic (p : FabPacket) (ecc : Ecc)
  /-- FABRIC_REPLY (R509): A REPLY completes the request with its TAG, or ends the job or marks data lost. -/
  | fabricReply (p : FabPacket)
  /-- MARKER (R249): A flush marker is acknowledged once writes ahead of it have performed. -/
  | marker (p : FabPacket)
  /-- MARKER_ACK (R249): A marker acknowledgement counts toward a waiting dom close. -/
  | markerAck (p : FabPacket)
  /-- FABRIC_SESSION (R511): A SESSION packet carries a fragment of a fabric session message. -/
  | fabricSession (port : Nat) (p : FabPacket)
  /-- FABRIC_COLL (R509): A COLL packet carries a partial or final collective result. -/
  | fabricColl (p : FabPacket)
  /-- HELLO (R456): A peer opens a session and the Z8 answers with OFFER. -/
  | hello (port : Option Nat) (m : HelloMsg)
  /-- KEY (R457): The peer sends its encrypted secret; the Z8 checks it and derives session keys. -/
  | key (port : Option Nat) (m : KeyMsg)
  /-- REKEY (R457): The peer asks for new session keys. -/
  | rekey (f : FrameHead) (nonce cipher : List Byte)
  /-- SESSION_CLOSE (R456): Ends a session. -/
  | sessionClose (f : FrameHead)
  /-- ATTEST (R451): Returns a signed attestation report for a nonce. -/
  | attest (f : FrameHead) (id : Nat) (nonce : List Byte)
  /-- MAP_QUEUE (R353): Maps a queue to a free queue thread. -/
  | mapQueue (f : FrameHead) (id queue : Nat)
  /-- UNMAP_QUEUE (R353): Stops a queue at its next packet boundary and frees its thread. -/
  | unmapQueue (f : FrameHead) (id queue : Nat)
  /-- LOAD (R463): Checks and loads a code object, binding emulation routines. -/
  | load (f : FrameHead) (id asn va size : Nat)
  /-- UNLOAD (R464): Unloads a code object once no grid uses it. -/
  | unload (f : FrameHead) (id asn va : Nat)
  /-- REGISTER_EMULATION (R464): Registers an emulation routine for a feature bit in an address space. -/
  | registerEmulation (f : FrameHead) (id asn bit va offset vregs sregs : Nat)
  /-- HANDOVER (R452): Writes and verifies incoming firmware for a live hand-over; the slot's eight bytes are the two words. -/
  | handover (f : FrameHead) (id : Nat) (slot rest : Word)
  /-- HANDOVER_COMMIT (R452): Once packets in progress complete, the incoming firmware takes over. -/
  | handoverCommit
  /-- FLASH_WRITE (R458): Writes data into a flash slot. -/
  | flashWrite (f : FrameHead) (id slot offset : Nat) (data : List Byte)
  /-- REG_READ (R458): Reads a device register for the host. -/
  | regRead (f : FrameHead) (id offset : Nat)
  /-- REG_WRITE (R458): Writes a device register for the host. -/
  | regWrite (f : FrameHead) (id offset : Nat) (value : DWord)
  /-- MEM_WRITE (R458): Writes physical memory at dom scope for the host. -/
  | memWrite (f : FrameHead) (id address : Nat) (data : List Byte)
  /-- MEM_READ (R458): Reads physical memory at the homes for the host. -/
  | memRead (f : FrameHead) (id address length : Nat)
  /-- RAIL_REGULATION_CHANGE (R18): A rail enters or leaves its regulation window, and PWR_GOOD follows at once. -/
  | railRegulationChange (rail : Nat) (inWindow : Bool)
  /-- FAULTQ_RIDX_WRITE (R482): System software advances FAULTQ_RIDX, freeing ring space so that held faults are written as entries. -/
  | faultqRidxWrite (value : DWord)
  /-- PFC_PAUSE_FRAME (R19): A priority-flow-control pause frame arrives at the host port and is honoured for the session priority or ignored. -/
  | pfcPauseFrame (priorities : BitVec 8) (quanta : Nat)
  /-- SERVICE_NOT_OFFERED (R458): A service frame names a service that the negotiated version does not offer and is answered with STATUS 0xFFFF_FFFF. -/
  | serviceNotOffered (f : FrameHead) (id service : Nat)
  /-- MONITOR_SPURIOUS_END (R384): A monitor wait ends for no recorded cause, with reason 0. -/
  | monitorSpuriousEnd (blk wave : Nat)
  deriving DecidableEq, Repr

end Sys2Proof
end

