-- ==== Sys2Proof/WellFormed.lean ====
section
/-! DEFINITION. WellFormed.lean: which field values each instruction accepts (Tables 5-1, 5-4, 5-5, 5-9, 7-1, 7-2, 7-5,
11-1, 12-1, 15-1, 15-2, 15-6, 21-7; R51, R71, R107). A word whose fields fail the check is no instruction: it raises
ILLEGAL_ENCODING (row 4 of Table 4-10). -/

namespace Sys2Proof

/-- What a register field names (Table 5-0). `vT` and `sT` are pairs at a 64-bit type and single registers otherwise. -/
inductive Opd where
  | zero | v | v2 | s | s2 | p | vT | sT
  | n (max : Nat)
  deriving DecidableEq, Repr

/-- Whether a field value is one the code accepts (R51, R71). -/
def Opd.ok (wide : Bool) (x : BitVec 8) : Opd → Bool
  | .zero => x == 0
  | .v => true
  | .v2 => x.toNat % 2 == 0
  | .s => x.toNat < 64
  | .s2 => x.toNat < 64 && x.toNat % 2 == 0
  | .p => x.toNat < 16
  | .vT => !wide || x.toNat % 2 == 0
  | .sT => x.toNat < 64 && (!wide || x.toNat % 2 == 0)
  | .n max => x.toNat ≤ max

/-- One row of an A3 operand table. `bV`, `bS`: the kind a vector or scalar B names, `none` where the row does not
allow it; `bI`: an immediate is allowed; with all three absent the B field is the table's "—". -/
structure A3Row where
  d : Opd
  a : Opd
  c : Opd
  bV : Option Opd
  bS : Option Opd
  bI : Bool
  tys : List Nat
  rm : Bool
  sat : Bool
  pp : Bool
  deriving DecidableEq, Repr

/-- Whether a pattern and its amount are allowed (Table 3-8). -/
def Pat.ok (pp : Bool) (amount : BitVec 5) : Pat → Bool
  | .none => amount == 0
  | .mirror => pp && amount.toNat ≤ 5
  | _ => pp

def SrcB.ok (row : A3Row) (wide : Bool) : SrcB → Bool
  | .vec r pat k =>
    match row.bV with
    | some o => o.ok wide r && pat.ok row.pp k
    | none => row.bS.isNone && !row.bI && r == 0 && pat == .none && k == 0
  | .scal r => match row.bS with
    | some o => o.ok wide r
    | none => false
  | .imm _ => row.bI

/-- The check of one A3 word against its row; `wide` says the type is a 64-bit one. -/
def a3Ok (row : A3Row) (wide : Bool) (f : A3) : Bool :=
  row.tys.contains f.ty.toNat && row.d.ok wide f.d && row.a.ok wide f.a && row.c.ok wide f.c &&
  f.b.ok row wide && (row.rm || f.rm == .rne) && (row.sat || !f.sat)

/-- A 64-bit integer type (i64, n64; Table 3-7). -/
def wideTy (ty : BitVec 3) : Bool := ty.toNat == 2 || ty.toNat == 3

/-- The check for the integer classes, whose type decides pairs. -/
def intOk (row : A3Row) (f : A3) : Bool := a3Ok row (wideTy f.ty) f

/-- The check for the floating-point class, which has no pairs by type. -/
def fltOk (row : A3Row) (f : A3) : Bool := a3Ok row false f

def allTys : List Nat := [0, 1, 2, 3, 4, 5, 6, 7]

/-- The common integer row: D, A and B by type, no C. -/
def rowInt (tys : List Nat) (sat : Bool) : A3Row :=
  { d := .vT, a := .vT, c := .zero, bV := some .vT, bS := some .sT, bI := true, tys := tys, rm := false, sat := sat, pp := true }
/-- B is one 32-bit register or an immediate ("single", "32-bit"). -/
def A3Row.single (r : A3Row) : A3Row := { r with bV := some .v, bS := some .s }
def A3Row.noB (r : A3Row) : A3Row := { r with bV := none, bS := none, bI := false, pp := false }
def A3Row.noImm (r : A3Row) : A3Row := { r with bI := false }
/-- The scalar form of a row: no vector B, no pattern. -/
def rowScal (tys : List Nat) (sat : Bool) : A3Row :=
  { d := .sT, a := .sT, c := .zero, bV := none, bS := some .sT, bI := true, tys := tys, rm := false, sat := sat, pp := false }
def rowPred : A3Row :=
  { d := .p, a := .p, c := .n 3, bV := some .p, bS := none, bI := false, tys := [0], rm := false, sat := false, pp := false }
/-- The common floating-point row. -/
def rowFlt (tys : List Nat) (rm : Bool) : A3Row :=
  { d := .v, a := .v, c := .zero, bV := some .v, bS := some .s, bI := true, tys := tys, rm := rm, sat := false, pp := true }

/-- `ltab` and `sltab` (R129, R140): the kinds of D, A, B and C. -/
def tabOk (vector : Bool) (f : Tab3) : Bool :=
  let w := wideTy f.ty
  let k : Opd := if vector then .vT else .sT
  (f.ty.toNat == 0 || f.ty.toNat == 2) && k.ok w f.d && k.ok w f.a && k.ok w f.c &&
  (if f.scalB then Opd.sT.ok w f.b else vector && Opd.vT.ok w f.b)

/-- `movi` and `smovi` (Table 5-5). -/
def moviOk (single pair : Opd) (f : AI) : Bool :=
  if f.a == 0 then single.ok false f.d && !f.k
  else f.a == 1 && pair.ok false f.d

/-- An indirect target: the kind in OFFP and the pair in A (Table 5-1). -/
def targetOk (f : CFmt) : Bool :=
  (f.offp == 0 && Opd.v2.ok false f.a) || (f.offp == 1 && Opd.s2.ok false f.a)

/-! ### Format M (Table 7-1) -/

/-- A data or base register of a format M word: vector when AK = 0, scalar when AK = 1, the first of `n` (R51, R79). -/
def mReg (ak : Bool) (n : Nat) (r : BitVec 8) : Bool := r.toNat % n == 0 && (!ak || r.toNat < 64)

/-- The width in bytes that WD names (Table 3-11). -/
def wdBytes (wd : BitVec 3) : Nat := 2 ^ (wd.toNat)

/-- How many registers a width occupies (R79). -/
def wdRegs (wd : BitVec 3) : Nat := if wd.toNat ≤ 2 then 1 else if wd.toNat = 3 then 2 else 4

/-- HT values of a store, `prefetch` and the copies: not the stable hint. -/
def htNotStable (ht : BitVec 3) : Bool := ht == 0 || (2 ≤ ht.toNat && ht.toNat ≤ 4)

/-- Every field a phase or fence word leaves unused is zero. -/
def mPlain (f : MFmt) : Bool := f.d == 0 && f.a == 0 && f.b == 0 && !f.ak && f.wd == 0 && f.ht == 0

/-- SX is bit 0 of the B field and zero from 4 bytes on (R191). -/
def sxOk (f : MFmt) : Bool := f.b == 0 || (f.b == 1 && f.wd.toNat < 2)

def ldOk (f : MFmt) : Bool :=
  f.sc == 1 && f.wd.toNat ≤ 4 && f.ht.toNat ≤ 4 && mReg f.ak (wdRegs f.wd) f.d && mReg f.ak 2 f.a && sxOk f
def ldBlkOk (f : MFmt) : Bool :=
  f.ak && f.sc == 1 && f.wd == 5 && f.ht.toNat ≤ 4 && f.d.toNat % 2 == 0 && mReg true 2 f.a && mReg true 2 f.b &&
  (f.off >>> 13).toNat ≤ 4
def stOk (f : MFmt) : Bool :=
  f.d == 0 && f.sc == 1 && f.wd.toNat ≤ 4 && htNotStable f.ht && mReg f.ak (wdRegs f.wd) f.b && mReg f.ak 2 f.a
def stBlkOk (f : MFmt) : Bool :=
  f.d == 0 && f.ak && f.sc == 1 && f.wd == 5 && htNotStable f.ht && f.b.toNat % 2 == 0 && mReg true 4 f.a &&
  (f.off >>> 13).toNat ≤ 4
def ldsOk (f : MFmt) : Bool :=
  f.sc == 0 && f.wd.toNat ≤ 4 && f.ht == 0 && mReg f.ak (wdRegs f.wd) f.d && mReg f.ak 1 f.a && sxOk f
def stsOk (f : MFmt) : Bool :=
  f.d == 0 && f.sc == 0 && f.wd.toNat ≤ 4 && f.ht == 0 && mReg f.ak (wdRegs f.wd) f.b && mReg f.ak 1 f.a

/-- The operand rules every atomic shares: width 4 or 8, `cas` takes twice the registers (R195), `fadd` is f32 only and
U is for min and max only (Table 7-3, R186). `op` is the operation code. -/
def atomOperandOk (op : Nat) (f : MFmt) : Bool :=
  (f.wd == 2 || f.wd == 3) && mReg f.ak (if op = 7 then 2 * wdRegs f.wd else wdRegs f.wd) f.b &&
  (op != 8 || f.wd == 2) && (f.ht.toNat < 4 || op == 1 || op == 2)
def atomOk (op : Nat) (f : MFmt) : Bool :=
  (f.sc == 1 || f.sc == 2) && atomOperandOk op f && mReg f.ak (wdRegs f.wd) f.d && mReg f.ak 2 f.a
def redOk (f : MFmt) : Bool :=
  (f.sc == 1 || f.sc == 2) && (f.d.toNat ≤ 5 || f.d.toNat == 8) && atomOperandOk f.d.toNat f && mReg f.ak 2 f.a &&
  (f.ht.toNat % 4 == 0 || f.ht.toNat % 4 == 2)
def satomOk (f : MFmt) : Bool :=
  let op := (f.off >>> 12).toNat
  f.sc == 0 && op ≤ 8 && atomOperandOk op f && mReg f.ak (wdRegs f.wd) f.d && mReg f.ak 1 f.a
def phaseOk (f : MFmt) : Bool := mPlain f && f.sc.toNat ≤ 2 && f.off == 0
def fenceOk (f : MFmt) : Bool := mPlain f && f.sc == 0 && f.off.toNat < 32 && f.off.toNat % 16 != 0
def cinvOk (f : MFmt) : Bool := f.d == 0 && f.b == 0 && f.sc == 1 && f.wd == 0 && f.ht == 0 && mReg f.ak 2 f.a
def cinvAllOk (f : MFmt) : Bool :=
  f.d == 0 && f.b == 1 && f.a == 0 && !f.ak && f.off == 0 && f.sc == 1 && f.wd == 0 && f.ht == 0
def prefetchOk (f : MFmt) : Bool :=
  f.d == 0 && f.b.toNat ≤ 1 && f.sc == 1 && f.wd == 0 && htNotStable f.ht && mReg f.ak 2 f.a
def mprobeOk (f : MFmt) : Bool := f.b == 0 && f.sc == 1 && f.wd == 0 && f.ht == 0 && mReg f.ak 1 f.d && mReg f.ak 2 f.a
def iclLockOk (f : MFmt) : Bool :=
  f.ak && f.sc == 0 && f.wd == 0 && f.ht == 0 && mReg true 1 f.d && mReg true 2 f.a && mReg true 1 f.b
def iclFreeOk (f : MFmt) : Bool := f.d == 0 && iclLockOk f
def iclCountOk (f : MFmt) : Bool :=
  !f.ak && f.sc == 0 && f.wd == 0 && f.ht == 0 && f.d.toNat < 64 && f.a == 0 && f.b == 0 && f.off == 0
def monArmOk (f : MFmt) : Bool :=
  f.ak && f.d == 0 && f.b == 0 && (f.sc == 1 || f.sc == 2) && f.wd == 0 && f.ht == 0 && mReg true 2 f.a
def monWaitOk (f : MFmt) : Bool :=
  f.ak && f.a == 0 && f.off == 0 && f.sc == 0 && f.wd == 0 && f.ht == 0 && mReg true 1 f.d && mReg true 1 f.b

/-! ### Format E (Tables 7-5, 12-1, 15-6) -/

def isTile (x : BitVec 8) : Bool := x.toNat < 64
def isAcc (x : BitVec 8) : Bool := x.toNat < 4
def isS (x : BitVec 8) : Bool := Opd.s.ok false x
def isS2 (x : BitVec 8) : Bool := Opd.s2.ok false x
/-- The engine field as a number. -/
def EFmt.n (f : EFmt) : Nat := f.eng.toNat
/-- Bits [hi:lo] of the engine field. -/
def EFmt.bits (f : EFmt) (hi lo : Nat) : Nat := (f.n / 2 ^ lo) % 2 ^ (hi + 1 - lo)

def tileDefOk (f : EFmt) : Bool :=
  isTile f.x && isS f.a && isS f.b && isS f.c && f.bits 16 14 ≤ 3 && f.bits 5 0 == 0
def tileOnlyOk (f : EFmt) : Bool := isTile f.x && f.a == 0 && f.b == 0 && f.c == 0
/-- `cp.ld`, `cp.st`: C is "—"; the hint is not stable and not reserved. -/
def copyOk (indexed : Bool) (f : EFmt) : Bool :=
  isTile f.x && isS2 f.a && isS2 f.b && (if indexed then isS f.c else f.c == 0) &&
  htNotStable (BitVec.ofNat 3 (f.bits 14 12)) && f.bits 11 0 == 0
def cpHintOk (f : EFmt) : Bool := f.x == 0 && isS2 f.a && isS f.b && f.c == 0 && f.bits 14 0 == 0
def cpSetOk (f : EFmt) : Bool := f.x == 0 && isS2 f.a && f.b == 0 && f.c == 0 && f.n ≤ 1
def collArOk (f : EFmt) : Bool :=
  f.x == 0 && isS2 f.a && isS f.b && isS f.c && f.bits 14 13 ≤ 2 && f.bits 12 10 ≤ 4 && f.bits 9 0 == 0
def collBcOk (f : EFmt) : Bool := f.x == 0 && isS2 f.a && isS f.b && isS f.c && f.bits 14 0 == 0
def collWaitOk (f : EFmt) : Bool := isS f.x && f.a == 0 && f.b == 0 && f.c == 0 && f.bits 14 0 == 0
def convDeclOk (f : EFmt) : Bool := f.x.toNat < 8 && isS f.a && f.b == 0 && f.c == 0 && f.n == 0
/-- KC and VAR even when a block holds 128 elements (R313). -/
def kcOk (f : EFmt) : Bool :=
  !(f.bits 16 15 == 3 || f.bits 14 13 == 3) || (f.bits 12 9 % 2 == 0 && f.bits 5 0 % 2 == 0)
def mmaOk (f : EFmt) : Bool := isAcc f.x && isTile f.a && isTile f.b && kcOk f
def mmaGOk (f : EFmt) : Bool := isAcc f.x && isTile f.a && f.b.toNat < 64 && f.b.toNat % 4 == 0 && kcOk f
def accOnlyOk (f : EFmt) : Bool := isAcc f.x && f.a == 0 && f.b == 0 && f.c == 0
def accTileOk (f : EFmt) : Bool := isAcc f.x && isTile f.a && f.b == 0 && f.c == 0 && f.n ≤ 2
def accStqOk (f : EFmt) : Bool := isAcc f.x && isTile f.a && isS f.b && f.c == 0 && f.n == 0
def accFlgOk (f : EFmt) : Bool := isAcc f.x && isS f.a && f.b == 0 && f.c == 0 && f.n == 0
def shfPutOk (f : EFmt) : Bool := f.a.toNat % 2 == 0 && f.c == 0 && f.n < 64
def shfTakeOk (f : EFmt) : Bool := f.x.toNat % 2 == 0 && isS f.a && f.b == 0 && isS f.c && f.n < 64
def shfNoneOk (f : EFmt) : Bool := f.x == 0 && f.a == 0 && f.b == 0 && f.c == 0

/-! ### Formats C, Y -/

def cZero (f : CFmt) : Bool := f.d == 0 && f.a == 0 && f.offp == 0
def yZero (f : YFmt) (n : Nat) : Bool := f.d == 0 && f.a == 0 && f.sysno.toNat == n
/-- `trap` and `brk` (R481). -/
def trapOk (f : YFmt) : Bool :=
  f.d == 0 && f.sysno.toNat < 512 && (if f.sysno.toNat < 256 then f.a == 0 else isS2 f.a)

/-- The width of a system register, or none for a number not in Table 21-7. -/
def sysWidth (n : Nat) : Option Nat :=
  if n = 0 then some 32 else if n = 1 then some 64 else if n = 2 then some 64 else if n = 3 then some 32
  else if n = 4 then some 32 else if 0x10 ≤ n ∧ n ≤ 0x1F then some 32 else if 0x20 ≤ n ∧ n ≤ 0x2F then some 64
  else if 0x30 ≤ n ∧ n ≤ 0x32 then some 32 else none

/-- The registers `sys.wr` may name: RW and SRW of Table 21-7. -/
def sysWritable (n : Nat) : Bool := n = 1 ∨ n = 2 ∨ (0x20 ≤ n ∧ n ≤ 0x2F) ∨ n = 0x32

/-- The SRW registers of Table 21-7, written in service privilege only. -/
def sysService (n : Nat) : Bool := (0x20 ≤ n ∧ n ≤ 0x2F) ∨ n = 0x32

def sysKindOk (n : Nat) (r : BitVec 8) : Bool :=
  match sysWidth n with
  | some 64 => isS2 r
  | some _ => isS r
  | none => false

/-- `spec` (R143). -/
def specOk (f : YFmt) : Bool :=
  let n := f.sysno.toNat
  n ≤ 0x11 &&
  (if f.a == 0 then n != 0x11 || f.d.toNat % 2 == 0
   else f.a == 1 && 3 < n && f.d.toNat < 64 && (n != 0x11 || f.d.toNat % 2 == 0))

/-- `tick.rd` and `clk` (Table 15-1): `n` registers, vector when A = 0, scalar when A = 1. -/
def timeOk (n : Nat) (f : YFmt) : Bool :=
  f.sysno == 0 && (f.a == 0 || (f.a == 1 && f.d.toNat < 64)) && f.d.toNat % n == 0

/-! ### The float rows with an "n" field that reserves bits -/

/-- The length field of `qblk` and `dqblk` (R280, R307). -/
def blkLenOk (f : A3) : Bool :=
  let len := f.c.toNat / 32
  f.c.toNat < 128 && len ≤ 2 && (f.ty.toNat != 0 || len ≤ 1)

/-- The source type of a conversion from integers, in C (R280). -/
def cvtSrcWide (f : A3) : Bool := f.c.toNat == 2 || f.c.toNat == 3

/-- Which field values an instruction accepts; an event's operands are in the range of the units it names. -/
def Instr.wf : Instr → Bool
  | .nop _ => true
  | .br _ f => f.d == 0 && f.a == 0
  | .brx _ f => f.d == 0 && targetOk f
  | .call _ f => f.d.toNat % 2 == 0 && f.a == 0
  | .callx _ f => f.d.toNat % 2 == 0 && targetOk f
  | .ret _ f => f.d == 0 && targetOk f
  | .exit _ f => cZero f
  | .rcv _ f => cZero f
  | .loop _ f => f.d == 0 && isS f.a
  | .brany _ f => f.d == 0 && Opd.p.ok false f.a
  | .brall _ f => f.d == 0 && Opd.p.ok false f.a
  | .yield _ f => cZero f
  | .sleep _ f => f.d == 0 && f.a == 0 && f.offp.toNat < 1048576
  | .trap _ f => trapOk f
  | .brk _ f => trapOk f
  | .rte _ f => yZero f 0
  | .rteNext _ f => yZero f 1
  | .sysRd _ f => f.a == 0 && sysKindOk f.sysno.toNat f.d
  | .sysWr _ f => f.d == 0 && sysKindOk f.sysno.toNat f.a && sysWritable f.sysno.toNat
  | .tlbInvPage _ f => isS f.d && isS2 f.a && f.sysno == 0
  | .tlbInvLarge _ f => isS f.d && isS2 f.a && f.sysno == 1
  | .tlbInvAsn _ f => isS f.d && f.a == 0 && f.sysno == 2
  | .tlbInvAll _ f => yZero f 3
  | .errRdCounter _ f => isS2 f.d && isS f.a && f.sysno == 0
  | .errRdLog _ f => isS2 f.d && isS f.a && f.sysno == 1
  | .errRdRetire _ f => isS2 f.d && isS f.a && f.sysno == 2
  | .iclLock _ f => iclLockOk f
  | .iclFree _ f => iclFreeOk f
  | .iclCount _ f => iclCountOk f
  | .halt _ f => f.d == 0 && f.a == 0
  | .wvote w => (w >>> 56).toNat == 0x18
  | .iadd _ f => intOk (rowInt allTys true) f
  | .isub _ f => intOk (rowInt allTys true) f
  | .iadd64 _ f => intOk { (rowInt [0, 1] false).single with d := .v2, a := .v2 } f
  | .imul _ f => intOk (rowInt allTys true) f
  | .imulh _ f => intOk (rowInt [0, 1] false) f
  | .imad _ f => intOk { rowInt allTys true with c := .vT } f
  | .imadw _ f => intOk { rowInt [0, 1] true with d := .v2, c := .v2 } f
  | .iaddc _ f => intOk { rowInt [1] false with c := .p } f
  | .isubb _ f => intOk { rowInt [1] false with c := .p } f
  | .idiv _ f => intOk (rowInt [0, 1, 2, 3] true) f
  | .irem _ f => intOk (rowInt [0, 1, 2, 3] false) f
  | .imin _ f => intOk (rowInt allTys false) f
  | .imax _ f => intOk (rowInt allTys false) f
  | .iabs _ f => intOk (rowInt [0, 2, 4, 6] true).noB f
  | .isad _ f => intOk { rowInt [0, 1, 4, 5, 6, 7] true with c := .v } f
  | .idot4 _ f => intOk { rowInt [6, 7] true with c := .v } f
  | .and _ f => intOk (rowInt [0, 2] false) f
  | .or _ f => intOk (rowInt [0, 2] false) f
  | .xor _ f => intOk (rowInt [0, 2] false) f
  | .andn _ f => intOk (rowInt [0, 2] false) f
  | .ltab _ f => tabOk true f
  | .shl _ f => intOk (rowInt [0, 2] false).single f
  | .shr _ f => intOk (rowInt [0, 2] false).single f
  | .sar _ f => intOk (rowInt [0, 2] false).single f
  | .rot _ f => intOk (rowInt [0, 2] false).single f
  | .bfe _ f => intOk (rowInt [0, 1] false) f
  | .bfi _ f => intOk { (rowInt [0] false).noImm with c := .v } f
  | .popc _ f => intOk { (rowInt [0, 2] false).noB with d := .v } f
  | .clz _ f => intOk { (rowInt [0, 2] false).noB with d := .v } f
  | .brev _ f => intOk (rowInt [0, 2] false).noB f
  | .lea _ f => intOk { (rowInt [0, 1] false).single with d := .v2, a := .v2, c := .n 63 } f
  | .movi _ f => moviOk .v .v2 f
  | .icmp _ f => intOk { rowInt [0, 1, 2, 3] false with d := .p, c := .n 5 } f
  | .fcmp _ f => fltOk { (rowFlt [0, 1, 2] false).noImm with d := .p, c := .n 7 } f
  | .pand _ f => intOk rowPred f
  | .por _ f => intOk rowPred f
  | .pxor _ f => intOk rowPred f
  | .pmov _ f => intOk { rowPred.noB with c := .n 1 } f
  | .sel _ f => intOk { rowInt [0, 2] false with c := .p } f
  | .ballot _ f => intOk { rowPred.noB with d := .s, c := .zero } f
  | .vany _ f => intOk { rowPred.noB with c := .zero } f
  | .vall _ f => intOk { rowPred.noB with c := .zero } f
  | .vmatch _ f => intOk { (rowInt [0, 2] false).noB with d := .v } f
  | .lanes _ f => intOk { rowPred.noB with d := .s, a := .zero, c := .zero } f
  | .mov _ f => intOk { rowInt [0, 2] false with a := .zero } f
  | .movs _ f => intOk { (rowInt [0, 2] false).noB with d := .sT, c := .n 31 } f
  | .smov _ f => intOk { rowScal [0, 2] false with a := .zero } f
  | .sltab _ f => tabOk false f
  | .sadd _ f => intOk (rowScal [0, 1, 2, 3] true) f
  | .ssub _ f => intOk (rowScal [0, 1, 2, 3] true) f
  | .smul _ f => intOk (rowScal [0, 1, 2, 3] true) f
  | .sand _ f => intOk (rowScal [0, 2] false) f
  | .sor _ f => intOk (rowScal [0, 2] false) f
  | .sxor _ f => intOk (rowScal [0, 2] false) f
  | .sshl _ f => intOk { rowScal [0, 2] false with bS := some .s } f
  | .sshr _ f => intOk { rowScal [0, 1, 2, 3] false with bS := some .s } f
  | .scmp _ f => intOk { rowScal [0, 1, 2, 3] false with d := .p, c := .n 5 } f
  | .smovi _ f => moviOk .s .s2 f
  | .smin _ f => intOk (rowScal [0, 1, 2, 3] false) f
  | .smax _ f => intOk (rowScal [0, 1, 2, 3] false) f
  | .movri _ f => intOk (rowInt [0] false) f
  | .movwi _ f => intOk { rowInt [0] false with a := .zero, c := .v } f
  | .xperm _ f => intOk (rowInt [0, 2] false).single f
  | .spec _ f => specOk f
  | .fadd _ f => fltOk (rowFlt [0, 1, 2, 3, 4] true) f
  | .fsub _ f => fltOk (rowFlt [0, 1, 2, 3, 4] true) f
  | .fmul _ f => fltOk (rowFlt [0, 1, 2, 3, 4] true) f
  | .ffma _ f => fltOk { rowFlt [0, 1, 2, 3, 4] true with c := .v } f
  | .fmin _ f => fltOk (rowFlt [0, 1, 2, 3, 4] false) f
  | .fmax _ f => fltOk (rowFlt [0, 1, 2, 3, 4] false) f
  | .fabs _ f => fltOk (rowFlt [0, 1, 2, 3, 4] false).noB f
  | .fneg _ f => fltOk (rowFlt [0, 1, 2, 3, 4] false).noB f
  | .frcp _ f => fltOk (rowFlt [0, 1, 2] true).noB f
  | .fsqrt _ f => fltOk (rowFlt [0, 1, 2] true).noB f
  | .frsq _ f => fltOk (rowFlt [0, 1, 2] true).noB f
  | .fexp2 _ f => fltOk (rowFlt [0, 1, 2] true).noB f
  | .flog2 _ f => fltOk (rowFlt [0, 1, 2] true).noB f
  | .fsinp _ f => fltOk (rowFlt [0, 1, 2] true).noB f
  | .fcosp _ f => fltOk (rowFlt [0, 1, 2] true).noB f
  | .sfuResult _ _ _ => true
  | .fdiv _ f => fltOk (rowFlt [0, 1, 2] true) f
  | .frnd _ f => fltOk (rowFlt [0, 1, 2] true).noB f
  | .fclass _ f => fltOk (rowFlt [0, 1, 2] false).noB f
  | .fscale _ f => fltOk (rowFlt [0, 1, 2] true) f
  | .fdot2 _ f => fltOk { (rowFlt [3, 4] true).noImm with c := .v } f
  | .ftwosum _ f => fltOk { rowFlt [0] false with d := .v2 } f
  | .fcpysgn _ f => fltOk (rowFlt [0, 1, 2, 3, 4] false) f
  | .fmadFtz _ f => fltOk { rowFlt [0] false with c := .v } f
  | .cvtFf _ f => fltOk { (rowFlt [0, 1, 2] true).noB with sat := true, c := .n 2 } f
  | .cvtFi _ f => intOk { (rowFlt allTys true).noB with d := .vT, c := .n 2 } f
  | .cvtIf _ f =>
    fltOk { (rowFlt [0, 1, 2] true).noB with sat := true, c := .n 7, a := if cvtSrcWide f then .v2 else .v } f
  | .cvtIi _ f =>
    intOk { (rowInt allTys true).noB with c := .n 7, a := if cvtSrcWide f then .v2 else .v } f
  | .cvtE8 _ f => fltOk (rowFlt [0, 1, 2] false).noImm f
  | .cvtE4 _ f => fltOk (rowFlt [0, 1, 2] false).noImm f
  | .dcvtE8 _ f => fltOk (rowFlt [0, 1, 2] true).noImm f
  | .dcvtE4 _ f => fltOk (rowFlt [0, 1, 2] true).noImm f
  | .qblk _ f => fltOk { (rowFlt [0, 3, 4] false).noB with d := .v2, c := .n 127 } f && blkLenOk f
  | .dqblk _ f =>
    fltOk { (rowFlt [0, 3, 4] true).noImm with bS := none, pp := false, c := .n 127 } f && blkLenOk f && f.c.toNat % 16 == 0
  | .qhdr _ f => fltOk { (rowFlt [0] false).noB with c := .n 7 } f
  | .hchk _ f => fltOk { (rowFlt [0] false).noB with d := .p } f
  | .pack4 _ f => fltOk { rowFlt [0] false with c := .n 7 } f
  | .pack8 _ f => fltOk { rowFlt [0] false with c := .n 3 } f
  | .unpk4 _ f => fltOk { (rowFlt [0] false).noB with c := .n 7 } f
  | .unpk8 _ f => fltOk { (rowFlt [0] false).noB with c := .n 3 } f
  | .fpk2 _ f => fltOk { rowFlt [3, 4] true with sat := true } f
  | .fupk2 _ f => fltOk { (rowFlt [3, 4] false).noB with c := .n 1 } f
  | .ld _ f => ldOk f
  | .ldBlk _ f => ldBlkOk f
  | .st _ f => stOk f
  | .stBlk _ f => stBlkOk f
  | .lds _ f => ldsOk f
  | .sts _ f => stsOk f
  | .atomAdd _ f => atomOk 0 f
  | .atomMin _ f => atomOk 1 f
  | .atomMax _ f => atomOk 2 f
  | .atomAnd _ f => atomOk 3 f
  | .atomOr _ f => atomOk 4 f
  | .atomXor _ f => atomOk 5 f
  | .atomXch _ f => atomOk 6 f
  | .atomCas _ f => atomOk 7 f
  | .atomFadd _ f => atomOk 8 f
  | .red _ f => redOk f
  | .satom _ f => satomOk f
  | .phaseCl _ f => phaseOk f
  | .phaseOp _ f => phaseOk f
  | .fenceQ _ f => fenceOk f
  | .cinv _ f => cinvOk f
  | .cinvAll _ f => cinvAllOk f
  | .prefetch _ f => prefetchOk f
  | .mprobe _ f => mprobeOk f
  | .monArm _ f => monArmOk f
  | .monWait _ f => monWaitOk f
  | .tileDef _ f => tileDefOk f
  | .tileRel _ f => tileOnlyOk f && f.n == 0
  | .tileWait _ f => tileOnlyOk f && f.n ≤ 1
  | .tileQ _ f => isTile f.x && isS f.a && f.b == 0 && f.c == 0 && f.n == 0
  | .cpLd _ f => copyOk false f
  | .cpSt _ f => copyOk false f
  | .cpGth _ f => copyOk true f
  | .cpSct _ f => copyOk true f
  | .cpHint _ f => cpHintOk f
  | .cpSet _ f => cpSetOk f
  | .collAr _ f => collArOk f
  | .collBc _ f => collBcOk f
  | .collWait _ f => collWaitOk f
  | .convDecl _ f => convDeclOk f
  | .mma _ f => mmaOk f
  | .mmaG _ f => mmaGOk f
  | .mmaWait _ f => accOnlyOk f && f.n == 0
  | .accZero _ f => accOnlyOk f && f.n == 0
  | .accLd _ f => accTileOk f
  | .accSt _ f => accTileOk f
  | .accStq _ f => accStqOk f
  | .accFlg _ f => accFlgOk f
  | .accFclr _ f => accOnlyOk f && 1 ≤ f.n && f.n ≤ 7
  | .mma8 w => (w >>> 56).toNat == 0xD8
  | .bar _ f => yZero f 0
  | .barn _ f => f.d == 0 && isS f.a && f.sysno.toNat < 16
  | .bara _ f => f.d == 0 && isS f.a && f.sysno.toNat < 16
  | .barw _ f => f.d == 0 && f.a == 0 && f.sysno.toNat < 16
  | .progAdd _ f => f.d == 0 && f.a == 0 && !f.k
  | .idemEnd _ f => yZero f 0
  | .shfPut _ f => shfPutOk f
  | .shfTake _ f => shfTakeOk f
  | .shfWait _ f => shfNoneOk f && f.n < 64
  | .shfOpen _ f => shfNoneOk f && f.n < 64
  | .shfDone _ f => shfNoneOk f && f.n < 128
  | .cancelBlk _ f => yZero f 0
  | .cancelGrid _ f => yZero f 1
  | .cancelGraph _ f => yZero f 2
  | .cancelJob _ f => yZero f 3
  | .tickRd _ f => timeOk 4 f
  | .clk _ f => timeOk 2 f
  | .rcvRelease _ _ => true
  | .sleepEnd _ _ => true
  | .phaseClComplete _ _ => true
  | .monitorTrigger _ _ => true
  | .monitorTimeout _ _ => true
  | .monitorSpuriousEnd _ _ => true
  | .copyBegin core queue => core < 640 && queue < 4
  | .copyComplete core queue _ => core < 640 && queue < 4
  | .collBegin core queue => core < 640 && queue < 4
  | .collComplete core queue _ _ => core < 640 && queue < 4
  | .signingRoundComplete _ conv => conv < 8
  | .mmaKstep _ acc => acc < 4
  | .accCommandPerform _ acc => acc < 4
  | .barrierPhaseComplete _ _ => true
  | .shfPutArrive _ => true
  | .shfTakeReturn _ _ => true
  | .stillwaterQuiet group => group < 64
  | .loadResult _ _ => true
  | .writePerform _ _ => true
  | .fetchFault _ _ => true
  | .blockRetire _ => true
  | .gridComplete _ => true
  | .commandFrame _ queue _ _ => queue < 1024
  | .launch queue => queue < 1024
  | .wait queue => queue < 1024
  | .waitSatisfied queue => queue < 1024
  | .signal queue => queue < 1024
  | .cancel queue => queue < 1024
  | .bind queue => queue < 1024
  | .tickalign queue => queue < 1024
  | .close queue => queue < 1024
  | .tickBoundary => true
  | .dispatchTakeGrid => true
  | .blockPlace => true
  | .backfill behind => 1 ≤ behind && behind ≤ 3
  | .weirRun => true
  | .saveImageWrite _ => true
  | .resumeIssue _ => true
  | .portRefill => true
  | .portSend core _ => core < 640
  | .reedDemote stack _ _ => stack < 16
  | .heldWriteCommit _ => true
  | .pageMoveComplete _ => true
  | .moveStart _ => true
  | .l2FlushStart _ => true
  | .l2FlushDone => true
  | .t2FreePush _ => true
  | .t2FreeCountWrite _ => true
  | .poolThresholdWrite _ stack _ => stack < 16
  | .faultAckRetry _ => true
  | .faultAckFatal _ => true
  | .faultqBaseWrite _ => true
  | .faultqSizeWrite _ => true
  | .faultqRidxWrite _ => true
  | .shfCfgWrite group _ => group < 64
  | .tenCfgWrite tenancy _ => tenancy < 16
  | .collCfgWrite group map _ => group < 64 && (match map with | some j => j < 16 | none => true)
  | .granaryChunksWrite _ => true
  | .moduleNumWrite _ => true
  | .qdescBaseWrite _ => true
  | .fabRouteWrite module path _ => module < 128 && path < 16
  | .powerLimitWrite _ => true
  | .tickPeriodWrite _ => true
  | .dumpRelease => true
  | .registerWrite _ _ => true
  | .powerSample _ => true
  | .powerOverlimitFault => true
  | .temperatureSample _ => true
  | .railOutOfWindow rail => rail < 28
  | .resetAssert => true
  | .resetRelease _ presented => 768 ≤ presented && presented ≤ 1536
  | .fatalError _ _ => true
  | .scrubRead _ => true
  | .unitFence _ _ => true
  | .fabricSequence port bytes => port < 36 && bytes.length = 256
  | .portRetrain port n => port < 36 && n ≤ 4
  | .fabricRead p _ => p.typ == 1
  | .fabricWrite p _ => p.typ == 2
  | .fabricAtomic p _ => p.typ == 3
  | .fabricReply p => p.typ == 4
  | .marker p => p.typ == 5
  | .markerAck p => p.typ == 6
  | .fabricSession port p => port < 36 && p.typ == 7
  | .fabricColl p => p.typ == 8
  | .hello _ _ => true
  | .key _ _ => true
  | .rekey _ _ _ => true
  | .sessionClose _ => true
  | .attest _ _ _ => true
  | .mapQueue _ _ _ => true
  | .unmapQueue _ _ _ => true
  | .load _ _ _ _ _ => true
  | .unload _ _ _ _ => true
  | .registerEmulation _ _ _ _ _ _ _ _ => true
  | .handover _ _ _ _ => true
  | .handoverCommit => true
  | .flashWrite _ _ _ _ _ => true
  | .regRead _ _ _ => true
  | .regWrite _ _ _ _ => true
  | .memWrite _ _ _ _ => true
  | .memRead _ _ _ _ => true
  | .serviceNotOffered _ _ _ => true
  | .pfcPauseFrame _ _ => true
  | .railRegulationChange rail _ => rail < 28

end Sys2Proof
end

