-- ==== Sys2Proof/Decode.lean ====
section
/-! DEFINITION. Decode.lean: a 64-bit instruction word to the instruction it stands for, or none (row 1 and row 4 of Table
4-10), and the encoder from the same tables (Tables 3-5 to 3-15, 4-2 to 4-9). Packets and control words are read here
too (R54, R55). -/

namespace Sys2Proof

/-- Bits [lo + n - 1 : lo] of a word. -/
def fld (w : DWord) (lo n : Nat) : BitVec n := w.extractLsb' lo n

/-- OP (Table 3-5). -/
def opOfWord (w : DWord) : Nat := (fld w 56 8).toNat

/-! ### Enumerated fields -/

def Pat.ofCode (c : BitVec 3) : Option Pat :=
  match c.toNat with
  | 0 => some .none
  | 1 => some .rotate
  | 2 => some .broadcast
  | 3 => some .butterfly
  | 4 => some .mirror
  | 5 => some .downShift
  | _ => Option.none

def Pat.code : Pat → BitVec 3
  | .none => 0
  | .rotate => 1
  | .broadcast => 2
  | .butterfly => 3
  | .mirror => 4
  | .downShift => 5

def RM.ofCode (c : BitVec 2) : RM :=
  match c.toNat with
  | 0 => .rne
  | 1 => .rz
  | 2 => .rdn
  | _ => .rup

def RM.code : RM → BitVec 2
  | .rne => 0
  | .rz => 1
  | .rdn => 2
  | .rup => 3

/-! ### The common fields -/

/-- GE, GN, GP and CH; none when GE = 0 with GN or GP set (R70). -/
def headOf (w : DWord) : Option Head :=
  let gn := fld w 54 1 == 1
  let gp := fld w 50 4
  let ch := fld w 49 1 == 1
  if fld w 55 1 == 1 then some ⟨some ⟨gn, gp⟩, ch⟩
  else if !gn && gp == 0 then some ⟨none, ch⟩ else none

/-- GE, GN, GP, CH as seven bits. -/
def Head.pack (h : Head) : BitVec 7 :=
  match h.guard with
  | some g => (1#1 : BitVec 1) ++ BitVec.ofBool g.neg ++ g.p ++ BitVec.ofBool h.chain
  | none => (0#6 : BitVec 6) ++ BitVec.ofBool h.chain

/-- A word from its OP, common fields and format fields. -/
def wordOf (op : Nat) (h : Head) (fields : BitVec 49) : DWord :=
  BitVec.ofNat 8 op ++ h.pack ++ fields

/-! ### The formats -/

/-- B, BK, PP and PA (Table 3-6): PP and PA are zero unless BK = 00. -/
def srcBOf (w : DWord) : Option SrcB :=
  let b := fld w 25 8
  let pp := fld w 6 3
  let pa := fld w 1 5
  match (fld w 9 2).toNat with
  | 0 => (Pat.ofCode pp).map (fun p => .vec b p pa)
  | 1 => if pp == 0 && pa == 0 then some (.scal b) else none
  | 2 => if pp == 0 && pa == 0 then some (.imm b) else none
  | _ => none

def a3Of (w : DWord) : Option A3 :=
  if fld w 0 1 == 1 then none
  else (srcBOf w).map (fun b =>
    { d := fld w 41 8, a := fld w 33 8, b := b, c := fld w 17 8, ty := fld w 14 3, rm := RM.ofCode (fld w 12 2),
      sat := fld w 11 1 == 1 })

def SrcB.field : SrcB → BitVec 8
  | .vec r _ _ => r
  | .scal r => r
  | .imm v => v

/-- BK, PP, PA and the reserved bit: bits [10:0] of format A3. -/
def SrcB.low : SrcB → BitVec 11
  | .vec _ p k => (0#2 : BitVec 2) ++ p.code ++ k ++ (0#1 : BitVec 1)
  | .scal _ => (1#2 : BitVec 2) ++ (0#9 : BitVec 9)
  | .imm _ => (2#2 : BitVec 2) ++ (0#9 : BitVec 9)

def A3.pack (f : A3) : BitVec 49 :=
  f.d ++ f.a ++ f.b.field ++ f.c ++ f.ty ++ f.rm.code ++ BitVec.ofBool f.sat ++ f.b.low

/-- RM, SA and PA hold the table (R129); PP and the reserved bit are zero. -/
def tabOf (w : DWord) : Option Tab3 :=
  if fld w 0 1 == 1 || fld w 6 3 != 0 || fld w 10 1 == 1 then none
  else some { d := fld w 41 8, a := fld w 33 8, b := fld w 25 8, c := fld w 17 8, ty := fld w 14 3,
              scalB := fld w 9 1 == 1, tab := fld w 11 3 ++ fld w 1 5 }

def Tab3.pack (f : Tab3) : BitVec 49 :=
  f.d ++ f.a ++ f.b ++ f.c ++ f.ty ++ f.tab.extractLsb' 5 3 ++ (0#1 : BitVec 1) ++ BitVec.ofBool f.scalB ++ (0#3 : BitVec 3) ++
  f.tab.extractLsb' 0 5 ++ (0#1 : BitVec 1)

def aiOf (w : DWord) : Option AI :=
  some { d := fld w 41 8, a := fld w 33 8, k := fld w 32 1 == 1, imm := fld w 0 32 }

def AI.pack (f : AI) : BitVec 49 := f.d ++ f.a ++ BitVec.ofBool f.k ++ f.imm

def mOf (w : DWord) : Option MFmt :=
  some { d := fld w 41 8, a := fld w 33 8, b := fld w 25 8, ak := fld w 24 1 == 1, sc := fld w 22 2, wd := fld w 19 3,
         ht := fld w 16 3, off := fld w 0 16 }

def MFmt.pack (f : MFmt) : BitVec 49 := f.d ++ f.a ++ f.b ++ BitVec.ofBool f.ak ++ f.sc ++ f.wd ++ f.ht ++ f.off

def eOf (w : DWord) : Option EFmt :=
  some { x := fld w 41 8, a := fld w 33 8, b := fld w 25 8, c := fld w 17 8, eng := fld w 0 17 }

def EFmt.pack (f : EFmt) : BitVec 49 := f.x ++ f.a ++ f.b ++ f.c ++ f.eng

def cOf (w : DWord) : Option CFmt :=
  if fld w 32 1 == 1 then none else some { d := fld w 41 8, a := fld w 33 8, offp := fld w 0 32 }

def CFmt.pack (f : CFmt) : BitVec 49 := f.d ++ f.a ++ (0#1 : BitVec 1) ++ f.offp

def yOf (w : DWord) : Option YFmt :=
  if fld w 0 17 != 0 then none else some { d := fld w 41 8, a := fld w 33 8, sysno := fld w 17 16 }

def YFmt.pack (f : YFmt) : BitVec 49 := f.d ++ f.a ++ f.sysno ++ (0#17 : BitVec 17)

/-! ### The opcode map -/

/-- The instructions of format A3 (Tables 4-2 to 4-9), by OP. -/
def buildA3 (op : Nat) : Option (Head → A3 → Instr) :=
  match op with
  | 0x20 => some .iadd
  | 0x21 => some .isub
  | 0x22 => some .iadd64
  | 0x23 => some .imul
  | 0x24 => some .imulh
  | 0x25 => some .imad
  | 0x26 => some .imadw
  | 0x27 => some .iaddc
  | 0x28 => some .isubb
  | 0x29 => some .idiv
  | 0x2A => some .irem
  | 0x2B => some .imin
  | 0x2C => some .imax
  | 0x2D => some .iabs
  | 0x2E => some .isad
  | 0x2F => some .idot4
  | 0x30 => some .and
  | 0x31 => some .or
  | 0x32 => some .xor
  | 0x33 => some .andn
  | 0x35 => some .shl
  | 0x36 => some .shr
  | 0x37 => some .sar
  | 0x38 => some .rot
  | 0x39 => some .bfe
  | 0x3A => some .bfi
  | 0x3B => some .popc
  | 0x3C => some .clz
  | 0x3D => some .brev
  | 0x3E => some .lea
  | 0x40 => some .icmp
  | 0x41 => some .fcmp
  | 0x42 => some .pand
  | 0x43 => some .por
  | 0x44 => some .pxor
  | 0x45 => some .pmov
  | 0x46 => some .sel
  | 0x47 => some .ballot
  | 0x48 => some .vany
  | 0x49 => some .vall
  | 0x4A => some .vmatch
  | 0x4B => some .lanes
  | 0x4C => some .mov
  | 0x4D => some .movs
  | 0x4E => some .smov
  | 0x50 => some .sadd
  | 0x51 => some .ssub
  | 0x52 => some .smul
  | 0x53 => some .sand
  | 0x54 => some .sor
  | 0x55 => some .sxor
  | 0x56 => some .sshl
  | 0x57 => some .sshr
  | 0x58 => some .scmp
  | 0x5A => some .smin
  | 0x5B => some .smax
  | 0x5C => some .movri
  | 0x5D => some .movwi
  | 0x5E => some .xperm
  | 0x60 => some .fadd
  | 0x61 => some .fsub
  | 0x62 => some .fmul
  | 0x63 => some .ffma
  | 0x64 => some .fmin
  | 0x65 => some .fmax
  | 0x66 => some .fabs
  | 0x67 => some .fneg
  | 0x68 => some .frcp
  | 0x69 => some .fsqrt
  | 0x6A => some .frsq
  | 0x6B => some .fexp2
  | 0x6C => some .flog2
  | 0x6D => some .fsinp
  | 0x6E => some .fcosp
  | 0x6F => some .fdiv
  | 0x70 => some .frnd
  | 0x71 => some .fclass
  | 0x72 => some .fscale
  | 0x73 => some .fdot2
  | 0x74 => some .ftwosum
  | 0x75 => some .fcpysgn
  | 0x76 => some .fmadFtz
  | 0x80 => some .cvtFf
  | 0x81 => some .cvtFi
  | 0x82 => some .cvtIf
  | 0x83 => some .cvtIi
  | 0x84 => some .cvtE8
  | 0x85 => some .cvtE4
  | 0x86 => some .dcvtE8
  | 0x87 => some .dcvtE4
  | 0x88 => some .qblk
  | 0x89 => some .dqblk
  | 0x8A => some .qhdr
  | 0x8B => some .hchk
  | 0x8C => some .pack4
  | 0x8D => some .pack8
  | 0x8E => some .unpk4
  | 0x8F => some .unpk8
  | 0x90 => some .fpk2
  | 0x91 => some .fupk2
  | _ => none

/-- The instructions of format Tab (Tables 4-2 to 4-9), by OP. -/
def buildTab (op : Nat) : Option (Head → Tab3 → Instr) :=
  match op with
  | 0x34 => some .ltab
  | 0x4F => some .sltab
  | _ => none

/-- The instructions of format AI (Tables 4-2 to 4-9), by OP. -/
def buildAI (op : Nat) : Option (Head → AI → Instr) :=
  match op with
  | 0x3F => some .movi
  | 0x59 => some .smovi
  | 0xE4 => some .progAdd
  | _ => none

/-- The instructions of format C (Tables 4-2 to 4-9), by OP. -/
def buildC (op : Nat) : Option (Head → CFmt → Instr) :=
  match op with
  | 0x01 => some .br
  | 0x02 => some .brx
  | 0x03 => some .call
  | 0x04 => some .callx
  | 0x05 => some .ret
  | 0x06 => some .exit
  | 0x07 => some .rcv
  | 0x08 => some .loop
  | 0x09 => some .brany
  | 0x0A => some .brall
  | 0x0E => some .yield
  | 0x0F => some .sleep
  | _ => none

/-- The instructions of format Y (Tables 4-2 to 4-9), by OP. -/
def buildY (op : Nat) : Option (Head → YFmt → Instr) :=
  match op with
  | 0x0B => some .trap
  | 0x0C => some .brk
  | 0x0D => some (fun h f => if f.sysno == 1 then .rteNext h f else .rte h f)
  | 0x10 => some .sysRd
  | 0x11 => some .sysWr
  | 0x12 => some (fun h f => if f.sysno == 0 then .tlbInvPage h f else if f.sysno == 1 then .tlbInvLarge h f else if f.sysno == 2 then .tlbInvAsn h f else .tlbInvAll h f)
  | 0x13 => some (fun h f => if f.sysno == 0 then .errRdCounter h f else if f.sysno == 1 then .errRdLog h f else .errRdRetire h f)
  | 0x17 => some .halt
  | 0x5F => some .spec
  | 0xE0 => some .bar
  | 0xE1 => some .barn
  | 0xE2 => some .bara
  | 0xE3 => some .barw
  | 0xE5 => some .idemEnd
  | 0xEB => some (fun h f => if f.sysno == 0 then .cancelBlk h f else if f.sysno == 1 then .cancelGrid h f else if f.sysno == 2 then .cancelGraph h f else .cancelJob h f)
  | 0xEC => some .tickRd
  | 0xED => some .clk
  | _ => none

/-- The instructions of format M (Tables 4-2 to 4-9), by OP. -/
def buildM (op : Nat) : Option (Head → MFmt → Instr) :=
  match op with
  | 0x14 => some .iclLock
  | 0x15 => some .iclFree
  | 0x16 => some .iclCount
  | 0xA0 => some (fun h f => if f.wd == 5 then .ldBlk h f else .ld h f)
  | 0xA1 => some (fun h f => if f.wd == 5 then .stBlk h f else .st h f)
  | 0xA2 => some .lds
  | 0xA3 => some .sts
  | 0xA4 => some .atomAdd
  | 0xA5 => some .atomMin
  | 0xA6 => some .atomMax
  | 0xA7 => some .atomAnd
  | 0xA8 => some .atomOr
  | 0xA9 => some .atomXor
  | 0xAA => some .atomXch
  | 0xAB => some .atomCas
  | 0xAC => some .atomFadd
  | 0xAD => some .red
  | 0xAE => some .satom
  | 0xAF => some .phaseCl
  | 0xB0 => some .phaseOp
  | 0xB1 => some .fenceQ
  | 0xB2 => some (fun h f => if f.b == 1 then .cinvAll h f else .cinv h f)
  | 0xB3 => some .prefetch
  | 0xB4 => some .mprobe
  | 0xB5 => some .monArm
  | 0xB6 => some .monWait
  | _ => none

/-- The instructions of format E (Tables 4-2 to 4-9), by OP. -/
def buildE (op : Nat) : Option (Head → EFmt → Instr) :=
  match op with
  | 0xC0 => some .tileDef
  | 0xC1 => some .tileRel
  | 0xC2 => some .tileWait
  | 0xC3 => some .tileQ
  | 0xC4 => some .cpLd
  | 0xC5 => some .cpSt
  | 0xC6 => some .cpGth
  | 0xC7 => some .cpSct
  | 0xC8 => some .cpHint
  | 0xC9 => some .cpSet
  | 0xCA => some .convDecl
  | 0xCB => some .mma
  | 0xCC => some .mmaG
  | 0xCD => some .mmaWait
  | 0xCE => some .accZero
  | 0xCF => some .accLd
  | 0xD0 => some .accSt
  | 0xD1 => some .accStq
  | 0xD2 => some .accFlg
  | 0xD3 => some .accFclr
  | 0xD4 => some .collAr
  | 0xD5 => some .collBc
  | 0xD6 => some .collWait
  | 0xE6 => some .shfPut
  | 0xE7 => some .shfTake
  | 0xE8 => some .shfWait
  | 0xE9 => some .shfOpen
  | 0xEA => some .shfDone
  | _ => none

/-- The instruction a word's OP and fields name, before the field check: each OP has one format (R92). -/
def parse (w : DWord) : Option Instr :=
  let op := opOfWord w
  if op = 0 then
    if fld w 50 6 == 0 && fld w 0 49 == 0 then some (.nop (fld w 49 1 == 1)) else none
  else if op = 0x18 then some (.wvote w)
  else if op = 0xD8 then some (.mma8 w)
  else
    (headOf w).bind fun h =>
      match buildA3 op with
      | some k => (a3Of w).map (k h)
      | none => match buildTab op with
        | some k => (tabOf w).map (k h)
        | none => match buildAI op with
          | some k => (aiOf w).map (k h)
          | none => match buildM op with
            | some k => (mOf w).map (k h)
            | none => match buildE op with
              | some k => (eOf w).map (k h)
              | none => match buildC op with
                | some k => (cOf w).map (k h)
                | none => match buildY op with
                  | some k => (yOf w).map (k h)
                  | none => none

/-- The instruction a word stands for; none for an unassigned OP, a reserved bit or a field value its entry does not
accept (rows 1 and 4 of Table 4-10). -/
def decode (w : DWord) : Option Instr := (parse w).filter Instr.wf

/-- The word of an instruction, from the same tables; an event has none. -/
def encode : Instr → Option DWord
  | .nop ch => some (wordOf 0 ⟨none, ch⟩ 0)
  | .br h f => some (wordOf 0x01 h f.pack)
  | .brx h f => some (wordOf 0x02 h f.pack)
  | .call h f => some (wordOf 0x03 h f.pack)
  | .callx h f => some (wordOf 0x04 h f.pack)
  | .ret h f => some (wordOf 0x05 h f.pack)
  | .exit h f => some (wordOf 0x06 h f.pack)
  | .rcv h f => some (wordOf 0x07 h f.pack)
  | .rcvRelease _ _ => none
  | .loop h f => some (wordOf 0x08 h f.pack)
  | .brany h f => some (wordOf 0x09 h f.pack)
  | .brall h f => some (wordOf 0x0A h f.pack)
  | .yield h f => some (wordOf 0x0E h f.pack)
  | .sleep h f => some (wordOf 0x0F h f.pack)
  | .sleepEnd _ _ => none
  | .trap h f => some (wordOf 0x0B h f.pack)
  | .brk h f => some (wordOf 0x0C h f.pack)
  | .rte h f => some (wordOf 0x0D h f.pack)
  | .rteNext h f => some (wordOf 0x0D h f.pack)
  | .sysRd h f => some (wordOf 0x10 h f.pack)
  | .sysWr h f => some (wordOf 0x11 h f.pack)
  | .tlbInvPage h f => some (wordOf 0x12 h f.pack)
  | .tlbInvLarge h f => some (wordOf 0x12 h f.pack)
  | .tlbInvAsn h f => some (wordOf 0x12 h f.pack)
  | .tlbInvAll h f => some (wordOf 0x12 h f.pack)
  | .errRdCounter h f => some (wordOf 0x13 h f.pack)
  | .errRdLog h f => some (wordOf 0x13 h f.pack)
  | .errRdRetire h f => some (wordOf 0x13 h f.pack)
  | .iclLock h f => some (wordOf 0x14 h f.pack)
  | .iclFree h f => some (wordOf 0x15 h f.pack)
  | .iclCount h f => some (wordOf 0x16 h f.pack)
  | .halt h f => some (wordOf 0x17 h f.pack)
  | .wvote w => some w
  | .iadd h f => some (wordOf 0x20 h f.pack)
  | .isub h f => some (wordOf 0x21 h f.pack)
  | .iadd64 h f => some (wordOf 0x22 h f.pack)
  | .imul h f => some (wordOf 0x23 h f.pack)
  | .imulh h f => some (wordOf 0x24 h f.pack)
  | .imad h f => some (wordOf 0x25 h f.pack)
  | .imadw h f => some (wordOf 0x26 h f.pack)
  | .iaddc h f => some (wordOf 0x27 h f.pack)
  | .isubb h f => some (wordOf 0x28 h f.pack)
  | .idiv h f => some (wordOf 0x29 h f.pack)
  | .irem h f => some (wordOf 0x2A h f.pack)
  | .imin h f => some (wordOf 0x2B h f.pack)
  | .imax h f => some (wordOf 0x2C h f.pack)
  | .iabs h f => some (wordOf 0x2D h f.pack)
  | .isad h f => some (wordOf 0x2E h f.pack)
  | .idot4 h f => some (wordOf 0x2F h f.pack)
  | .and h f => some (wordOf 0x30 h f.pack)
  | .or h f => some (wordOf 0x31 h f.pack)
  | .xor h f => some (wordOf 0x32 h f.pack)
  | .andn h f => some (wordOf 0x33 h f.pack)
  | .ltab h f => some (wordOf 0x34 h f.pack)
  | .shl h f => some (wordOf 0x35 h f.pack)
  | .shr h f => some (wordOf 0x36 h f.pack)
  | .sar h f => some (wordOf 0x37 h f.pack)
  | .rot h f => some (wordOf 0x38 h f.pack)
  | .bfe h f => some (wordOf 0x39 h f.pack)
  | .bfi h f => some (wordOf 0x3A h f.pack)
  | .popc h f => some (wordOf 0x3B h f.pack)
  | .clz h f => some (wordOf 0x3C h f.pack)
  | .brev h f => some (wordOf 0x3D h f.pack)
  | .lea h f => some (wordOf 0x3E h f.pack)
  | .movi h f => some (wordOf 0x3F h f.pack)
  | .icmp h f => some (wordOf 0x40 h f.pack)
  | .fcmp h f => some (wordOf 0x41 h f.pack)
  | .pand h f => some (wordOf 0x42 h f.pack)
  | .por h f => some (wordOf 0x43 h f.pack)
  | .pxor h f => some (wordOf 0x44 h f.pack)
  | .pmov h f => some (wordOf 0x45 h f.pack)
  | .sel h f => some (wordOf 0x46 h f.pack)
  | .ballot h f => some (wordOf 0x47 h f.pack)
  | .vany h f => some (wordOf 0x48 h f.pack)
  | .vall h f => some (wordOf 0x49 h f.pack)
  | .vmatch h f => some (wordOf 0x4A h f.pack)
  | .lanes h f => some (wordOf 0x4B h f.pack)
  | .mov h f => some (wordOf 0x4C h f.pack)
  | .movs h f => some (wordOf 0x4D h f.pack)
  | .smov h f => some (wordOf 0x4E h f.pack)
  | .sltab h f => some (wordOf 0x4F h f.pack)
  | .sadd h f => some (wordOf 0x50 h f.pack)
  | .ssub h f => some (wordOf 0x51 h f.pack)
  | .smul h f => some (wordOf 0x52 h f.pack)
  | .sand h f => some (wordOf 0x53 h f.pack)
  | .sor h f => some (wordOf 0x54 h f.pack)
  | .sxor h f => some (wordOf 0x55 h f.pack)
  | .sshl h f => some (wordOf 0x56 h f.pack)
  | .sshr h f => some (wordOf 0x57 h f.pack)
  | .scmp h f => some (wordOf 0x58 h f.pack)
  | .smovi h f => some (wordOf 0x59 h f.pack)
  | .smin h f => some (wordOf 0x5A h f.pack)
  | .smax h f => some (wordOf 0x5B h f.pack)
  | .movri h f => some (wordOf 0x5C h f.pack)
  | .movwi h f => some (wordOf 0x5D h f.pack)
  | .xperm h f => some (wordOf 0x5E h f.pack)
  | .spec h f => some (wordOf 0x5F h f.pack)
  | .fadd h f => some (wordOf 0x60 h f.pack)
  | .fsub h f => some (wordOf 0x61 h f.pack)
  | .fmul h f => some (wordOf 0x62 h f.pack)
  | .ffma h f => some (wordOf 0x63 h f.pack)
  | .fmin h f => some (wordOf 0x64 h f.pack)
  | .fmax h f => some (wordOf 0x65 h f.pack)
  | .fabs h f => some (wordOf 0x66 h f.pack)
  | .fneg h f => some (wordOf 0x67 h f.pack)
  | .frcp h f => some (wordOf 0x68 h f.pack)
  | .fsqrt h f => some (wordOf 0x69 h f.pack)
  | .frsq h f => some (wordOf 0x6A h f.pack)
  | .fexp2 h f => some (wordOf 0x6B h f.pack)
  | .flog2 h f => some (wordOf 0x6C h f.pack)
  | .fsinp h f => some (wordOf 0x6D h f.pack)
  | .fcosp h f => some (wordOf 0x6E h f.pack)
  | .sfuResult _ _ _ => none
  | .fdiv h f => some (wordOf 0x6F h f.pack)
  | .frnd h f => some (wordOf 0x70 h f.pack)
  | .fclass h f => some (wordOf 0x71 h f.pack)
  | .fscale h f => some (wordOf 0x72 h f.pack)
  | .fdot2 h f => some (wordOf 0x73 h f.pack)
  | .ftwosum h f => some (wordOf 0x74 h f.pack)
  | .fcpysgn h f => some (wordOf 0x75 h f.pack)
  | .fmadFtz h f => some (wordOf 0x76 h f.pack)
  | .cvtFf h f => some (wordOf 0x80 h f.pack)
  | .cvtFi h f => some (wordOf 0x81 h f.pack)
  | .cvtIf h f => some (wordOf 0x82 h f.pack)
  | .cvtIi h f => some (wordOf 0x83 h f.pack)
  | .cvtE8 h f => some (wordOf 0x84 h f.pack)
  | .cvtE4 h f => some (wordOf 0x85 h f.pack)
  | .dcvtE8 h f => some (wordOf 0x86 h f.pack)
  | .dcvtE4 h f => some (wordOf 0x87 h f.pack)
  | .qblk h f => some (wordOf 0x88 h f.pack)
  | .dqblk h f => some (wordOf 0x89 h f.pack)
  | .qhdr h f => some (wordOf 0x8A h f.pack)
  | .hchk h f => some (wordOf 0x8B h f.pack)
  | .pack4 h f => some (wordOf 0x8C h f.pack)
  | .pack8 h f => some (wordOf 0x8D h f.pack)
  | .unpk4 h f => some (wordOf 0x8E h f.pack)
  | .unpk8 h f => some (wordOf 0x8F h f.pack)
  | .fpk2 h f => some (wordOf 0x90 h f.pack)
  | .fupk2 h f => some (wordOf 0x91 h f.pack)
  | .ld h f => some (wordOf 0xA0 h f.pack)
  | .ldBlk h f => some (wordOf 0xA0 h f.pack)
  | .st h f => some (wordOf 0xA1 h f.pack)
  | .stBlk h f => some (wordOf 0xA1 h f.pack)
  | .lds h f => some (wordOf 0xA2 h f.pack)
  | .sts h f => some (wordOf 0xA3 h f.pack)
  | .atomAdd h f => some (wordOf 0xA4 h f.pack)
  | .atomMin h f => some (wordOf 0xA5 h f.pack)
  | .atomMax h f => some (wordOf 0xA6 h f.pack)
  | .atomAnd h f => some (wordOf 0xA7 h f.pack)
  | .atomOr h f => some (wordOf 0xA8 h f.pack)
  | .atomXor h f => some (wordOf 0xA9 h f.pack)
  | .atomXch h f => some (wordOf 0xAA h f.pack)
  | .atomCas h f => some (wordOf 0xAB h f.pack)
  | .atomFadd h f => some (wordOf 0xAC h f.pack)
  | .red h f => some (wordOf 0xAD h f.pack)
  | .satom h f => some (wordOf 0xAE h f.pack)
  | .phaseCl h f => some (wordOf 0xAF h f.pack)
  | .phaseClComplete _ _ => none
  | .phaseOp h f => some (wordOf 0xB0 h f.pack)
  | .fenceQ h f => some (wordOf 0xB1 h f.pack)
  | .cinv h f => some (wordOf 0xB2 h f.pack)
  | .cinvAll h f => some (wordOf 0xB2 h f.pack)
  | .prefetch h f => some (wordOf 0xB3 h f.pack)
  | .mprobe h f => some (wordOf 0xB4 h f.pack)
  | .monArm h f => some (wordOf 0xB5 h f.pack)
  | .monWait h f => some (wordOf 0xB6 h f.pack)
  | .monitorTrigger _ _ => none
  | .monitorTimeout _ _ => none
  | .tileDef h f => some (wordOf 0xC0 h f.pack)
  | .tileRel h f => some (wordOf 0xC1 h f.pack)
  | .tileWait h f => some (wordOf 0xC2 h f.pack)
  | .tileQ h f => some (wordOf 0xC3 h f.pack)
  | .cpLd h f => some (wordOf 0xC4 h f.pack)
  | .cpSt h f => some (wordOf 0xC5 h f.pack)
  | .cpGth h f => some (wordOf 0xC6 h f.pack)
  | .cpSct h f => some (wordOf 0xC7 h f.pack)
  | .cpHint h f => some (wordOf 0xC8 h f.pack)
  | .cpSet h f => some (wordOf 0xC9 h f.pack)
  | .copyBegin _ _ => none
  | .copyComplete _ _ _ => none
  | .collAr h f => some (wordOf 0xD4 h f.pack)
  | .collBc h f => some (wordOf 0xD5 h f.pack)
  | .collWait h f => some (wordOf 0xD6 h f.pack)
  | .collBegin _ _ => none
  | .collComplete _ _ _ _ => none
  | .convDecl h f => some (wordOf 0xCA h f.pack)
  | .mma h f => some (wordOf 0xCB h f.pack)
  | .mmaG h f => some (wordOf 0xCC h f.pack)
  | .signingRoundComplete _ _ => none
  | .mmaKstep _ _ => none
  | .mmaWait h f => some (wordOf 0xCD h f.pack)
  | .accZero h f => some (wordOf 0xCE h f.pack)
  | .accLd h f => some (wordOf 0xCF h f.pack)
  | .accSt h f => some (wordOf 0xD0 h f.pack)
  | .accStq h f => some (wordOf 0xD1 h f.pack)
  | .accFlg h f => some (wordOf 0xD2 h f.pack)
  | .accFclr h f => some (wordOf 0xD3 h f.pack)
  | .accCommandPerform _ _ => none
  | .mma8 w => some w
  | .bar h f => some (wordOf 0xE0 h f.pack)
  | .barn h f => some (wordOf 0xE1 h f.pack)
  | .bara h f => some (wordOf 0xE2 h f.pack)
  | .barw h f => some (wordOf 0xE3 h f.pack)
  | .barrierPhaseComplete _ _ => none
  | .progAdd h f => some (wordOf 0xE4 h f.pack)
  | .idemEnd h f => some (wordOf 0xE5 h f.pack)
  | .shfPut h f => some (wordOf 0xE6 h f.pack)
  | .shfPutArrive _ => none
  | .shfTake h f => some (wordOf 0xE7 h f.pack)
  | .shfTakeReturn _ _ => none
  | .shfWait h f => some (wordOf 0xE8 h f.pack)
  | .shfOpen h f => some (wordOf 0xE9 h f.pack)
  | .shfDone h f => some (wordOf 0xEA h f.pack)
  | .stillwaterQuiet _ => none
  | .cancelBlk h f => some (wordOf 0xEB h f.pack)
  | .cancelGrid h f => some (wordOf 0xEB h f.pack)
  | .cancelGraph h f => some (wordOf 0xEB h f.pack)
  | .cancelJob h f => some (wordOf 0xEB h f.pack)
  | .tickRd h f => some (wordOf 0xEC h f.pack)
  | .clk h f => some (wordOf 0xED h f.pack)
  | .loadResult _ _ => none
  | .writePerform _ _ => none
  | .fetchFault _ _ => none
  | .blockRetire _ => none
  | .gridComplete _ => none
  | .commandFrame _ _ _ _ => none
  | .launch _ => none
  | .wait _ => none
  | .waitSatisfied _ => none
  | .signal _ => none
  | .cancel _ => none
  | .bind _ => none
  | .tickalign _ => none
  | .close _ => none
  | .tickBoundary => none
  | .dispatchTakeGrid => none
  | .blockPlace => none
  | .backfill _ => none
  | .weirRun => none
  | .saveImageWrite _ => none
  | .resumeIssue _ => none
  | .portRefill => none
  | .portSend _ _ => none
  | .reedDemote _ _ _ => none
  | .heldWriteCommit _ => none
  | .pageMoveComplete _ => none
  | .moveStart _ => none
  | .l2FlushStart _ => none
  | .l2FlushDone => none
  | .t2FreePush _ => none
  | .t2FreeCountWrite _ => none
  | .poolThresholdWrite _ _ _ => none
  | .faultAckRetry _ => none
  | .faultAckFatal _ => none
  | .faultqBaseWrite _ => none
  | .faultqSizeWrite _ => none
  | .shfCfgWrite _ _ => none
  | .tenCfgWrite _ _ => none
  | .collCfgWrite _ _ _ => none
  | .granaryChunksWrite _ => none
  | .moduleNumWrite _ => none
  | .qdescBaseWrite _ => none
  | .fabRouteWrite _ _ _ => none
  | .powerLimitWrite _ => none
  | .tickPeriodWrite _ => none
  | .dumpRelease => none
  | .registerWrite _ _ => none
  | .powerSample _ => none
  | .powerOverlimitFault => none
  | .temperatureSample _ => none
  | .railOutOfWindow _ => none
  | .resetAssert => none
  | .resetRelease _ _ => none
  | .fatalError _ _ => none
  | .scrubRead _ => none
  | .unitFence _ _ => none
  | .fabricSequence _ _ => none
  | .portRetrain _ _ => none
  | .fabricRead _ _ => none
  | .fabricWrite _ _ => none
  | .fabricAtomic _ _ => none
  | .fabricReply _ => none
  | .marker _ => none
  | .markerAck _ => none
  | .fabricSession _ _ => none
  | .fabricColl _ => none
  | .hello _ _ => none
  | .key _ _ => none
  | .rekey _ _ _ => none
  | .sessionClose _ => none
  | .attest _ _ _ => none
  | .mapQueue _ _ _ => none
  | .unmapQueue _ _ _ => none
  | .load _ _ _ _ _ => none
  | .unload _ _ _ _ => none
  | .registerEmulation _ _ _ _ _ _ _ _ => none
  | .handover _ _ _ _ => none
  | .handoverCommit => none
  | .flashWrite _ _ _ _ _ => none
  | .regRead _ _ _ => none
  | .regWrite _ _ _ _ => none
  | .memWrite _ _ _ _ => none
  | .memRead _ _ _ _ => none
  | .railRegulationChange _ _ => none
  | .faultqRidxWrite _ => none
  | .pfcPauseFrame _ _ => none
  | .serviceNotOffered _ _ _ => none
  | .monitorSpuriousEnd _ _ => none

/-! ### Packets (R54, R55) and the columns of the map (R57, R65, R105) -/

/-- The control word's fields (Table 3-3). -/
structure Control where
  livix : Nat
  sel : List Nat
  seta : Nat
  setb : Nat
  waitmask : BitVec 12
  reserved : Bool
  deriving DecidableEq, Repr

def controlOf (w : DWord) : Control :=
  { livix := (fld w 32 16).toNat, sel := [(fld w 20 2).toNat, (fld w 22 2).toNat, (fld w 24 2).toNat],
    seta := (fld w 12 4).toNat, setb := (fld w 16 4).toNat, waitmask := fld w 0 12,
    reserved := fld w 48 16 != 0 || fld w 26 6 != 0 }

/-- A little-endian 64-bit word from its bytes (R4, R54). -/
def wordOfBytes (bs : List Byte) : DWord := bs.foldr (fun b acc => (acc <<< 8) ||| b.setWidth 64) 0

/-- The bytes of a value, little-endian. -/
def bytesOfNat (n : Nat) : Nat → List Byte
  | 0 => []
  | k + 1 => BitVec.ofNat 8 n :: bytesOfNat (n / 256) k

/-- The value of little-endian bytes. -/
def natOfBytes : List Byte → Nat
  | [] => 0
  | b :: bs => b.toNat + 256 * natOfBytes bs

/-- The pipes of Table 3-4. -/
inductive Pipe where
  | int | fp | sfu | mem | eng | ctl
  deriving DecidableEq, Repr

/-- The pipe of an OP (Tables 4-2 to 4-9); none for `nop` and unassigned values. -/
def pipeOf (op : Nat) : Option Pipe :=
  if op = 0 then none
  else if op ≤ 0x13 then some .ctl else if op ≤ 0x16 then some .mem else if op = 0x17 then some .ctl
  else if op = 0x18 then some .int else if op < 0x20 then none
  else if op = 0x41 then some .fp else if op = 0x5E then some .sfu else if op < 0x60 then some .int
  else if 0x68 ≤ op ∧ op ≤ 0x6E then some .sfu else if op ≤ 0x76 then some .fp else if op < 0x80 then none
  else if op ≤ 0x91 then some .fp else if op < 0xA0 then none
  else if op ≤ 0xB6 then some .mem else if op < 0xC0 then none
  else if op ≤ 0xD6 then some .eng else if op = 0xD8 then some .eng else if op < 0xE0 then none
  else if 0xE6 ≤ op ∧ op ≤ 0xEA then some .eng else if op ≤ 0xED then some .ctl else none

/-- The OPs that may set a wait flag (R57, the Flag column). -/
def longLatency (op : Nat) : Bool :=
  op = 0x5E ∨ (0x68 ≤ op ∧ op ≤ 0x6E) ∨ op = 0xA0 ∨ op = 0xA2 ∨ (0xA4 ≤ op ∧ op ≤ 0xAC) ∨ op = 0xAE ∨
  (0xC0 ≤ op ∧ op ≤ 0xD6)

/-- The OPs that change the program counter (R67). -/
def changesPc (op : Nat) : Bool := (1 ≤ op ∧ op ≤ 6) ∨ (8 ≤ op ∧ op ≤ 0x0A) ∨ op = 0x0D

/-- The feature bit of an OP (the Feat column). -/
def featOf (op : Nat) : Nat :=
  if 0x14 ≤ op ∧ op ≤ 0x16 then 23 else if op = 0x18 then 7 else if op = 0x5E then 25
  else if 0x68 ≤ op ∧ op ≤ 0x6F then 20 else if op = 0x74 then 21 else if op = 0x76 then 9
  else if 0x84 ≤ op ∧ op ≤ 0x8B then 16 else if op = 0x9E then 12 else if op = 0xB4 then 26
  else if op = 0xB5 ∨ op = 0xB6 then 22 else if op = 0xCC then 17 else if op = 0xD1 then 16
  else if 0xD4 ≤ op ∧ op ≤ 0xD6 then 24 else if op = 0xD8 then 11
  else if 0xE6 ≤ op ∧ op ≤ 0xEA then 18 else 0

/-- The instruction the decoder reads from an instruction whose bits are `w`, numbered as the opcode table numbers them:
one 64-bit word, bit 0 the least significant. -/
def decodeTableWord (nbits w : Nat) : Option Instr :=
  if nbits ≤ 64 then decode (BitVec.ofNat 64 w) else none

end Sys2Proof
end

