-- ==== Sys2Proof/Config.lean ====
section
/-! DEFINITION. Config.lean: what the Z8 fixes (constants the spec states) and the FREE VALUES: opaque constants with no
body, which nothing in Lean can evaluate, one for each value the spec leaves open while the machine goes on
(notes/assumptions/3.md and the entries named at each). -/

namespace Sys2Proof

/-! ### Constants the spec states (Table 1-1, Table 1-2, Table 2-4) -/

def Config.cores : Nat := 640
def Config.coresPerCluster : Nat := 4
def Config.clusters : Nat := 160
def Config.clustersPerDie : Nat := 10
/-- One count of vector registers is one register of one lane; a sub-core holds 32,768 (Table 2-4). A ROW of the
register file is the same register in the 32 lanes of a wave, so a sub-core holds 1,024 rows. -/
def Config.vregRowsPerSub : Nat := 1024
def Config.sregsPerSub : Nat := 1024
def Config.waveSlotsPerSub : Nat := 16
def Config.spadRows : Nat := 4096
def Config.rowBytes : Nat := 296
def Config.spadBytes : Nat := 1212416
def Config.tilesPerCore : Nat := 256
def Config.accsPerCore : Nat := 4
def Config.convsPerCore : Nat := 16
def Config.barsPerCore : Nat := 32
def Config.replayPerCore : Nat := 256
def Config.icLinesPerCore : Nat := 256
def Config.copyQueueDepth : Nat := 64
def Config.accQueueDepth : Nat := 64
def Config.tlbEntries : Nat := 4096
/-- 128 KiB of 128-byte lines (Table 1-2). -/
def Config.icacheLines : Nat := 1024
/-- 256 KiB of 128-byte lines (R157). -/
def Config.l1Lines : Nat := 2048
def Config.monitorsPerSlice : Nat := 512
def Config.heldLinesPerStack : Nat := 1024
def Config.millraceCap : Nat := 4096
def Config.hostSessions : Nat := 16
def Config.errorLogCap : Nat := 1024
/-- Clocks of one microsecond at 1.4 GHz (R5). -/
def Config.clocksPerUs : Nat := 1400
/-- FEATURE_MASK0 (R106). -/
def Config.featureMask0 : Nat := 0x07FFE77F
/-- Local addresses of Table 6-1. -/
def Config.hbmEnd : Nat := 0x100000000000
def Config.t2Base : Nat := 0x100000000000
def Config.t2End : Nat := 0x110000000000
def Config.devBase : Nat := 0x110000000000
def Config.devEnd : Nat := 0x110100000000

/-! ### Free values -/

/-- Content of a register, scratchpad byte or accumulator element that was never written (R44, R50, R75). The first
argument is the counter of State, the second says which element. -/
opaque Config.freeWord : Nat → Nat → BitVec 32
opaque Config.freeByte : Nat → Nat → BitVec 8
/-- Which of two allowed values a register takes when the wait-flag rule of R60 is broken. -/
opaque Config.freeBit : Nat → Nat → Bool
/-- The reason-independent data the device itself draws: nonces of OFFER and REKEYED (R456). -/
opaque Config.freeNonce : Nat → List (BitVec 8)
/-- SHA-512 (R447, R450): a standard the spec names and does not restate. -/
opaque Config.sha512 : List (BitVec 8) → List (BitVec 8)
/-- HKDF-SHA-512 of secret, salt and info (R457). -/
opaque Config.hkdf : List (BitVec 8) → List (BitVec 8) → List (BitVec 8) → List (BitVec 8)
/-- An RSASSA-PSS signature of the identity key over bytes (R451, R502). -/
opaque Config.identitySign : Nat → List (BitVec 8) → List (BitVec 8)
/-- The 32-byte secret that the secure element decrypts from a ciphertext, if it does (R453, R457). -/
opaque Config.identityDecrypt : List (BitVec 8) → Option (List (BitVec 8))
/-- Whether an RSASSA-PSS signature with SHA-512 over bytes verifies under a modulus and exponent (R447, R456). -/
opaque Config.pssVerify : List (BitVec 8) → List (BitVec 8) → List (BitVec 8) → List (BitVec 8) → Bool
/-- AES-256-GCM of key, nonce, authenticated data and plaintext: the ciphertext and its tag; and back, if the tag verifies (R454, R509). -/
opaque Config.gcmSeal : List (BitVec 8) → List (BitVec 8) → List (BitVec 8) → List (BitVec 8) → List (BitVec 8)
opaque Config.gcmOpen : List (BitVec 8) → List (BitVec 8) → List (BitVec 8) → List (BitVec 8) → Option (List (BitVec 8))
/-- The identity public key, its certificate and the boot ROM (R450), fixed in the module. -/
opaque Config.identityKey : List (BitVec 8)
opaque Config.certificate : List (BitVec 8)
opaque Config.bootRom : List (BitVec 8)
/-- The vendor root key hash in the boot ROM (R448). -/
opaque Config.vendorKey : List (BitVec 8)
opaque Config.romVersion : BitVec 64
/-- The free sectors of stack n when step 3 of R21 ends, less what system software withholds (R173): it lies from
1,509,949,440 to 1,610,612,736; the value is the Z8's own. The offset above the least value is free. -/
opaque Config.poolSlack : Nat → Fin 100663297
/-- Content of flash that was never written (slot, byte): the images a module leaves its maker with (R447). -/
opaque Config.flashByte : Nat → Nat → BitVec 8
/-- The syndrome that a log record holds (Table 22-2): the code is not given. -/
opaque Config.freeSyndrome : Nat → BitVec 32

/-- POOL_FREEn after step 3 of R21 (R173). -/
def Config.poolFree (n : Nat) : Nat := 1509949440 + (Config.poolSlack n).val

end Sys2Proof
end

