-- ==== Sys2Proof/Machine/Tbl.lean ====
section
/-! DEFINITION. Machine/Tbl.lean: finite tables keyed by numbers, in one canonical form (keys strictly rising), from which
memory, register files and the lists of live units are made. -/

namespace Sys2Proof.Machine

/-- A finite table: pairs of key and value. -/
abbrev Tbl (α : Type) := List (Nat × α)

/-- The value at a key. -/
def Tbl.get {α : Type} : Tbl α → Nat → Option α
  | [], _ => none
  | (j, x) :: t, k => if k = j then some x else Tbl.get t k

/-- The table with `x` at `k`, keys kept in rising order. -/
def Tbl.put {α : Type} : Tbl α → Nat → α → Tbl α
  | [], k, x => [(k, x)]
  | (j, y) :: t, k, x =>
    if k < j then (k, x) :: (j, y) :: t
    else if k = j then (k, x) :: t
    else (j, y) :: Tbl.put t k x

/-- The table without `k`. -/
def Tbl.del {α : Type} : Tbl α → Nat → Tbl α
  | [], _ => []
  | (j, y) :: t, k => if k = j then Tbl.del t k else (j, y) :: Tbl.del t k

/-- The table with the value at `k`, if there is one, changed by `f`. -/
def Tbl.upd {α : Type} : Tbl α → Nat → (α → α) → Tbl α
  | [], _, _ => []
  | (j, y) :: t, k, f => if k = j then (j, f y) :: Tbl.upd t k f else (j, y) :: Tbl.upd t k f

/-- Every value of the table, changed by `f` with its key. -/
def Tbl.mapAll {α : Type} (t : Tbl α) (f : Nat → α → α) : Tbl α := List.map (fun e => (e.1, f e.1 e.2)) t

/-- The values, in key order. -/
def Tbl.vals {α : Type} (t : Tbl α) : List α := List.map Prod.snd t

/-- Keys strictly rise from above `lo`. -/
def Tbl.above {α : Type} (lo : Nat) : Tbl α → Bool
  | [] => true
  | (j, _) :: t => decide (lo < j) && Tbl.above j t

/-- Keys strictly rise. -/
def Tbl.sorted {α : Type} : Tbl α → Bool
  | [] => true
  | (j, _) :: t => Tbl.above j t

end Sys2Proof.Machine
end

