-- ==== Sys2Proof/Machine/State.lean ====
section
/-! DEFINITION. Machine/State.lean: the state of one Z8 module as plain data, its faults and refusals, and the state right
after reset. INVENTORY.md lists each piece of state with its rule and reset value. -/

namespace Sys2Proof.Machine

/-! ### Registers and content that was never written -/

/-- How content that was never written reads: zero where R443 clears it, else a free value of this seed (R44). -/
inductive Fill where
  | zero
  | free (seed : Nat)
  deriving DecidableEq, Repr

/-- A register file: what was written, which registers the grant cleared (R44, R443), and the seed of the others. Vector
register r of lane l has key 32 r + l; scalar register r has key r. -/
structure RegFile where
  cells : Tbl Word
  clear : List Bool
  seed : Nat
  deriving DecidableEq, Repr

/-! ### Traps -/

/-- The fault record that a trap delivers, if any: a copy's, kept by a tile (R219), or an accumulator's (R332). -/
inductive RecordAt where
  | none
  | tile (n : Nat)
  | acc (n : Nat)
  deriving DecidableEq, Repr

/-- What a trap writes into the trap registers (R474) and which threads enter the handler (R475); `whole` says that
TRAP_LANES is the trapping set (Table 21-4); `record` names the record that delivery clears. -/
structure TrapInfo where
  code : Nat
  sub : Nat
  pc : DWord
  addr : DWord
  kstep : Nat
  lanes : Lanes
  set : Lanes
  whole : Bool
  feat : Nat
  defer : Bool
  record : RecordAt := .none
  deriving DecidableEq, Repr

/-! ### Threads -/

/-- Where a WAITING thread waits (Table 2-5). -/
inductive WaitAt where
  | rcv
  | bar (b : BarName)
  | sign (conv : Nat)
  | mon
  | take
  | shfWait (group : Nat)
  | brk (fault : Nat)
  deriving DecidableEq, Repr

/-- Thread states (Table 2-5). -/
inductive TStat where
  | running
  | waiting (at_ : WaitAt)
  | parked
  | exited
  deriving DecidableEq, Repr

/-- A transfer that a packet had taken for a thread when a later slot of that packet trapped (R67, R480). -/
structure KeptTransfer where
  packet : DWord
  next : Option DWord
  exiting : Bool
  deriving DecidableEq, Repr

/-- A thread: program counter and slot (its position, R33), state, starvation count (R34), predicates, and what R67, R476
and R479 keep for it. `recheck` says that it checks the control word although its slot is not 0 (R480). `arrived` holds
its pending bits with the phase of each arrival (R372). `ret` is where an `rte` of its packet returns to: packet and slot.
`owed` says that it waits with a replay entry still held (R36, R37). `gone` is where it stands when only the trap of a denied access
kept it from leaving by `exit`: on its return there it exits (R484). -/
structure Thread where
  pc : DWord
  slot : Nat
  recheck : Bool
  st : TStat
  starve : Nat
  preds : BitVec 16
  inHandler : Bool
  next : Option DWord
  ret : Option (DWord × Nat)
  exiting : Bool
  kept : Option KeptTransfer
  heldTrap : Option TrapInfo
  fetchHeld : Bool
  arrived : List (BarName × Nat)
  owed : Bool := false
  gone : Option DWord := none
  deriving DecidableEq, Repr

/-! ### Waves -/

/-- The sources of the rest of a chain group whose earlier slot made its threads wait, or held the wave in place: the registers and
predicates as they stood in the clock in which that slot was completed (R35, R66), for the threads at a place in their packet. -/
structure Late where
  pc : DWord
  slot : Nat
  lanes : Lanes
  v : RegFile
  s : RegFile
  preds : List (BitVec 16)
  deriving DecidableEq, Repr

/-- The packet a wave is issuing: its address, control word, three words, next slot, and the threads that stand in it. -/
structure Issue where
  pc : DWord
  ctl : DWord
  words : List DWord
  slot : Nat
  lanes : Lanes
  deriving DecidableEq, Repr

/-- A wave's monitor (R382): the watched line, its scope, its age at the home, whether a write by another party became
visible (R383), and the reason it ended with. -/
structure Monitor where
  line : Nat
  scope : Nat
  age : Nat
  hit : Bool
  ended : Option Nat
  deriving DecidableEq, Repr

/-- A `mon.wait` in progress: its threads, the register that takes the reason, and the clock at which the timeout passes. -/
structure MonWaiting where
  dst : Nat
  until_ : Option Nat
  lanes : Lanes
  deriving DecidableEq, Repr

/-- A `shf.take` in progress (R389). -/
structure Taking where
  group : Nat
  list : Nat
  dstV : Nat
  dstS : Nat
  lanes : Lanes
  deriving DecidableEq, Repr

/-- A close in progress (R234): the operations it waits for, the lines whose newest value it needs committed if it is held
(Table 8-2), the tags of its flush markers, and whether a dom close has sent them. -/
structure Close where
  scope : Nat
  ops : List Nat
  lines : List Nat
  marks : List Nat
  sent : Bool
  deriving DecidableEq, Repr

/-- What keeps a whole wave from issuing besides flags: a close (R199), an access held in place (R39), an `mprobe` whose
result is not yet written (R204). -/
inductive Hold where
  | none
  | close (c : Close)
  | inPlace (fault : Nat)
  | probe (op : Nat)
  deriving DecidableEq, Repr

/-- A result of the SFU or `xperm` not yet written (R58, R290): the lanes, the registers per lane, the values. -/
structure SfuOp where
  id : Nat
  dst : Nat
  regs : Nat
  lanes : Lanes
  vals : List (Nat × DWord)
  clobbered : List Nat
  deriving DecidableEq, Repr

/-- A wave (Table 2-1, Table 21-2). `run` counts the packets of its current run, `lastIssue` orders the issues, `waited` counts the
clocks it was ready without issuing, `stall` those in which a pipe kept its next group, `wslot` is its wave slot (R368, R369); `napPc` is the packet that holds its `sleep` (R122). `seen` and `seenLines` are the writes and the lines whose values it read and that may not
have performed yet, `wrote` the lines of this module that it wrote and that are not yet committed (R234, Table 8-2). `cancels` holds the levels that `cancel` asked for, with the threads that have yet to
perform the rest of its packet (R378). -/
structure Wave where
  threads : List Thread
  v : RegFile
  s : RegFile
  busy : List (Nat × Nat)
  idem : Bool
  cause : Word
  tpc : DWord
  taddr : DWord
  kstep : Word
  tlanes : Lanes
  trapSet : Option Lanes
  issue : Option Issue
  mon : Option Monitor
  monLost : Bool
  monWait : List MonWaiting
  take : List Taking
  sleep : Option Nat
  cancels : List (Nat × Lanes)
  hold : Hold
  acq : List (Nat × Nat)
  seen : List Nat
  seenLines : List Nat
  wrote : List Nat := []
  producer : BitVec 64
  taker : BitVec 64
  remote : List Nat
  sfu : List SfuOp
  lastIssue : Nat
  run : Nat
  waited : Nat := 0
  wslot : Nat := 0
  napPc : Option DWord := none
  stall : Nat := 0
  late : List Late := []
  deriving DecidableEq, Repr

/-! ### Tiles, accumulators, convergence registers, barriers -/

/-- Tile states (Table 7-7). -/
inductive TileState where
  | undefined | empty | filling | ready | draining
  deriving DecidableEq, Repr

/-- A copy fault record (R219). -/
structure CopyFault where
  code : Nat
  addr : DWord
  deriving DecidableEq, Repr

/-- A tile descriptor (Table 7-6) with its state, reader count and fault record. -/
structure Tile where
  base : Nat
  hbase : Nat
  pitch : Nat
  len : Nat
  rows : Nat
  width : Nat
  blk : Nat
  hslots : Nat
  st : TileState
  readers : Nat
  fault : Option CopyFault
  deriving DecidableEq, Repr

/-- An accumulator's fault record (R331). -/
structure AccFault where
  kstep : Nat
  addr : Nat
  deriving DecidableEq, Repr

/-- The commands of an accumulator's queue (R334): `mma` and `mma.g` with their operands, and the `acc.*` commands; `clob`
says that another instruction wrote the destination of `acc.flg` meanwhile (R60). -/
inductive AccKind where
  | mma (tileA : Nat) (tilesB : List Nat) (grouped : Bool) (fmt : Word) (blkA blkB kc koff done : Nat)
  | zero
  | ld (tile form : Nat)
  | st (tile form : Nat)
  | stq (tile : Nat) (word : Word)
  | flg (wave sreg : Nat) (clob : Bool)
  | fclr (mask : Nat)
  deriving DecidableEq, Repr

structure AccCmd where
  id : Nat
  kind : AccKind
  deriving DecidableEq, Repr

/-- An accumulator (R334, R336): element (i, j) has key 128 i + j. -/
structure Acc where
  cells : Tbl Word
  fill : Fill
  ovf : Bool
  inv : Bool
  satf : Bool
  fault : Option AccFault
  queue : List AccCmd
  deriving DecidableEq, Repr

/-- A signature (R322) with what the signer resumes with. -/
structure Signer where
  wave : Nat
  lane : Nat
  word : DWord
  fmt : Word
  tiles : List Nat
  flag : Nat
  deriving DecidableEq, Repr

/-- Convergence register states (Table 12-4). -/
inductive Conv where
  | free
  | opened (mask : Lanes) (signers : List Signer)
  | broken (mask : Lanes)
  deriving DecidableEq, Repr

/-- A barrier (R372): its phase, the waves that have arrived, the expected count. -/
structure Barrier where
  phase : Nat
  arrived : List Nat
  expected : Option Nat
  deriving DecidableEq, Repr

/-! ### Kernels, blocks -/

/-- What a kernel descriptor declares (Table 19-4), with the address of its code section and its object. -/
structure Kern where
  desc : Nat
  obj : Nat
  code : Nat
  entry : Nat
  handler : Option Nat
  vregs : Nat
  sregs : Nat
  spad : Nat
  tiles : Nat
  accs : Nat
  convs : Nat
  bars : Nat
  idem : Bool
  ptotal : Nat
  cpuest : Nat
  deriving DecidableEq, Repr

/-- The physical units a block was granted (Table 2-4): per wave its vector register rows and scalar registers, the first
scratchpad row, the accumulators. -/
structure Grant where
  vrows : List (List Nat)
  sregs : List (List Nat)
  row : Nat
  rows : Nat
  accs : List Nat
  deriving DecidableEq, Repr

/-- How a resident block stands: running, to be drained (R402), or being saved (R404). -/
inductive BlockMode where
  | normal | drain | saving | resuming
  deriving DecidableEq, Repr

/-- A `fence.q` in force (R201): the queues, the commands and the operations that later commands wait for, and the lines whose
newest value they need committed if it is held. -/
structure Fence where
  mask : BitVec 4
  cmds : List Nat
  ops : List Nat
  lines : List Nat := []
  deriving DecidableEq, Repr

/-- What an operation on a tile waits for: `tile.wait` for a state, `tile.rel` and a finished drain for EMPTY once no reader
is left (Table 7-7, R211). -/
inductive TileGoal where
  | ready | empty | release | drained
  deriving DecidableEq, Repr

structure TileOp where
  id : Nat
  wave : Nat
  tile : Nat
  goal : TileGoal
  deriving DecidableEq, Repr

/-- A `coll.wait` in progress (R227): the collectives it waits for. -/
structure CollWait where
  id : Nat
  wave : Nat
  queue : Nat
  dst : Nat
  cmds : List Nat
  clobbered : List Nat
  deriving DecidableEq, Repr

/-- A resident block. `draining` says that Weir lets it run to its end while it still resumes (R402, R416), `placeNo` orders the
placements (R399). -/
structure Block where
  grid : Nat
  index : Nat
  bid : Nat × Nat × Nat
  bdim : Nat × Nat × Nat
  gdim : Nat × Nat × Nat
  core : Nat
  vcore : Nat
  vcluster : Nat
  vdie : Nat
  ten : Nat
  asn : Nat
  job : Nat
  service : Bool
  kern : Kern
  grant : Grant
  waves : List Wave
  spad : Tbl Byte
  spadClear : List Bool
  spadSeed : Nat
  touched : List Nat
  tiles : List Tile
  tileOps : List TileOp
  accs : List Acc
  convs : List Conv
  bar : Barrier
  bars : List Barrier
  prog : Nat
  dstride : DWord
  hstride : DWord
  collStatus : List Word
  collWaits : List CollWait
  fences : List Fence
  mode : BlockMode
  cancelled : Bool
  aborted : Option Nat
  started : Nat
  resident : Nat
  placedAt : Nat
  waitCmds : List Nat
  chunks : List Nat
  marks : List Nat
  draining : Bool := false
  placeNo : Nat := 0
  deriving DecidableEq, Repr

/-! ### Memory requests in flight -/

/-- What a request does (R191, R195, R197, R215, R220, R226). `hint` is a line of `cp.hint` (R220); `scratch` has its
values (a window read, an L1 hit, a device register) and awaits the write of its result (R194, R198); `fetch` brings a
code line of another module; `probe` and `arm` are `mprobe` and `mon.arm` held for a page (R37, R39, R484). -/
inductive ReqKind where
  | load (signed : Bool) (hint : Nat)
  | loadBlk
  | store
  | storeBlk
  | atomic (op : Nat) (uns : Bool)
  | red (op : Nat) (uns : Bool)
  | copyRead
  | copyWrite
  | prefetch (l1 : Bool)
  | hint
  | scratch
  | fetch
  | probe
  | arm (scope : Nat)
  deriving DecidableEq, Repr

/-- The bytes one lane names in a line: lane, virtual and physical address, width, and the data it carries. -/
structure LaneAcc where
  lane : Nat
  va : Nat
  pa : Nat
  n : Nat
  data : List Byte
  deriving DecidableEq, Repr

/-- Where a load's value goes: vector registers of each lane, scalar registers, a block-atomic pair, the window bytes of a
tile row, at the offsets that the accesses hold in place of lanes. -/
inductive Dst where
  | none
  | vec (r : Nat)
  | scal (r : Nat)
  | blk (r : Nat) (lanes : Lanes)
  | window (row : Nat)
  deriving DecidableEq, Repr

/-- One request: the lanes of one operation that name one 128-byte line (R444). `op` numbers the operation, `grid` is the grid
it serves, `after` what
must have performed first (R196, R201), `rel` and `acqScope` the scope of a release or acquire (1 dev, 2 dom), `sent` says that it left the core port (R445), `visible` that it was performed
at its home, `olds` the old values of an atomic. `noFill` says that an open, an invalidation or a write of the core came
between its reading and its answer, so that it fills no L1 line (R235, Table 8-2); `part`, unless 0, the lanes that are
performed next, apart from the others (R190); `thr` the threads that a scalar or block form stands for (R243); `l2part` the
L2 partition of its leaf (R164); `passed` the cores that were served for its line while it waited there (R349). -/
structure Req where
  op : Nat
  grid : Nat
  core : Nat
  blk : Nat
  wave : Nat
  cmd : Option Nat
  ten : Nat
  asn : Nat
  job : Nat
  user : Bool
  kind : ReqKind
  vline : Nat
  line : Nat
  pol : Nat
  stable : Bool
  accs : List LaneAcc
  dst : Dst
  after : List Nat
  sent : Bool
  visible : Bool
  remoteTag : Option Nat
  olds : List (Nat × List Byte)
  acqScope : Nat
  rel : Nat
  clobbered : List Nat
  replayed : Bool
  noFill : Bool := false
  part : Lanes := 0
  thr : Lanes := 0
  l2part : Nat := 0
  afterLines : List Nat := []
  passed : List Nat := []
  deriving DecidableEq, Repr

/-- A held access of a parked lane (R37), or of a wave held in place (R39): the fault it is joined to, the accesses it
performs, the threads that a denial would trap and whether TRAP_LANES marks them all (R484), and whether the fault was answered while its block was saved (R417). -/
structure Replay where
  fault : Nat
  blk : Nat
  wave : Nat
  core : Nat
  inPlace : Bool
  op : Nat
  kind : ReqKind
  accs : List LaneAcc
  dst : Dst
  after : List Nat
  acqScope : Nat
  rel : Nat
  trapPc : DWord
  set : Lanes
  whole : Bool
  hint : Nat
  acked : Bool
  thr : Lanes := 0
  afterLines : List Nat := []
  deriving DecidableEq, Repr

/-! ### Copy and collective commands -/

inductive CopyKind where
  | ld | st | gth | sct
  | hint (addr len : Nat)
  | collAr (op ty : Nat)
  | collBc (root : Nat)
  deriving DecidableEq, Repr

/-- A command on a copy queue (R213, R215), with its operands as read at issue. `pending` are the requests it has
presented and not finished; `row` is the first row not yet presented, `moved` the first not yet moved; `fault` a not-present
fault it waits for; `undecided` says that a decision of R46 is pending; `num` is a collective's number on its group, `local_`
the member's own buffer; `afterLines` are the lines whose newest value a fence needs committed (R201), `lines` those it wrote
that are not yet committed (R218, R226); `shadow` keeps the bytes of its index array that lanes wrote since its issue (R217). -/
structure CopyCmd where
  id : Nat
  blk : Nat
  wave : Nat
  kind : CopyKind
  tile : Nat
  d : Int
  h : Int
  ds : Int
  hs : Int
  idx : Nat
  pol : Nat
  group : Nat
  index : List Nat
  after : List Nat
  afterOps : List Nat
  begun : Bool
  row : Nat
  moved : Nat
  fault : Option Nat
  failed : Option CopyFault
  undecided : Bool
  num : Nat
  local_ : List Byte
  status : Word
  afterLines : List Nat := []
  lines : List Nat := []
  shadow : Tbl Byte := []
  deriving DecidableEq, Repr

/-! ### Cores, clusters -/

/-- An L1 line (R157, R158, R162); `foreign` says that it holds a store of this core to a line of another module. -/
structure L1Line where
  asn : Nat
  vline : Nat
  pline : Nat
  data : List Byte
  stable : Bool
  userFill : Bool
  foreign : Bool := false
  deriving DecidableEq, Repr

/-- A locked instruction-cache line (R205): its address space, virtual line, and the blocks that hold it. -/
structure LockedLine where
  asn : Nat
  vline : Nat
  holders : List Nat
  deriving DecidableEq, Repr

/-- A tenancy's share at a port (R445, R446, R468); `was` is b before the refill of this window,
`counted` says that the refill gave it a share. -/
structure Share where
  b : Nat
  e : Nat
  q : Nat
  sentLast : Nat
  sentNow : Nat
  asked : Bool
  was : Nat := 0
  counted : Bool := false
  deriving DecidableEq, Repr

/-- One core. The L1 lines stand least recently used first, the lines of the instruction cache oldest first; `lastTen` records, unit by unit, the tenancy of the last
grant (R44): vector register rows of sub-core k at 1024 k + row, and so on for the other kinds. `issued` holds the waves that have issued in this
clock, each by block and number (R320, R368), `lastAcc` the accumulator whose operation the engine stepped last (R334). -/
structure Core where
  l1 : List L1Line
  icache : List L1Line
  locked : List LockedLine
  vTen : Tbl Nat
  sTen : Tbl Nat
  rowTen : Tbl Nat
  accTen : Tbl Nat
  queues : List (List CopyCmd)
  shares : Tbl Share
  busyUntil : Nat
  lastServed : Nat
  fenced : Bool
  issued : List (Nat × Nat) := []
  lastAcc : Nat := 3
  deriving DecidableEq, Repr

/-- A translation held by a cluster TLB (R159): a leaf and the S bit that governs its page (R430). -/
structure TlbEntry where
  cluster : Nat
  asn : Nat
  vpage : Nat
  large : Bool
  leaf : DWord
  stable : Bool
  deriving DecidableEq, Repr

/-! ### Faults reported to system software -/

/-- A reported fault (R482, R483): the fields of its entry and whether it waits for an answer. -/
structure FaultRec where
  id : Nat
  kind : Nat
  core : Nat
  asn : Nat
  ten : Nat
  job : Nat
  need : Nat
  addr : Nat
  grid : Nat
  written : Bool
  open_ : Bool
  deriving DecidableEq, Repr

structure FaultQ where
  base : DWord
  size : Nat
  widx : Nat
  ridx : Nat
  nextId : Nat
  recs : List FaultRec
  deriving DecidableEq, Repr

/-! ### Grids, graphs, jobs, Millrace, the dispatcher -/

/-- A grid's place: in Millrace (R362), held by the dispatcher (R366), finished. -/
inductive GridPlace where
  | millrace | dispatcher | done
  deriving DecidableEq, Repr

/-- A flushed block awaiting its restart (R403): its index and virtual core. -/
structure Flushed where
  index : Nat
  vcore : Nat
  deriving DecidableEq, Repr

/-- A grid (R23, R28, R31, R361, R395); `visited` holds the cores on which a block of it was placed (R162), `early` the blocks placed ahead of their turn
(R420), `thread` and
`entered` the queue thread that launched it and the clock (R362), `lines` those that blocks which have left wrote and that are not yet
committed (R29). -/
structure Grid where
  recVa : Nat
  queue : Nat
  tag : Nat
  asn : Nat
  root : Nat
  ten : Nat
  job : Nat
  graph : Nat
  kern : Kern
  gdim : Nat × Nat × Nat
  bdim : Nat × Nat × Nat
  args : List Word
  coop : Bool
  pack : Bool
  tick : Bool
  service : Bool
  bounded : Bool
  bound : Nat
  ptotal : Nat
  rank : Nat
  arrival : Nat
  release : Option Nat
  cpu : Nat
  left : Nat
  nextIndex : Nat
  flushed : List Flushed
  place : GridPlace
  cancelled : Bool
  trapcode : Nat
  aborts : Nat
  anyAbort : Bool
  preempted : Bool
  missed : Bool
  dataLoss : Bool
  recFault : Option Nat
  remote : List Nat
  marks : List Nat
  visited : List Nat
  thread : Nat := 0
  entered : Nat := 0
  lines : List Nat := []
  early : List Nat := []
  deriving DecidableEq, Repr

structure Graph where
  job : Nat
  number : Nat
  left : Nat
  closed : Bool
  deriving DecidableEq, Repr

/-- A job (R360); `serial` tells it from a later job of its number. -/
structure Job where
  number : Nat
  asn : Nat
  ten : Nat
  left : Nat
  closed : Bool
  serial : Nat := 0
  deriving DecidableEq, Repr

/-- Resources reserved on a core for the block `index` of the incoming grid (R400, R420), and the block that was placed in them. -/
structure Reserve where
  grid : Nat
  core : Nat
  victims : List Nat
  placed : Bool
  blk : Nat := 0
  index : Nat := 0
  deriving DecidableEq, Repr

structure Dispatcher where
  held : List Nat
  headGrid : Option Nat
  headSince : Nat
  lastCluster : Tbl Nat
  weirDone : Option Nat
  reserves : List Reserve
  deriving DecidableEq, Repr

/-- A saved block's image (R413, R414): the block as it stands, the accesses and commands it takes with it, its place in
the Granary and its sequence number. -/
structure SavedImage where
  blk : Block
  id : Nat
  seq : Nat
  size : Nat
  chunks : List Nat
  cmds : List (Nat × CopyCmd)
  replays : List Replay
  lockRuns : List (Nat × Nat)
  deriving DecidableEq, Repr

/-! ### The command processor -/

/-- A queue's binding (R441), with the serial of its job (R360). -/
structure Binding where
  root : Nat
  asn : Nat
  ten : Nat
  job : Nat
  serial : Nat := 0
  deriving DecidableEq, Repr

/-- The packet a queue thread holds (R355, R358): `met` is a WAIT whose counter has reached zero, `refusing` a refused LAUNCH whose
record waits for its page (R359), `retry` one whose access is to be performed again (R359), `sent` a SIGNAL whose flush markers are out (R249), `held` one whose line waits for sectors (R174),
with the value that it wrote. -/
inductive Pending where
  | wait
  | met
  | cancel (grids : List Nat)
  | signal (grids : List Nat)
  | tickalign (until_ : Nat)
  | bind
  | launch
  | fault (id : Nat)
  | refusing (code id : Nat)
  | retry
  | sent (tags : List Nat)
  | held (line : Nat) (value : DWord)
  deriving DecidableEq, Repr

/-- A mapped queue (R351, R352). -/
structure Queue where
  thread : Nat
  ring : Nat
  rsize : Nat
  priv : Bool
  prio : Nat
  ten : Nat
  rankprog : Nat
  ridx : Nat
  widx : Nat
  status : Nat
  lasterr : Nat
  lasttag : Nat
  rankfault : Bool
  binding : Option Binding
  pending : Option Pending
  deriving DecidableEq, Repr

/-- A loaded code object (R463): its address space, address, size, the addresses of its kernel descriptors and code section
(Table 19-3), its bindings (feature bit, routine address), and whether it was measured for a service grid (R450). -/
structure Object where
  asn : Nat
  va : Nat
  size : Nat
  kdesc : Nat
  kcount : Nat
  code : Nat
  binds : List (Nat × Nat)
  measured : Bool
  deriving DecidableEq, Repr

/-- A registered emulation routine (R464). -/
structure Routine where
  asn : Nat
  bit : Nat
  va : Nat
  vregs : Nat
  sregs : Nat
  deriving DecidableEq, Repr

/-- The firmware services with their request bodies (Table 19-7). -/
inductive Service where
  | attest (nonce : List Byte)
  | mapQueue (queue : Nat)
  | unmapQueue (queue : Nat)
  | load (asn va size : Nat)
  | unload (asn va : Nat)
  | registerEmulation (asn bit va offset vregs sregs : Nat)
  | handover (slot : Nat)
  | flashWrite (slot offset : Nat) (data : List Byte)
  | regRead (offset : Nat)
  | regWrite (offset : Nat) (value : DWord)
  | memWrite (address : Nat) (data : List Byte)
  | memRead (address length : Nat)
  | notOffered (service : Nat)
  deriving DecidableEq, Repr

/-- A request accepted and not yet answered (R458). The first of a session is being performed once `begun`; `tags` are the
flush markers that a write of another module's memory waits for. -/
structure ServiceReq where
  session : Nat
  id : Nat
  req : Service
  begun : Bool
  tags : List Nat
  deriving DecidableEq, Repr

/-! ### Sessions, identity, flash -/

inductive SessionPhase where
  | offered | ready | rekeying
  deriving DecidableEq, Repr

/-- A session (R453, R456, R457); `port` is none for the host port, `transcript` holds the bodies of its HELLO and OFFER, which the
peer signs. -/
structure Session where
  number : Nat
  port : Option Nat
  phase : SessionPhase
  peerNonce : List Byte
  ownNonce : List Byte
  hostV : Nat
  fwV : Nat
  fabV : Nat
  prio : Nat
  lastIn : Nat
  nextOut : Nat
  keys : List Byte
  newKeys : List Byte
  transcript : List Byte := []
  deriving DecidableEq, Repr

/-- The secure element and the running firmware (R450 to R452). -/
structure Secure where
  rollback : Nat
  romm : List Byte
  fw : List Byte
  config : List Byte
  service : List Byte
  fwNew : List Byte
  handover : Bool
  slot : Nat
  svn : Nat
  deriving DecidableEq, Repr

/-! ### Frames and messages the module sends -/

/-- What a frame to the host says (R456, R458, R459). -/
inductive OutFrame where
  | report (session : Nat) (typ queue tag : Nat) (w1 w2 : DWord)
  | answer (session id service status : Nat) (body : List Byte)
  | message (session : Nat) (msg : Nat) (body : List Byte)
  deriving DecidableEq, Repr

/-- A frame as it leaves over the host port (R454): its EtherType, its 16-byte header, its counter (0 for a frame in clear, which has
none) and its payload as it travels, sealed or in clear. -/
structure HostFrame where
  etherType : Nat
  header : List Byte
  counter : Nat
  body : List Byte
  frame : OutFrame
  deriving DecidableEq, Repr

/-! ### Sheaf, collectives, Reed, fabric, health -/

/-- A put in flight (R388). -/
structure Put where
  id : Nat
  group : Nat
  ten : Nat
  blk : Nat
  wave : Nat
  dst : Nat
  items : List (Nat × Nat × DWord)
  deriving DecidableEq, Repr

/-- A Sheaf group (Tables 15-4, 15-5): its configuration word, its state, counts, errors and lists, and the items that each list
has taken in. -/
structure Sheaf where
  cfg : DWord
  state : Nat
  producers : Nat
  takers : Nat
  regerr : Bool
  fullerr : Bool
  lists : Tbl (List DWord)
  used : Tbl Nat
  deriving DecidableEq, Repr

/-- A fragment of a collective that arrived: its number, tree node, offset, data. -/
structure CollPart where
  num : Nat
  node : Nat
  off : Nat
  data : List Byte
  deriving DecidableEq, Repr

/-- A collective group: its registers, the number of collectives issued on it so far by this module (R221), and the
fragments that arrived for collectives not yet complete. -/
structure CollGroup where
  cfg : DWord
  map : List DWord
  count : Nat
  inbox : List CollPart
  deriving DecidableEq, Repr

/-- A line in the L2 (R163 to R166): its local number, its way, and whether it is retained. -/
structure L2Line where
  line : Nat
  way : Nat
  retained : Bool
  deriving DecidableEq, Repr

/-- A line whose committed content in HBM is not its value: dirty in the L2, or held by the controller (R167, R174). -/
structure Lag where
  committed : List Byte
  held : Bool
  job : Nat
  arrival : Nat
  deriving DecidableEq, Repr

/-- A page move (R176): the leaf's address, the source (a local address), the destination. -/
structure Move where
  pte : Nat
  src : Nat
  dst : Nat
  large : Bool
  software : Bool
  deriving DecidableEq, Repr

/-- Reed and its registers (Tables 6-4 to 6-8); `hand` is the frame its sweep stands at (R175), `flushFrom`, `flushCount` and
`flushDrop` the flush that runs (R182), `hot` the accessed frames that the sweep has met since its last cold one (R178). -/
structure Reed where
  poolFree : List Nat
  poolLow : List Nat
  poolHigh : List Nat
  t2Count : Nat
  t2Base : DWord
  t2Cap : Nat
  pushErr : Bool
  exhausted : Bool
  movePte : DWord
  moveDst : DWord
  moveResult : Nat
  flushAddr : DWord
  flushLines : Nat
  flushInv : Bool
  flushBusy : Bool
  accessed : List Nat
  moves : List Move
  working : List Bool
  hand : Nat := 0
  flushFrom : Nat := 0
  flushCount : Nat := 0
  flushDrop : Bool := false
  hot : Nat := 0
  deriving DecidableEq, Repr

/-- A write sent to another module, under its tag: whose it is, should its address be refused there (R509). -/
structure SentWrite where
  core : Nat
  asn : Nat
  ten : Nat
  job : Nat
  rec_ : Nat
  va : Nat
  need : Nat := 2
  deriving DecidableEq, Repr

/-- The accesses of a core to a line of another module that are in flight, by the tags of their packets: they take one path (R248). -/
structure Pin where
  core : Nat
  dst : Nat
  line : Nat
  path : Nat
  tags : List Nat
  deriving DecidableEq, Repr

/-- A sequence in the retry buffer: its number, its packet and its bytes (R508). -/
structure Unacked where
  seq : Nat
  packet : FabPacket
  bytes : List Byte
  deriving DecidableEq, Repr

/-- A fabric port (R497, R508, R511). `nakAt` is the number last asked for again and `retries` how often its sequence was
sent again in vain; `sessIn` and `sessOut` are SESSION packets received and to be sent; `msg` is the message being put together.
`rx` holds the bytes of a packet that continues into the next sequence, `bufs` the packets that occupy its receive buffers, `oweReq`,
`oweRep` and `oweAck` what it has to return, `peer` the module at the far end, `wire` the sequences that it sent. -/
structure FabPort where
  trained : Bool
  lanes : Nat
  fenced : Bool
  ready : Bool
  peerV : Nat
  nextSend : Nat
  nextRecv : Nat
  discarding : Bool
  unacked : List Unacked
  credReq : Nat
  credRep : Nat
  nakAt : Option Nat
  retries : Nat
  sessIn : List FabPacket
  sessOut : List FabPacket
  msg : List (Nat × List Byte)
  msgLen : Nat
  rx : List Byte := []
  bufs : List FabPacket := []
  oweReq : Nat := 0
  oweRep : Nat := 0
  oweAck : Bool := false
  peer : Nat := 0
  wire : List (List Byte) := []
  deriving DecidableEq, Repr

/-- A log record (Table 22-2). -/
structure LogRec where
  clock : Nat
  job : Nat
  synd : Word
  addr : Nat
  seq : Nat
  cls : Nat
  unit : Nat
  num : Nat
  deriving DecidableEq, Repr

/-- Health, its log and counters; `dumps` holds the place and size of each dump that is held (R22). -/
structure Health where
  replace : Bool
  dump : Bool
  clusters : List Nat
  fencedStacks : List Nat
  dumpBase : DWord
  dumps : List (Nat × Nat) := []
  counters : List Nat
  log : List LogRec
  logSeq : Nat
  unitErrs : Tbl Nat
  deriving DecidableEq, Repr

/-- The governor and the monitors; `railsBad` holds the rails outside their windows, each with the clock at which it left. -/
structure Power where
  limit : Nat
  now : Nat
  paceClocks : Nat
  pacing : Bool
  overSince : Option Nat
  therm : Bool
  railsBad : List (Nat × Nat)
  deriving DecidableEq, Repr

/-- Device registers that only hold a value: tenancies, core sets, partitions, owner table, Granary, Weir. -/
structure Dev where
  tenCfg : List DWord
  tenRoot : List DWord
  cset : List (List DWord)
  l2Part : List Nat
  ownerBase : DWord
  granaryBase : DWord
  granaryChunks : Nat
  granaryFree : List Nat
  weirDispatch : Nat
  weirCount : Nat
  moduleNum : Nat
  qdescBase : DWord
  fabRoute : Tbl Nat
  retireUse : List Nat
  deriving DecidableEq, Repr

/-! ### The issue of one chain group -/

/-- The chain-group slot an instruction is performed for: the wave, the slot and its word, the flag the control word
selects for it, the threads that issue it, and the wave's registers and predicates as they stood when the group began
(every source of a group is read before any destination is written, R66); operations numbered from `opBase` on belong to the
group itself; `pend` holds the long-latency results that were pending then (R60). -/
structure Cur where
  blk : Nat
  wave : Nat
  pc : DWord
  slot : Nat
  word : DWord
  flag : Nat
  lanes : Lanes
  v : RegFile
  s : RegFile
  preds : List (BitVec 16)
  opBase : Nat
  pend : List (Nat × Option Word) := []
  deriving DecidableEq, Repr

/-- What became of the chain group: it goes on, it took a trap, some of its threads took one and the others go on (R375),
it is held and has not issued (R210), the whole wave waits until it issues (R380), it stops after a slot that holds the wave in place
(R39), or the machine halts (R491). -/
inductive GroupNote where
  | fine
  | raised (t : TrapInfo)
  | split (t : TrapInfo)
  | held
  | stalled
  | cut
  | halted (arg : Nat)
  deriving DecidableEq, Repr

/-- A place in which the code finds an error (R493): of a core's own storage a register of a lane, a scalar register, a byte of the
scratchpad, an element of an accumulator, a line of the L1 or of the instruction cache; and a line of the memory, or the L2, that a unit
reads whose events do not say what the code finds (a page walk, the command processor, the collective engine), for `grid`, or for none. -/
inductive Cell where
  | vreg (blk wave reg lane : Nat)
  | sreg (blk wave reg : Nat)
  | spad (blk addr : Nat)
  | acc (blk n key : Nat)
  | l1 (core asn vline : Nat)
  | code (core asn vline : Nat)
  | home (line : Nat) (inL2 : Bool) (grid : Nat)
  deriving DecidableEq, Repr

/-- What moves next: an event or an outside input, the next chain group of a wave, an eviction from an L1, an instruction cache
or the L2, the performing of some lanes of a request apart from the others, an error that a read of a core's own storage, or of a unit, finds,
corrected or not (R493), power that is lost in the middle of a hand-over's commit (R452), or clocks that pass. The order in which agents act is plain data (notes/assumptions/4.md). -/
inductive Action where
  | event (i : Instr)
  | issue (blk wave : Nat)
  | evict (core asn vline : Nat)
  | evictCode (core asn vline : Nat)
  | writeback (line : Nat)
  | part (req : Nat) (lanes : Lanes)
  | decay (cell : Cell) (corrected : Bool)
  | powerCut
  | clocks (n : Nat)
  deriving DecidableEq, Repr

/-! ### The module -/

structure State where
  /- time, power, reset -/
  clock : Nat
  tick : Nat
  tickPeriod : Nat
  tickSpacing : Nat
  lastTick : Nat
  refillDue : Bool
  startup : Nat
  resetLow : Bool
  presented : Nat
  power : Power
  /- memory -/
  mem : List Host.Cell
  lag : Tbl Lag
  l2 : List L2Line := []
  slices : Tbl Nat := []
  reed : Reed
  /- units -/
  cores : Tbl Core
  tlb : List TlbEntry
  blocks : Tbl Block
  reqs : Tbl Req
  replays : List Replay
  puts : List Put
  sheafs : Tbl Sheaf
  colls : Tbl CollGroup
  nextBlock : Nat
  nextId : Nat
  /- progress -/
  grids : Tbl Grid
  nextGrid : Nat
  arrivals : Nat
  graphs : List Graph
  jobs : List Job
  disp : Dispatcher
  images : List SavedImage
  saveSeq : Nat
  queues : Tbl Queue
  qSess : Tbl Nat := []
  /- isolation and recovery -/
  dev : Dev
  faultq : FaultQ
  objects : List Object
  routines : List Routine
  services : List ServiceReq
  flash : List (Tbl Byte)
  secure : Secure
  cfg : Option SignedConfig
  sessions : List Session
  nextSession : Nat
  pfcPaused : BitVec 8
  pfcEnds : Tbl Nat := []
  health : Health
  ports : Tbl FabPort
  fabIn : List FabPacket
  fabOut : List FabPacket
  marks : List (Nat × Nat)
  markPath : Tbl Nat := []
  markOps : Tbl (List Nat)
  fabHeld : List (Nat × Nat × Nat) := []
  nextTag : Nat
  sent : Tbl SentWrite
  pins : List Pin := []
  out : List HostFrame
  outHeld : List (Nat × HostFrame) := []
  /- the issue in progress, and the model's own fields -/
  cur : Option Cur
  note : GroupNote
  agenda : List Action
  fresh : Nat
  deriving DecidableEq, Repr

/-! ### Reset -/

def Reed.reset : Reed :=
  { poolFree := List.replicate 16 0, poolLow := List.replicate 16 0, poolHigh := List.replicate 16 1, t2Count := 0,
    t2Base := 0, t2Cap := 0, pushErr := false, exhausted := false, movePte := 0, moveDst := 0, moveResult := 0,
    flushAddr := 0, flushLines := 0, flushInv := false, flushBusy := false, accessed := [], moves := [],
    working := List.replicate 16 false }

def Health.reset : Health :=
  { replace := false, dump := false, clusters := [], fencedStacks := [], dumpBase := 0, counters := List.replicate 13 0,
    log := [], logSeq := 0, unitErrs := [] }

def Power.reset : Power :=
  { limit := 8000, now := 0, paceClocks := 0, pacing := false, overSince := none, therm := false, railsBad := [] }

/-- TEN_CFGn after reset: WAYS 0xFFFF, every other field 0 (Table 18-5). -/
def Dev.reset : Dev :=
  { tenCfg := List.replicate 16 0xFFFF0000#64, tenRoot := List.replicate 16 0,
    cset := List.replicate 16 (List.replicate 10 0), l2Part := List.replicate 16 0xFFFF, ownerBase := 0,
    granaryBase := 0, granaryChunks := 0, granaryFree := [], weirDispatch := 1400, weirCount := 0, moduleNum := 0,
    qdescBase := 0, fabRoute := [], retireUse := List.replicate 16 0 }

def FaultQ.reset : FaultQ := { base := 0, size := 0, widx := 0, ridx := 0, nextId := 0, recs := [] }

/-- The secure element after reset: SERVICE is 64 zero bytes (R450); the other measurements are taken at boot. -/
def Secure.reset : Secure :=
  { rollback := 0, romm := [], fw := [], config := [], service := List.replicate 64 0, fwNew := [], handover := false,
    slot := 0, svn := 0 }

def Dispatcher.reset : Dispatcher := { held := [], headGrid := none, headSince := 0, lastCluster := [], weirDone := none, reserves := [] }

/-- The machine right after reset (R21 step 1): every core, engine and queue idle, no block resident, the host port and
the fabric ports down, every register at the value its field map gives (notes/assumptions/1.md and 5.md). Nothing is written to memory for the queue
descriptors, whose fields Table 14-2 resets (notes/assumptions/62.md). -/
def State.reset : State :=
  { clock := 0, tick := 0, tickPeriod := 33333, tickSpacing := 33333, lastTick := 0, refillDue := false, startup := 1, resetLow := true,
    presented := 768, power := Power.reset, mem := [], lag := [], reed := Reed.reset, cores := [],
    tlb := [], blocks := [], reqs := [], replays := [], puts := [], sheafs := [], colls := [], nextBlock := 1, nextId := 1,
    grids := [], nextGrid := 1, arrivals := 0, graphs := [], jobs := [], disp := Dispatcher.reset, images := [],
    saveSeq := 0, queues := [], dev := Dev.reset, faultq := FaultQ.reset, objects := [], routines := [], services := [],
    flash := [[], [], []], secure := Secure.reset, cfg := none, sessions := [], nextSession := 1, pfcPaused := 0,
    health := Health.reset, ports := [], fabIn := [], fabOut := [], marks := [], markOps := [], nextTag := 1, sent := [], out := [],
    cur := none, note := .fine, agenda := [], fresh := 0 }

/-! ### Stops -/

/-- Why the machine stops with a fault. -/
inductive Fault where
  /-- A wave, block or lane that the issue in progress names is not there: raised by the operations that read the issue
  context; no run from a state the step makes reaches it. Safe: the machine stops. -/
  | lostContext
  deriving DecidableEq, Repr

/-- Why a step has no meaning. -/
inductive Refusal where
  /-- The instruction of this mnemonic has no meaning yet. Safe. -/
  | notModelled (mnemonic : String)
  /-- The event's conditions in the spec do not hold, or no wave is issuing the instruction: such a step never comes
  about (notes/assumptions/17.md). Safe: nothing is claimed of it. -/
  | notEnabled (name : String)
  deriving DecidableEq, Repr

end Sys2Proof.Machine
end

