-- ==== Sys2Proof/Machine/Mem.lean ====
section
/-! DEFINITION. Machine/Mem.lean: memory in canonical form, physical addresses (R145 to R148), line encodings and sector
pools (R168 to R174), page tables and TLBs (R159, R429 to R434). -/

namespace Sys2Proof.Machine

/-! ### Bytes -/

/-- The byte at an address; an unlisted one reads 0 (notes/assumptions/2.md). -/
def memGet (m : List Host.Cell) (a : Nat) : Byte := (Tbl.get m a).getD 0

/-- The memory with `b` at `a`, in canonical form. -/
def memPut (m : List Host.Cell) (a : Nat) (b : Byte) : List Host.Cell :=
  if b = 0 then Tbl.del m a else Tbl.put m a b

/-- Canonical form: addresses strictly rise, and no byte equal to what an unlisted address reads as is listed. -/
def Memory.wf (m : List Host.Cell) : Bool := Tbl.sorted m && List.all m (fun c => c.2 != 0)

/-- The `n` bytes from `a` on. -/
def memRead (m : List Host.Cell) (a n : Nat) : List Byte := (List.range n).map (fun i => memGet m (a + i))

/-- The bytes `bs` stored from `a` on. -/
def memWrite (m : List Host.Cell) (a : Nat) : List Byte → List Host.Cell
  | [] => m
  | b :: bs => memWrite (memPut m a b) (a + 1) bs

/-- The `n` bytes from `src` copied to `dst`, cell by cell (a page copy, R176). -/
def memMove (m : List Host.Cell) (src dst n : Nat) : List Host.Cell :=
  let cleared := List.filter (fun c => c.1 < dst || dst + n ≤ c.1) m
  (List.filter (fun c => src ≤ c.1 && c.1 < src + n) m).foldl (fun acc c => memPut acc (dst + (c.1 - src)) c.2) cleared

def State.rd (s : State) (a n : Nat) : List Byte := memRead s.mem a n
def State.rdNat (s : State) (a n : Nat) : Nat := natOfBytes (s.rd a n)
def State.rd64 (s : State) (a : Nat) : DWord := BitVec.ofNat 64 (s.rdNat a 8)

/-! ### Physical addresses -/

/-- What a physical address names (Table 6-1, R146). -/
inductive Region where
  | hbm | tier2 | dev | remote | bad
  deriving DecidableEq, Repr

/-- Bits [44:0] and [51:45] (R145). -/
def localOf (pa : Nat) : Nat := pa % 35184372088832
def moduleOf (pa : Nat) : Nat := pa / 35184372088832

/-- The presented capacity in bytes (R12), a whole number of GiB (DESIGN CHOICE, notes/assumptions/63.md). -/
def State.hbmBytes (s : State) : Nat := s.presented * 1073741824

/-- Whether a fabric port is fenced (R497). -/
def State.portFenced (s : State) (p : Nat) : Bool := (s.ports.get p).elim false (fun x => x.fenced)

/-- The valid paths to a module over ports that are not fenced (R146, R498, R510), each with its port: key 16 m + p holds
FAB_ROUTEm_p. -/
def State.paths (s : State) (m : Nat) : List (Nat × Nat) :=
  (s.dev.fabRoute.filter (fun e => e.1 / 16 = m && e.2 / 2 ^ 15 % 2 = 1 && !s.portFenced (e.2 % 64))).map
    (fun e => (e.1 % 16, e.2 % 64))

def State.hasRoute (s : State) (m : Nat) : Bool := !(s.paths m).isEmpty

def State.region (s : State) (pa : Nat) : Region :=
  let l := localOf pa
  let m := moduleOf pa
  if 128 ≤ m then .bad
  else if m ≠ s.dev.moduleNum then
    if !s.hasRoute m then .bad
    else if l < Config.t2End then .remote else if l < Config.devEnd then .dev else .bad
  else if l < s.hbmBytes then .hbm
  else if l < Config.t2Base then .bad
  else if l < Config.t2End then .tier2
  else if l < Config.devEnd then .dev
  else .bad

/-- Presented HBM or tier-2 memory of this module. -/
def State.backed (s : State) (pa : Nat) : Bool := s.region pa = .hbm || s.region pa = .tier2

/-- The HBM stack of an address (R147). -/
def stackOf (pa : Nat) : Nat := Nat.xor (pa / 256 % 16) (pa / 65536 % 16)

/-- The home slice of a local line (R148). -/
def sliceOf (pa : Nat) : Nat :=
  Nat.xor (Nat.xor (Nat.xor (Nat.xor (pa / 128 % 256) (pa / 32768 % 256)) (pa / 8388608 % 256)) (pa / 2147483648 % 256))
    (localOf pa / 549755813888)

/-- The line that holds an address. -/
def lineOf (a : Nat) : Nat := a / 128

/-! ### Line encodings (Table 6-3) -/

/-- The elements of `e` bytes of a line. -/
def elems (e : Nat) (bs : List Byte) : List Nat :=
  (List.range (128 / e)).map (fun i => natOfBytes ((bs.drop (e * i)).take e))

/-- Every delta from the first element lies in the signed range of `d` bytes (R168). -/
def deltasFit (e d : Nat) (bs : List Byte) : Bool :=
  let xs := elems e bs
  let base := xs.headD 0
  xs.all (fun x =>
    let delta := (x + 256 ^ e - base) % 256 ^ e
    delta < 256 ^ d / 2 || 256 ^ e - 256 ^ d / 2 ≤ delta)

/-- The code the controller chooses: fewest sectors, then the lowest code (R169). -/
def lineCode (bs : List Byte) : Nat :=
  if bs.all (· == 0) then 0
  else if (elems 8 bs).all (· == (elems 8 bs).headD 0) then 1
  else if deltasFit 8 1 bs then 2
  else if deltasFit 8 2 bs then 3
  else if deltasFit 4 1 bs then 4
  else if deltasFit 4 2 bs then 5
  else if deltasFit 8 4 bs then 6
  else 7

/-- The sectors of a code. -/
def codeSectors (c : Nat) : Nat :=
  match c with
  | 0 => 0
  | 1 => 1
  | 2 => 1
  | 3 => 2
  | 4 => 2
  | 5 => 3
  | 6 => 3
  | _ => 4

def lineSectors (bs : List Byte) : Nat := codeSectors (lineCode bs)

/-- The content of a line that its sectors hold: the committed one of a dirty or held line (R167, R174). -/
def State.committed (s : State) (line : Nat) : List Byte :=
  match s.lag.get line with
  | some g => g.committed
  | none => s.rd (128 * line) 128

def State.setReed (s : State) (f : Reed → Reed) : State := { s with reed := f s.reed }

/-- The pool that serves a stack: a fenced stack's lines lie in the pool of its neighbour (Table 22-3). -/
def State.poolOf (s : State) (stack : Nat) : Nat := if s.health.fencedStacks.contains stack then Nat.xor stack 1 else stack

def State.poolFree (s : State) (stack : Nat) : Nat := s.reed.poolFree.getD (s.poolOf stack) 0

def State.setPool (s : State) (stack n : Nat) : State :=
  s.setReed (fun r => { r with poolFree := r.poolFree.set (s.poolOf stack) n })

/-- Whether a stack holds a held write (R174). -/
def State.stackHeld (s : State) (stack : Nat) : Bool := s.lag.any (fun e => e.2.held && stackOf (128 * e.1) = stack)

/-- Reed starts on a stack below POOL_LOW or with a held write, and stops at POOL_HIGH with none (R175). -/
def State.reedUpdate (s : State) : State :=
  s.setReed (fun r => { r with working := r.working.mapIdx (fun n w =>
    let free := s.poolFree n
    if w then !(r.poolHigh.getD n 0 ≤ free && !s.stackHeld n) else free < r.poolLow.getD n 0 || s.stackHeld n) })

/-- A job whose STORAGE_EXHAUSTED is not answered holds a write on a stack: its later writes that need sectors there are held
too (R178). -/
def State.exhausted (s : State) (job stack : Nat) : Bool :=
  s.faultq.recs.any (fun f => f.open_ && f.kind = 4 && f.job = job) &&
  s.lag.any (fun e => e.2.held && e.2.job = job && stackOf (128 * e.1) = stack)

/-- A controller access sets the access bit of its frame (R175). -/
def State.touchFrame (s : State) (line : Nat) : State :=
  s.setReed (fun r => { r with accessed := if r.accessed.contains (line / 512) then r.accessed else (line / 512) :: r.accessed })

/-- Commits the line's value to its sectors: the new run is taken before the old returns (R170); a write that the pool
cannot take is held (R174). `job` is charged if it stays held (R178). -/
def State.commitLine (s : State) (line job : Nat) : State :=
  let pa := 128 * line
  let old := lineSectors (s.committed line)
  let new := lineSectors (s.rd pa 128)
  let st := stackOf pa
  let free := s.poolFree st
  let s := s.touchFrame line
  let s := if new ≤ old then { s.setPool st (free + (old - new)) with lag := s.lag.del line }
    else if new ≤ free && !s.exhausted job st then { s.setPool st (free - new + old) with lag := s.lag.del line }
    else { s with lag := s.lag.put line { committed := s.committed line, held := true, job := job, arrival := s.fresh },
                  fresh := s.fresh + 1 }
  s.reedUpdate

/-- A wave's monitor sees a write by another party to its line (R383), unless it has ended (R384). `who` is the writing wave, if one. -/
def Wave.monSees (w : Wave) (line : Nat) (self : Bool) : Wave :=
  match w.mon with
  | some m => if m.line = line && !self && m.ended.isNone then { w with mon := some { m with hit := true } } else w
  | none => w

def State.monSees (s : State) (line : Nat) (who : Option (Nat × Nat)) : State :=
  { s with blocks := s.blocks.mapAll (fun b blk =>
      { blk with waves := blk.waves.mapIdx (fun i w => w.monSees line (who == some (b, i))) }) }

/-! ### The L2 (R163 to R167) -/

/-- How an access uses the L2: the ways it may allocate (R164; none under bypass), and what its policy makes of the line
(Table 6-2). -/
structure Alloc where
  ways : Nat
  retain : Bool
  first : Bool
  deriving DecidableEq, Repr

def Alloc.bypass : Alloc := ⟨0, false, false⟩
/-- An access outside every tenancy and partition: normal policy in every way (notes/assumptions/58.md). -/
def Alloc.all : Alloc := ⟨65535, false, false⟩

/-- Whether an address lies in a page that is MOVING (R176). -/
def Move.size (m : Move) : Nat := if m.large then 67108864 else 65536
def Move.covers (m : Move) (pa : Nat) : Bool := m.src ≤ pa && pa < m.src + m.size
def State.moving (s : State) (pa : Nat) : Bool := s.reed.moves.any (fun m => m.covers pa)

/-- The set of a line: 768 MiB over 256 home slices leave each 1,536 sets of 16 ways (Table 1-2, R148, R164; which set a line
has is open, notes/assumptions/58.md). -/
def l2Set (line : Nat) : Nat := 1536 * sliceOf (128 * line) + line / 256 % 1536

def State.l2Has (s : State) (line : Nat) : Bool := s.l2.any (fun e => e.line = line)

/-- Lines leave the L2 without a writeback. -/
def State.l2Drop (s : State) (p : Nat → Bool) : State := { s with l2 := s.l2.filter (fun e => !p e.line) }

/-- The lines that the controller of a stack holds, of the 1,024 it can hold (R179); one may serve two stacks (Table 22-3). -/
def State.heldOn (s : State) (stack : Nat) : Nat :=
  (s.lag.filter (fun e => e.2.held && s.poolOf (stackOf (128 * e.1)) = s.poolOf stack)).length
def State.ctlFull (s : State) (line : Nat) : Bool :=
  line < Config.t2Base / 128 && Config.heldLinesPerStack ≤ s.heldOn (stackOf (128 * line))

/-- Whether the L2 copy of a line is dirty. -/
def State.dirty (s : State) (line : Nat) : Bool := (s.lag.get line).elim false (fun g => !g.held)

/-- A dirty line is written back to its controller (R167), charged to the job that its write named. -/
def State.writeBack (s : State) (line : Nat) : State :=
  match s.lag.get line with
  | some g => if g.held then s else s.commitLine line g.job
  | none => s

/-- A line is evicted: a dirty one is written back, unless its controller is full and the writeback waits (R179). -/
def State.l2Evict (s : State) (line : Nat) : Option State :=
  if s.dirty line && s.ctlFull line then none else some ((s.writeBack line).l2Drop (· = line))

/-- Whether a way may be allocated. -/
def Alloc.way (a : Alloc) (w : Nat) : Bool := a.ways.testBit w

/-- A line enters a way. -/
def State.l2Put (s : State) (line way : Nat) (a : Alloc) : State :=
  { s with l2 := if a.first then ⟨line, way, a.retain⟩ :: s.l2 else s.l2 ++ [⟨line, way, a.retain⟩] }

/-- The victim of an allocation, the list standing least recently used first: a retained line only when every allowed way
holds one (Table 6-2). -/
def State.l2Victim (s : State) (line : Nat) (a : Alloc) : Option L2Line :=
  let mine := s.l2.filter (fun e => l2Set e.line = l2Set line && a.way e.way)
  match mine.find? (fun e => !e.retained) with
  | some e => some e
  | none => mine.head?

/-- A miss: a free allowed way takes the line, else the victim's way does. -/
def State.l2Alloc (s : State) (line : Nat) (a : Alloc) : State :=
  let used := (s.l2.filter (fun e => l2Set e.line = l2Set line)).map (fun e => e.way)
  match (List.range 16).find? (fun w => a.way w && !used.contains w) with
  | some w => s.l2Put line w a
  | none => match s.l2Victim line a with
    | some v => (match s.l2Evict v.line with
      | some t => t.l2Put line v.way a
      | none => s)
    | none => s

/-- An access of a line of this module at its home slice (R163 to R166): a hit is found in any way and makes the line the most
recently used; a miss reaches the controller; a page that is MOVING is treated as bypass (R176). -/
def State.l2Access (s : State) (line : Nat) (a : Alloc) : State :=
  match s.l2.find? (fun e => e.line = line) with
  | some e => { s with l2 := s.l2.filter (fun x => x.line ≠ line) ++ [{ e with retained := e.retained || a.retain }] }
  | none =>
    let t := s.touchFrame line
    if s.moving (128 * line) then t else t.l2Alloc line a

/-- The line of an access at its home; an address without a frame is of no line of the L2. -/
def State.l2Touch (s : State) (pa : Nat) (a : Alloc) : State :=
  if s.backed (s.dev.moduleNum * 35184372088832 + pa) then s.l2Access (lineOf pa) a else s

/-- The value of a line of HBM has changed: `before` is what its sectors hold. The line is dirty in the L2 or, not allocated there,
goes to its controller (R165, R167), unless the controller holds a write of it already; the latest write's job is charged (R412, R437). -/
def State.putDirty (s : State) (line job : Nat) (before : List Byte) (lagging : Bool) : State :=
  let g := (s.lag.get line).getD { committed := before, held := false, job := job, arrival := 0 }
  let t := { s with lag := s.lag.put line { g with job := job } }
  if !s.l2Has line && !lagging then t.commitLine line job else t

/-- A write of this module's memory (R232): the value changes, its line with it, and monitors of other parties see it. -/
def State.rawWrite (s : State) (pa : Nat) (bs : List Byte) (a : Alloc) (who : Option (Nat × Nat)) (job : Nat) : State :=
  let line := lineOf pa
  let t := s.l2Touch pa a
  let u := { t with mem := memWrite t.mem pa bs }
  let v := if s.region (s.dev.moduleNum * 35184372088832 + pa) = .hbm
    then u.putDirty line job (s.committed line) (s.lag.get line).isSome else u
  v.monSees (s.dev.moduleNum * 274877906944 + line) who

/-! ### Owner records (R435 to R437) -/

/-- The job and tenancy named in the frame's owner record, or none when the record is not valid. -/
def State.ownerOf (s : State) (pa : Nat) : Option (Nat × Nat) :=
  let l := localOf pa
  let idx := if l < Config.t2Base then l / 65536 % 2 ^ 25 else 2 ^ 25 + (l - Config.t2Base) / 65536
  let r := s.rdNat (localOf s.dev.ownerBase.toNat + 4 * idx) 4
  if r / 16 % 2 = 1 then some (r / 65536, r % 16) else none

/-- The job charged if a write stays held (R178, R437). -/
def State.chargedJob (s : State) (pa job : Nat) : Nat := (s.ownerOf pa).elim job (fun o => o.1)

/-! ### Queue descriptors (Table 14-2) -/

/-- The local address of a queue's descriptor. -/
def State.descOf (s : State) (q : Nat) : Nat := localOf s.dev.qdescBase.toNat + 64 * q

/-- The words of a descriptor that the device writes: RIDX and WIDX; LASTTAG, RANKFAULT, LASTERR and STATUS. -/
def Queue.indexWord (q : Queue) : Nat := q.ridx * 2 ^ 32 + q.widx
def Queue.statusWord (q : Queue) : Nat := q.lasttag * 2 ^ 48 + b2n q.rankfault * 65536 + q.lasterr * 256 + q.status

/-- Brings one word of a descriptor to a value. -/
def State.showWord (s : State) (a v : Nat) : State :=
  if s.rdNat a 8 = v then s else s.rawWrite a (bytesOfNat v 8) .all none (s.chargedJob a 0)

/-- The device's words of a mapped queue's descriptor brought up to date; its reserved fields read as zero. -/
def State.showQueue (s : State) (n : Nat) : State :=
  match s.queues.get n with
  | none => s
  | some q =>
    let a := s.descOf n
    let s := s.showWord (a + 8) (Nat.land (s.rdNat (a + 8) 8) 0x3FF1F)
    let s := (s.showWord (a + 16) q.indexWord).showWord (a + 32) q.statusWord
    ((s.showWord (a + 40) 0).showWord (a + 48) 0).showWord (a + 56) 0

/-- A write that covers a mapped queue's descriptor: WIDX takes what is written, writing 1 to RANKFAULT clears it, and the fields
that are read-only or reserved stand as before (Table 14-2). -/
def State.descWritten (s : State) (pa : Nat) (bs : List Byte) : State :=
  (s.queues.filter (fun e => pa < s.descOf e.1 + 64 && s.descOf e.1 < pa + bs.length)).foldl (fun t e =>
    let d := t.descOf e.1
    let clear := pa ≤ d + 34 && (bs.getD (d + 34 - pa) 0).getLsbD 0
    let widx := t.rdNat (d + 16) 4
    ({ t with queues := t.queues.upd e.1 (fun q => { q with rankfault := q.rankfault && !clear, widx := widx }) }).showQueue e.1) s

/-- A write becomes visible at its home in this module; the job that the frame's owner record names is charged, else that of its
writer (R437). -/
def State.homeWrite (s : State) (pa : Nat) (bs : List Byte) (a : Alloc) (who : Option (Nat × Nat)) (job : Nat) : State :=
  let t := s.rawWrite pa bs a who (s.chargedJob pa job)
  if s.queues.isEmpty then t else t.descWritten pa bs

/-- A write of any length, line by line; `fuel` bounds the lines. -/
def State.homeWriteAll (s : State) (pa : Nat) (bs : List Byte) (job : Nat) : Nat → State
  | 0 => s
  | fuel + 1 =>
    if bs.isEmpty then s
    else
      let n := 128 - pa % 128
      (s.homeWrite pa (bs.take n) .all none job).homeWriteAll (pa + n) (bs.drop n) job fuel

/-- The lines that `n` bytes from `pa` on can touch, at most. -/
def linesFor (n : Nat) : Nat := n / 128 + 2

/-- A write of the device or of service software. -/
def State.store (s : State) (pa : Nat) (bs : List Byte) (job : Nat) : State := s.homeWriteAll pa bs job (linesFor bs.length)

/-! ### Translation (R429 to R434) -/

/-- Bits [63:55] all equal (R429). -/
def canonicalNat (va : Nat) : Bool := va < 2 ^ 64 && (va / 2 ^ 55 = 0 || va / 2 ^ 55 = 511)

def canonicalInt (va : Int) : Bool := 0 ≤ va && canonicalNat va.toNat

/-- A walk's end. -/
inductive Walk where
  | leaf (entry : DWord) (large stable : Bool)
  | absent
  | malformed
  deriving DecidableEq, Repr

/-- Whether a leaf is well formed (R432). -/
def leafOk (e : DWord) (large : Bool) : Bool :=
  fld e 52 4 == 0 && fld e 7 9 == 0 && fld e 2 1 == 0 && (fld e 4 1 == 0 || fld e 3 1 == 1) && (!large || fld e 16 10 == 0)

/-- Whether a directory entry is well formed. -/
def dirOk (e : DWord) : Bool := fld e 52 12 == 0 && fld e 3 10 == 0

def dirNext (e : DWord) : Nat := (fld e 13 39).toNat * 8192

/-- The walk from a table of level `lvl` (4 - fuel + ...): one entry is read at its home at each level (R430). `sbit` is
the S bit of the entry that pointed here. -/
def State.walkFrom (s : State) (va table : Nat) (sbit : Bool) : Nat → Nat → Walk
  | _, 0 => .malformed
  | lvl, fuel + 1 =>
    if !s.backed table then .malformed
    else
      let idx := va / 2 ^ (16 + 10 * (4 - lvl)) % 1024
      let e := s.rd64 (localOf table + 8 * idx)
      if fld e 0 1 == 0 then .absent
      else if fld e 1 1 == 1 then
        if lvl ≤ 2 || !leafOk e (lvl == 3) then .malformed else .leaf e (lvl == 3) sbit
      else if lvl = 4 || !dirOk e then .malformed
      else s.walkFrom va (dirNext e) (fld e 2 1 == 1) (lvl + 1) fuel

def State.walk (s : State) (root va : Nat) : Walk := s.walkFrom va root false 1 4

/-- The physical address of the leaf entry of a page, for a page move (R181) and the owner of a leaf. -/
def State.walkLeafPa (s : State) (va table : Nat) : Nat → Nat → Option Nat
  | _, 0 => none
  | lvl, fuel + 1 =>
    if !s.backed table then none
    else
      let idx := va / 2 ^ (16 + 10 * (4 - lvl)) % 1024
      let a := localOf table + 8 * idx
      let e := s.rd64 a
      if fld e 0 1 == 0 then none
      else if fld e 1 1 == 1 then some a
      else s.walkLeafPa va (dirNext e) (lvl + 1) fuel

/-- The physical address a leaf gives (Table 18-3). -/
def leafPa (e : DWord) (large : Bool) (va : Nat) : Nat :=
  if large then (fld e 26 26).toNat * 67108864 + va % 67108864 else (fld e 16 36).toNat * 65536 + va % 65536

/-- The L2 partition, policy and attributes of a leaf. -/
def leafPol (e : DWord) : Nat := (fld e 58 2).toNat
def leafPart (e : DWord) : Nat := (fld e 60 4).toNat
def leafIds (e : DWord) : Bool := fld e 57 1 == 1
def leafNd (e : DWord) : Bool := fld e 56 1 == 1
def leafUser (e : DWord) : Bool := fld e 6 1 == 1

/-- The permission bits an access needs (Table 18-4). -/
structure Need where
  r : Bool
  w : Bool
  x : Bool
  deriving DecidableEq, Repr

def Need.load : Need := ⟨true, false, false⟩
def Need.store : Need := ⟨false, true, false⟩
def Need.rmw : Need := ⟨true, true, false⟩
def Need.fetch : Need := ⟨false, false, true⟩
/-- NEED of a fault entry (Table 21-6): bit 0 R, bit 1 W, bit 2 X. -/
def Need.code (n : Need) : Nat := b2n n.r + 2 * b2n n.w + 4 * b2n n.x

/-- Whether a leaf allows an access (R433). -/
def leafAllows (e : DWord) (user : Bool) (n : Need) : Bool :=
  (!n.r || fld e 3 1 == 1) && (!n.w || fld e 4 1 == 1) && (!n.x || fld e 5 1 == 1) && (!user || leafUser e)

/-- The outcome of translating an access: a physical address, a page not present, a denial with the subcode of a lane
access (Table 21-3), or the end of the job (R146, R432). -/
inductive Xl where
  | ok (pa : Nat) (leaf : DWord) (stable : Bool)
  | absent
  | denied (sub : Nat)
  | fatal
  deriving DecidableEq, Repr

/-- The leaf that translates an address: the cluster's TLB first (R159), then a walk. -/
def State.leafFor (s : State) (cluster : Option Nat) (asn root va : Nat) : Walk :=
  match cluster.bind (fun c => s.tlb.find? (fun t =>
      t.cluster = c && t.asn = asn && t.vpage = (if t.large then va / 67108864 else va / 65536))) with
  | some t => .leaf t.leaf t.large t.stable
  | none => s.walk root va

/-- Translates one access (R188 check 3, R433, R146). A device register access is denied in user privilege; in service
privilege the instruction that makes it decides (R512). -/
def State.xlate (s : State) (cluster : Option Nat) (asn root : Nat) (user : Bool) (n : Need) (va : Nat) : Xl :=
  match s.leafFor cluster asn root va with
  | .absent => .absent
  | .malformed => .fatal
  | .leaf e large stable =>
    let pa := leafPa e large va
    match s.region pa with
    | .bad => .fatal
    | .dev => if user then .denied 3 else if leafAllows e user n then .ok pa e stable else .denied 0
    | _ => if leafAllows e user n then .ok pa e stable else .denied 0

/-- Fills the cluster's TLB with the leaf of a page, the oldest entry leaving a full one (R159; notes/assumptions/10.md). -/
def State.tlbFill (s : State) (cluster asn root va : Nat) : State :=
  match s.leafFor (some cluster) asn root va with
  | .leaf e large stable =>
    let t : TlbEntry := { cluster := cluster, asn := asn, vpage := (if large then va / 67108864 else va / 65536),
                          large := large, leaf := e, stable := stable }
    if s.tlb.contains t then s
    else
      let mine := (s.tlb.filter (fun u => u.cluster = cluster)).take (Config.tlbEntries - 1)
      { s with tlb := t :: mine ++ s.tlb.filter (fun u => u.cluster ≠ cluster) }
  | _ => s

/-- A translation outside every cluster: the command processor's (R359) and a program's checks. -/
def State.xlateCp (s : State) (asn root : Nat) (user : Bool) (n : Need) (va : Nat) : Xl :=
  s.xlate none asn root user n va

end Sys2Proof.Machine
end

