-- ==== Sys2Proof/Machine/Ops.lean ====
section
/-! DEFINITION. Machine/Ops.lean: the named operations over blocks, waves and registers, taking a trap and returning from it
(R474 to R480), reporting faults (R482, R483), ending blocks, grids and jobs (R28 to R31, R478, R485). -/

namespace Sys2Proof.Machine

/-- The outcome of an instruction or event. -/
abbrev Out := Host.Outcome State Fault Refusal

/-! ### Registers -/

/-- A register's content: what was written, else what the grant left there (R44, R50). -/
def RegFile.read (f : RegFile) (reg key : Nat) : Word :=
  match f.cells.get key with
  | some x => x
  | none => if f.clear.getD reg false then 0 else Config.freeWord f.seed key

def RegFile.write (f : RegFile) (key : Nat) (x : Word) : RegFile := { f with cells := f.cells.put key x }

/-- The key of vector register `r` of lane `l`; scalar register `r` has key `r` in its own file. -/
def vkey (r l : Nat) : Nat := 32 * r + l

/-- The key under which a scalar register stands in lists of pending destinations. -/
def skey (r : Nat) : Nat := 8192 + r

def RegFile.vec (f : RegFile) (r l : Nat) : Word := f.read r (vkey r l)
def RegFile.scal (f : RegFile) (r : Nat) : Word := f.read r r

/-! ### Lists of waves and threads -/

/-- The list with element `i` changed by `f`. -/
def updAt {α : Type} (xs : List α) (i : Nat) (f : α → α) : List α := xs.mapIdx (fun j x => if j = i then f x else x)

def Wave.thread (w : Wave) (l : Nat) : Option Thread := w.threads[l]?
def Wave.updThread (w : Wave) (l : Nat) (f : Thread → Thread) : Wave := { w with threads := updAt w.threads l f }
/-- The threads of the lanes `m` changed by `f`. -/
def Wave.updLanes (w : Wave) (m : Lanes) (f : Thread → Thread) : Wave :=
  { w with threads := w.threads.mapIdx (fun l t => if hasLane m l then f t else t) }
/-- The lanes whose threads satisfy `p`. -/
def Wave.lanesWith (w : Wave) (p : Thread → Bool) : Lanes :=
  lanesOf (fun l => match w.threads[l]? with | some t => p t | none => false)
def Wave.finished (w : Wave) : Bool := w.threads.all (fun t => t.st == .exited)

def Block.wave (b : Block) (w : Nat) : Option Wave := b.waves[w]?
def Block.updWave (b : Block) (w : Nat) (f : Wave → Wave) : Block := { b with waves := updAt b.waves w f }

def State.block (s : State) (b : Nat) : Option Block := s.blocks.get b
def State.wave (s : State) (b w : Nat) : Option Wave := (s.block b).bind (fun x => x.wave w)
def State.updBlock (s : State) (b : Nat) (f : Block → Block) : State := { s with blocks := s.blocks.upd b f }
def State.updWave (s : State) (b w : Nat) (f : Wave → Wave) : State := s.updBlock b (fun x => x.updWave w f)
def State.updGrid (s : State) (g : Nat) (f : Grid → Grid) : State := { s with grids := s.grids.upd g f }
def State.core (s : State) (c : Nat) : Core :=
  (s.cores.get c).getD
    { l1 := [], icache := [], locked := [], vTen := [], sTen := [], rowTen := [], accTen := [], queues := [[], [], [], []], shares := [],
      busyUntil := 0, lastServed := 15, fenced := false }
def State.updCore (s : State) (c : Nat) (f : Core → Core) : State := { s with cores := s.cores.put c (f (s.core c)) }

/-- The cluster of a core (R10). -/
def clusterOf (core : Nat) : Nat := core / 4

/-! ### Pending results (R58, R60) -/

def SfuOp.keys (o : SfuOp) : List Nat :=
  (List.range o.regs).flatMap (fun i => (lanesIn o.lanes).map (fun l => vkey (o.dst + i) l))

/-- The value an operation of the SFU or `xperm` writes at a key. -/
def SfuOp.valueAt (o : SfuOp) (key : Nat) : Option Word :=
  (o.vals.find? (fun e => e.1 = key % 32)).map (fun e => if key / 32 = o.dst then loOf e.2 else hiOf e.2)

/-- The registers that `n` bytes occupy (R79). -/
def regsFor (n : Nat) : Nat := if n ≤ 4 then 1 else n / 4

/-- The keys a request will write. -/
def Req.keys (r : Req) : List Nat :=
  match r.dst with
  | .vec d => r.accs.flatMap (fun a => (List.range (regsFor a.n)).map (fun i => vkey (d + i) a.lane))
  | .scal d => r.accs.flatMap (fun a => (List.range (regsFor a.n)).map (fun i => skey (d + i)))
  | .blk d lanes => (lanesIn lanes).flatMap (fun l => [vkey d l, vkey (d + 1) l])
  | .none => []
  | .window _ => []

/-- The results of the SFU and of `xperm` that a wave has yet to receive, by key. -/
def Wave.sfuPending (w : Wave) : List (Nat × Option Word) := w.sfu.flatMap (fun o => o.keys.map (fun k => (k, o.valueAt k)))

/-- What a read of a register yields: its content, or under R60, while a long-latency result whose value is fixed is pending
there, either that content or the result (notes/assumptions/8.md). -/
def readPending (pend : List (Nat × Option Word)) (seed key : Nat) (old : Word) : Word :=
  match (pend.find? (fun e => e.1 = key)).bind Prod.snd with
  | none => old
  | some v => if Config.freeBit seed key then old else v

/-- Commands of a wave whose destination another instruction wrote (R60). -/
def Block.clobberEngine (b : Block) (w : Nat) (ks : List Nat) : Block :=
  { b with
    accs := b.accs.map (fun a => { a with queue := a.queue.map (fun c => match c.kind with
      | .flg v r cl => if v = w then { c with kind := .flg v r (cl || ks.contains (skey r)) } else c
      | _ => c) }),
    collWaits := b.collWaits.map (fun c =>
      if c.wave = w then { c with clobbered := c.clobbered ++ ks.filter (fun k => k = skey c.dst) } else c) }

/-- Records that another instruction wrote keys that long-latency operations of the wave will write (R60). -/
def State.clobber (s : State) (b w : Nat) (ks : List Nat) : State :=
  let s := s.updBlock b (fun x => (x.clobberEngine w ks).updWave w (fun wv => { wv with sfu := wv.sfu.map (fun o =>
    { o with clobbered := o.clobbered ++ ks.filter (fun k => o.keys.contains k) }) }))
  { s with reqs := s.reqs.mapAll (fun _ r =>
      if r.blk = b && r.wave = w then { r with clobbered := r.clobbered ++ ks.filter (fun k => r.keys.contains k) } else r) }

/-! ### Register writes of an instruction -/

/-- One register or predicate written. -/
inductive Wr where
  | v (r lane : Nat) (x : Word)
  | s (r : Nat) (x : Word)
  | p (lane k : Nat) (b : Bool)
  deriving DecidableEq, Repr

/-- The predicates with predicate `k` set to `b`. -/
def setPred (ps : BitVec 16) (k : Nat) (b : Bool) : BitVec 16 :=
  if b then ps ||| (1#16 <<< k) else ps &&& ~~~(1#16 <<< k)

def Wave.wr (w : Wave) : Wr → Wave
  | .v r l x => { w with v := w.v.write (vkey r l) x }
  | .s r x => { w with s := w.s.write r x }
  | .p l k b => w.updThread l (fun t => { t with preds := setPred t.preds k b })

def Wr.keys : Wr → List Nat
  | .v r l _ => [vkey r l]
  | .s r _ => [skey r]
  | .p _ _ _ => []

/-- Performs the writes of an instruction, in order (R60 kept by `clobber`). -/
def State.commit (s : State) (b w : Nat) (ws : List Wr) : State :=
  (s.updWave b w (fun wv => ws.foldl Wave.wr wv)).clobber b w (ws.flatMap Wr.keys)

/-- A result in a single register or a pair (R51). -/
def wrV (wide : Bool) (r lane : Nat) (x : DWord) : List Wr :=
  if wide then [.v r lane (loOf x), .v (r + 1) lane (hiOf x)] else [.v r lane (loOf x)]
def wrS (wide : Bool) (r : Nat) (x : DWord) : List Wr :=
  if wide then [.s r (loOf x), .s (r + 1) (hiOf x)] else [.s r (loOf x)]

/-! ### Wait flags (R58) -/

/-- Flag `n` becomes busy for operation `op`; flag 0 is none. -/
def State.setFlag (s : State) (b w n op : Nat) : State :=
  if n = 0 then s else s.updWave b w (fun wv => { wv with busy := wv.busy ++ [(n, op)] })

/-- The flags of an operation that has written its results clear. -/
def State.clearFlag (s : State) (b w op : Nat) : State :=
  s.updWave b w (fun wv => { wv with busy := wv.busy.filter (fun e => e.2 ≠ op) })

def Wave.flagBusy (w : Wave) (n : Nat) : Bool := w.busy.any (fun e => e.1 = n)

/-! ### Faults reported to system software (R482, R483) -/

def State.setFq (s : State) (f : FaultQ → FaultQ) : State := { s with faultq := f s.faultq }

/-- The four words of an entry (Table 21-6), in address order. -/
def FaultRec.words (f : FaultRec) : List DWord :=
  [BitVec.ofNat 64 (f.id * 2 ^ 32 + f.asn * 2 ^ 12 + f.ten * 2 ^ 8 + f.kind), BitVec.ofNat 64 f.addr,
   BitVec.ofNat 64 (f.need * 2 ^ 33 + f.core * 2 ^ 23 + f.job), BitVec.ofNat 64 f.grid]

/-- Whether the ring is set and has room (R482). -/
def FaultQ.room (q : FaultQ) : Bool :=
  6 ≤ q.size && q.size ≤ 16 && (q.widx + 2 ^ 32 - q.ridx) % 2 ^ 32 < 2 ^ q.size

/-- Writes the oldest held entry, if there is room. -/
def State.writeFault (s : State) : State :=
  match s.faultq.recs.find? (fun f => !f.written) with
  | none => s
  | some f =>
    if s.faultq.room then
      let a := s.faultq.base.toNat + 32 * (s.faultq.widx % 2 ^ s.faultq.size)
      let s := s.homeWrite (localOf a) (f.words.flatMap (fun x => bytesOfNat x.toNat 8)) .all none f.job
      s.setFq (fun q => { q with widx := (q.widx + 1) % 2 ^ 32,
                                 recs := (q.recs.map (fun g => if g.id = f.id then { g with written := true } else g)).filter
                                           (fun g => g.open_ || !g.written) })
    else s

/-- Writes every held entry that fits, in the order in which they arose. -/
def State.writeFaults (s : State) : State :=
  (List.range s.faultq.recs.length).foldl (fun t _ => t.writeFault) s

/-- The open fault that a new fault of kinds 1 to 3 joins: same core, address space and 64 KiB page (R483). -/
def State.joined (s : State) (kind core asn addr : Nat) : Option Nat :=
  if 1 ≤ kind ∧ kind ≤ 3 then
    (s.faultq.recs.find? (fun f => f.open_ && 1 ≤ f.kind && f.kind ≤ 3 && f.core = core && f.asn = asn &&
      f.addr / 65536 = addr / 65536)).map (fun f => f.id)
  else none

/-- Reports a fault and gives its ID; a joined one writes no entry. -/
def State.report (s : State) (kind core asn ten job need addr grid : Nat) (awaits : Bool) : Nat × State :=
  match s.joined kind core asn addr with
  | some id => (id, s)
  | none =>
    let id := s.faultq.nextId
    let f : FaultRec := { id := id % 2 ^ 32, kind := kind, core := core, asn := asn, ten := ten, job := job, need := need,
                          addr := addr % 2 ^ 64, grid := grid, written := false, open_ := awaits }
    (id, (s.setFq (fun q => { q with nextId := (id + 1) % 2 ^ 32, recs := q.recs ++ [f] })).writeFaults)

/-- The core number of an entry without a core (Table 21-6). -/
def noCore : Nat := 0x3FF

/-! ### Sheaf bits of a wave (R387) -/

/-- Clears the producer and taker bits of a wave that finishes, aborts or is cancelled, lowering the counts. -/
def State.dropSheafBits (s : State) (b w : Nat) : State :=
  match s.wave b w with
  | none => s
  | some wv =>
    let s := { s with sheafs := s.sheafs.mapAll (fun g sh =>
      { sh with producers := sh.producers - b2n (wv.producer.getLsbD g), takers := sh.takers - b2n (wv.taker.getLsbD g) }) }
    s.updWave b w (fun x => { x with producer := 0, taker := 0 })

/-! ### Ending blocks (R30, R478) -/

/-- A copy or collective command that goes on to completion after its block ends (R30 step 4). -/
def CopyCmd.outlives (c : CopyCmd) : Bool :=
  c.begun && match c.kind with
    | .st => true
    | .sct => true
    | .collAr _ _ => true
    | .collBc _ => true
    | _ => false

/-- A wave of a block that ended: nothing of it issues or waits any more. -/
def Wave.halted (w : Wave) : Wave :=
  { w with issue := none, mon := none, monWait := [], take := [], sleep := none, hold := .none, sfu := [], busy := [],
           acq := [], cancels := [] }

/-- Steps 2 to 5 of R30 for one block: no group issues, replay entries and requests that have not left the core are
discarded with loads, commands not begun are discarded, a fill stops, matrix work stops, rounds end and their registers are FREE
(R319, R323), Sheaf bits clear. -/
def State.stopBlock (s : State) (b : Nat) : State :=
  match s.block b with
  | none => s
  | some blk =>
    let keepCmd := fun (c : CopyCmd) => c.blk ≠ b || c.outlives
    let kept := ((s.core blk.core).queues.flatten.filter keepCmd).map (fun c => c.id)
    let goes := fun (r : Req) => r.blk ≠ b ||
      (match r.cmd with
       | some c => kept.contains c
       | none => r.sent && (match r.kind with
          | .store => true
          | .storeBlk => true
          | .atomic _ _ => true
          | .red _ _ => true
          | _ => false))
    let s := (List.range blk.waves.length).foldl (fun t w => t.dropSheafBits b w) s
    let s := { s with reqs := s.reqs.filter (fun e => goes e.2),
                      replays := s.replays.filter (fun r => r.blk ≠ b) }
    let s := s.updCore blk.core (fun c => { c with queues := c.queues.map (fun q => q.filter keepCmd) })
    s.updBlock b (fun x => { x with waves := x.waves.map Wave.halted, convs := x.convs.map (fun _ => .free), tileOps := [],
                                    collWaits := [], accs := x.accs.map (fun a => { a with queue := [] }), fences := [] })

/-- A block aborts with a trap code (R478): its grid records the first abort and counts it (R31). -/
def State.abortBlock (s : State) (b code : Nat) : State :=
  match s.block b with
  | none => s
  | some blk =>
    if blk.cancelled || blk.aborted.isSome then s
    else
      let s := (s.stopBlock b).updBlock b (fun x => { x with aborted := some code })
      s.updGrid blk.grid (fun g => { g with trapcode := (if g.anyAbort then g.trapcode else code), anyAbort := true,
                                            aborts := min 255 (g.aborts + 1) })

/-- A block is cancelled (R30); one that is being saved first completes the steps of R405 and R406 (R417). -/
def State.cancelBlock (s : State) (b : Nat) : State :=
  match s.block b with
  | none => s
  | some blk =>
    if blk.cancelled || blk.aborted.isSome then s
    else (if blk.mode == .saving then s else s.stopBlock b).updBlock b (fun x => { x with cancelled := true })

/-- The resident blocks of a grid. -/
def State.blocksOf (s : State) (g : Nat) : List Nat := (s.blocks.filter (fun e => e.2.grid = g)).map Prod.fst

/-- The Sheaf bits of a saved block that ends: the counts of its groups fall (R387, R391). -/
def State.dropImageBits (s : State) (blk : Block) : State :=
  { s with sheafs := s.sheafs.mapAll (fun k sh =>
      { sh with producers := sh.producers - (blk.waves.filter (fun w => w.producer.getLsbD k)).length,
                takers := sh.takers - (blk.waves.filter (fun w => w.taker.getLsbD k)).length }) }

/-- The saved images of a grid are discarded and their chunks freed (R412). -/
def State.dropImages (s : State) (g : Nat) : State :=
  let gone := s.images.filter (fun i => i.blk.grid = g)
  let s := gone.foldl (fun t i => t.dropImageBits i.blk) s
  { s with images := s.images.filter (fun i => i.blk.grid ≠ g),
           dev := { s.dev with granaryFree := s.dev.granaryFree ++ gone.flatMap (fun i => i.chunks) } }

/-- A grid is cancelled (R30): blocks not placed never start, resident ones are cancelled, saved ones discarded. -/
def State.cancelGrid (s : State) (g : Nat) : State :=
  match s.grids.get g with
  | none => s
  | some gr =>
    if gr.cancelled || gr.place = .done then s
    else
      let res := s.blocksOf g
      let s := res.foldl (fun t b => t.cancelBlock b) (s.dropImages g)
      let s := { s with disp := { s.disp with held := s.disp.held.filter (· ≠ g),
                                              reserves := s.disp.reserves.filter (fun r => r.grid ≠ g) } }
      s.updGrid g (fun x => { x with cancelled := true, flushed := [], left := res.length,
                                     place := (if x.place = .millrace then .dispatcher else x.place) })

/-- The grids that satisfy `p`. -/
def State.gridsWhere (s : State) (p : Grid → Bool) : List Nat := (s.grids.filter (fun e => p e.2)).map Prod.fst

/-- A WAIT for a graph or job of the queue's binding: kind, from FLAGS, and number; from the packet's first words. -/
def State.waitUnit (s : State) (q : Queue) : Option (Nat × Nat) :=
  let word := fun (i : Nat) => wordOfBytes ((List.range 8).map (fun k => memGet s.mem (localOf q.ring + (q.ridx + 8 * i + k) % 2 ^ q.rsize)))
  let kind := (fld (word 0) 16 2).toNat
  if q.pending = some .wait && 2 ≤ kind then some (kind, (fld (word 1) 0 16).toNat) else none

/-- The job of a binding, unless it has finished: a later job of its number is another one (R360). -/
def State.jobBound (s : State) (b : Binding) : Option Job := s.jobs.find? (fun j => j.number = b.job && j.serial = b.serial)

/-- A counter that has reached zero meets the WAITs that are held for it then (R28, R358). -/
def State.meetWaits (s : State) : State :=
  let zero := fun (b : Binding) (u : Nat × Nat) => (s.jobBound b).elim false (fun j =>
    if u.1 = 2 then s.graphs.any (fun g => g.job = b.job && g.number = u.2 && g.left = 0) else j.left = 0)
  { s with queues := s.queues.mapAll (fun _ q => match q.binding, s.waitUnit q with
      | some b, some u => if zero b u then { q with pending := some .met } else q
      | _, _ => q) }

/-- A graph or job that is closed and whose counter is zero has finished (R28, R360). -/
def State.reapJobs (s : State) : State :=
  let fin := s.graphs.filter (fun g => g.closed && g.left = 0)
  let s := s.meetWaits
  let jobs := s.jobs.map (fun j => { j with left := j.left - (fin.filter (fun g => g.job = j.number)).length })
  let s := { s with graphs := s.graphs.filter (fun g => !(g.closed && g.left = 0)), jobs := jobs }.meetWaits
  { s with jobs := s.jobs.filter (fun j => !(j.closed && j.left = 0)) }

def State.closeGraph (s : State) (job graph : Nat) : State :=
  { s with graphs := s.graphs.map (fun g => if g.job = job && g.number = graph then { g with closed := true } else g) }

/-- Closes a job and every graph of it (R360). -/
def State.closeJob (s : State) (job : Nat) : State :=
  { s with graphs := s.graphs.map (fun g => if g.job = job then { g with closed := true } else g),
           jobs := s.jobs.map (fun j => if j.number = job then { j with closed := true } else j) }

def State.cancelGraph (s : State) (job graph : Nat) : State :=
  (((s.gridsWhere (fun g => g.job = job && g.graph = graph)).foldl (fun t g => t.cancelGrid g) s).closeGraph job graph).reapJobs

def State.cancelJob (s : State) (job : Nat) : State :=
  (((s.gridsWhere (fun g => g.job = job)).foldl (fun t g => t.cancelGrid g) s).closeJob job).reapJobs

/-- Discards the held writes of a job: their lines read as committed again (R178, R485 step 3). -/
def State.dropHeld (s : State) (job : Nat) : State :=
  let mine := s.lag.filter (fun e => e.2.held && e.2.job = job)
  { s with mem := mine.foldl (fun m e => memWrite m (128 * e.1) e.2.committed) s.mem,
           lag := s.lag.filter (fun e => !(e.2.held && e.2.job = job)) }

/-- One grid of a job that ends (R485): resident blocks abort, saved ones are discarded and count as aborted, blocks that
were never placed or await their restart never start, and the code is recorded, by a cancelled grid too. -/
def State.endGrid (s : State) (code g : Nat) : State :=
  match s.grids.get g with
  | none => s
  | some gr =>
    if gr.place = .done then s
    else if gr.cancelled then s.updGrid g (fun x => { x with trapcode := code })
    else
      let res := s.blocksOf g
      let saved := (s.images.filter (fun i => i.blk.grid = g)).length
      let s := res.foldl (fun t b => t.abortBlock b code) (s.dropImages g)
      let s := { s with disp := { s.disp with held := s.disp.held.filter (· ≠ g),
                                              reserves := s.disp.reserves.filter (fun r => r.grid ≠ g) } }
      s.updGrid g (fun x => { x with trapcode := code, anyAbort := true, aborts := min 255 (x.aborts + saved), flushed := [],
                                     left := res.length, nextIndex := x.gdim.1 * x.gdim.2.1 * x.gdim.2.2,
                                     place := (if x.place = .millrace then .dispatcher else x.place) })

/-- What the end of its job discards of the commands: those not begun, those that fill a tile, and those that wait for a page; the
others complete, as their block's abort has it (R30, R485). -/
def CopyCmd.endsWithJob (c : CopyCmd) : Bool := !(c.outlives && c.fault.isNone)

/-- The copy accesses of a job that are still queued or held are never performed (R485 step 3). -/
def State.dropCopies (s : State) (job : Nat) : State :=
  let mine := fun (c : CopyCmd) => c.endsWithJob && (s.block c.blk).elim false (fun b => b.job = job)
  let gone := s.cores.flatMap (fun e => (e.2.queues.flatten.filter mine).map (fun c => c.id))
  { s with cores := s.cores.mapAll (fun _ k => { k with queues := k.queues.map (fun q => q.filter (fun c => !mine c)) }),
           reqs := s.reqs.filter (fun e => !e.2.cmd.elim false (fun c => gone.contains c)) }

/-- Ends a job with a job-level code (R485). -/
def State.endJob (s : State) (job code : Nat) : State :=
  (((s.gridsWhere (fun g => g.job = job)).foldl (fun t g => t.endGrid code g) s).dropCopies job).dropHeld job

/-- A malformed entry or a bad physical address ends the job at once, with an entry of kind 5 (R146, R432, R485); `need` is the
permission that the access needs (Table 21-6). -/
def State.fatalAccess (s : State) (core asn ten job need addr grid : Nat) : State :=
  ((s.report 5 core asn ten job need addr grid false).2).endJob job 0x0C

/-! ### Leaving packets, exits, barriers -/

/-- A return from the handler: the thread stands at its packet and slot and checks the control word; a transfer that the
packet had taken before the trap is kept for a return into the rest of it (R67, R480; notes/assumptions/33.md); one that only the trap
of a denied access kept from leaving exits (R484). -/
def Thread.returnTo (t : Thread) (pk : DWord) (slot : Nat) : Thread :=
  let k := t.kept.filter (fun k => k.packet = pk && slot ≠ 0)
  { t with pc := pk, slot := slot, recheck := true, inHandler := false, ret := none, kept := none, gone := none,
           st := (if t.gone = some pk then .exited else t.st), next := k.bind (fun k => k.next), exiting := k.elim false (fun k => k.exiting) }

/-- A thread that a packet's last slot has passed: its transfer takes effect (R67); the trap of a denied access goes before an exit
(R484). -/
def Thread.leave (t : Thread) : Thread :=
  match t.ret with
  | some r => t.returnTo r.1 r.2
  | none =>
    let out := t.exiting && t.st ≠ .parked
    { t with pc := t.next.getD (t.pc + 32), slot := 0, next := none, recheck := false,
             st := if out && t.heldTrap.isNone then .exited else t.st,
             exiting := t.exiting && t.st = .parked,
             gone := if out && t.heldTrap.isSome then some (t.next.getD (t.pc + 32)) else t.gone }

/-- A thread that holds a replay entry (R37). -/
def Thread.parked (t : Thread) : Bool := t.st == .parked || t.owed

/-- Whether a wave arrives at a barrier (R373): every non-exited thread is pending in the current phase and holds no replay
entry, and one exists. -/
def Wave.arrivedAt (w : Wave) (bn : BarName) (phase : Nat) : Bool :=
  !w.finished && w.threads.all (fun t => t.st == .exited || (t.arrived.contains (bn, phase) && !t.parked))

/-- The barrier with the waves that have arrived by now recorded. -/
def Barrier.note (b : Barrier) (bn : BarName) (ws : List Wave) : Barrier :=
  { b with arrived := (List.range ws.length).filter (fun i =>
      b.arrived.contains i || (match ws[i]? with | some w => w.arrivedAt bn b.phase | none => false)) }

/-- Tests every barrier of a block after a thread arrived or exited (R373). -/
def Block.noteBarriers (b : Block) : Block :=
  { b with bar := b.bar.note .block b.waves, bars := b.bars.mapIdx (fun i x => x.note (.counted i) b.waves) }

/-- The wave's trap ends when no thread of its trapping set is in the handler any more (R476, R480). -/
def Wave.endTrap (w : Wave) : Wave :=
  match w.trapSet with
  | none => w
  | some m =>
    if (lanesIn m).all (fun l => match w.threads[l]? with | some t => !t.inHandler || t.st == .exited | none => true)
    then { w with trapSet := none } else w

/-- The cancellations of a wave whose packets have been performed take effect (R378). -/
def State.runCancels (s : State) (b w : Nat) : State :=
  match s.block b, s.wave b w with
  | some blk, some wv =>
    let due := wv.cancels.filter (fun e => e.2 = 0)
    let s := s.updWave b w (fun x => { x with cancels := x.cancels.filter (fun e => e.2 ≠ 0) })
    due.foldl (fun t e =>
      match e.1, t.grids.get blk.grid with
      | 0, _ => t.cancelBlock b
      | 1, _ => t.cancelGrid blk.grid
      | 2, some g => t.cancelGraph g.job g.graph
      | _, some g => t.cancelJob g.job
      | _, none => t) s
  | _, _ => s

/-- The threads `m` have issued the last chain group of their packet: a cancellation that it asked for takes effect (R378). -/
def State.issuedLast (s : State) (b w : Nat) (m : Lanes) : State :=
  (s.updWave b w (fun wv => { wv with cancels := wv.cancels.map (fun e => (e.1, e.2 &&& ~~~m)) })).runCancels b w

/-- A thread whose wait ends: RUNNING, or PARKED while a replay entry of it is held (R36, R37). -/
def Thread.wake (t : Thread) : Thread := { t with st := (if t.owed then .parked else .running), owed := false }

/-- Threads that wait at an instruction meet a trap there (R322, R323, R375): they run again at their instruction, and take
the trap recorded for the sub-group at its place, whose lowest lane `mk` is given, once the wave may. -/
def Wave.recordTraps (w : Wave) (m : Lanes) (mk : Nat → TrapInfo) : Wave :=
  let low := fun (t : Thread) => ((lanesIn m).find? (fun l => match w.threads[l]? with
    | some u => u.pc = t.pc && u.slot = t.slot
    | none => false)).getD 0
  w.updLanes m (fun t => { t.wake with slot := t.slot - 1,
                                       heldTrap := some { mk (low t) with pc := t.pc + BitVec.ofNat 64 (8 * t.slot) } })

/-- A trap recorded at a waiting instruction. -/
def waitTrap (code sub : Nat) (addr : DWord) : TrapInfo :=
  { code := code, sub := sub, pc := 0, addr := addr, kstep := 0, lanes := 0, set := 0, whole := true, feat := 0, defer := false }

/-- A register that a finished wave breaks (R323). -/
def Conv.broken? (c : Conv) (w : Nat) : Conv :=
  match c with
  | .opened mask _ => if hasLane mask w then .broken mask else c
  | _ => c

/-- The declared wave `w` has finished: every register that names it breaks, and the threads waiting there take CONV_MISUSE. -/
def State.breakConvs (s : State) (b w : Nat) : State :=
  s.updBlock b (fun x =>
    let hit := fun (n : Nat) => match x.convs[n]? with
      | some (.opened mask _) => hasLane mask w
      | _ => false
    { x with convs := x.convs.map (fun c => c.broken? w),
             waves := x.waves.map (fun v =>
               v.recordTraps (v.lanesWith (fun t => match t.st with | .waiting (.sign n) => hit n | _ => false))
                 (fun _ => waitTrap 0x11 0 0)) })

/-- After the threads `m` of a wave left a packet: cancellations they asked for, barriers, the wave's trap, and the Sheaf
bits of a finished wave. -/
def State.settle (s : State) (b w : Nat) (m : Lanes) : State :=
  let s := s.updWave b w (fun wv => { wv.endTrap with cancels := wv.cancels.map (fun e => (e.1, e.2 &&& ~~~m)) })
  let s := s.updBlock b Block.noteBarriers
  let s := match s.wave b w with
    | some wv => if wv.finished then (s.dropSheafBits b w).breakConvs b w else s
    | none => s
  s.runCancels b w

/-- Threads whose wait has ended continue after their instruction, or at the next packet (R35). -/
def Thread.resume (t : Thread) : Thread := if 3 ≤ t.wake.slot then t.wake.leave else t.wake

/-- The lanes of `m` whose threads stand past the last slot of their packet. -/
def Wave.atEnd (w : Wave) (m : Lanes) : Lanes := m &&& w.lanesWith (fun t => 3 ≤ t.slot)

def State.resumeLanes (s : State) (b w : Nat) (m : Lanes) : State :=
  match s.wave b w with
  | none => s
  | some wv => (s.updWave b w (fun x => x.updLanes m Thread.resume)).settle b w (wv.atEnd m)

/-! ### Traps (R474 to R478) -/

/-- The TRAP_CAUSE word (Table 21-2). -/
def TrapInfo.cause (t : TrapInfo) : Word :=
  BitVec.ofNat 32 (t.feat * 2 ^ 23 + b2n t.defer * 65536 + t.sub * 256 + t.code)

/-- The emulation routine that the object at `obj` of an address space binds to a feature bit (R463). -/
def State.binding (s : State) (asn obj feat : Nat) : Option Nat :=
  (s.objects.find? (fun o => o.asn = asn && o.va = obj)).bind (fun o => (o.binds.find? (fun e => e.1 = feat)).map (fun e => e.2))

/-- Where a trap of a block enters: the routine bound to FEAT, or the kernel's handler (R477). -/
def State.entryFor (s : State) (blk : Block) (t : TrapInfo) : Option Nat :=
  if t.code = 2 then s.binding blk.asn blk.kern.obj t.feat else blk.kern.handler

/-- The sources that a slot chained to a waiting instruction reads: as they stand before its result is written (R35, R66). -/
def Wave.keepLate (w : Wave) (m : Lanes) : Wave :=
  match (lanesIn m).findSome? (fun l => w.threads[l]?) with
  | none => w
  | some t => if 3 ≤ t.slot then w else
      { w with late := w.late ++ [⟨t.pc, t.slot, m, w.v, w.s, w.threads.map (fun t => t.preds)⟩] }

/-- Threads that go another way read no such sources. -/
def Wave.dropLate (w : Wave) (p : Late → Bool) (m : Lanes) : Wave :=
  { w with late := (w.late.map (fun e => if p e then { e with lanes := e.lanes &&& ~~~m } else e)).filter (fun e => e.lanes != 0) }

/-- Ends the waits of a wave's monitor, which is then disarmed: each writes its reason and its threads resume (R384). -/
def State.endMonitor (s : State) (b w : Nat) (reason : MonWaiting → Nat) : State :=
  match s.wave b w with
  | none => s
  | some wv =>
    let s := s.updWave b w (fun x => wv.monWait.foldl (fun (y : Wave) m => y.keepLate m.lanes) { x with mon := none, monWait := [] })
    wv.monWait.foldl (fun t m => (t.commit b w [.s m.dst (BitVec.ofNat 32 (reason m))]).resumeLanes b w m.lanes) s

/-- A trap or a save ends a wave's monitor: its waits end with reason 4, as does a later one without a new arm; a monitor
that ended before a trap keeps its reason (R384). -/
def State.loseMonitor (s : State) (b w : Nat) (save : Bool) : State :=
  match s.wave b w with
  | none => s
  | some wv =>
    let armed := match wv.mon with
      | some m => save || (m.ended.isNone && !m.hit)
      | none => false
    let s := if armed then s.updWave b w (fun x => { x with mon := none, monLost := true }) else s
    if wv.monWait.isEmpty then s else s.endMonitor b w (fun _ => 4)

/-- A thread as it enters the handler; a transfer its packet had already taken is kept for the return (R480). -/
def Thread.enter (t : Thread) (entry : DWord) : Thread :=
  { t with pc := entry, slot := 0, recheck := false, st := .running, inHandler := true, next := none, ret := none, exiting := false,
           heldTrap := none,
           kept := (if t.next.isSome || t.exiting then some ⟨t.pc, t.next, t.exiting⟩ else none) }

/-- The wave with the trap registers written and the trapping set at the entry (R477). -/
def Wave.enterTrap (w : Wave) (t : TrapInfo) (entry : DWord) : Wave :=
  let w := (w.updLanes t.set (fun x => x.enter entry)).dropLate (fun _ => true) t.set
  { w with cause := t.cause, tpc := t.pc, taddr := t.addr, kstep := BitVec.ofNat 32 t.kstep,
           tlanes := (if t.whole then t.set else t.lanes), trapSet := some t.set,
           issue := match w.issue with
             | some i => if i.lanes &&& ~~~t.set = 0 then none else some { i with lanes := i.lanes &&& ~~~t.set }
             | none => none }

/-- Whether slot `k` is chained to the next (R64). -/
def chained (words : List DWord) (k : Nat) : Bool := (words.getD k 0).getLsbD 49

/-- The chain group of every slot, as the number of its first slot. -/
def groupOf (words : List DWord) : Nat → Nat
  | 0 => 0
  | k + 1 => if chained words k then groupOf words k else k + 1

/-- The slots of a group from slot `k` on. -/
def groupSlots (words : List DWord) (k : Nat) : List Nat :=
  (List.range 3).filter (fun j => k ≤ j && (j = k || (groupOf words j = groupOf words k)))

/-- The first slot after the chain group that holds slot `k` of a packet's words. -/
def afterGroup (words : List DWord) (k : Nat) : Nat → Nat
  | 0 => k + 1
  | fuel + 1 => if chained words k && k < 2 then afterGroup words (k + 1) fuel else k + 1

/-- Takes the threads `m` out of the packet being issued, at slot `k` of it. -/
def Wave.standAside (w : Wave) (m : Lanes) (k : Nat) : Wave :=
  { w.updLanes m (fun t => { t with slot := k }) with
    issue := match w.issue with
      | some i => if i.lanes &&& ~~~m = 0 then none else some { i with lanes := i.lanes &&& ~~~m }
      | none => none }

/-- A thread whose slot number is this one plus k stands after the chain group of slot k of its packet, whose chain bits have
not been read yet (R480). -/
def unreadSlot : Nat := 4

/-- A thread whose place is found from its packet's words: past slot 2 it stands at the next packet (R480). -/
def Thread.place (t : Thread) (words : List DWord) : Thread :=
  let n := afterGroup words (t.slot - unreadSlot) 2
  if 3 ≤ n then { t with pc := t.pc + 32, slot := 0, next := none, exiting := false } else { t with slot := n }

/-- `brk` where the grid has no handler: the trapping set waits at the instruction for an answer, and a BREAK entry is
written (R481). -/
def State.holdBreak (s : State) (b w : Nat) (blk : Block) (wv : Wave) (t : TrapInfo) : State :=
  let (id, s) := s.report 6 blk.core blk.asn blk.ten blk.job 0 t.pc.toNat
    ((s.grids.get blk.grid).elim 0 (fun g => g.recVa)) true
  let words := wv.issue.elim [] (fun i => i.words)
  let slot := afterGroup words ((t.pc.toNat / 8 + 3) % 4) 2
  s.updWave b w (fun x =>
    { x.updLanes t.set (fun y => { y with st := .waiting (.brk id), slot := slot }) with
      issue := x.issue.map (fun i => { i with lanes := i.lanes &&& ~~~t.set }) })

/-- The record that a trap delivers is cleared (R219, R332). -/
def State.clearRecord (s : State) (b : Nat) (r : RecordAt) : State :=
  match r with
  | .none => s
  | .tile n => s.updBlock b (fun x => { x with tiles := updAt x.tiles n (fun t => { t with fault := none }) })
  | .acc n => s.updBlock b (fun x => { x with accs := updAt x.accs n (fun a => { a with fault := none }) })

/-- One more use of a retired encoding (R102, R465). -/
def State.retireUse (s : State) (n : Nat) : State :=
  { s with dev := { s.dev with retireUse := updAt s.dev.retireUse n (fun c => min (c + 1) (2 ^ 64 - 1)) } }

/-- TAKES A TRAP for a wave: a thread already in a handler aborts the block; a wave that holds a trap holds the group;
otherwise the trapping set enters the handler; without one a BREAK holds the threads and any other trap aborts the block
(R476 to R478, R481). A FEATURE_TRAPPED that aborts its block counts as a use too (R102; DESIGN CHOICE, notes/assumptions/76.md). -/
def State.takeTrap (s : State) (b w : Nat) (t : TrapInfo) : State :=
  match s.block b, s.wave b w with
  | some blk, some wv =>
    let inside := (lanesIn t.set).any (fun l => match wv.threads[l]? with | some x => x.inHandler | none => false)
    if !inside && wv.trapSet.isSome then { s with note := .held }
    else
      let s := if t.code = 2 then s.retireUse t.feat else s
      if inside then { s.abortBlock b t.code with note := .raised t }
      else match s.entryFor blk t with
        | none =>
          if t.code = 0x0E then { s.holdBreak b w blk wv t with note := .raised t }
          else { s.abortBlock b t.code with note := .raised t }
        | some entry =>
          let s := (s.clearRecord b t.record).updWave b w (fun x => x.enterTrap t (BitVec.ofNat 64 entry))
          { (s.loseMonitor b w false).settle b w t.set with note := .raised t }
  | _, _ => s

/-! ### The issue of one instruction -/

/-- What an instruction sees when its group issues: the slot being issued, its block and wave, the active lanes (R70), and
the pending results of its wave. -/
structure Ctx where
  c : Cur
  blk : Block
  wv : Wave
  act : Lanes
  pend : List (Nat × Option Word)
  seed : Nat
  deriving DecidableEq, Repr

/-- The predicate `k` of lane `l` as the group began. -/
def Cur.pred (c : Cur) (k l : Nat) : Bool := (c.preds.getD l 0).getLsbD k

/-- The issuing lanes that pass the guard (R70). -/
def activeLanes (h : Head) (c : Cur) : Lanes :=
  match h.guard with
  | none => c.lanes
  | some g => c.lanes &&& lanesOf (fun l => c.pred g.p.toNat l != g.neg)

/-- The lanes active for some instruction of the slots `ks`, `nop` apart (Table 21-4). -/
def Cur.activeOf (c : Cur) (words : List DWord) (ks : List Nat) : Lanes :=
  ks.foldl (fun m k =>
    match decode (words.getD k 0) with
    | none => c.lanes
    | some (.nop _) => m
    | some _ => m ||| (match headOf (words.getD k 0) with
        | some h => activeLanes h c
        | none => c.lanes)) 0

/-- The threads that a trap of the whole chain group takes with it. -/
def Ctx.groupActive (x : Ctx) : Lanes :=
  let words := x.wv.issue.elim [] (fun i => i.words)
  x.c.activeOf words ((List.range 3).filter (fun j => groupOf words j = groupOf words x.c.slot))

def Ctx.b (x : Ctx) : Nat := x.c.blk
def Ctx.w (x : Ctx) : Nat := x.c.wave
/-- At least one issuing thread passes the guard. -/
def Ctx.any (x : Ctx) : Bool := x.act != 0
def Ctx.lanes (x : Ctx) : List Nat := lanesIn x.act
/-- The address of the instruction's word (R68). -/
def Ctx.wordPc (x : Ctx) : DWord := x.c.pc + BitVec.ofNat 64 (8 * (x.c.slot + 1))

/-- Vector register `r` of lane `l`, scalar register `r`, predicate `k` of lane `l`, as the group began (R61, R66). -/
def Ctx.vec (x : Ctx) (r l : Nat) : Word := readPending x.pend x.seed (vkey r l) (x.c.v.vec r l)
def Ctx.scal (x : Ctx) (r : Nat) : Word := readPending x.pend x.seed (skey r) (x.c.s.scal r)
def Ctx.pred (x : Ctx) (k l : Nat) : Bool := x.c.pred k l
def Ctx.vecPair (x : Ctx) (r l : Nat) : DWord := pairOf (x.vec r l) (x.vec (r + 1) l)
def Ctx.scalPair (x : Ctx) (r : Nat) : DWord := pairOf (x.scal r) (x.scal (r + 1))

/-- The context of the slot being issued. -/
def State.ctx (s : State) (h : Head) : Option Ctx :=
  s.cur.bind fun c => (s.block c.blk).bind fun blk => (blk.wave c.wave).map fun wv =>
    { c := c, blk := blk, wv := wv, act := activeLanes h c, pend := c.pend, seed := 4 * s.fresh + c.slot }

/-- A trap of the instruction: its own trap, taken by the active threads of the group (Table 21-4). `lanes` are those that
failed; `whole` says that TRAP_LANES is the trapping set. -/
def Ctx.trap (x : Ctx) (code sub : Nat) (addr : DWord) (lanes : Lanes) (whole : Bool) : TrapInfo :=
  { code := code, sub := sub, pc := x.wordPc, addr := addr, kstep := 0, lanes := lanes, set := x.act, whole := whole,
    feat := 0, defer := false }

/-- A decode outcome, taken by every thread at the packet whatever its guard (R98). -/
def Ctx.decodeTrap (x : Ctx) (code : Nat) (addr : DWord) (feat : Nat) : TrapInfo :=
  { code := code, sub := 0, pc := x.wordPc, addr := addr, kstep := 0, lanes := x.c.lanes, set := x.c.lanes, whole := true,
    feat := feat, defer := false }

/-- The instruction takes a trap. -/
def Ctx.raise (x : Ctx) (t : TrapInfo) (s : State) : State := s.takeTrap x.b x.w t

/-- The group does not issue (R210, R213, R333, R476): the issue step restores the state before it. -/
def State.hold (s : State) : State := { s with note := .held }

/-- The group does not issue, and no other group of its wave does before it (R380). -/
def State.stall (s : State) : State := { s with note := .stalled }

/-- Register writes of the instruction. -/
def Ctx.commit (x : Ctx) (ws : List Wr) (s : State) : State := s.commit x.b x.w ws

/-! ### Registers beyond the declared count (R43, row 6 of Table 4-10) -/

/-- A register named by a field: `n` registers from `r`, vector or scalar. -/
inductive RegUse where
  | v (r n : Nat)
  | s (r n : Nat)
  deriving DecidableEq, Repr

/-- The first register of the use at or beyond the declared count. -/
def RegUse.beyond (k : Kern) : RegUse → Option Nat
  | .v r n => if r + n ≤ k.vregs then none else some (max r k.vregs)
  | .s r n => if r + n ≤ k.sregs then none else some (max r k.sregs)

/-- The first failing register in the order of the fields. -/
def firstBeyond (k : Kern) (us : List RegUse) : Option Nat := us.findSome? (RegUse.beyond k)

/-- ISSUES AN INSTRUCTION: rows 5 and 6 of Table 4-10, then its own effect (row 7). `service` marks an instruction that
needs service privilege. -/
def issueOp (name : String) (h : Head) (service : Bool) (uses : List RegUse) (body : Ctx → State → State) (s : State) : Out :=
  match s.cur with
  | none => .refused (.notEnabled name)
  | some _ =>
    match s.ctx h with
    | none => .fault .lostContext
    | some x =>
      if service && !x.blk.service then .next (x.raise (x.decodeTrap 0x0F 0 0) s)
      else match firstBeyond x.blk.kern uses with
        | some r => .next (x.raise (x.decodeTrap 0x03 (BitVec.ofNat 64 r) 0) s)
        | none => .next (body x s)

/-- An instruction whose effect belongs to the wave: once per issue, if a thread passes the guard (R70). -/
def waveOp (body : Ctx → State → State) (x : Ctx) (s : State) : State := if x.any then body x s else s

/-- Clears IDEM whatever the guard (R46). -/
def Ctx.clearIdem (x : Ctx) (s : State) : State := s.updWave x.b x.w (fun w => { w with idem := false })

/-- A thread that stops at a WAITING instruction of slot `k`; a parked one keeps its replay entry (R36, R37). -/
def Thread.stop (t : Thread) (at_ : WaitAt) (k : Nat) : Thread := { t with st := .waiting at_, slot := k + 1, owed := t.parked }

/-- The active threads become WAITING and resume after this slot (R35). -/
def Ctx.makeWait (x : Ctx) (m : Lanes) (at_ : WaitAt) (s : State) : State :=
  s.updWave x.b x.w (fun w =>
    { w.updLanes m (fun t => t.stop at_ x.c.slot) with
      issue := w.issue.map (fun i => { i with lanes := i.lanes &&& ~~~m }) })

/-- A number for a new operation. -/
def State.newId (s : State) : Nat × State := (s.nextId, { s with nextId := s.nextId + 1 })

/-- An event whose conditions hold. -/
def event (name : String) (enabled : Bool) (t : State) : Out := if enabled then .next t else .refused (.notEnabled name)

end Sys2Proof.Machine
end

