-- ==== Sys2Proof/Machine/Operands.lean ====
section
/-! DEFINITION. Machine/Operands.lean: operand forms: types (Table 3-7, R108, R109), source B with its lane patterns and fill
values (R72, R74, Table 3-9), immediates (R77), and the register uses of each format (R43). -/

namespace Sys2Proof.Machine

/-! ### Integer types (Table 3-7, R108, R109) -/

/-- The width of a type. -/
def tyBits (ty : BitVec 3) : Nat :=
  match ty.toNat / 2 with
  | 0 => 32
  | 1 => 64
  | 2 => 16
  | _ => 8

/-- The i types are signed. -/
def tySigned (ty : BitVec 3) : Bool := ty.toNat % 2 == 0

/-- The value of the low `w` bits. -/
def readBits (signed : Bool) (w n : Nat) : Int :=
  let m := n % 2 ^ w
  if signed && 2 ^ (w - 1) ≤ m then (m : Int) - (2 ^ w : Nat) else (m : Int)

/-- x mod 2^w. -/
def modBits (w : Nat) (x : Int) : Nat := (x % ((2 ^ w : Nat) : Int)).toNat

/-- x clamped to the range of the type (R109). -/
def satInt (signed : Bool) (w : Nat) (x : Int) : Int :=
  if signed then max (-((2 ^ (w - 1) : Nat) : Int)) (min x (((2 ^ (w - 1) : Nat) : Int) - 1))
  else max 0 (min x (((2 ^ w : Nat) : Int) - 1))

/-- The stored register value of a `w`-bit result: extended to 32 bits by signedness; 64 bits fill a pair (R109). -/
def storeBits (signed : Bool) (w n : Nat) : DWord :=
  if w = 64 then BitVec.ofNat 64 n
  else if signed && 2 ^ (w - 1) ≤ n % 2 ^ w then BitVec.ofNat 64 (n % 2 ^ w + 2 ^ 32 - 2 ^ w) else BitVec.ofNat 64 (n % 2 ^ w)

/-- wrap or sat of an exact result, as stored: the manual's fit (R109). -/
def fitInt (sat : Bool) (ty : BitVec 3) (x : Int) : DWord :=
  let w := tyBits ty
  storeBits (tySigned ty) w (modBits w (if sat then satInt (tySigned ty) w x else x))

/-- A raw operand read at a type (R108). -/
def typed (ty : BitVec 3) (n : DWord) : Int := readBits (tySigned ty) (tyBits ty) n.toNat

/-! ### Source B -/

/-- The lane that lane `l` reads under a pattern, none past the end of a down-shift (Table 3-8). -/
def Pat.src (p : Pat) (k l : Nat) : Option Nat :=
  match p with
  | .none => some l
  | .rotate => some ((l + k) % 32)
  | .broadcast => some k
  | .butterfly => some (Nat.xor l k)
  | .mirror => let g := 2 ^ k; some (g * (l / g) + (g - 1 - l % g))
  | .downShift => if l + k < 32 then some (l + k) else Option.none

/-- A register or pair of lane `l`. -/
def Ctx.vecN (x : Ctx) (wide : Bool) (r l : Nat) : DWord := if wide then x.vecPair r l else (x.vec r l).setWidth 64
def Ctx.scalN (x : Ctx) (wide : Bool) (r : Nat) : DWord := if wide then x.scalPair r else (x.scal r).setWidth 64

/-- Source B of lane `l`: 32 bits, or 64 when `wide`; `fill` is what a down-shift brings in (R76). -/
def Ctx.srcB (x : Ctx) (wide : Bool) (b : SrcB) (fill : DWord) (l : Nat) : DWord :=
  match b with
  | .vec r p k => match Pat.src p k.toNat l with
    | some m => x.vecN wide r.toNat m
    | none => fill
  | .scal r => x.scalN wide r.toNat
  | .imm v => if wide then v.signExtend 64 else (v.signExtend 32).setWidth 64

/-- Down-shift fills of the integer operations, as bits of the operand width (Table 3-9). -/
def fillOnes (wide : Bool) : DWord := if wide then BitVec.allOnes 64 else 0xFFFFFFFF#64
def fillMax (ty : BitVec 3) : DWord := BitVec.ofNat 64 (if tySigned ty then 2 ^ (tyBits ty - 1) - 1 else 2 ^ tyBits ty - 1)
def fillMin (ty : BitVec 3) : DWord := BitVec.ofNat 64 (if tySigned ty then 2 ^ (tyBits ty - 1) else 0)

/-! ### Scalar source B (Table 5-9) -/

def Ctx.srcS (x : Ctx) (wide : Bool) (b : SrcB) : DWord := x.srcB wide b 0 0

/-! ### Immediates (R77, R133) -/

/-- The value of IMM32 at 64 bits: K selects zero extension. -/
def immOf (f : AI) : DWord := if f.k then f.imm.setWidth 64 else f.imm.signExtend 64

/-! ### Register uses (R43) -/

/-- The registers an operand code names at a field value. -/
def Opd.uses (wide : Bool) (r : BitVec 8) : Opd → List RegUse
  | .v => [.v r.toNat 1]
  | .v2 => [.v r.toNat 2]
  | .vT => [.v r.toNat (if wide then 2 else 1)]
  | .s => [.s r.toNat 1]
  | .s2 => [.s r.toNat 2]
  | .sT => [.s r.toNat (if wide then 2 else 1)]
  | .zero => []
  | .p => []
  | .n _ => []

/-- The registers an A3 word names, in the order D, A, B, C. -/
def a3Uses (row : A3Row) (wide : Bool) (f : A3) : List RegUse :=
  Opd.uses wide f.d row.d ++ Opd.uses wide f.a row.a ++
  (match f.b with
   | .vec r _ _ => (match row.bV with | some o => Opd.uses wide r o | none => [])
   | .scal r => (match row.bS with | some o => Opd.uses wide r o | none => [])
   | .imm _ => []) ++
  Opd.uses wide f.c row.c

/-- The registers of the integer classes, by type. -/
def intUses (row : A3Row) (f : A3) : List RegUse := a3Uses row (wideTy f.ty) f

/-- The registers of the floating-point class. -/
def fltUses (row : A3Row) (f : A3) : List RegUse := a3Uses row false f

def tabUses (vector : Bool) (f : Tab3) : List RegUse :=
  let w := wideTy f.ty
  let k : Opd := if vector then .vT else .sT
  Opd.uses w f.d k ++ Opd.uses w f.a k ++ Opd.uses w f.b (if f.scalB then .sT else k) ++ Opd.uses w f.c k

/-- An indirect target's pair (Table 5-1). -/
def targetUse (f : CFmt) : RegUse := if f.offp = 0 then .v f.a.toNat 2 else .s f.a.toNat 2

/-- A data or base register of format M: vector when AK = 0 (R187). -/
def mUse (ak : Bool) (r : BitVec 8) (n : Nat) : RegUse := if ak then .s r.toNat n else .v r.toNat n

/-! ### Lane-wise results -/

/-- Writes a vector result of one register or a pair in every active lane. -/
def Ctx.vecResult (x : Ctx) (wide : Bool) (d : Nat) (f : Nat → DWord) (s : State) : State :=
  x.commit (x.lanes.flatMap (fun l => wrV wide d l (f l))) s

/-- Writes a scalar result, once per issue. -/
def Ctx.scalResult (x : Ctx) (wide : Bool) (d : Nat) (v : DWord) (s : State) : State := x.commit (wrS wide d v) s

/-- Writes a predicate in every active lane. -/
def Ctx.predResult (x : Ctx) (d : Nat) (f : Nat → Bool) (s : State) : State :=
  x.commit (x.lanes.map (fun l => .p l d (f l))) s

/-- A lane instruction on typed sources A and B with an exact result (R124). -/
def intLane (name : String) (h : Head) (row : A3Row) (f : A3) (fill : DWord) (op : Int → Int → Int → Int) (s : State) : Out :=
  let wide := wideTy f.ty
  issueOp name h false (intUses row f) (fun x => x.vecResult wide f.d.toNat (fun l =>
    fitInt f.sat f.ty (op (typed f.ty (x.vecN wide f.a.toNat l)) (typed f.ty (x.srcB wide f.b fill l))
      (typed f.ty (x.vecN wide f.c.toNat l))))) s

/-- A lane instruction on bit strings of 32 or 64 bits. -/
def bitLane (name : String) (h : Head) (row : A3Row) (f : A3) (wideB : Bool) (fill : DWord) (op : DWord → DWord → DWord → DWord)
    (s : State) : Out :=
  let wide := wideTy f.ty
  issueOp name h false (intUses row f) (fun x => x.vecResult wide f.d.toNat (fun l =>
    op (x.vecN wide f.a.toNat l) (x.srcB wideB f.b fill l) (x.vecN wide f.c.toNat l))) s

/-- A scalar instruction on typed sources with an exact result (R140). -/
def intScal (name : String) (h : Head) (row : A3Row) (f : A3) (op : Int → Int → Int) (s : State) : Out :=
  let wide := wideTy f.ty
  issueOp name h false (intUses row f) (waveOp fun x => x.scalResult wide f.d.toNat
    (fitInt f.sat f.ty (op (typed f.ty (x.scalN wide f.a.toNat)) (typed f.ty (x.srcS wide f.b))))) s

/-- A scalar instruction on bit strings. -/
def bitScal (name : String) (h : Head) (row : A3Row) (f : A3) (wideB : Bool) (op : DWord → DWord → DWord) (s : State) : Out :=
  let wide := wideTy f.ty
  issueOp name h false (intUses row f) (waveOp fun x => x.scalResult wide f.d.toNat
    (op (x.scalN wide f.a.toNat) (x.srcS wideB f.b))) s

end Sys2Proof.Machine
end

