-- ==== Sys2Proof/Machine/Flags.lean ====
section
/-! DEFINITION. Machine/Flags.lean: what instructions write into predicates and wait flags: carries and borrows (R126),
comparison conditions (Table 5-7), votes (R116, R138), the wait flag of a slot (R57, R58, R59). -/

namespace Sys2Proof.Machine

/-- Sum with carry (R126): the result and the carry out. -/
def addCarry (a b : Nat) (c : Bool) : Nat × Bool := ((a + b + b2n c) % 2 ^ 32, decide (2 ^ 32 ≤ a + b + b2n c))

/-- Difference with borrow (R126): the result and the borrow out. -/
def subBorrow (a b : Nat) (c : Bool) : Nat × Bool :=
  let x : Int := (a : Int) - b - b2n c
  (modBits 32 x, decide (x < 0))

/-- The condition of an integer comparison (Table 5-7). -/
def intCond (c : Nat) (a b : Int) : Bool :=
  match c with
  | 0 => decide (a = b)
  | 1 => decide (a ≠ b)
  | 2 => decide (a < b)
  | 3 => decide (a ≤ b)
  | 4 => decide (b < a)
  | _ => decide (b ≤ a)

/-- The condition of a floating-point comparison: `o` is the order of two values that are not NaN, none if one is. -/
def fltCond (c : Nat) (o : Option Ordering) : Bool :=
  match c, o with
  | 0, some o => o == .eq
  | 1, some o => o != .eq
  | 2, some o => o == .lt
  | 3, some o => o != .gt
  | 4, some o => o == .gt
  | 5, some o => o != .lt
  | 6, o => o.isNone
  | 7, o => o != some .eq
  | _, none => false
  | _, _ => false

/-- The active lanes whose predicate is set (R138). -/
def Ctx.ballotOf (x : Ctx) (p : Nat) : Lanes := lanesOf (fun l => hasLane x.act l && x.pred p l)
def Ctx.voteAny (x : Ctx) (p : Nat) : Bool := x.ballotOf p != 0
def Ctx.voteAll (x : Ctx) (p : Nat) : Bool := x.ballotOf p == x.act

/-- The operation `op` sets the flag its slot selects (R58). -/
def Ctx.setFlag (x : Ctx) (op : Nat) (s : State) : State := s.setFlag x.b x.w x.c.flag op

/-- Whether a packet's flags let it begin: none of WAITMASK, SETA and SETB is busy (R59). -/
def Wave.flagsClear (w : Wave) (c : Control) : Bool :=
  !(List.range 12).any (fun i => c.waitmask.getLsbD i && w.flagBusy (i + 1)) &&
  !(c.seta != 0 && w.flagBusy c.seta) && !(c.setb != 0 && w.flagBusy c.setb)

/-- The flag that a slot's selector names (R55). -/
def Control.flagOf (c : Control) (slot : Nat) : Nat :=
  match c.sel.getD slot 0 with
  | 1 => c.seta
  | 2 => c.setb
  | _ => 0

end Sys2Proof.Machine
end

