-- ==== Sys2Proof/Machine/Start.lean ====
section
/-! DEFINITION. Machine/Start.lean: a block as it starts: threads, waves, private state (R25, R44, R45, R50, R52, R209, R372,
R443, R474) and its argument words (R251). -/

namespace Sys2Proof.Machine

/-- A thread at block start, at the kernel entry; a lane beyond the thread count holds no thread and counts as exited. -/
def Thread.start (entry : Nat) (exists_ : Bool) : Thread :=
  { pc := BitVec.ofNat 64 entry, slot := 0, recheck := false, st := (if exists_ then .running else .exited), starve := 0,
    preds := 0, inHandler := false, next := none, ret := none, exiting := false, kept := none, heldTrap := none, fetchHeld := false,
    arrived := [] }

/-- A wave at block start, with its register files. -/
def Wave.start (entry threads w : Nat) (idem : Bool) (v sc : RegFile) : Wave :=
  { threads := laneList.map (fun l => Thread.start entry (32 * w + l < threads)), v := v, s := sc, busy := [], idem := idem,
    cause := 0, tpc := 0, taddr := 0, kstep := 0, tlanes := 0, trapSet := none, issue := none, mon := none,
    monLost := false, monWait := [], take := [], sleep := none, cancels := [], hold := .none, acq := [], seen := [],
    seenLines := [], producer := 0, taker := 0, remote := [], sfu := [], lastIssue := 0, run := 0 }

def Tile.start : Tile :=
  { base := 0, hbase := 0, pitch := 0, len := 0, rows := 0, width := 0, blk := 0, hslots := 0, st := .undefined, readers := 0,
    fault := none }
def Acc.start (fill : Fill) : Acc :=
  { cells := [], fill := fill, ovf := false, inv := false, satf := false, fault := none, queue := [] }
def Barrier.start : Barrier := { phase := 0, arrived := [], expected := none }

/-- The waves of a block of `threads` threads (R25). -/
def wavesFor (threads : Nat) : Nat := (threads + 31) / 32

/-- The scalar registers that hold the launch's argument words (R251): argument i in s[i]. -/
def argCells (args : List Word) (sregs : Nat) : Tbl Word := (args.take sregs).mapIdx (fun i x => (i, x))

/-- What `Block.start` needs to know of a placement: the core, the grant, and which units it clears (R44, R443). -/
structure Placement where
  core : Nat
  vcore : Nat
  vcluster : Nat
  vdie : Nat
  grant : Grant
  vclear : List (List Bool)
  sclear : List (List Bool)
  rowClear : List Bool
  accClear : List Bool
  seed : Nat
  deriving DecidableEq, Repr

/-- The block index as coordinates, x fastest (R366). -/
def bidOf (gdim : Nat × Nat × Nat) (i : Nat) : Nat × Nat × Nat :=
  (i % gdim.1, i / gdim.1 % gdim.2.1, i / (gdim.1 * gdim.2.1))

/-- A block of grid `g` as it starts. -/
def Block.start (g : Nat) (gr : Grid) (index : Nat) (p : Placement) (clock : Nat) : Block :=
  let threads := gr.bdim.1 * gr.bdim.2.1 * gr.bdim.2.2
  let n := wavesFor threads
  let file := fun (cl : List Bool) (cells : Tbl Word) (k : Nat) => ({ cells := cells, clear := cl, seed := p.seed + k } : RegFile)
  { grid := g, index := index, bid := bidOf gr.gdim index, bdim := gr.bdim, gdim := gr.gdim, core := p.core, vcore := p.vcore,
    vcluster := p.vcluster, vdie := p.vdie, ten := gr.ten, asn := gr.asn, job := gr.job, service := gr.service,
    kern := gr.kern, grant := p.grant,
    waves := (List.range n).map (fun w => Wave.start gr.kern.entry threads w gr.kern.idem
      (file (p.vclear.getD w []) [] (2 * w)) (file (p.sclear.getD w []) (argCells gr.args gr.kern.sregs) (2 * w + 1))),
    spad := [], spadClear := p.rowClear, spadSeed := p.seed + 64, touched := [],
    tiles := List.replicate gr.kern.tiles Tile.start, tileOps := [],
    accs := (List.range gr.kern.accs).map (fun k =>
      Acc.start (if p.accClear.getD k false then .zero else .free (p.seed + 65 + k))),
    convs := List.replicate gr.kern.convs .free, bar := Barrier.start, bars := List.replicate gr.kern.bars Barrier.start,
    prog := 0, dstride := 0, hstride := 0, collStatus := [0, 0, 0, 0], collWaits := [], fences := [], mode := .normal, cancelled := false,
    aborted := none, started := clock, resident := 0, placedAt := clock, waitCmds := [], chunks := [], marks := [],
    placeNo := p.seed }

end Sys2Proof.Machine
end

