-- ==== Sys2Proof/Machine/Place.lean ====
section
/-! DEFINITION. Machine/Place.lean: putting one instruction word where the next step fetches it. -/

namespace Sys2Proof.Machine

/-- The address of the code page and of the four tables that map it, as `withFetchWord` lays them out. -/
def putVa : Nat := 0x10000

/-- A directory entry to the table at `a`, and a leaf with R, W and X for the frame at `a`. -/
def dirEntry (a : Nat) : DWord := BitVec.ofNat 64 (a + 1)
def leafEntry (a : Nat) : DWord := BitVec.ofNat 64 (a + 0x3B)

/-- A kernel that declares everything the machine can grant, at the code page. -/
def putKern : Kern :=
  { desc := 0, obj := 0, code := putVa, entry := putVa, handler := none, vregs := 256, sregs := 64, spad := 65536, tiles := 64,
    accs := 4, convs := 8, bars := 16, idem := true, ptotal := 1, cpuest := 4096 }

/-- A service grid of one block of 32 threads. -/
def putGrid (root : Nat) : Grid :=
  { recVa := 0, queue := 0, tag := 0, asn := 0, root := root, ten := 0, job := 0, graph := 0, kern := putKern, gdim := (1, 1, 1),
    bdim := (32, 1, 1), args := [], coop := false, pack := false, tick := false, service := true, bounded := false, bound := 0,
    ptotal := 1, rank := 0, arrival := 0, release := none, cpu := 4096, left := 1, nextIndex := 1, flushed := [],
    place := .dispatcher, cancelled := false, trapcode := 0, aborts := 0, anyAbort := false, preempted := false,
    missed := false, dataLoss := false, recFault := none, remote := [], marks := [], visited := [] }

/-- The block's placement on core 0, every unit cleared. -/
def putPlacement : Placement :=
  { core := 0, vcore := 0, vcluster := 0, vdie := 0,
    grant := { vrows := [List.range 256], sregs := [List.range 64], row := 0, rows := 222, accs := [0, 1, 2, 3] },
    vclear := [List.replicate 256 true], sclear := [List.replicate 64 true], rowClear := List.replicate 222 true,
    accClear := [true, true, true, true], seed := 0 }

/-- Loads a packet whose first word is `w` into a fresh code page, maps it, makes one wave stand at it, and lets that wave
act next (notes/assumptions/1.md). -/
def State.putWord (s : State) (w : Nat) : State :=
  let base := s.dev.moduleNum * 2 ^ 45
  let mem := memWrite (memWrite (memWrite (memWrite (memWrite s.mem 0x2000 (bytesOfNat (dirEntry (base + 0x4000)).toNat 8))
    0x4000 (bytesOfNat (dirEntry (base + 0x6000)).toNat 8)) 0x6000 (bytesOfNat (dirEntry (base + 0x8000)).toNat 8))
    0x8008 (bytesOfNat (leafEntry (base + 0x10000)).toNat 8)) 0x10000
    (bytesOfNat 0 8 ++ bytesOfNat (w % 2 ^ 64) 8 ++ bytesOfNat 0 16)
  let b := s.nextBlock
  let g := s.nextGrid
  let gr := putGrid (base + 0x2000)
  { s with mem := mem, tlb := [], lastTick := s.clock, refillDue := false, nextBlock := b + 1, nextGrid := g + 1,
           grids := s.grids.put g gr, blocks := s.blocks.put b (Block.start g gr 0 putPlacement s.clock),
           cores := s.cores.put 0 { s.core 0 with
             fenced := false,
             icache := [{ asn := 0, vline := lineOf putVa, pline := lineOf (base + 0x10000), data := memRead mem 0x10000 128,
                          stable := false, userFill := false }] }, cur := none, note := .fine, agenda := [.issue b 0] }

end Sys2Proof.Machine
end

