-- ==== Sys2Proof/Machine/FloatCore.lean ====
section
/-! DEFINITION. Machine/FloatCore.lean: exact values, the IEEE formats and their one rounding (R256 to R262), the correctly
rounded functions (R289), the narrow encodings, block headers and the quantising store (R263 to R277). -/

namespace Sys2Proof.Machine

/-! ### Exact values -/

/-- A value a format holds: NaN, an infinity, or (-1)^neg × m × 2^e, with a zero of either sign. -/
inductive Num where
  | nan
  | inf (neg : Bool)
  | fin (neg : Bool) (m : Nat) (e : Int)
  deriving DecidableEq, Repr

/-- 2^e as a fraction. -/
def pow2 (e : Int) : Nat × Nat := (2 ^ e.toNat, 2 ^ (-e).toNat)

/-- m × 2^e as a fraction. -/
def fracOf (m : Nat) (e : Int) : Nat × Nat := (m * 2 ^ e.toNat, 2 ^ (-e).toNat)

def Num.isNan : Num → Bool
  | .nan => true
  | _ => false

def Num.isZero : Num → Bool
  | .fin _ m _ => m = 0
  | _ => false

def Num.neg? : Num → Bool
  | .nan => false
  | .inf n => n
  | .fin n _ _ => n

def Num.withSign (s : Bool) : Num → Num
  | .nan => .nan
  | .inf _ => .inf s
  | .fin _ m e => .fin s m e

def Num.negate (x : Num) : Num := x.withSign (!x.neg?)

def Num.ofInt (x : Int) : Num := .fin (decide (x < 0)) x.natAbs 0

/-- The value as an integer multiple of 2^e, for e at or below its exponent. -/
def Num.scaled (e : Int) : Num → Int
  | .fin n m f => (if n then -1 else 1) * (m * 2 ^ (f - e).toNat : Nat)
  | _ => 0

def Num.exp : Num → Int
  | .fin _ m e => if m = 0 then 0 else e
  | _ => 0

/-- The product; 0 × ∞ is NaN (R286). -/
def Num.mul : Num → Num → Num
  | .nan, _ => .nan
  | _, .nan => .nan
  | .inf a, .inf b => .inf (a != b)
  | .inf a, .fin b m _ => if m = 0 then .nan else .inf (a != b)
  | .fin a m _, .inf b => if m = 0 then .nan else .inf (a != b)
  | .fin a m e, .fin b n f => .fin (a != b) (m * n) (e + f)

/-- The exact sum of terms: ∞ − ∞ is NaN (R286); an exact zero has the terms' common sign, else − under RDN (R261). -/
def Num.sum (rm : RM) (xs : List Num) : Num :=
  if xs.any Num.isNan then .nan
  else if xs.contains (.inf false) then (if xs.contains (.inf true) then .nan else .inf false)
  else if xs.contains (.inf true) then .inf true
  else
    let e : Int := xs.foldl (fun a x => min a x.exp) 0
    let t : Int := xs.foldl (fun a x => a + x.scaled e) 0
    if t = 0 then
      .fin (if xs.all Num.neg? then true else if xs.all (fun x => !x.neg?) then false else rm == .rdn) 0 0
    else .fin (decide (t < 0)) t.natAbs e

def Num.add (rm : RM) (a b : Num) : Num := Num.sum rm [a, b]

/-- The order of two values, none when one is NaN; the two zeros are equal. -/
def Num.order (a b : Num) : Option Ordering :=
  match a, b with
  | .nan, _ => none
  | _, .nan => none
  | .inf x, .inf y => some (if x = y then .eq else if x then .lt else .gt)
  | .inf x, _ => some (if x then .lt else .gt)
  | _, .inf y => some (if y then .gt else .lt)
  | a, b => let e := min a.exp b.exp; some (compare (a.scaled e) (b.scaled e))

/-! ### Formats (Table 10-1) -/

/-- A format: exponent bits, fraction bits, bias. -/
structure Fmt where
  eb : Nat
  mb : Nat
  bias : Nat
  deriving DecidableEq, Repr

def f32 : Fmt := ⟨8, 23, 127⟩
def h16 : Fmt := ⟨5, 10, 15⟩
def bf16 : Fmt := ⟨8, 7, 127⟩

/-- The element format of a TY code (Table 3-7), the two halves of a packed type being one format. -/
def fmtOf (ty : Nat) : Fmt :=
  match ty with
  | 0 => f32
  | 1 => h16
  | 2 => bf16
  | 3 => h16
  | _ => bf16

def packedTy (ty : Nat) : Bool := ty = 3 || ty = 4

def Fmt.bits (f : Fmt) : Nat := 1 + f.eb + f.mb
def Fmt.signBit (f : Fmt) : Nat := 2 ^ (f.eb + f.mb)
/-- The bits of +∞, of the canonical NaN and of the largest finite value. -/
def Fmt.infBits (f : Fmt) : Nat := (2 ^ f.eb - 1) * 2 ^ f.mb
def Fmt.nanBits (f : Fmt) : Nat := f.infBits + 2 ^ (f.mb - 1)
def Fmt.maxBits (f : Fmt) : Nat := f.infBits - 1
/-- The exponent of the smallest subnormal. -/
def Fmt.minExp (f : Fmt) : Int := 1 - (f.bias : Int) - f.mb

def signed (f : Fmt) (neg : Bool) (mag : Nat) : Nat := if neg then mag + f.signBit else mag

/-- The value of a format's bits; higher bits are ignored (R262). -/
def Fmt.num (f : Fmt) (n : Nat) : Num :=
  let neg := n / f.signBit % 2 = 1
  let e := n / 2 ^ f.mb % 2 ^ f.eb
  let m := n % 2 ^ f.mb
  if e = 2 ^ f.eb - 1 then (if m = 0 then .inf neg else .nan)
  else if e = 0 then .fin neg m f.minExp
  else .fin neg (m + 2 ^ f.mb) (f.minExp + (e - 1 : Nat))

/-! ### Rounding (R261, Table 10-2) -/

/-- Whether q + r/d, of an even or odd integer part q, rounds up in magnitude. -/
def roundsUp (rm : RM) (neg : Bool) (q r d : Nat) : Bool :=
  match rm with
  | .rne => decide (d < 2 * r) || (2 * r = d && q % 2 = 1)
  | .rz => false
  | .rdn => neg && r ≠ 0
  | .rup => !neg && r ≠ 0

/-- The magnitude n/d rounded to an integer. -/
def roundNat (rm : RM) (neg : Bool) (n d : Nat) : Nat :=
  n / d + b2n (roundsUp rm neg (n / d) (n % d) d)

/-- floor(log2(n/d)) of a positive fraction. -/
def floorLog2 (n d : Nat) : Int :=
  let k : Int := (n.log2 : Int) - d.log2
  if n * 2 ^ (-k).toNat < d * 2 ^ k.toNat then k - 1 else k

/-- The bits of a magnitude too large for the format. -/
def Fmt.overflow (f : Fmt) (rm : RM) (sat neg : Bool) : Nat :=
  let toMax := sat || (match rm with
    | .rne => false
    | .rz => true
    | .rdn => !neg
    | .rup => neg)
  signed f neg (if toMax then f.maxBits else f.infBits)

/-- The one rounding of (-1)^neg × n/d, n/d positive or zero. -/
def Fmt.roundFrac (f : Fmt) (rm : RM) (sat neg : Bool) (n d : Nat) : Nat :=
  if n = 0 then signed f neg 0
  else
    let ex := max (floorLog2 n d - f.mb) f.minExp
    let q := roundNat rm neg (n * 2 ^ (-ex).toNat) (d * 2 ^ ex.toNat)
    let mag := (ex - f.minExp).toNat * 2 ^ f.mb + q
    if f.infBits ≤ mag then f.overflow rm sat neg else signed f neg mag

/-- round(x, format, RM), with SA as in `cvt.ff` (R298). -/
def Fmt.round (f : Fmt) (rm : RM) (sat : Bool) : Num → Nat
  | .nan => f.nanBits
  | .inf n => signed f n f.infBits
  | .fin n m e => let q := fracOf m e; f.roundFrac rm sat n q.1 q.2

/-! ### Correctly rounded functions (R289) -/

/-- floor(√n), bit by bit from bit `k` down. -/
def isqrtFrom (n : Nat) : Nat → Nat → Nat
  | 0, r => r
  | k + 1, r => if (r + 2 ^ k) * (r + 2 ^ k) ≤ n then isqrtFrom n k (r + 2 ^ k) else isqrtFrom n k r

def isqrt (n : Nat) : Nat := isqrtFrom n (n.log2 / 2 + 1) 0

/-- round(√(n/d)): the root is taken to enough bits, with one more that says that it is not exact. -/
def Fmt.roundSqrt (f : Fmt) (rm : RM) (n d : Nat) : Nat :=
  let k := d.log2 + 64
  let r := isqrt (n * 2 ^ (2 * k) / d)
  let exact := r * r * d = n * 2 ^ (2 * k)
  f.roundFrac rm false false (2 * r + b2n (!exact)) (2 ^ (k + 1))

/-- 1/a and a/b of values that are finite and not zero are fractions. -/
def Num.quot (f : Fmt) (rm : RM) (neg : Bool) (m : Nat) (e : Int) (n : Nat) (g : Int) : Nat :=
  let q := fracOf m (e - g)
  f.roundFrac rm false neg q.1 (q.2 * n)

/-! Functions whose values are not rational are enclosed between two fixed-point bounds with `p` fraction bits, at growing
precision, until both ends round alike (notes/assumptions/15.md). -/

/-- Σ 1/((2k+1) q^(2k+1)), each term cut; `alt` alternates the signs. The error is below `p`. -/
def invSeries (alt : Bool) (q : Nat) : Nat → Nat → Nat → Int → Int
  | 0, _, _, acc => acc
  | fuel + 1, k, t, acc =>
    if t = 0 then acc
    else
      let x : Int := (t / (2 * k + 1) : Nat)
      invSeries alt q fuel (k + 1) (t / (q * q)) (if alt && k % 2 = 1 then acc - x else acc + x)

/-- ln 2 = 2 artanh(1/3), and π = 16 arctan(1/5) − 4 arctan(1/239): a value not above, and one not below. -/
def ln2Bounds (p : Nat) : Int × Int :=
  let x := invSeries false 3 p 0 (2 ^ p / 3) 0
  (2 * x, 2 * x + 2 * p)
def piBounds (p : Nat) : Int × Int :=
  let x := 16 * invSeries true 5 p 0 (2 ^ p / 5) 0 - 4 * invSeries true 239 p 0 (2 ^ p / 239) 0
  (x - 20 * p, x + 20 * p)

/-- Σ y^k/k!, terms cut, or raised by one when `up`. -/
def expSeries (p : Nat) (up : Bool) (y : Nat) : Nat → Nat → Nat → Nat → Nat
  | 0, _, _, acc => acc
  | fuel + 1, k, t, acc => expSeries p up y fuel (k + 1) (t * y / (k * 2 ^ p) + b2n up) (acc + t)

/-- 2^(n/2^j) for n < 2^j. -/
def exp2Bounds (p n j : Nat) : Int × Int :=
  let l := ln2Bounds p
  let lo := l.1.toNat * n / 2 ^ j
  let hi := l.2.toNat * n / 2 ^ j + 1
  let k := p / 2 + 20
  ((expSeries p false lo k 1 (2 ^ p) 0 : Int), (expSeries p true hi k 1 (2 ^ p) 0 : Int) + 2)

/-- Σ t z^(2k)/(2k+1) with z = a/b. -/
def lnSeries (a b : Nat) : Nat → Nat → Nat → Nat → Nat
  | 0, _, _, acc => acc
  | fuel + 1, k, t, acc => lnSeries a b fuel (k + 1) (t * (a * a) / (b * b)) (acc + t / (2 * k + 1))

/-- log2(n/d) for 1 ≤ n/d < 2. -/
def log2Bounds (p n d : Nat) : Int × Int :=
  let x := 2 * lnSeries (n - d) (n + d) p 0 (2 ^ p * (n - d) / (n + d)) 0
  let l := ln2Bounds p
  ((x * 2 ^ p / l.2.toNat : Nat), ((x + 4 * p + 4) * 2 ^ p / l.1.toNat + 1 : Nat))

/-- Σ ± x^(2k+1)/(2k+1)!. -/
def sinSeries (p x : Nat) : Nat → Nat → Nat → Int → Int
  | 0, _, _, acc => acc
  | fuel + 1, k, t, acc =>
    sinSeries p x fuel (k + 1) (t * (x * x) / (2 ^ (2 * p) * ((2 * k + 2) * (2 * k + 3))))
      (if k % 2 = 1 then acc - t else acc + t)

/-- sin(π n/2^j) for n/2^j from 0 to 1/2. -/
def sinPiBounds (p n j : Nat) : Int × Int :=
  let b := piBounds p
  let lo := b.1.toNat * n / 2 ^ j
  let hi := b.2.toNat * n / 2 ^ j + 1
  let k := p / 2 + 20
  let x := sinSeries p lo k 0 lo 0
  (x - (2 * k + 2 : Nat), x + (2 * k + 2 : Nat) + (hi - lo : Nat))

/-- Rounds a value known to lie between `lo` and `hi`, in units of 2^(g - p); `none` if the ends round differently. -/
def Fmt.roundBetween (f : Fmt) (rm : RM) (p : Nat) (g : Int) (b : Int × Int) : Option Nat :=
  let one := fun (x : Int) =>
    let q := fracOf x.natAbs (g - p)
    f.roundFrac rm false (decide (x < 0)) q.1 q.2
  if 0 < b.1 || b.2 < 0 then (if one b.1 = one b.2 then some (one b.1) else none) else none

/-- The precisions tried. -/
def precisions : List Nat := [80, 400, 800]

def Fmt.refine (f : Fmt) (rm : RM) (g : Int) (b : Nat → Int × Int) : Nat :=
  (precisions.findSome? (fun p => f.roundBetween rm p g (b p))).getD
    (let q := fracOf (b 800).1.natAbs (g - 800); f.roundFrac rm false (decide ((b 800).1 < 0)) q.1 q.2)

/-- The integer part and the fraction n/2^j of m × 2^e. -/
def splitFrac (m : Nat) (e : Int) : Nat × Nat × Nat :=
  let j := (-e).toNat
  let x := m * 2 ^ e.toNat
  (x / 2 ^ j, x % 2 ^ j, j)

/-- The functions of Table 11-3 of one operand. -/
inductive SfuFn where
  | rcp | sqrt | rsq | exp2 | log2 | sinp | cosp
  deriving DecidableEq, Repr

/-- 2^a: a is cut where every format overflows or rounds as the smallest value does. -/
def Fmt.exp2 (f : Fmt) (rm : RM) (neg : Bool) (m : Nat) (e : Int) : Nat :=
  let (i, n, j) := splitFrac m e
  if 2048 ≤ i then let q := pow2 (if neg then -2048 else 2048); f.roundFrac rm false false q.1 q.2
  else if n = 0 then let q := pow2 (if neg then -(i : Int) else i); f.roundFrac rm false false q.1 q.2
  else if neg then f.refine rm (-(i : Int) - 1) (fun p => exp2Bounds p (2 ^ j - n) j)
  else f.refine rm i (fun p => exp2Bounds p n j)

def Fmt.log2 (f : Fmt) (rm : RM) (m : Nat) (e : Int) : Nat :=
  let k : Int := (m.log2 : Int) + e
  if 2 ^ m.log2 = m then f.round rm false (.ofInt k)
  else f.refine rm 0 (fun p =>
    let b := log2Bounds p m (2 ^ m.log2)
    (k * 2 ^ p + b.1, k * 2 ^ p + b.2))

/-- sin(πx) for x = n/2^j in a turn of length 2 (n < 2^(j+1)), with its sign; an exact value where it is rational. -/
def Fmt.sinTurn (f : Fmt) (rm : RM) (zeroNeg neg : Bool) (n j : Nat) : Nat :=
  let half := decide (2 ^ j ≤ n)
  let r := n % 2 ^ j
  let s := neg != half
  if r = 0 then signed f zeroNeg 0
  else if 2 * r = 2 ^ j then f.round rm false (.fin s 1 0)
  else
    let t := if 2 * r < 2 ^ j then r else 2 ^ j - r
    f.refine rm 0 (fun p => let b := sinPiBounds p t j; if s then (-b.2, -b.1) else b)

def sfuValue (f : Fmt) (rm : RM) (fn : SfuFn) (a : Num) : Nat :=
  match fn, a with
  | _, .nan => f.nanBits
  | .rcp, .inf n => signed f n 0
  | .rcp, .fin n m e => if m = 0 then signed f n f.infBits else Num.quot f rm n 1 0 m e
  | .sqrt, .inf n => if n then f.nanBits else f.infBits
  | .sqrt, .fin n m e =>
    if m = 0 then signed f n 0 else if n then f.nanBits else let q := fracOf m e; f.roundSqrt rm q.1 q.2
  | .rsq, .inf n => if n then f.nanBits else 0
  | .rsq, .fin n m e =>
    if m = 0 then signed f n f.infBits else if n then f.nanBits else let q := fracOf m e; f.roundSqrt rm q.2 q.1
  | .exp2, .inf n => if n then 0 else f.infBits
  | .exp2, .fin n m e => if m = 0 then f.round rm false (.fin false 1 0) else f.exp2 rm n m e
  | .log2, .inf n => if n then f.nanBits else f.infBits
  | .log2, .fin n m e => if m = 0 then signed f true f.infBits else if n then f.nanBits else f.log2 rm m e
  | .sinp, .inf _ => f.nanBits
  | .sinp, .fin n m e =>
    if m = 0 then signed f n 0
    else let (i, x, j) := splitFrac m e; f.sinTurn rm n n (i % 2 * 2 ^ j + x) j
  | .cosp, .inf _ => f.nanBits
  | .cosp, .fin _ m e =>
    -- cos(πx) = sin(π(x + 1/2))
    let (i, x, j) := splitFrac m e
    f.sinTurn rm false false ((2 * (i % 2 * 2 ^ j + x) + 2 ^ j) % (4 * 2 ^ j)) (j + 1)

/-- a/b (Table 11-3). -/
def divValue (f : Fmt) (rm : RM) (a b : Num) : Nat :=
  match a, b with
  | .nan, _ => f.nanBits
  | _, .nan => f.nanBits
  | .inf _, .inf _ => f.nanBits
  | .inf x, .fin y _ _ => signed f (x != y) f.infBits
  | .fin x _ _, .inf y => signed f (x != y) 0
  | .fin x m e, .fin y n g =>
    if n = 0 then (if m = 0 then f.nanBits else signed f (x != y) f.infBits)
    else if m = 0 then signed f (x != y) 0
    else Num.quot f rm (x != y) m e n g

/-! ### Narrow encodings (R263 to R266) -/

/-- The encodings of Table 10-3. -/
inductive Enc where
  | i4 | f4 | q4 | l4 | i8 | e4m3 | e5m2 | e3m4
  deriving DecidableEq, Repr

def encOf (eight : Bool) (sel : Nat) : Enc :=
  match eight, sel with
  | false, 0 => .i4
  | false, 1 => .f4
  | false, 2 => .q4
  | false, _ => .l4
  | true, 0 => .i8
  | true, 1 => .e4m3
  | true, 2 => .e5m2
  | true, _ => .e3m4

def Enc.eight : Enc → Bool
  | .i4 => false
  | .f4 => false
  | .q4 => false
  | .l4 => false
  | _ => true

/-- M, the largest magnitude a quantising store writes. -/
def Enc.maxMag : Enc → Nat
  | .i4 => 7
  | .f4 => 6
  | .q4 => 1
  | .l4 => 1
  | .i8 => 127
  | .e4m3 => 448
  | .e5m2 => 57344
  | .e3m4 => 30

/-- The codes for zero, +M and −M (Table 10-6). -/
def Enc.zeroCode : Enc → Nat
  | .q4 => 7
  | _ => 0
def Enc.maxCode : Enc → Bool → Nat
  | .i4, n => if n then 0x9 else 0x7
  | .f4, n => if n then 0xF else 0x7
  | .q4, n => if n then 0x0 else 0xF
  | .l4, n => if n then 0xF else 0x7
  | .i8, n => if n then 0x81 else 0x7F
  | .e4m3, n => if n then 0xFE else 0x7E
  | .e5m2, n => if n then 0xFB else 0x7B
  | .e3m4, n => if n then 0xFE else 0x7E

/-- The numerators over 128 of the codebook of Q4 (Table 10-4). -/
def q4Levels : List Int := [-128, -92, -68, -50, -35, -22, -11, 0, 9, 19, 30, 42, 56, 73, 96, 128]

/-- A small floating code: `eb` exponent bits, `mb` fraction bits; no infinities or NaN here. -/
def miniFloat (eb mb bias c : Nat) : Num :=
  let neg := c / 2 ^ (eb + mb) % 2 = 1
  let e := c / 2 ^ mb % 2 ^ eb
  let m := c % 2 ^ mb
  .fin neg (if e = 0 then m else m + 2 ^ mb) ((max e 1 : Nat) - (bias : Int) - mb)

/-- The value of a code. -/
def Enc.decode (x : Enc) (c : Nat) : Num :=
  match x with
  | .i4 => .ofInt (readBits true 4 c)
  | .f4 => miniFloat 2 1 1 c
  | .q4 => let n := q4Levels.getD (c % 16) 0; .fin (decide (n < 0)) n.natAbs (-7)
  | .l4 => let k := c % 8; .fin (c / 8 % 2 = 1) (if k = 0 then 0 else 1) ((k : Int) - 7)
  | .i8 => .ofInt (readBits true 8 c)
  | .e4m3 => if c % 128 = 127 then .nan else miniFloat 4 3 7 c
  | .e5m2 =>
    if c / 4 % 32 = 31 then (if c % 4 = 0 then .inf (c / 128 % 2 = 1) else .nan) else miniFloat 5 2 15 c
  | .e3m4 => if c % 128 = 127 then .nan else miniFloat 3 4 3 c

/-- The codes qround chooses among: levels within ±M, in rising order of value, without −0 (R266, R274). -/
def Enc.codes (x : Enc) : List Nat :=
  (List.range (if x.eight then 256 else 16)).filter (fun c =>
    (match x.decode c with
     | .fin n m e => !(n && m = 0) && decide ((fracOf m e).1 ≤ x.maxMag * (fracOf m e).2)
     | _ => false) && c ≠ (match x with | .i4 => 8 | .i8 => 128 | _ => 256))

/-- The signed fraction of a finite value. -/
def Num.toFrac : Num → Int × Nat
  | .fin n m e => let q := fracOf m e; (if n then -(q.1 : Int) else q.1, q.2)
  | _ => (0, 1)

/-- qround(n/d, enc) (R274): the nearest level, the code with bit 0 clear at a tie. -/
def qround (x : Enc) (n : Int) (d : Nat) : Nat :=
  if x.maxMag * d < n.natAbs then x.maxCode (decide (n < 0))
  else
    let dist := fun (c : Nat) => let l := (x.decode c).toFrac; ((n * l.2 - l.1 * d).natAbs, l.2)
    let c := (x.codes).foldl (fun (best : Nat) c =>
      let a := dist best
      let b := dist c
      if b.1 * a.2 < a.1 * b.2 || (b.1 * a.2 = a.1 * b.2 && best % 2 = 1 && c % 2 = 0) then c else best) x.zeroCode
    c

/-! ### Block headers (R268 to R271) -/

def hdrSel (h : Nat) : Nat := h / 4096 % 4
def hdrExp (h : Nat) : Nat := h / 16 % 256

/-- The check of R270: bit 14 clear and an even number of ones. -/
def hdrOk (h : Nat) : Bool :=
  h / 16384 % 2 = 0 && (List.range 16).foldl (fun n i => n + h / 2 ^ i % 2) 0 % 2 = 0

/-- The header with a selector and the 12 scale bits, CHK for even parity. -/
def hdrMake (sel scale : Nat) : Nat :=
  let h := sel * 4096 + scale
  if hdrOk h then h else h + 32768

/-- The scale that header bits [11:0] give, as m × 2^e (R269). -/
def scaleNum (x : Nat) : Num := .fin false (16 + x % 16) ((x / 16 : Nat) - 131)

/-- The value of a code under a header that passed its check (R271). -/
def decodeUnder (h : Nat) (eight : Bool) (c : Nat) : Num :=
  if hdrExp h = 0 then .fin false 0 0
  else if hdrExp h = 255 then .nan
  else ((encOf eight (hdrSel h)).decode c).mul (scaleNum (h % 4096))

/-! ### The quantising store (R273 to R275) -/

/-- The scale bits for a largest magnitude n/d under an encoding, and whether the scale was clamped at the top. The scales
rise with bits [11:0], so the smallest at or above t is found bit by bit. -/
def scaleSearch (n d mx : Nat) : Nat → Nat → Nat
  | 0, lo => lo
  | k + 1, lo =>
    -- `lo` + 2^k is still below t
    let x := lo + 2 ^ k
    let q := (scaleNum x).toFrac
    if x ≤ 0xFEF && q.1 * mx * d < (n : Int) * q.2 then scaleSearch n d mx k x else scaleSearch n d mx k lo

def scaleFor (x : Enc) (n d : Nat) : Nat × Bool :=
  let below := fun (c : Nat) => let q := (scaleNum c).toFrac; decide (q.1 * x.maxMag * d < (n : Int) * q.2)
  if !below 0x010 then (0x010, false)
  else if below 0xFEF then (0xFEF, true)
  else (scaleSearch n d x.maxMag 12 0x00F + 1, false)

/-- The result of a quantising store. -/
structure Quant where
  header : Nat
  codes : List Nat
  sat : Bool
  inv : Bool
  deriving DecidableEq, Repr

/-- A candidate: selector, scale bits, clamped, codes, error as a fraction. -/
structure Cand where
  sel : Nat
  scale : Nat
  top : Bool
  codes : List Nat
  err : Nat × Nat
  deriving DecidableEq, Repr

def candidate (eight : Bool) (n d : Nat) (xs : List Num) (k : Nat) : Cand :=
  let enc := encOf eight k
  let (sc, top) := scaleFor enc n d
  let s := (scaleNum sc).toFrac
  let codes := xs.map (fun x => let q := x.toFrac; qround enc (q.1 * s.2) (q.2 * s.1.toNat))
  let diffs := List.zipWith (fun x c => Num.sum .rne [x, ((enc.decode c).mul (scaleNum sc)).negate]) xs codes
  let err := (Num.sum .rne (diffs.map (fun y => y.mul y))).toFrac
  { sel := k, scale := sc, top := top, codes := codes, err := (err.1.toNat, err.2) }

/-- The quantising store of exact values at a width with an allowed-selector mask (R273). -/
def quantise (eight : Bool) (mask : Nat) (xs : List Num) : Quant :=
  let bad := xs.any (fun x => match x with | .fin _ _ _ => false | _ => true)
  if bad then { header := 0x0FF0, codes := xs.map (fun _ => 0), sat := false, inv := true }
  else
    let mags := xs.map (fun x => let q := x.toFrac; (q.1.natAbs, q.2))
    let amax := mags.foldl (fun (a : Nat × Nat) q => if a.1 * q.2 < q.1 * a.2 then q else a) (0, 1)
    if amax.1 = 0 then { header := 0, codes := xs.map (fun _ => 0), sat := false, inv := false }
    else
      let ks := (List.range 4).filter (fun k => mask % 16 = 0 || mask / 2 ^ k % 2 = 1)
      let cands := ks.map (candidate eight amax.1 amax.2 xs)
      match cands with
      | [] => { header := 0, codes := xs.map (fun _ => 0), sat := false, inv := false }
      | c :: cs =>
        let best := cs.foldl (fun (b : Cand) x => if x.err.1 * b.err.2 < b.err.1 * x.err.2 then x else b) c
        { header := hdrMake best.sel best.scale, codes := best.codes, sat := best.top, inv := false }

/-- The bytes of a block's codes (R267). -/
def packCodes (eight : Bool) : List Nat → List Byte
  | [] => []
  | c :: cs =>
    if eight then BitVec.ofNat 8 c :: packCodes eight cs
    else match cs with
      | [] => [BitVec.ofNat 8 (c % 16)]
      | d :: ds => BitVec.ofNat 8 (c % 16 + 16 * (d % 16)) :: packCodes eight ds

/-- Code `i` of a block's bytes (R267). -/
def codeAt (eight : Bool) (bs : List Byte) (i : Nat) : Nat :=
  if eight then (bs.getD i 0).toNat else (bs.getD (i / 2) 0).toNat / 16 ^ (i % 2) % 16

end Sys2Proof.Machine
end

