-- ==== Sys2Proof/Machine/Integer.lean ====
section
/-! DEFINITION. Machine/Integer.lean: the integer and address instructions (R123 to R133). -/

namespace Sys2Proof.Machine

/-! ### Add, subtract, multiply, minimum, maximum, absolute value (R124) -/

def execIadd (h : Head) (f : A3) (s : State) : Out := intLane "IADD" h (rowInt allTys true) f 0 (fun a b _ => a + b) s
def execIsub (h : Head) (f : A3) (s : State) : Out := intLane "ISUB" h (rowInt allTys true) f 0 (fun a b _ => a - b) s
def execImul (h : Head) (f : A3) (s : State) : Out := intLane "IMUL" h (rowInt allTys true) f 1 (fun a b _ => a * b) s
def execImad (h : Head) (f : A3) (s : State) : Out :=
  intLane "IMAD" h { rowInt allTys true with c := .vT } f 0 (fun a b c => a * b + c) s
def execImin (h : Head) (f : A3) (s : State) : Out :=
  intLane "IMIN" h (rowInt allTys false) f (fillMax f.ty) (fun a b _ => min a b) s
def execImax (h : Head) (f : A3) (s : State) : Out :=
  intLane "IMAX" h (rowInt allTys false) f (fillMin f.ty) (fun a b _ => max a b) s
def execIabs (h : Head) (f : A3) (s : State) : Out :=
  intLane "IABS" h (rowInt [0, 2, 4, 6] true).noB f 0 (fun a _ _ => if a < 0 then -a else a) s

/-! ### Widening and address forms (R125) -/

/-- B as 32 bits extended by the type: sign for i32, zero for n32. -/
def extB (ty : BitVec 3) (b : DWord) : Int := readBits (tySigned ty) 32 b.toNat

/-- The upper word of the 64-bit product. -/
def mulHigh (ty : BitVec 3) (a b : DWord) : DWord := BitVec.ofNat 64 (modBits 64 (typed ty a * typed ty b) / 2 ^ 32)

def execImulh (h : Head) (f : A3) (s : State) : Out :=
  bitLane "IMULH" h (rowInt [0, 1] false) f false 0 (fun a b _ => mulHigh f.ty a b) s

/-- A × B + pair C at the 64-bit type, wrapped or clamped. -/
def mulAddWide (ty : BitVec 3) (sat : Bool) (a b c : DWord) : DWord :=
  let x := typed ty a * typed ty b + readBits (tySigned ty) 64 c.toNat
  BitVec.ofNat 64 (modBits 64 (if sat then satInt (tySigned ty) 64 x else x))

def execImadw (h : Head) (f : A3) (s : State) : Out :=
  issueOp "IMADW" h false (intUses { rowInt [0, 1] true with d := .v2, c := .v2 } f) (fun x =>
    x.vecResult true f.d.toNat (fun l =>
      mulAddWide f.ty f.sat (x.vecN false f.a.toNat l) (x.srcB false f.b 0 l) (x.vecPair f.c.toNat l))) s

/-- A base plus an extended 32-bit value times a power of two, modulo 2^64. -/
def addScaled (ty : BitVec 3) (base b : DWord) (sh : Nat) : DWord :=
  BitVec.ofNat 64 (modBits 64 ((base.toNat : Int) + extB ty b * ((2 ^ sh : Nat) : Int)))

def execIadd64 (h : Head) (f : A3) (s : State) : Out :=
  issueOp "IADD64" h false (intUses { (rowInt [0, 1] false).single with d := .v2, a := .v2 } f) (fun x =>
    x.vecResult true f.d.toNat (fun l => addScaled f.ty (x.vecPair f.a.toNat l) (x.srcB false f.b 0 l) 0)) s
def execLea (h : Head) (f : A3) (s : State) : Out :=
  issueOp "LEA" h false (intUses { (rowInt [0, 1] false).single with d := .v2, a := .v2, c := .n 63 } f) (fun x =>
    x.vecResult true f.d.toNat (fun l => addScaled f.ty (x.vecPair f.a.toNat l) (x.srcB false f.b 0 l) f.c.toNat)) s

/-! ### Carry and borrow (R126) -/

/-- A sum or difference with the carry of p[C], which it also writes. -/
def carryLane (name : String) (h : Head) (f : A3) (op : Nat → Nat → Bool → Nat × Bool) (s : State) : Out :=
  issueOp name h false (intUses { rowInt [1] false with c := .p } f) (fun x =>
    x.commit (x.lanes.flatMap (fun l =>
      let r := op (x.vec f.a.toNat l).toNat (loOf (x.srcB false f.b 0 l)).toNat (x.pred f.c.toNat l)
      [.v f.d.toNat l (BitVec.ofNat 32 r.1), .p l f.c.toNat r.2]))) s

def execIaddc (h : Head) (f : A3) (s : State) : Out := carryLane "IADDC" h f addCarry s
def execIsubb (h : Head) (f : A3) (s : State) : Out := carryLane "ISUBB" h f subBorrow s

/-! ### Division (R127) -/

/-- The quotient, truncated toward zero; all ones when the divisor is 0. -/
def divide (sat : Bool) (ty : BitVec 3) (a b : DWord) : DWord :=
  if typed ty b = 0 then storeBits (tySigned ty) (tyBits ty) (2 ^ tyBits ty - 1)
  else fitInt sat ty ((typed ty a).tdiv (typed ty b))

/-- The remainder, with the sign of the dividend; the dividend when the divisor is 0. -/
def remain (ty : BitVec 3) (a b : DWord) : DWord :=
  if typed ty b = 0 then fitInt false ty (typed ty a) else fitInt false ty ((typed ty a).tmod (typed ty b))

def execIdiv (h : Head) (f : A3) (s : State) : Out :=
  bitLane "IDIV" h (rowInt [0, 1, 2, 3] true) f (wideTy f.ty) 0 (fun a b _ => divide f.sat f.ty a b) s
def execIrem (h : Head) (f : A3) (s : State) : Out :=
  bitLane "IREM" h (rowInt [0, 1, 2, 3] false) f (wideTy f.ty) 0 (fun a b _ => remain f.ty a b) s

/-! ### Sums of differences and byte dot products (R128) -/

/-- C + |A − B|, C as n32. -/
def sumAbsDiff (ty : BitVec 3) (sat : Bool) (a b c : DWord) : DWord :=
  let x := (loOf c).toNat + (typed ty a - typed ty b).natAbs
  BitVec.ofNat 64 (if sat then min x (2 ^ 32 - 1) else x % 2 ^ 32)

def execIsad (h : Head) (f : A3) (s : State) : Out :=
  bitLane "ISAD" h { rowInt [0, 1, 4, 5, 6, 7] true with c := .v } f false 0 (fun a b c => sumAbsDiff f.ty f.sat a b c) s

/-- C plus the four products of bytes, signed for i8. -/
def dot4 (ty : BitVec 3) (sat : Bool) (a b c : DWord) : DWord :=
  let byte := fun (n : DWord) (i : Nat) => readBits (tySigned ty) 8 (n.toNat / 256 ^ i)
  let x := (List.range 4).foldl (fun acc i => acc + byte a i * byte b i) (readBits (tySigned ty) 32 c.toNat)
  BitVec.ofNat 64 (modBits 32 (if sat then satInt (tySigned ty) 32 x else x))

def execIdot4 (h : Head) (f : A3) (s : State) : Out :=
  bitLane "IDOT4" h { rowInt [6, 7] true with c := .v } f false 0 (fun a b c => dot4 f.ty f.sat a b c) s

/-! ### Logic (R129) -/

def execAnd (h : Head) (f : A3) (s : State) : Out :=
  bitLane "AND" h (rowInt [0, 2] false) f (wideTy f.ty) (fillOnes (wideTy f.ty)) (fun a b _ => a &&& b) s
def execOr (h : Head) (f : A3) (s : State) : Out :=
  bitLane "OR" h (rowInt [0, 2] false) f (wideTy f.ty) 0 (fun a b _ => a ||| b) s
def execXor (h : Head) (f : A3) (s : State) : Out :=
  bitLane "XOR" h (rowInt [0, 2] false) f (wideTy f.ty) 0 (fun a b _ => a ^^^ b) s
def execAndn (h : Head) (f : A3) (s : State) : Out :=
  bitLane "ANDN" h (rowInt [0, 2] false) f (wideTy f.ty) 0 (fun a b _ => a &&& ~~~b) s

/-- The bitwise function of a truth table: entry A + 2B + 4C (R129). -/
def tableOf (tab : BitVec 8) (a b c : DWord) : DWord :=
  let minterm := fun (k : Nat) =>
    if tab.getLsbD k then
      (if k % 2 = 1 then a else ~~~a) &&& (if k / 2 % 2 = 1 then b else ~~~b) &&& (if k / 4 = 1 then c else ~~~c)
    else 0
  (List.range 8).foldl (fun acc k => acc ||| minterm k) 0

def execLtab (h : Head) (f : Tab3) (s : State) : Out :=
  let wide := wideTy f.ty
  issueOp "LTAB" h false (tabUses true f) (fun x => x.vecResult wide f.d.toNat (fun l =>
    tableOf f.tab (x.vecN wide f.a.toNat l)
      (if f.scalB then x.scalN wide f.b.toNat else x.vecN wide f.b.toNat l) (x.vecN wide f.c.toNat l))) s

/-! ### Shifts and rotation (R130) -/

/-- The bits of a shift; `n` is one unsigned 32-bit value. -/
def shiftLeft (w : Nat) (a : DWord) (n : Nat) : DWord := if w ≤ n then 0 else BitVec.ofNat 64 (a.toNat * 2 ^ n % 2 ^ w)
def shiftRight (w : Nat) (a : DWord) (n : Nat) : DWord := if w ≤ n then 0 else BitVec.ofNat 64 (a.toNat % 2 ^ w / 2 ^ n)
def shiftArith (w : Nat) (a : DWord) (n : Nat) : DWord :=
  let x := readBits true w a.toNat
  BitVec.ofNat 64 (modBits w (if w ≤ n then (if x < 0 then -1 else 0) else x / ((2 ^ n : Nat) : Int)))
def rotateLeft (w : Nat) (a : DWord) (n : Nat) : DWord :=
  let k := n % w
  let x := a.toNat % 2 ^ w
  BitVec.ofNat 64 ((x * 2 ^ k % 2 ^ w) ||| (x / 2 ^ (w - k)))

def execShl (h : Head) (f : A3) (s : State) : Out :=
  bitLane "SHL" h (rowInt [0, 2] false).single f false 0 (fun a b _ => shiftLeft (tyBits f.ty) a (loOf b).toNat) s
def execShr (h : Head) (f : A3) (s : State) : Out :=
  bitLane "SHR" h (rowInt [0, 2] false).single f false 0 (fun a b _ => shiftRight (tyBits f.ty) a (loOf b).toNat) s
def execSar (h : Head) (f : A3) (s : State) : Out :=
  bitLane "SAR" h (rowInt [0, 2] false).single f false 0 (fun a b _ => shiftArith (tyBits f.ty) a (loOf b).toNat) s
def execRot (h : Head) (f : A3) (s : State) : Out :=
  bitLane "ROT" h (rowInt [0, 2] false).single f false 0 (fun a b _ => rotateLeft (tyBits f.ty) a (loOf b).toNat) s

/-! ### Bit fields and bit counts (R131, R132) -/

/-- Position and length of a field, cut at bit 31. -/
def fieldOf (b : DWord) : Nat × Nat :=
  let pos := min (b.toNat % 256) 32
  (pos, min (b.toNat / 256 % 256) (32 - pos))

def extractField (signed : Bool) (a b : DWord) : DWord :=
  let (pos, len) := fieldOf b
  if len = 0 then 0 else BitVec.ofNat 64 (modBits 32 (readBits signed len (a.toNat / 2 ^ pos)))

def insertField (a b c : DWord) : DWord :=
  let (pos, len) := fieldOf b
  let mask : DWord := BitVec.ofNat 64 ((2 ^ len - 1) * 2 ^ pos)
  (c &&& ~~~mask) ||| (BitVec.ofNat 64 (a.toNat * 2 ^ pos) &&& mask)

def execBfe (h : Head) (f : A3) (s : State) : Out :=
  bitLane "BFE" h (rowInt [0, 1] false) f false 0 (fun a b _ => extractField (tySigned f.ty) a b) s
def execBfi (h : Head) (f : A3) (s : State) : Out :=
  bitLane "BFI" h { (rowInt [0] false).noImm with c := .v } f false 0 (fun a b c => insertField a b c) s

/-- The number of set bits among the low `w`. -/
def countOnes (w : Nat) (a : DWord) : Nat := (List.range w).foldl (fun n i => n + b2n (a.getLsbD i)) 0
/-- The number of zero bits above the highest set one of the low `w`. -/
def countLeading (a : DWord) : Nat → Nat
  | 0 => 0
  | w + 1 => if a.getLsbD w then 0 else 1 + countLeading a w
/-- The low `w` bits in reverse order. -/
def reverseBits (w : Nat) (a : DWord) : DWord :=
  BitVec.ofNat 64 ((List.range w).foldl (fun n i => n + if a.getLsbD i then 2 ^ (w - 1 - i) else 0) 0)

/-- A count written to one register. -/
def countLane (name : String) (h : Head) (f : A3) (op : Nat → DWord → Nat) (s : State) : Out :=
  issueOp name h false (intUses { (rowInt [0, 2] false).noB with d := .v } f) (fun x =>
    x.vecResult false f.d.toNat (fun l => BitVec.ofNat 64 (op (tyBits f.ty) (x.vecN (wideTy f.ty) f.a.toNat l)))) s

def execPopc (h : Head) (f : A3) (s : State) : Out := countLane "POPC" h f countOnes s
def execClz (h : Head) (f : A3) (s : State) : Out := countLane "CLZ" h f (fun w a => countLeading a w) s
def execBrev (h : Head) (f : A3) (s : State) : Out :=
  bitLane "BREV" h (rowInt [0, 2] false).noB f false 0 (fun a _ _ => reverseBits (tyBits f.ty) a) s

/-! ### Immediates (R133) -/

def execMovi (h : Head) (f : AI) (s : State) : Out :=
  let wide := f.a == 1
  issueOp "MOVI" h false [.v f.d.toNat (if wide then 2 else 1)] (fun x => x.vecResult wide f.d.toNat (fun _ => immOf f)) s

end Sys2Proof.Machine
end

