-- ==== Sys2Proof/Machine/Lanes.lean ====
section
/-! DEFINITION. Machine/Lanes.lean: comparisons, predicate logic, votes, moves between lanes, scalar instructions, computed
register indices, `xperm`, `spec` (R134 to R143). `fcmp` stands in Machine/Float.lean. -/

namespace Sys2Proof.Machine

/-! ### Comparison (R135, R136) -/

def execIcmp (h : Head) (f : A3) (s : State) : Out :=
  let wide := wideTy f.ty
  issueOp "ICMP" h false (intUses { rowInt [0, 1, 2, 3] false with d := .p, c := .n 5 } f) (fun x =>
    x.predResult f.d.toNat (fun l =>
      intCond f.c.toNat (typed f.ty (x.vecN wide f.a.toNat l)) (typed f.ty (x.srcB wide f.b 0 l)))) s

def execScmp (h : Head) (f : A3) (s : State) : Out :=
  let wide := wideTy f.ty
  issueOp "SCMP" h false (intUses { rowScal [0, 1, 2, 3] false with d := .p, c := .n 5 } f) (fun x =>
    x.predResult f.d.toNat (fun _ =>
      intCond f.c.toNat (typed f.ty (x.scalN wide f.a.toNat)) (typed f.ty (x.srcS wide f.b)))) s

/-! ### Predicate logic and selection (R137) -/

/-- The predicate a B field of predicate logic names. -/
def predB : SrcB → Nat
  | .vec r _ _ => r.toNat
  | .scal r => r.toNat
  | .imm v => v.toNat

def predLane (name : String) (h : Head) (row : A3Row) (f : A3) (op : Bool → Bool → Bool) (s : State) : Out :=
  issueOp name h false (intUses row f) (fun x => x.predResult f.d.toNat (fun l =>
    op (x.pred f.a.toNat l != f.c.getLsbD 0) (x.pred (predB f.b) l != f.c.getLsbD 1))) s

def execPand (h : Head) (f : A3) (s : State) : Out := predLane "PAND" h rowPred f (fun a b => a && b) s
def execPor (h : Head) (f : A3) (s : State) : Out := predLane "POR" h rowPred f (fun a b => a || b) s
def execPxor (h : Head) (f : A3) (s : State) : Out := predLane "PXOR" h rowPred f (fun a b => a != b) s
def execPmov (h : Head) (f : A3) (s : State) : Out := predLane "PMOV" h { rowPred.noB with c := .n 1 } f (fun a _ => a) s

def execSel (h : Head) (f : A3) (s : State) : Out :=
  let wide := wideTy f.ty
  issueOp "SEL" h false (intUses { rowInt [0, 2] false with c := .p } f) (fun x => x.vecResult wide f.d.toNat (fun l =>
    if x.pred f.c.toNat l then x.vecN wide f.a.toNat l else x.srcB wide f.b 0 l)) s

/-! ### Votes (R138) -/

def execBallot (h : Head) (f : A3) (s : State) : Out :=
  issueOp "BALLOT" h false [.s f.d.toNat 1] (waveOp fun x => x.commit [.s f.d.toNat (x.ballotOf f.a.toNat)]) s
def execLanes (h : Head) (f : A3) (s : State) : Out :=
  issueOp "LANES" h false [.s f.d.toNat 1] (waveOp fun x => x.commit [.s f.d.toNat x.act]) s
def execVany (h : Head) (f : A3) (s : State) : Out :=
  issueOp "VANY" h false [] (fun x => x.predResult f.d.toNat (fun _ => x.voteAny f.a.toNat)) s
def execVall (h : Head) (f : A3) (s : State) : Out :=
  issueOp "VALL" h false [] (fun x => x.predResult f.d.toNat (fun _ => x.voteAll f.a.toNat)) s

/-- The active lanes that hold lane `l`'s value. -/
def Ctx.matchOf (x : Ctx) (wide : Bool) (r l : Nat) : Lanes :=
  lanesOf (fun m => hasLane x.act m && x.vecN wide r m == x.vecN wide r l)

def execVmatch (h : Head) (f : A3) (s : State) : Out :=
  issueOp "VMATCH" h false (intUses { (rowInt [0, 2] false).noB with d := .v } f) (fun x =>
    x.vecResult false f.d.toNat (fun l => (x.matchOf (wideTy f.ty) f.a.toNat l).setWidth 64)) s

/-! ### Moves between lanes and to scalar (R139) -/

def execMov (h : Head) (f : A3) (s : State) : Out :=
  let wide := wideTy f.ty
  issueOp "MOV" h false (intUses { rowInt [0, 2] false with a := .zero } f) (fun x =>
    x.vecResult wide f.d.toNat (fun l => x.srcB wide f.b 0 l)) s
def execMovs (h : Head) (f : A3) (s : State) : Out :=
  let wide := wideTy f.ty
  issueOp "MOVS" h false (intUses { (rowInt [0, 2] false).noB with d := .sT, c := .n 31 } f) (waveOp fun x =>
    x.scalResult wide f.d.toNat (x.vecN wide f.a.toNat f.c.toNat)) s
def execSmov (h : Head) (f : A3) (s : State) : Out :=
  let wide := wideTy f.ty
  issueOp "SMOV" h false (intUses { rowScal [0, 2] false with a := .zero } f) (waveOp fun x =>
    x.scalResult wide f.d.toNat (x.srcS wide f.b)) s
def execSmovi (h : Head) (f : AI) (s : State) : Out :=
  let wide := f.a == 1
  issueOp "SMOVI" h false [.s f.d.toNat (if wide then 2 else 1)] (waveOp fun x => x.scalResult wide f.d.toNat (immOf f)) s

/-! ### Computed register indices (R141) -/

/-- The lanes of `m` whose index is at or beyond the declared count. -/
def Ctx.beyondIndex (x : Ctx) (k : Nat → Nat) : Lanes := lanesOf (fun l => hasLane x.act l && x.blk.kern.vregs ≤ k l)

/-- The trap of R141, with the index of the lowest failing lane. -/
def Ctx.indexTrap (x : Ctx) (k : Nat → Nat) : TrapInfo :=
  let bad := x.beyondIndex k
  x.trap 0x03 0 (BitVec.ofNat 64 (k ((lanesIn bad).headD 0))) bad false

def execMovri (h : Head) (f : A3) (s : State) : Out :=
  issueOp "MOVRI" h false (intUses (rowInt [0] false) f) (fun x s =>
    let k := fun l => f.a.toNat + (loOf (x.srcB false f.b 0 l)).toNat
    if x.beyondIndex k != 0 then x.raise (x.indexTrap k) s
    else x.vecResult false f.d.toNat (fun l => x.vecN false (k l) l) s) s
def execMovwi (h : Head) (f : A3) (s : State) : Out :=
  issueOp "MOVWI" h false (intUses { rowInt [0] false with a := .zero, c := .v } f) (fun x s =>
    let k := fun l => f.d.toNat + (loOf (x.srcB false f.b 0 l)).toNat
    if x.beyondIndex k != 0 then x.raise (x.indexTrap k) s
    else x.commit (x.lanes.map (fun l => .v (k l) l (x.vec f.c.toNat l))) s) s

/-! ### Results of the SFU and `xperm` (R58, R142, R290) -/

/-- Queues a long-latency result of `regs` registers for every active lane and sets the slot's flag; nothing if no lane
performs it. -/
def Ctx.longResult (x : Ctx) (d regs : Nat) (f : Nat → DWord) (s : State) : State :=
  if !x.any then s
  else
    let (id, s) := s.newId
    let o : SfuOp := { id := id, dst := d, regs := regs, lanes := x.act, vals := x.lanes.map (fun l => (l, f l)), clobbered := [] }
    x.setFlag id (s.updWave x.b x.w (fun w => { w with sfu := w.sfu ++ [o] }))

def execXperm (h : Head) (f : A3) (s : State) : Out :=
  let wide := wideTy f.ty
  issueOp "XPERM" h false (intUses (rowInt [0, 2] false).single f) (fun x =>
    x.longResult f.d.toNat (if wide then 2 else 1) (fun l =>
      let j := (loOf (x.srcB false f.b 0 l)).toNat
      if j < 32 then x.vecN wide f.a.toNat j else 0)) s

/-- The writes of a finished operation: at a key that another instruction wrote meanwhile either value stays (R60). -/
def SfuOp.writes (o : SfuOp) (seed : Nat) : List Wr :=
  o.vals.flatMap (fun e => (List.range o.regs).flatMap (fun i =>
    let key := vkey (o.dst + i) e.1
    if o.clobbered.contains key && Config.freeBit seed key then []
    else [.v (o.dst + i) e.1 (if i = 0 then loOf e.2 else hiOf e.2)]))

/-- The result is written in every lane that performs the operation, and its flag clears (R58, R290). -/
def execSfuResult (blk wave op : Nat) (s : State) : Out :=
  match (s.wave blk wave).bind (fun w => w.sfu.find? (fun o => o.id = op)) with
  | none => .refused (.notEnabled "SFU_RESULT")
  | some o =>
    let s1 := s.updWave blk wave (fun w => { w with sfu := w.sfu.filter (fun p => p.id ≠ op) })
    .next ((s1.commit blk wave (o.writes s.fresh)).clearFlag blk wave op)

/-! ### Scalar instructions (R140) -/

def execSadd (h : Head) (f : A3) (s : State) : Out := intScal "SADD" h (rowScal [0, 1, 2, 3] true) f (fun a b => a + b) s
def execSsub (h : Head) (f : A3) (s : State) : Out := intScal "SSUB" h (rowScal [0, 1, 2, 3] true) f (fun a b => a - b) s
def execSmul (h : Head) (f : A3) (s : State) : Out := intScal "SMUL" h (rowScal [0, 1, 2, 3] true) f (fun a b => a * b) s
def execSmin (h : Head) (f : A3) (s : State) : Out := intScal "SMIN" h (rowScal [0, 1, 2, 3] false) f (fun a b => min a b) s
def execSmax (h : Head) (f : A3) (s : State) : Out := intScal "SMAX" h (rowScal [0, 1, 2, 3] false) f (fun a b => max a b) s
def execSand (h : Head) (f : A3) (s : State) : Out :=
  bitScal "SAND" h (rowScal [0, 2] false) f (wideTy f.ty) (fun a b => a &&& b) s
def execSor (h : Head) (f : A3) (s : State) : Out :=
  bitScal "SOR" h (rowScal [0, 2] false) f (wideTy f.ty) (fun a b => a ||| b) s
def execSxor (h : Head) (f : A3) (s : State) : Out :=
  bitScal "SXOR" h (rowScal [0, 2] false) f (wideTy f.ty) (fun a b => a ^^^ b) s

/-- A shift right, arithmetic at the signed types and logical at the others (R140). -/
def scalShr (ty : BitVec 3) (a : DWord) (n : Nat) : DWord :=
  let x := typed ty a
  let w := tyBits ty
  BitVec.ofNat 64 (modBits w (if w ≤ n then (if x < 0 then -1 else 0) else x / ((2 ^ n : Nat) : Int)))

def execSshl (h : Head) (f : A3) (s : State) : Out :=
  bitScal "SSHL" h { rowScal [0, 2] false with bS := some .s } f false (fun a b => shiftLeft (tyBits f.ty) a (loOf b).toNat) s
def execSshr (h : Head) (f : A3) (s : State) : Out :=
  bitScal "SSHR" h { rowScal [0, 1, 2, 3] false with bS := some .s } f false (fun a b => scalShr f.ty a (loOf b).toNat) s

def execSltab (h : Head) (f : Tab3) (s : State) : Out :=
  let wide := wideTy f.ty
  issueOp "SLTAB" h false (tabUses false f) (waveOp fun x => x.scalResult wide f.d.toNat
    (tableOf f.tab (x.scalN wide f.a.toNat) (x.scalN wide f.b.toNat) (x.scalN wide f.c.toNat))) s

/-! ### Special values (R53, R143) -/

/-- The value of a number of Table 3-2 in lane `l`. -/
def Ctx.special (x : Ctx) (s : State) (n l : Nat) : DWord :=
  let id := 32 * x.w + l
  let bd := x.blk.bdim
  let v : Nat := match n with
    | 0x00 => l
    | 0x01 => id % bd.1
    | 0x02 => id / bd.1 % bd.2.1
    | 0x03 => id / (bd.1 * bd.2.1)
    | 0x04 => x.w
    | 0x05 => x.blk.bid.1
    | 0x06 => x.blk.bid.2.1
    | 0x07 => x.blk.bid.2.2
    | 0x08 => bd.1
    | 0x09 => bd.2.1
    | 0x0A => bd.2.2
    | 0x0B => x.blk.gdim.1
    | 0x0C => x.blk.gdim.2.1
    | 0x0D => x.blk.gdim.2.2
    | 0x0E => x.blk.vcore
    | 0x0F => x.blk.ten
    | 0x10 => s.tick % 2 ^ 32
    | _ => s.clock
  BitVec.ofNat 64 v

def execSpec (h : Head) (f : YFmt) (s : State) : Out :=
  let n := f.sysno.toNat
  let wide := n == 0x11
  let regs := if wide then 2 else 1
  if f.a = 0 then
    issueOp "SPEC" h false [.v f.d.toNat regs] (fun x s => x.vecResult wide f.d.toNat (fun l => x.special s n l) s) s
  else
    issueOp "SPEC" h false [.s f.d.toNat regs] (waveOp fun x s => x.scalResult wide f.d.toNat (x.special s n 0) s) s

end Sys2Proof.Machine
end

