-- ==== Sys2Proof/Machine/Float.lean ====
section
/-! DEFINITION. Machine/Float.lean: the floating-point instructions 0x60 to 0x76 and `fcmp` (R136, R280 to R297). -/

namespace Sys2Proof.Machine

/-! ### Sources and element-wise results (R262, R281) -/

/-- An element value in the low half, or in both halves of a packed type. -/
def spread (ty : Nat) (n : Nat) : Nat := if packedTy ty then n + 65536 * n else n

/-- Source B of lane `l` at a floating-point type; an immediate is an integer converted exactly. -/
def Ctx.fltB (x : Ctx) (ty : Nat) (b : SrcB) (fill : Nat) (l : Nat) : Nat :=
  match b with
  | .imm v => spread ty ((fmtOf ty).round .rne false (.ofInt v.toInt))
  | _ => (loOf (x.srcB false b (BitVec.ofNat 64 (spread ty fill)) l)).toNat

/-- The elements of a register: one, or the two halves. -/
def elemsOf (ty : Nat) (n : Nat) : List Nat :=
  if packedTy ty then [n % 65536, n / 65536 % 65536] else [if ty = 0 then n % 2 ^ 32 else n % 65536]

/-- The register that holds the elements; an unpacked 16-bit result leaves bits [31:16] zero. -/
def joinElems : List Nat → DWord
  | [a, b] => BitVec.ofNat 64 (a + 65536 * b)
  | [a] => BitVec.ofNat 64 a
  | _ => 0

def zip3 (op : Nat → Nat → Nat → Nat) : List Nat → List Nat → List Nat → List Nat
  | a :: as_, b :: bs, c :: cs => op a b c :: zip3 op as_ bs cs
  | _, _, _ => []

/-- A lane instruction on the elements of A, B and C. -/
def fltLane (name : String) (h : Head) (row : A3Row) (f : A3) (fill : Fmt → Nat) (op : Fmt → Nat → Nat → Nat → Nat)
    (s : State) : Out :=
  let ty := f.ty.toNat
  let fm := fmtOf ty
  issueOp name h false (fltUses row f) (fun x => x.vecResult false f.d.toNat (fun l =>
    joinElems (zip3 (op fm) (elemsOf ty (x.vec f.a.toNat l).toNat) (elemsOf ty (x.fltB ty f.b (fill fm) l))
      (elemsOf ty (x.vec f.c.toNat l).toNat)))) s

/-- A rounded result of exact values (R285). -/
def fltArith (name : String) (h : Head) (row : A3Row) (f : A3) (fill : Fmt → Nat) (op : RM → Num → Num → Num → Num) (s : State) :
    Out :=
  fltLane name h row f fill (fun fm a b c => fm.round f.rm false (op f.rm (fm.num a) (fm.num b) (fm.num c))) s

def oneBits (f : Fmt) : Nat := f.bias * 2 ^ f.mb
def fltTys : List Nat := [0, 1, 2, 3, 4]

/-! ### Arithmetic (R285, R286) -/

def execFadd (h : Head) (f : A3) (s : State) : Out :=
  fltArith "FADD" h (rowFlt fltTys true) f (fun fm => fm.signBit) (fun rm a b _ => Num.add rm a b) s
def execFsub (h : Head) (f : A3) (s : State) : Out :=
  fltArith "FSUB" h (rowFlt fltTys true) f (fun _ => 0) (fun rm a b _ => Num.add rm a b.negate) s
def execFmul (h : Head) (f : A3) (s : State) : Out :=
  fltArith "FMUL" h (rowFlt fltTys true) f oneBits (fun _ a b _ => a.mul b) s
def execFfma (h : Head) (f : A3) (s : State) : Out :=
  fltArith "FFMA" h { rowFlt fltTys true with c := .v } f (fun _ => 0) (fun rm a b c => Num.add rm (a.mul b) c) s

/-! ### Minimum and maximum (R287) -/

/-- The smaller, or the larger when `mx`, with −0 below +0; the canonical NaN of two NaNs. -/
def fltPick (mx : Bool) (fm : Fmt) (a b : Nat) : Nat :=
  let x := fm.num a
  let y := fm.num b
  match x.isNan, y.isNan with
  | true, true => fm.nanBits
  | true, false => b
  | false, true => a
  | false, false =>
    let below := match Num.order x y with
      | some .lt => true
      | some .eq => x.neg? && !y.neg?
      | _ => false
    if below != mx then a else b

def execFmin (h : Head) (f : A3) (s : State) : Out :=
  fltLane "FMIN" h (rowFlt fltTys false) f (fun fm => fm.nanBits) (fun fm a b _ => fltPick false fm a b) s
def execFmax (h : Head) (f : A3) (s : State) : Out :=
  fltLane "FMAX" h (rowFlt fltTys false) f (fun fm => fm.nanBits) (fun fm a b _ => fltPick true fm a b) s

/-! ### Signs (R288) -/

/-- The value of `a` with a sign; a NaN becomes the canonical one (R260). -/
def fltSign (fm : Fmt) (a : Nat) (neg : Bool) : Nat :=
  if (fm.num a).isNan then fm.nanBits else signed fm neg (a % fm.signBit)

def signOf (fm : Fmt) (a : Nat) : Bool := a / fm.signBit % 2 = 1

def execFabs (h : Head) (f : A3) (s : State) : Out :=
  fltLane "FABS" h (rowFlt fltTys false).noB f (fun _ => 0) (fun fm a _ _ => fltSign fm a false) s
def execFneg (h : Head) (f : A3) (s : State) : Out :=
  fltLane "FNEG" h (rowFlt fltTys false).noB f (fun _ => 0) (fun fm a _ _ => fltSign fm a (!signOf fm a)) s
def execFcpysgn (h : Head) (f : A3) (s : State) : Out :=
  fltLane "FCPYSGN" h (rowFlt fltTys false) f (fun _ => 0) (fun fm a b _ => fltSign fm a (signOf fm b)) s

/-! ### SFU instructions and division (R289 to R291) -/

/-- An SFU instruction: its result is long-latency and sets the slot's flag. -/
def sfuLane (name : String) (h : Head) (f : A3) (fn : SfuFn) (s : State) : Out :=
  let fm := fmtOf f.ty.toNat
  issueOp name h false (fltUses (rowFlt [0, 1, 2] true).noB f) (fun x =>
    x.longResult f.d.toNat 1 (fun l => BitVec.ofNat 64 (sfuValue fm f.rm fn (fm.num (x.vec f.a.toNat l).toNat)))) s

def execFrcp (h : Head) (f : A3) (s : State) : Out := sfuLane "FRCP" h f .rcp s
def execFsqrt (h : Head) (f : A3) (s : State) : Out := sfuLane "FSQRT" h f .sqrt s
def execFrsq (h : Head) (f : A3) (s : State) : Out := sfuLane "FRSQ" h f .rsq s
def execFexp2 (h : Head) (f : A3) (s : State) : Out := sfuLane "FEXP2" h f .exp2 s
def execFlog2 (h : Head) (f : A3) (s : State) : Out := sfuLane "FLOG2" h f .log2 s
def execFsinp (h : Head) (f : A3) (s : State) : Out := sfuLane "FSINP" h f .sinp s
def execFcosp (h : Head) (f : A3) (s : State) : Out := sfuLane "FCOSP" h f .cosp s

def execFdiv (h : Head) (f : A3) (s : State) : Out :=
  fltLane "FDIV" h (rowFlt [0, 1, 2] true) f (fun _ => 0) (fun fm a b _ => divValue fm f.rm (fm.num a) (fm.num b)) s

/-! ### Integral values, scaling, classes (R292 to R294) -/

/-- A value rounded to an integral one of its format, its sign kept. -/
def fltIntegral (rm : RM) (fm : Fmt) (a : Nat) : Nat :=
  match fm.num a with
  | .nan => fm.nanBits
  | .inf _ => a
  | .fin n m e =>
    let q := fracOf m e
    fm.roundFrac rm false n (roundNat rm n q.1 q.2) 1

def execFrnd (h : Head) (f : A3) (s : State) : Out :=
  fltLane "FRND" h (rowFlt [0, 1, 2] true).noB f (fun _ => 0) (fun fm a _ _ => fltIntegral f.rm fm a) s

/-- a × 2^n; beyond a shift that every format overflows or underflows at, the exponent is cut. -/
def fltScale (rm : RM) (fm : Fmt) (a : Nat) (n : Int) : Nat :=
  match fm.num a with
  | .fin s m e => fm.round rm false (.fin s m (e + max (-2048) (min n 2048)))
  | x => fm.round rm false x

/-- `fscale` reads B as i32, an immediate too (R293). -/
def execFscale (h : Head) (f : A3) (s : State) : Out :=
  let fm := fmtOf f.ty.toNat
  issueOp "FSCALE" h false (fltUses (rowFlt [0, 1, 2] true) f) (fun x => x.vecResult false f.d.toNat (fun l =>
    BitVec.ofNat 64 (fltScale f.rm fm (x.vec f.a.toNat l).toNat (loOf (x.srcB false f.b 0 l)).toInt))) s

/-- The class mask of Table 11-4. -/
def classMask (fm : Fmt) (a : Nat) : Nat :=
  let e := a / 2 ^ fm.mb % 2 ^ fm.eb
  let m := a % 2 ^ fm.mb
  let n := signOf fm a
  if e = 2 ^ fm.eb - 1 then
    (if m = 0 then (if n then 2 ^ 2 else 2 ^ 9) else if m / 2 ^ (fm.mb - 1) % 2 = 1 then 2 ^ 1 else 2 ^ 0)
  else if e = 0 then
    (if m = 0 then (if n then 2 ^ 5 else 2 ^ 6) else if n then 2 ^ 4 else 2 ^ 7)
  else if n then 2 ^ 3 else 2 ^ 8

def execFclass (h : Head) (f : A3) (s : State) : Out :=
  fltLane "FCLASS" h (rowFlt [0, 1, 2] false).noB f (fun _ => 0) (fun fm a _ _ => classMask fm a) s

/-! ### Exact sums (R295, R296) -/

/-- The two products and the f32 addend, rounded once to f32. -/
def dot2 (rm : RM) (fm : Fmt) (a b c : Nat) : Nat :=
  let p := fun (i : Nat) => (fm.num (a / 65536 ^ i % 65536)).mul (fm.num (b / 65536 ^ i % 65536))
  f32.round rm false (Num.sum rm [p 0, p 1, f32.num c])

def execFdot2 (h : Head) (f : A3) (s : State) : Out :=
  let ty := f.ty.toNat
  issueOp "FDOT2" h false (fltUses { (rowFlt [3, 4] true).noImm with c := .v } f) (fun x => x.vecResult false f.d.toNat (fun l =>
    BitVec.ofNat 64 (dot2 f.rm (fmtOf ty) (x.vec f.a.toNat l).toNat (x.fltB ty f.b 0 l) (x.vec f.c.toNat l).toNat))) s

/-- The rounded sum and its exact error, +0 for an exact or a non-finite sum. -/
def twoSum (a b : Nat) : Nat × Nat :=
  let x := f32.num a
  let y := f32.num b
  let r := f32.round .rne false (Num.add .rne x y)
  let e := match f32.num r with
    | .fin n m g => f32.round .rne false (Num.sum .rne [x, y, .fin (!n) m g])
    | _ => 0
  (r, if e = f32.signBit then 0 else e)

def execFtwosum (h : Head) (f : A3) (s : State) : Out :=
  issueOp "FTWOSUM" h false (fltUses { rowFlt [0] false with d := .v2 } f) (fun x => x.vecResult true f.d.toNat (fun l =>
    let r := twoSum (x.vec f.a.toNat l).toNat (x.fltB 0 f.b 0 l)
    BitVec.ofNat 64 (r.1 + 2 ^ 32 * r.2))) s

/-! ### The retired unfused form (R297) -/

/-- A subnormal becomes a zero of its sign. -/
def flush (a : Nat) : Nat := if a / 2 ^ 23 % 256 = 0 then signed f32 (signOf f32 a) 0 else a

/-- The Z6 result of `fmad.ftz`. -/
def madFtz (a b c : Nat) : Nat :=
  let p := flush (f32.round .rne false ((f32.num (flush a)).mul (f32.num (flush b))))
  flush (f32.round .rne false (Num.add .rne (f32.num p) (f32.num (flush c))))


def execFmadFtz (h : Head) (f : A3) (s : State) : Out :=
  issueOp "FMAD_FTZ" h false (fltUses { rowFlt [0] false with c := .v } f) (waveOp fun x s =>
    (x.vecResult false f.d.toNat (fun l =>
      BitVec.ofNat 64 (madFtz (x.vec f.a.toNat l).toNat (x.fltB 0 f.b 0 l) (x.vec f.c.toNat l).toNat)) s).retireUse 9) s

/-! ### Comparison (R136) -/

def execFcmp (h : Head) (f : A3) (s : State) : Out :=
  let ty := f.ty.toNat
  let fm := fmtOf ty
  issueOp "FCMP" h false (fltUses { (rowFlt [0, 1, 2] false).noImm with d := .p, c := .n 7 } f) (fun x =>
    x.predResult f.d.toNat (fun l =>
      fltCond f.c.toNat (Num.order (fm.num (x.vec f.a.toNat l).toNat) (fm.num (x.fltB ty f.b 0 l))))) s

end Sys2Proof.Machine
end

