-- ==== Sys2Proof/Machine/Fetch.lean ====
section
/-! DEFINITION. Machine/Fetch.lean: fetching a packet (R54, R479), the packet checks (R56, R64, R67, R68), and the positions at
which a wave may issue (R32 to R34). -/

namespace Sys2Proof.Machine

/-! ### Fetch (R54, R479) -/

/-- A packet: its control word and three words. -/
structure Packet where
  ctl : DWord
  words : List DWord
  deriving DecidableEq, Repr

def packetOf (bs : List Byte) : Packet :=
  { ctl := wordOfBytes (bs.take 8),
    words := [wordOfBytes ((bs.drop 8).take 8), wordOfBytes ((bs.drop 16).take 8), wordOfBytes ((bs.drop 24).take 8)] }

/-- What a fetch finds: the packet, a page not present, a denial, a bad walk, or a line that the core's
instruction cache does not hold. -/
inductive Fetched where
  | packet (p : Packet)
  | absent | denied | fatal
  | away (pa : Nat) (leaf : DWord)
  deriving DecidableEq, Repr

def State.fetch (s : State) (blk : Block) (pc : DWord) : Fetched :=
  let root := (s.grids.get blk.grid).elim 0 (fun g => g.root)
  match s.xlate (some (clusterOf blk.core)) blk.asn root (!blk.service) Need.fetch pc.toNat with
  | .absent => .absent
  | .denied _ => .denied
  | .fatal => .fatal
  | .ok pa e _ =>
    if s.region pa = .dev then .denied
    else match (s.core blk.core).icache.find? (fun l => l.asn = blk.asn && l.vline = lineOf pc.toNat && l.pline = lineOf pa) with
      | some l => .packet (packetOf (l.data.drop (pa % 128)))
      | none => .away pa e

/-! ### The registers a word writes (R64) -/

/-- Keys of written registers: vector r, scalar 256 + r, predicate 512 + r, accumulators and tiles none. -/
def keyRange (base : Nat) (r : BitVec 8) (n : Nat) : List Nat := (List.range n).map (fun i => base + r.toNat + i)
def kV (r : BitVec 8) (n : Nat) : List Nat := keyRange 0 r n
def kS (r : BitVec 8) (n : Nat) : List Nat := keyRange 256 r n
def kP (r : BitVec 8) : List Nat := keyRange 512 r 1
def pairN (ty : BitVec 3) : Nat := if wideTy ty then 2 else 1
def kM (f : MFmt) (n : Nat) : List Nat := if f.ak then kS f.d n else kV f.d n
def kY (f : YFmt) (n : Nat) : List Nat := if f.a = 0 then kV f.d n else kS f.d n

/-- The register fields that an instruction writes. -/
def Instr.writes : Instr → List Nat
  | .call _ f => kV f.d 2
  | .callx _ f => kV f.d 2
  | .loop _ f => kS f.a 1
  | .sysRd _ f => kS f.d (if sysWidth f.sysno.toNat == some 64 then 2 else 1)
  | .errRdCounter _ f => kS f.d 2
  | .errRdLog _ f => kS f.d 2
  | .errRdRetire _ f => kS f.d 2
  | .iclLock _ f => kS f.d 1
  | .iclCount _ f => kS f.d 1
  | .iadd _ f => kV f.d (pairN f.ty)
  | .isub _ f => kV f.d (pairN f.ty)
  | .iadd64 _ f => kV f.d 2
  | .imul _ f => kV f.d (pairN f.ty)
  | .imulh _ f => kV f.d 1
  | .imad _ f => kV f.d (pairN f.ty)
  | .imadw _ f => kV f.d 2
  | .iaddc _ f => kV f.d 1 ++ kP f.c
  | .isubb _ f => kV f.d 1 ++ kP f.c
  | .idiv _ f => kV f.d (pairN f.ty)
  | .irem _ f => kV f.d (pairN f.ty)
  | .imin _ f => kV f.d (pairN f.ty)
  | .imax _ f => kV f.d (pairN f.ty)
  | .iabs _ f => kV f.d (pairN f.ty)
  | .isad _ f => kV f.d 1
  | .idot4 _ f => kV f.d 1
  | .and _ f => kV f.d (pairN f.ty)
  | .or _ f => kV f.d (pairN f.ty)
  | .xor _ f => kV f.d (pairN f.ty)
  | .andn _ f => kV f.d (pairN f.ty)
  | .ltab _ f => kV f.d (pairN f.ty)
  | .shl _ f => kV f.d (pairN f.ty)
  | .shr _ f => kV f.d (pairN f.ty)
  | .sar _ f => kV f.d (pairN f.ty)
  | .rot _ f => kV f.d (pairN f.ty)
  | .bfe _ f => kV f.d 1
  | .bfi _ f => kV f.d 1
  | .popc _ f => kV f.d 1
  | .clz _ f => kV f.d 1
  | .brev _ f => kV f.d (pairN f.ty)
  | .lea _ f => kV f.d 2
  | .movi _ f => kV f.d (if f.a = 1 then 2 else 1)
  | .icmp _ f => kP f.d
  | .fcmp _ f => kP f.d
  | .pand _ f => kP f.d
  | .por _ f => kP f.d
  | .pxor _ f => kP f.d
  | .pmov _ f => kP f.d
  | .sel _ f => kV f.d (pairN f.ty)
  | .ballot _ f => kS f.d 1
  | .vany _ f => kP f.d
  | .vall _ f => kP f.d
  | .vmatch _ f => kV f.d 1
  | .lanes _ f => kS f.d 1
  | .mov _ f => kV f.d (pairN f.ty)
  | .movs _ f => kS f.d (pairN f.ty)
  | .smov _ f => kS f.d (pairN f.ty)
  | .sltab _ f => kS f.d (pairN f.ty)
  | .sadd _ f => kS f.d (pairN f.ty)
  | .ssub _ f => kS f.d (pairN f.ty)
  | .smul _ f => kS f.d (pairN f.ty)
  | .sand _ f => kS f.d (pairN f.ty)
  | .sor _ f => kS f.d (pairN f.ty)
  | .sxor _ f => kS f.d (pairN f.ty)
  | .sshl _ f => kS f.d (pairN f.ty)
  | .sshr _ f => kS f.d (pairN f.ty)
  | .scmp _ f => kP f.d
  | .smovi _ f => kS f.d (if f.a = 1 then 2 else 1)
  | .smin _ f => kS f.d (pairN f.ty)
  | .smax _ f => kS f.d (pairN f.ty)
  | .movri _ f => kV f.d 1
  | .xperm _ f => kV f.d (pairN f.ty)
  | .spec _ f => kY f (if f.sysno = 0x11 then 2 else 1)
  | .fadd _ f => kV f.d 1
  | .fsub _ f => kV f.d 1
  | .fmul _ f => kV f.d 1
  | .ffma _ f => kV f.d 1
  | .fmin _ f => kV f.d 1
  | .fmax _ f => kV f.d 1
  | .fabs _ f => kV f.d 1
  | .fneg _ f => kV f.d 1
  | .frcp _ f => kV f.d 1
  | .fsqrt _ f => kV f.d 1
  | .frsq _ f => kV f.d 1
  | .fexp2 _ f => kV f.d 1
  | .flog2 _ f => kV f.d 1
  | .fsinp _ f => kV f.d 1
  | .fcosp _ f => kV f.d 1
  | .fdiv _ f => kV f.d 1
  | .frnd _ f => kV f.d 1
  | .fclass _ f => kV f.d 1
  | .fscale _ f => kV f.d 1
  | .fdot2 _ f => kV f.d 1
  | .ftwosum _ f => kV f.d 2
  | .fcpysgn _ f => kV f.d 1
  | .fmadFtz _ f => kV f.d 1
  | .cvtFf _ f => kV f.d 1
  | .cvtFi _ f => kV f.d (pairN f.ty)
  | .cvtIf _ f => kV f.d 1
  | .cvtIi _ f => kV f.d (pairN f.ty)
  | .cvtE8 _ f => kV f.d 1
  | .cvtE4 _ f => kV f.d 1
  | .dcvtE8 _ f => kV f.d 1
  | .dcvtE4 _ f => kV f.d 1
  | .qblk _ f => kV f.d 2
  | .dqblk _ f => kV f.d 1
  | .qhdr _ f => kV f.d 1
  | .hchk _ f => kP f.d
  | .pack4 _ f => kV f.d 1
  | .pack8 _ f => kV f.d 1
  | .unpk4 _ f => kV f.d 1
  | .unpk8 _ f => kV f.d 1
  | .fpk2 _ f => kV f.d 1
  | .fupk2 _ f => kV f.d 1
  | .ld _ f => kM f (wdRegs f.wd)
  | .ldBlk _ f => kV f.d 2
  | .lds _ f => kM f (wdRegs f.wd)
  | .atomAdd _ f => kM f (wdRegs f.wd)
  | .atomMin _ f => kM f (wdRegs f.wd)
  | .atomMax _ f => kM f (wdRegs f.wd)
  | .atomAnd _ f => kM f (wdRegs f.wd)
  | .atomOr _ f => kM f (wdRegs f.wd)
  | .atomXor _ f => kM f (wdRegs f.wd)
  | .atomXch _ f => kM f (wdRegs f.wd)
  | .atomCas _ f => kM f (wdRegs f.wd)
  | .atomFadd _ f => kM f (wdRegs f.wd)
  | .satom _ f => kM f (wdRegs f.wd)
  | .mprobe _ f => kM f 1
  | .monWait _ f => kS f.d 1
  | .tileQ _ f => kS f.a 1
  | .collWait _ f => kS f.x 1
  | .accFlg _ f => kS f.a 1
  | .shfPut _ f => kV f.x 1
  | .shfTake _ f => kV f.x 2 ++ kS f.c 1
  | .tickRd _ f => kY f 4
  | .clk _ f => kY f 2
  | _ => []

/-- Whether two lists share a key. -/
def overlap (a b : List Nat) : Bool := a.any (fun k => b.contains k)

/-! ### The checks before a packet begins (R56, R64, R67, R68) -/

/-- The control word's own rules (R56). -/
def controlOk (c : Control) (words : List DWord) : Bool :=
  !c.reserved && c.seta ≤ 12 && c.setb ≤ 12 && c.sel.all (· ≤ 2) && !(c.seta ≠ 0 && c.seta = c.setb) &&
  !(c.sel.contains 1 && c.seta = 0) && !(c.sel.contains 2 && c.setb = 0) &&
  !(c.seta ≠ 0 && !c.sel.contains 1) && !(c.setb ≠ 0 && !c.sel.contains 2) &&
  (List.range 3).all (fun k => c.sel.getD k 0 = 0 || longLatency (opOfWord (words.getD k 0)))

/-- The chain rules of R64 and the one transfer of R67. -/
def chainOk (words : List DWord) : Bool :=
  let pairs := [(0, 1), (0, 2), (1, 2)]
  !chained words 2 &&
  pairs.all (fun p =>
    let a := words.getD p.1 0
    let b := words.getD p.2 0
    let same := groupOf words p.1 = groupOf words p.2
    !(same && (pipeOf (opOfWord a)).isSome && pipeOf (opOfWord a) == pipeOf (opOfWord b)) &&
    !(same && overlap ((parse a).elim [] Instr.writes) ((parse b).elim [] Instr.writes)) &&
    !(changesPc (opOfWord a) && changesPc (opOfWord b)))

/-- Every check of R68 for a whole packet. -/
def packetOk (p : Packet) : Bool := controlOk (controlOf p.ctl) p.words && chainOk p.words

/-! ### Positions (R33, R34) -/

/-- The starvation count at which a thread is chosen (R34). -/
def starveLimit : Nat := 512

/-- A thread that may stand at a position: running, and not held for a fetch or by a trap of its own (R32, R476, R479). -/
def Thread.ready (t : Thread) : Bool := t.st == .running && !t.fetchHeld && t.heldTrap.isNone

structure Pos where
  pc : DWord
  slot : Nat
  lanes : Lanes
  deriving DecidableEq, Repr

/-- Inserts a position in the order of program counter, then slot. -/
def insertPos (p : Pos) : List Pos → List Pos
  | [] => [p]
  | q :: qs => if p.pc.toNat < q.pc.toNat || (p.pc = q.pc && p.slot < q.slot) then p :: q :: qs else q :: insertPos p qs

/-- The positions of a wave's ready threads, lowest first. -/
def Wave.positions (w : Wave) : List Pos :=
  let keys := (w.threads.filter Thread.ready).foldl (fun acc t =>
    if acc.any (fun (k : DWord × Nat) => k.1 = t.pc && k.2 = t.slot) then acc else acc ++ [(t.pc, t.slot)]) []
  (keys.map (fun k => ({ pc := k.1, slot := k.2,
                         lanes := w.lanesWith (fun t => t.ready && t.pc = k.1 && t.slot = k.2) } : Pos))).foldr insertPos []

/-- The lanes of a position that may issue: those that check the control word need its flags clear (R35, R59, R480). -/
def Wave.eligible (w : Wave) (p : Pos) (c : Control) : Lanes :=
  if w.flagsClear c then p.lanes
  else p.lanes &&& w.lanesWith (fun t => t.slot ≠ 0 && !t.recheck)

/-- Whether a thread at the position has starved (R34). -/
def Wave.starved (w : Wave) (m : Lanes) : Bool :=
  (lanesIn m).any (fun l => match w.threads[l]? with | some t => starveLimit ≤ t.starve | none => false)

/-! ### FETCH_FAULT (R479) -/

/-- Whether a trap of the lanes `m` would be held: the wave holds one and none of them is in the handler (R476). -/
def Wave.holdsTrap (w : Wave) (m : Lanes) : Bool :=
  w.trapSet.isSome && (w.lanesWith (fun t => t.inHandler) &&& m) = 0

/-- The threads whose program counter is a packet that none of them has begun to issue (R479). -/
def Wave.atPacket (w : Wave) (pc : DWord) : Lanes :=
  w.lanesWith (fun t => t.ready && t.pc = pc) &&& ~~~(w.issue.elim 0 (fun i => i.lanes))

/-- The lowest position of the wave whose fetch does not find its packet, with what it finds; a denial that the wave cannot
take yet waits. -/
def State.fetchTrouble (s : State) (b w : Nat) : Option (Pos × Fetched) :=
  match s.block b, s.wave b w with
  | some blk, some wv => wv.positions.findSome? (fun p =>
      match s.fetch blk p.pc with
      | .packet _ => none
      | .away _ _ => none
      | .denied => if wv.holdsTrap (wv.atPacket p.pc) then none else some (p, .denied)
      | r => some (p, r))
  | _, _ => none

/-- A block whose waves may issue: neither ended, nor being saved or resumed (R30, R404, R416). -/
def Block.live (b : Block) : Bool :=
  !b.cancelled && b.aborted.isNone && (b.mode == .normal || b.mode == .drain)

/-- A fetch of a page not present is reported and its threads wait; a denied one raises PERMISSION before any slot; a
malformed entry or a bad address ends the job (R432, R479). -/
def execFetchFault (blk wave : Nat) (s : State) : Out :=
  match s.block blk, s.fetchTrouble blk wave with
  | some b, some (p, r) =>
    let rec_ := (s.grids.get b.grid).elim 0 (fun g => g.recVa)
    if !b.live then .refused (.notEnabled "FETCH_FAULT")
    else match r with
      | .absent =>
        let (_, s) := s.report 3 b.core b.asn b.ten b.job 4 p.pc.toNat rec_ true
        .next (s.updWave blk wave (fun w => w.updLanes (w.atPacket p.pc) (fun t => { t with fetchHeld := true })))
      | .denied =>
        let m := (s.wave blk wave).elim 0 (fun w => w.atPacket p.pc)
        .next (s.takeTrap blk wave { code := 0x08, sub := 2, pc := p.pc, addr := p.pc, kstep := 0, lanes := m, set := m, whole := true, feat := 0, defer := false })
      | _ => .next (s.fatalAccess b.core b.asn b.ten b.job Need.fetch.code p.pc.toNat rec_)
  | _, _ => .refused (.notEnabled "FETCH_FAULT")

end Sys2Proof.Machine
end

