-- ==== Sys2Proof/Machine/Port.lean ====
section
/-! DEFINITION. Machine/Port.lean: error counters and the log (R493 to R496), the L1 (R157 to R162), requests and the core port
(R444 to R446, R466, R467). -/

namespace Sys2Proof.Machine

/-! ### Error counters and the log (R493 to R496) -/

def State.countError (s : State) (n : Nat) : State :=
  { s with health := { s.health with counters := updAt s.health.counters n (fun c => min (c + 1) (2 ^ 64 - 1)) } }

/-- Writes a log record; a full log drops it and counts it (R496). -/
def State.logError (s : State) (cls unit num addr job : Nat) (synd : Word) : State :=
  if Config.errorLogCap ≤ s.health.log.length then s.countError 12
  else
    let r : LogRec := { clock := s.clock, job := job, synd := synd, addr := addr, seq := s.health.logSeq % 2 ^ 32, cls := cls,
                        unit := unit, num := num }
    { s with health := { s.health with log := s.health.log ++ [r], logSeq := s.health.logSeq + 1 } }

def State.markLoss (s : State) (g : Nat) : State := s.updGrid g (fun x => { x with dataLoss := true })

/-- The uncorrectable errors of each unit (R499), under 65536 × its kind of Table 22-2 + its number. -/
def unitKey (kind n : Nat) : Nat := 65536 * kind + n
def State.unitErrors (s : State) (kind n : Nat) : Nat := (s.health.unitErrs.get (unitKey kind n)).getD 0
def State.unitError (s : State) (kind n : Nat) : State :=
  { s with health := { s.health with unitErrs := s.health.unitErrs.put (unitKey kind n) (s.unitErrors kind n + 1) } }

/-- The counter pair and the unit of the storage that holds a local address: HBM stack or tier-2 group (Table 22-2). -/
def storeUnit (pa : Nat) : Nat × Nat × Nat :=
  if localOf pa < Config.t2Base then (0, 2, stackOf pa)
  else (2, 4, Nat.xor (pa / 4096 % 4) (pa / 4194304 % 4))

/-- What a read of a line delivers, given what the code finds (R493): zeros for an uncorrectable error. `grid` issued it; the log names
the owning job of the frame (R436), or for storage of a core the job of the block. -/
def State.eccRead (s : State) (ecc : Ecc) (pa core : Nat) (grid job : Nat) (bs : List Byte) : List Byte × State :=
  let at_ : EccUnit → Nat × Nat × Nat := fun k => match k with
    | .memory => storeUnit pa
    | .l2 => (4, 5, sliceOf pa)
    | .core => (6, 0, core)
  match ecc with
  | .clean => (bs, s)
  | .corrected k => (bs, s.countError (at_ k).1)
  | .uncorrectable k =>
    let (c, u, n) := at_ k
    let owner := if u = 0 then job else (s.ownerOf pa).elim 0 (fun o => o.1)
    (bs.map (fun _ => 0),
     (((s.countError (c + 1)).logError (c + 1) u n pa owner (Config.freeSyndrome s.fresh)).markLoss grid).unitError u n)

/-! ### The L1 (R157 to R162) -/

/-- A list of bytes with `bs` written from offset `o`. -/
def putBytes (data : List Byte) (o : Nat) (bs : List Byte) : List Byte := data.take o ++ bs ++ data.drop (o + bs.length)

def State.l1Find (s : State) (core asn vline : Nat) : Option L1Line :=
  (s.core core).l1.find? (fun l => l.asn = asn && l.vline = vline)

/-- Cores of a cluster. -/
def clusterCores (c : Nat) : List Nat := (List.range 4).map (fun i => 4 * c + i)

/-- The set of a line (notes/assumptions/10.md) and the lines that stay when one more comes into it. -/
def setOf (vline : Nat) : Nat := vline % 256

def dropVictim (ls : List L1Line) (vline : Nat) : List L1Line :=
  if (ls.filter (fun l => setOf l.vline = setOf vline)).length < 8 then ls
  else match ls.find? (fun l => setOf l.vline = setOf vline) with
    | some v => ls.filter (fun l => !(l.asn = v.asn && l.vline = v.vline))
    | none => ls

/-- A fill: every line of the cluster that holds the same physical line under another address goes (R160), and the line
enters as the most recently used one, or as the least under evict-first (Table 6-2). -/
def State.l1Fill (s : State) (core : Nat) (l : L1Line) (evictFirst : Bool) : State :=
  let s := (clusterCores (clusterOf core)).foldl (fun t c =>
    if (t.cores.get c).isSome then
      t.updCore c (fun k => { k with l1 := k.l1.filter (fun m => !(m.pline = l.pline && !(m.asn = l.asn && m.vline = l.vline))) })
    else t) s
  s.updCore core (fun k =>
    let ls := dropVictim (k.l1.filter (fun m => !(m.asn = l.asn && m.vline = l.vline))) l.vline
    { k with l1 := if evictFirst then l :: ls else ls ++ [l] })

/-- A hit makes the line the most recently used one. -/
def State.l1Touch (s : State) (core : Nat) (l : L1Line) : State :=
  s.updCore core (fun k => { k with l1 := k.l1.filter (fun m => !(m.asn = l.asn && m.vline = l.vline)) ++ [l] })

/-- Whether a line is homed in another module. -/
def State.away (s : State) (line : Nat) : Bool := moduleOf (128 * line) != s.dev.moduleNum

/-- The line that a request brings. -/
def Req.asLine (r : Req) (data : List Byte) : L1Line :=
  { asn := r.asn, vline := r.vline, pline := r.line, data := data, stable := r.stable, userFill := r.user }

/-- A request whose data may have been read already, and has not come back. -/
def Req.captured (r : Req) : Bool := r.visible || r.remoteTag.isSome

/-- The requests that satisfy `p` will fill no cache. -/
def State.stale (s : State) (p : Req → Bool) : State :=
  { s with reqs := s.reqs.mapAll (fun _ r => if p r then { r with noFill := true } else r) }

/-- A store updates the core's copy of the line (R158); data read before it fills no line (Table 8-2). -/
def State.l1Store (s : State) (core pline off : Nat) (bs : List Byte) : State :=
  let s := s.stale (fun r => r.core = core && r.line = pline && r.captured)
  if (s.cores.get core).isSome then
    s.updCore core (fun k => { k with l1 := k.l1.map (fun m =>
      if m.pline = pline then { m with data := putBytes m.data off bs, foreign := m.foreign || s.away pline } else m) })
  else s

/-- Lines of a core's L1 that satisfy `p` go, and those on their way to it do not enter it (R235). -/
def State.l1Drop (s : State) (core : Nat) (p : L1Line → Bool) : State :=
  (s.stale (fun r => r.core = core && r.captured && p (r.asLine []))).updCore core (fun k =>
    { k with l1 := k.l1.filter (fun l => !p l) })

/-- Lines of every L1 and instruction cache of the module that satisfy `p` go, and none on its way enters (R161). -/
def State.l1DropAll (s : State) (p : L1Line → Bool) : State :=
  let s := s.stale (fun r => p (r.asLine []))
  { s with cores := s.cores.mapAll (fun _ k => { k with l1 := k.l1.filter (fun l => !p l), icache := k.icache.filter (fun l => !p l) }) }

/-! ### The instruction cache (Table 1-2, R205, R479) -/

/-- A line of code enters a core's instruction cache; when it is full its oldest line that is not locked leaves (R206). -/
def State.codeFill (s : State) (core : Nat) (l : L1Line) : State :=
  s.updCore core (fun k =>
    let ls := k.icache.filter (fun m => !(m.asn = l.asn && m.vline = l.vline))
    let free := fun (m : L1Line) => !k.locked.any (fun x => x.asn = m.asn && x.vline = m.vline)
    let ls := if ls.length < Config.icacheLines then ls else match ls.find? free with
      | some v => ls.filter (fun m => !(m.asn = v.asn && m.vline = v.vline))
      | none => ls
    { k with icache := ls ++ [l] })

/-- A request for a line of code, under the policy and partition of its leaf. -/
def fetchReq (blk : Block) (b w id va pa : Nat) (leaf : DWord) : Req :=
  { op := id, grid := blk.grid, core := blk.core, blk := b, wave := w, cmd := none, ten := blk.ten, asn := blk.asn, job := blk.job,
    user := !blk.service, kind := .fetch, vline := lineOf va, line := lineOf pa, pol := leafPol leaf, stable := false, accs := [], dst := .none,
    after := [], sent := false, visible := false, remoteTag := none, olds := [], acqScope := 0, rel := 0, clobbered := [],
    replayed := false, l2part := leafPart leaf }

/-! ### Policies (Table 6-2) -/

/-- The effective policy of a page policy and a hint: 0 normal, 1 evict-first, 2 retain, 3 bypass (R165). -/
def effPolicy (page hint : Nat) : Nat :=
  if page = 3 then 3
  else match hint with
    | 2 => 1
    | 3 => 2
    | 4 => 3
    | _ => page

/-! ### Requests at the port (R444) -/

def ReqKind.isWrite : ReqKind → Bool
  | .store => true
  | .storeBlk => true
  | .atomic _ _ => true
  | .red _ _ => true
  | .copyWrite => true
  | _ => false

def ReqKind.returns : ReqKind → Bool
  | .load _ _ => true
  | .loadBlk => true
  | .atomic _ _ => true
  | .scratch => true
  | _ => false

/-- The bytes of a line that the accesses of a request name. -/
def namedBytes (as_ : List LaneAcc) : Nat := (as_.flatMap (fun a => (List.range a.n).map (fun i => a.pa + i))).eraseDups.length

/-- The bytes a request carries or asks for. -/
def Req.size (r : Req) : Nat :=
  match r.kind with
  | .load _ _ => if r.pol = 3 then namedBytes r.accs else 128
  | .prefetch _ => 128
  | .fetch => 128
  | _ => namedBytes r.accs

/-- The lines a request names. -/
def Req.lines (r : Req) : List Nat := (r.line :: r.accs.map (fun a => lineOf a.pa)).eraseDups

/-- Whether a request names a line of another module. -/
def State.reqAway (s : State) (r : Req) : Bool := r.lines.any s.away

/-- The tokens of a request: its own, or for a block those of its lines (R444). -/
def tokens (bytes : Nat) : Nat := max 1 (min 2 ((bytes + 63) / 64))

def Req.cost (r : Req) : Nat :=
  let blk := (r.lines.map (fun l => tokens (namedBytes (r.accs.filter (fun a => lineOf a.pa = l))))).sum
  match r.kind with
  | .loadBlk => blk
  | .storeBlk => blk
  | _ => tokens r.size

def Share.zero : Share := { b := 0, e := 0, q := 0, sentLast := 0, sentNow := 0, asked := false }

def Core.share (c : Core) (n : Nat) : Share := (c.shares.get n).getD Share.zero

def State.updShare (s : State) (core n : Nat) (f : Share → Share) : State :=
  s.updCore core (fun c => { c with shares := c.shares.put n (f (c.share n)) })

def tenEnabled (cfg : DWord) : Bool := fld cfg 63 1 == 1
def tenQuota (cfg : DWord) : Nat := (fld cfg 48 11).toNat
def State.tenCfg (s : State) (n : Nat) : DWord := s.dev.tenCfg.getD n 0

/-- How an access of a tenancy uses the L2: the ways in the masks of its partition and tenancy (R164), under its effective policy
(Table 6-2). -/
def State.allocIn (s : State) (ten part pol : Nat) : Alloc :=
  let ways := Nat.land (s.dev.l2Part.getD part 0) (fld (s.tenCfg ten) 16 16).toNat
  match pol with
  | 3 => .bypass
  | 2 => ⟨ways, true, false⟩
  | 1 => ⟨ways, false, true⟩
  | _ => ⟨ways, false, false⟩

def State.allocOf (s : State) (r : Req) : Alloc := s.allocIn r.ten r.l2part r.pol

/-- A read of a line of this module passes its home slice. -/
def State.l2Read (s : State) (r : Req) (line : Nat) : State :=
  if s.backed (128 * line) && !s.away line then s.l2Access (lineOf (localOf (128 * line))) (s.allocOf r) else s

/-! ### Refill (R446) -/

/-- The tokens a request takes: from e first, then b; q falls if it leaves in quota. -/
def Share.take (h : Share) (c : Nat) : Share :=
  { h with e := h.e - c, b := h.b - (c - h.e), q := if c ≤ h.q then h.q - c else h.q, sentNow := h.sentNow + c }

/-- Whether a core is in a tenancy's core set. -/
def State.inSet (s : State) (n core : Nat) : Bool := ((s.dev.cset.getD n []).getD (core / 64) 0).getLsbD (core % 64)

/-- The tenancies of a port (R445). -/
def State.portTens (s : State) (core : Nat) : List Nat :=
  (List.range 16).filter (fun n => tenEnabled (s.tenCfg n) &&
    (s.inSet n core || s.blocks.any (fun e => e.2.core = core && e.2.ten = n)))

/-- The first waiting request of a tenancy at a port. -/
def State.portHead (s : State) (core n : Nat) : Option (Nat × Req) :=
  s.reqs.find? (fun e => e.2.core = core && e.2.ten = n && !e.2.sent)

/-- One port's refill (R446): the tenancies that asked for it in the last window, or wait at it, share out its tokens; `late` says that a
request has come after the refill of its clock, which counts as waiting at it, so that the shares are formed anew from what was there
before, less what has left since. -/
def State.shareOut (s : State) (core : Nat) (late : Bool) : State :=
  let tens := s.portTens core
  let inA := tens.filter (fun n =>
    let h := (s.core core).share n
    (late && h.counted) || h.asked || (s.portHead core n).isSome)
  let quota := fun n => tenQuota (s.tenCfg n)
  let w := (inA.map quota).sum
  let idle := 1024 - w
  let extra := fun n => if idle = 0 then 0 else if 0 < w then idle * quota n / w else idle / inA.length
  let left := if inA.isEmpty || idle = 0 then 0 else idle - (inA.map extra).sum
  let share := fun n (h : Share) =>
    let b := if late then h.was else h.b
    let x : Share :=
      if inA.contains n then
        { h with b := min (b + quota n) (2 * quota n), q := quota n, e := extra n + (if inA.idxOf n < left then 1 else 0),
                 counted := true, was := b }
      else { h with b := b, q := 0, e := 0, counted := false, was := b }
    if late then { x.take h.sentNow with sentNow := h.sentNow } else x
  s.updCore core (fun c => { c with shares := c.shares.mapAll (fun n h =>
    let h := if tens.contains n then share n h else h
    if late then h else { h with sentLast := h.sentNow, sentNow := 0, asked := (s.portHead core n).isSome }) })

/-- Whether the refill of this clock has taken place. -/
def State.refilledNow (s : State) : Bool := s.clock % 1024 = 0 && s.clock != 0 && !s.refillDue

/-- The refill of every port, due in each clock that is a multiple of 1,024. -/
def State.refill (s : State) : State :=
  if s.refillDue then
    { (s.cores.map Prod.fst).foldl (fun t c => t.shareOut c false) s with refillDue := false }
  else s

def execPortRefill (s : State) : Out := event "PORT_REFILL" s.refillDue s.refill

/-- Presents a request at its core port. -/
def State.present (s : State) (r : Req) : State :=
  let s := { s with reqs := s.reqs.put s.nextId r, nextId := s.nextId + 1 }
  if r.sent then s
  else
    let t := s.updShare r.core r.ten (fun h => { h with asked := true })
    if s.refilledNow && !((s.core r.core).share r.ten).counted then t.shareOut r.core true else t

/-! ### Paths (R248, R510) -/

/-- One of `n` things, chosen by a free value: the load by which a path is chosen is open (notes/assumptions/59.md). -/
def freeIndex (seed n : Nat) : Nat := ((List.range 4).map (fun i => 2 ^ i * b2n (Config.freeBit seed i))).sum % n

/-- A path to a module, with its port, by load. -/
def State.somePath (s : State) (m : Nat) : Option (Nat × Nat) := (s.paths m)[freeIndex s.fresh (s.paths m).length]?

/-- A path by its label; where its port is fenced the first of those that remain (R498). -/
def State.pathBy (s : State) (m path : Nat) : Option (Nat × Nat) := ((s.paths m).find? (fun e => e.1 = path)).or (s.paths m).head?

/-- The path that an access of a core to a line takes: that of its accesses in flight, else one by load. -/
def State.pathFor (s : State) (core m line : Nat) : Option (Nat × Nat) :=
  match s.pins.find? (fun p => p.core = core && p.dst = m && p.line = line) with
  | some p => s.pathBy m p.path
  | none => s.somePath m

/-- An access of a core to a line is in flight under a tag. -/
def addPin (core m line path tag : Nat) : List Pin → List Pin
  | [] => [⟨core, m, line, path, [tag]⟩]
  | p :: ps => if p.core = core && p.dst = m && p.line = line then { p with path := path, tags := p.tags ++ [tag] } :: ps
    else p :: addPin core m line path tag ps

/-- A tag given out before another one: there are 65,536. -/
def tagBefore (a b : Nat) : Bool := (b + 65536 - a) % 65536 < 32768

/-- The accesses of the pins that satisfy `p` have been performed up to a tag: accesses to one line, and a marker behind them on their
path, keep their order. -/
def State.unpin (s : State) (p : Pin → Bool) (tag : Nat) : State :=
  let pins := s.pins.map (fun e => if p e then { e with tags := e.tags.filter (fun t => !tagBefore t tag) } else e)
  { s with pins := pins.filter (fun e => !e.tags.isEmpty) }

/-! ### Sending (R445) -/

/-- Tenancies in round-robin order after the one served last. -/
def roundRobin (last : Nat) : List Nat := (List.range 16).map (fun i => (last + 1 + i) % 16)

/-- The request that leaves a port now: in-quota heads first, round-robin. -/
def State.portChoice (s : State) (core : Nat) : Option (Nat × Req) :=
  let c := s.core core
  let heads := (roundRobin c.lastServed).filterMap (fun n =>
    if (s.portTens core).contains n then
      match s.portHead core n with
      | some e => if e.2.cost ≤ (c.share n).b + (c.share n).e then some e else none
      | none => none
    else none)
  if s.clock < c.busyUntil then none
  else match heads.find? (fun e => e.2.cost ≤ (c.share e.2.ten).q) with
    | some e => some e
    | none => heads.head?

/-- A tag for a packet to another module. -/
def State.newTag (s : State) : Nat × State := (s.nextTag % 65536, { s with nextTag := s.nextTag + 1 })

/-- A packet of a core to a module over the path of its line (R248, R510); it waits there while the port is not READY (R511). -/
def State.fabSend (s : State) (core typ dst tag atop addr : Nat) (data : List Byte) : State :=
  let path := (s.pathFor core dst (lineOf addr)).elim 0 Prod.fst
  { s with fabOut := s.fabOut ++ [{ typ := typ, src := s.dev.moduleNum, dst := dst, path := path, tag := tag, atop := atop,
                                    status := 0, addr := addr, data := data }],
           pins := if 1 ≤ typ && typ ≤ 3 then addPin core dst (lineOf addr) path tag s.pins else s.pins, fresh := s.fresh + 1 }

/-- A write packet, or an atomic without return, whose tag is kept for a refusal of its address (R509). -/
def State.fabPut (s : State) (typ atop addr : Nat) (data : List Byte) (w : SentWrite) : State :=
  let (tag, s) := s.newTag
  { s with sent := s.sent.put tag w }.fabSend w.core typ (moduleOf addr) tag atop addr data

/-- The class of a packet (Table 22-11): REPLY, MARKER_ACK and SESSION are replies. -/
def isRequest (p : FabPacket) : Bool := p.typ ≠ 4 && p.typ ≠ 6 && p.typ ≠ 7

/-- A received packet leaves its buffer, whose credit is owed to the far end (R508). -/
def FabPort.free (x : FabPort) (p : FabPacket) : FabPort :=
  { x with bufs := x.bufs.erase p, oweReq := x.oweReq + b2n (isRequest p), oweRep := x.oweRep + b2n (!isRequest p) }

def State.freeBuf (s : State) (p : FabPacket) : State :=
  match s.ports.find? (fun e => e.2.bufs.contains p) with
  | some e => { s with ports := s.ports.upd e.1 (fun x => x.free p) }
  | none => s

/-- A packet of this module's is taken in. -/
def State.taken (s : State) (p : FabPacket) : State := { s with fabIn := s.fabIn.erase p }.freeBuf p

/-- A request that brings a whole line. -/
def Req.whole (r : Req) : Bool :=
  match r.kind with
  | .load _ _ => r.pol != 3
  | .fetch => true
  | .prefetch _ => true
  | _ => false

/-- Whether the last packet of a request to another module has left. -/
def Req.departed (r : Req) : Bool :=
  r.visible || (r.remoteTag.isSome && (r.whole || r.kind.isWrite || r.accs.length ≤ r.olds.length + 1))

/-- An access of the same core to a line of `r` that was presented before it and has not been performed, or has not left for
the line's home in another module (R231, R248). -/
def State.olderPending (s : State) (id : Nat) (r : Req) (p : ReqKind → Bool) : Bool :=
  s.reqs.any (fun e => e.1 < id && e.2.core = r.core && e.2.cmd.isNone && p e.2.kind &&
    !(if s.reqAway e.2 then e.2.departed else e.2.visible) && e.2.lines.any (fun l => r.lines.contains l))

def isRead : ReqKind → Bool
  | .load _ _ => true
  | .loadBlk => true
  | .copyRead => true
  | _ => false

/-- The next READ packet of a request to another module: the whole line for a request that brings one, else the bytes of the
first access not yet answered; accesses of lines of this module are read on the way, a block's data and header by one packet each
(notes/assumptions/66.md). The packet's data stands for its LEN. -/
def State.sendRead (s : State) (id : Nat) (r : Req) : Nat → State
  | 0 => s
  | fuel + 1 =>
    if r.whole then
      let (tag, s) := s.newTag
      ({ s with reqs := s.reqs.put id { r with sent := true, remoteTag := some tag } }).fabSend r.core 1 (moduleOf (128 * r.line)) tag 0
        (128 * r.line) (List.replicate 128 0)
    else match r.accs[r.olds.length]? with
      | none => { s with reqs := s.reqs.put id { r with sent := true, remoteTag := none, visible := r.cmd.isNone } }
      | some a =>
        if s.away (lineOf a.pa) then
          let (tag, s) := s.newTag
          ({ s with reqs := s.reqs.put id { r with sent := true, remoteTag := some tag } }).fabSend r.core 1 (moduleOf a.pa) tag 0 a.pa
            (List.replicate a.n 0)
        else s.sendRead id { r with olds := r.olds ++ [(a.lane, s.rd (localOf a.pa) a.n)] } fuel

/-- The pieces of a request, at most. -/
def Req.pieces (r : Req) : Nat := r.accs.length + 2

/-- A request that leaves for another module as READ packets. -/
def ReqKind.reads : ReqKind → Bool
  | .load _ _ => true
  | .loadBlk => true
  | .copyRead => true
  | .fetch => true
  | .prefetch l1 => l1
  | _ => false

/-- The requests of one operation that are read or written as one: a block's, or those of one row of a copy. -/
def State.unitOf (s : State) (r : Req) : List (Nat × Req) :=
  s.reqs.filter (fun e => e.2.core = r.core && e.2.op = r.op && e.2.cmd = r.cmd && e.2.dst = r.dst)

/-- A read of another module that has left its core, and whose packets may go: no older access of the core to a line of its block or row
waits. -/
def State.mayDepart (s : State) (r : Req) : Bool :=
  r.sent && r.kind.reads && s.reqAway r && r.remoteTag.isNone && !r.visible && r.olds.isEmpty &&
  (s.unitOf r).all (fun e => !s.olderPending e.1 e.2 (fun k => k.isWrite || isRead k))

/-- A block of another module's lines, or a row with its headers, is read by several packets: from the first to the last answer no write
of this module leaves for its lines, so that no core of the module comes between (R190, R241; notes/assumptions/66.md). -/
def State.blockOut (s : State) (r : Req) : Bool :=
  s.reqs.any (fun e => (match e.2.kind with
    | .loadBlk => true
    | .copyRead => true
    | _ => false) && !e.2.visible && e.2.lines.any (fun l => r.lines.contains l) &&
      (s.unitOf e.2).any (fun f => s.reqAway f.2 && (f.2.remoteTag.isSome || !f.2.olds.isEmpty)))

/-- Reads of other modules that may go leave, oldest first. -/
def State.departReads (s : State) : State :=
  s.reqs.foldl (fun (t : State) e => match t.reqs.get e.1 with
    | some r => if t.mayDepart r then t.sendRead e.1 r r.pieces else t
    | none => t) s

/-- The line a load brings into the L1: the line at the home with the core's own stores that are on their way (Table 8-2);
none while another kind of write of the core is. -/
def State.fillData (s : State) (core line : Nat) (data : List Byte) : Option (List Byte) :=
  let mine : List (Nat × Req) :=
    s.reqs.filter (fun e => e.2.core = core && e.2.cmd.isNone && !e.2.visible && e.2.kind.isWrite && e.2.lines.contains line)
  if mine.all (fun e => match e.2.kind with | .store => true | .storeBlk => true | _ => false) then
    some (mine.foldl (fun (d : List Byte) (e : Nat × Req) =>
      (e.2.accs.filter (fun a => lineOf a.pa = line)).foldl (fun d a => putBytes d (a.pa % 128) a.data) d) data)
  else none

/-- The line of request `id` enters the L1, unless the policy is bypass (Table 6-2) or it may hold data older than an open, an
invalidation, a store of the core, or a value returned since its reading (R233, R235, R161, Table 8-2): reads of the line that left
before this one, and have not come back, fill no line. -/
def State.loadFill (s : State) (id : Nat) (r : Req) (data : List Byte) : State :=
  let s : State := { s with reqs := s.reqs.mapAll (fun k q =>
    if k < id && q.core = r.core && q.line = r.line && q.captured then { q with noFill := true } else q) }
  if r.noFill then s
  else if r.pol = 3 then s.l1Drop r.core (fun l => l.pline = r.line)
  else match s.fillData r.core r.line data with
    | some d => s.l1Fill r.core { r.asLine d with foreign := s.away r.line && s.reqs.any (fun e => e.2.core = r.core &&
        e.2.kind.isWrite && e.2.lines.contains r.line) } (r.pol = 1)
    | none => s.l1Drop r.core (fun l => l.pline = r.line)

/-- The wave goes on once nothing is left of an `mprobe`, `mon.arm` or `icl.lock` (R204, R205, R382). -/
def State.endProbe (s : State) (r : Req) : State :=
  if s.reqs.any (fun e => e.2.op = r.op && e.2.blk = r.blk && e.2.wave = r.wave && !e.2.replayed) then s
  else s.updWave r.blk r.wave (fun w => { w with hold := if w.hold = .probe r.op then .none else w.hold })

/-- A line of code arrives: it enters the instruction cache unless an invalidation came meanwhile (R161). -/
def State.codeArrives (s : State) (id : Nat) (r : Req) (data : List Byte) : State :=
  let s := { s with reqs := s.reqs.del id }
  (if r.noFill then s else s.codeFill r.core (r.asLine data)).endProbe r

/-- What becomes of a request that has left its core: a read of another module leaves as READ packets once it may; a prefetch
brings its line into the L2 and, unless it says otherwise, the L1 (R203); a line of `cp.hint` comes into the L2 (R220); a fetch
brings its line of code. -/
def State.afterSend (s : State) (id : Nat) (r : Req) (ecc : Ecc) : State :=
  let away := s.reqAway r
  let line := s.rd (localOf (128 * r.line)) 128
  match r.kind with
  | .hint => { s with reqs := s.reqs.del id }.l2Read r r.line
  | .fetch =>
    if away then s.departReads
    else
      let (data, s) := (s.l2Read r r.line).eccRead ecc (128 * r.line) r.core r.grid r.job line
      s.codeArrives id r data
  | .prefetch l1 =>
    if away then (if l1 then s.departReads else { s with reqs := s.reqs.del id })
    else
      let (data, s) := ({ s with reqs := s.reqs.del id }.l2Read r r.line).eccRead ecc (128 * r.line) r.core r.grid r.job line
      if l1 then s.loadFill id r data else s
  | _ => if away && r.kind.reads then s.departReads else s

end Sys2Proof.Machine
end

