-- ==== Sys2Proof/Machine/Access.lean ====
section
/-! DEFINITION. Machine/Access.lean: global lane accesses: their addresses and checks (R187, R188, R433, R512), parking (R37 to
R39), and the requests they become. -/

namespace Sys2Proof.Machine

/-! ### Values in registers -/

/-- The registers that hold `n` bytes, as bytes. -/
def regBytes (f : Nat → Word) (r n : Nat) : List Byte :=
  ((List.range ((n + 3) / 4)).flatMap (fun i => bytesOfNat (f (r + i)).toNat 4)).take n

/-- A value of `n` bytes as register contents from `r` on: extended to 32 bits below 4 bytes (R191). -/
def regWords (sgn : Bool) (bs : List Byte) : List Word :=
  if bs.length < 4 then [loOf (storeBits sgn (8 * bs.length) (natOfBytes bs))]
  else (List.range (bs.length / 4)).map (fun i => BitVec.ofNat 32 (natOfBytes ((bs.drop (4 * i)).take 4)))

/-! ### The window (R44, R150, R156) -/

/-- A byte of a block's window (R44, R151). -/
def Block.spadByte (b : Block) (o : Nat) : Byte :=
  match b.spad.get o with
  | some x => x
  | none => if b.spadClear.getD (o / 296) false then 0 else Config.freeByte b.spadSeed o

def Block.spadRead (b : Block) (o n : Nat) : List Byte := (List.range n).map (fun i => b.spadByte (o + i))

/-- A number put into a rising list. -/
def insertNat (x : Nat) : List Nat → List Nat
  | [] => [x]
  | y :: ys => if x < y then x :: y :: ys else if x = y then y :: ys else y :: insertNat x ys

/-- Bytes written to the window, their rows marked touched (R156). -/
def Block.spadWrite (b : Block) (o : Nat) : List Byte → Block
  | [] => b
  | x :: xs => { b with spad := b.spad.put o x, touched := insertNat (o / 296) b.touched }.spadWrite (o + 1) xs

/-- A command whose index array lies in the window, and that has not read it (R217). -/
def CopyCmd.awaitsIndex (c : CopyCmd) : Bool :=
  !c.begun && match c.kind with
    | .gth => true
    | .sct => true
    | _ => false

/-- Lanes write to a window: the commands issued before read what stood there (R217). -/
def State.keepIndex (s : State) (b : Nat) (os : List Nat) : State :=
  match s.block b with
  | none => s
  | some blk => s.updCore blk.core (fun k => { k with queues := k.queues.map (fun q => q.map (fun c =>
      if c.blk = b && c.awaitsIndex then
        { c with shadow := (os.filter (fun o => c.idx ≤ o && (c.shadow.get o).isNone)).foldl (fun (t : Tbl Byte) o => t.put o (blk.spadByte o)) c.shadow }
      else c)) })

/-- An engine has written the bytes of a window that satisfy `p`: commands that have not read their index array will read them. -/
def State.dropShadow (s : State) (b : Nat) (p : Nat → Bool) : State :=
  match s.block b with
  | none => s
  | some blk => s.updCore blk.core (fun k => { k with queues := k.queues.map (fun q => q.map (fun c =>
      if c.blk = b && !c.shadow.isEmpty then { c with shadow := c.shadow.filter (fun e => !p e.1) } else c)) })

/-- An engine writes to a window. -/
def State.engineWrite (s : State) (b : Nat) (o : Nat) (bs : List Byte) : State :=
  (s.updBlock b (fun x => x.spadWrite o bs)).dropShadow b (fun a => o ≤ a && a < o + bs.length)

/-! ### Accesses an instruction wants -/

/-- One access: its lane, exact address, bytes, alignment, and the data it carries. -/
structure Want where
  lane : Nat
  va : Int
  n : Nat
  align : Nat
  data : List Byte
  deriving DecidableEq, Repr

/-- The base of a lane, or of the scalar form. -/
def Ctx.base (x : Ctx) (f : MFmt) (l : Nat) : Int :=
  ((if f.ak then x.scalPair f.a.toNat else x.vecPair f.a.toNat l).toNat : Int)

/-- The effective address (R78, R188). -/
def Ctx.address (x : Ctx) (f : MFmt) (l : Nat) : Int := x.base f l + f.off.toInt

/-- The lanes of the access: the active ones, or one for a scalar form. -/
def Ctx.accessLanes (x : Ctx) (f : MFmt) : List Nat := if f.ak then (if x.any then [0] else []) else x.lanes

/-- A data register of lane `l`, or the scalar one. -/
def Ctx.dataReg (x : Ctx) (f : MFmt) (l r : Nat) : Word := if f.ak then x.scal r else x.vec r l

/-- The set of lanes of some accesses. -/
def wantLanes (ws : List Want) : Lanes := lanesOf (fun l => ws.any (fun w => w.lane = l))

/-- A trap of an access: precise, with the failing lanes; the trapping set for a scalar form (Table 21-4). -/
def Ctx.accessTrap (x : Ctx) (scalar : Bool) (code sub : Nat) (ws : List Want) : TrapInfo :=
  x.trap code sub (BitVec.ofInt 64 ((ws.map Want.va).headD 0)) (wantLanes ws) scalar

/-- Checks 1 and 2 of R188. -/
def Ctx.addressTrap (x : Ctx) (scalar : Bool) (ws : List Want) : Option TrapInfo :=
  let bad := ws.filter (fun w => !(canonicalInt w.va && canonicalInt (w.va + w.n - 1)))
  let odd := ws.filter (fun w => w.va % (w.align : Int) ≠ 0)
  if !bad.isEmpty then some (x.accessTrap scalar 0x07 0 bad)
  else if !odd.isEmpty then some (x.accessTrap scalar 0x06 0 odd)
  else none

/-! ### Translation of a block's accesses -/

def State.rootOf (s : State) (b : Block) : Nat := (s.grids.get b.grid).elim 0 (fun g => g.root)
def State.recOf (s : State) (b : Block) : Nat := (s.grids.get b.grid).elim 0 (fun g => g.recVa)

/-- Check 3 of R188 for one access; `dev` says that the access may reach a device register in service privilege (R512). -/
def State.xlateFor (s : State) (b : Block) (need : Need) (dev : Bool) (va : Nat) : Xl :=
  match s.xlate (some (clusterOf b.core)) b.asn (s.rootOf b) (!b.service) need va with
  | .ok pa e st => if s.region pa = .dev && !dev then .denied 3 else .ok pa e st
  | r => r

/-- An access that has been translated, with the leaf and the stable bit that govern it. -/
structure Got where
  acc : LaneAcc
  leaf : DWord
  stable : Bool
  deriving DecidableEq, Repr

def Want.at_ (w : Want) (pa : Nat) : LaneAcc := { lane := w.lane, va := w.va.toNat, pa := pa, n := w.n, data := w.data }

/-- The outcome of check 3 for all accesses. -/
structure Checked where
  got : List Got
  absent : List Want
  denied : List (Want × Nat)
  fatal : List Want
  need : Need
  deriving DecidableEq, Repr

def State.checkAll (s : State) (b : Block) (need : Need) (dev : Want → Bool) (ws : List Want) : Checked :=
  ws.foldl (fun (c : Checked) w =>
    match s.xlateFor b need (dev w) w.va.toNat with
    | .ok pa e st => { c with got := c.got ++ [⟨w.at_ pa, e, st⟩] }
    | .absent => { c with absent := c.absent ++ [w] }
    | .denied sub => { c with denied := c.denied ++ [(w, sub)] }
    | .fatal => { c with fatal := c.fatal ++ [w] }) { got := [], absent := [], denied := [], fatal := [], need := need }

/-! ### What an operation is -/

/-- An operation of a wave: its number, kind, destination, hint, what it waits for, its ordering scopes, and the threads that a
scalar or block form stands for. -/
structure OpInfo where
  op : Nat
  kind : ReqKind
  dst : Dst
  hint : Nat
  after : List Nat
  acqScope : Nat
  rel : Nat
  need : Need
  thr : Lanes := 0
  afterLines : List Nat := []
  deriving DecidableEq, Repr

/-- The request of some accesses of one line. -/
def mkReq (b : Block) (bn wn : Nat) (o : OpInfo) (gs : List Got) : Req :=
  let g := gs.headD ⟨{ lane := 0, va := 0, pa := 0, n := 0, data := [] }, 0, false⟩
  { op := o.op, grid := b.grid, core := b.core, blk := bn, wave := wn, cmd := none, ten := b.ten, asn := b.asn, job := b.job,
    user := !leafUser g.leaf, kind := o.kind, vline := lineOf g.acc.va, line := lineOf g.acc.pa,
    pol := effPolicy (leafPol g.leaf) o.hint, stable := g.stable || o.hint = 1, accs := gs.map Got.acc, dst := o.dst,
    after := o.after, sent := false, visible := false, remoteTag := none, olds := [], acqScope := o.acqScope, rel := o.rel,
    clobbered := [], replayed := false, thr := o.thr, l2part := leafPart g.leaf, afterLines := o.afterLines }

/-- The accesses grouped by a key. -/
def groupBy (key : Got → Nat) (gs : List Got) : List (List Got) :=
  ((gs.map key).eraseDups).map (fun v => gs.filter (fun g => key g = v))

/-- The accesses of a load, by the line that each names. -/
def byLine (gs : List Got) : List (List Got) := groupBy (fun g => lineOf g.acc.va) gs

/-- The accesses of a write, by the line at its home, so that lanes which reach one location by two addresses keep their order
(R189). -/
def byHome (gs : List Got) : List (List Got) := groupBy (fun g => lineOf g.acc.pa) gs

/-- A block-atomic access, data and header, is one request (R190). -/
def ReqKind.isBlk : ReqKind → Bool
  | .loadBlk => true
  | .storeBlk => true
  | _ => false

def ReqKind.isAtomic : ReqKind → Bool
  | .atomic _ _ => true
  | .red _ _ => true
  | _ => false

/-- The stores of the core update its L1 (R158); an atomic drops the core's copy, so that a later load of it goes home
(R233 condition 2). -/
def State.l1Write (s : State) (core : Nat) (r : Req) : State :=
  match r.kind with
  | .store => r.accs.foldl (fun t a => t.l1Store core (lineOf a.pa) (a.pa % 128) a.data) s
  | .storeBlk => r.accs.foldl (fun t a => t.l1Store core (lineOf a.pa) (a.pa % 128) a.data) s
  | .atomic _ _ => s.l1Drop core (fun l => l.pline = r.line)
  | .red _ _ => s.l1Drop core (fun l => l.pline = r.line)
  | .loadBlk => s.l1Drop core (fun l => r.lines.contains l.pline)
  | _ => s

/-- Presents the requests of an operation's translated accesses. -/
def State.presentAll (s : State) (b : Block) (bn wn : Nat) (o : OpInfo) (replayed : Bool) (gs : List Got) : State :=
  let groups := if gs.isEmpty then [] else if o.kind.isBlk then [gs]
    else if o.kind.isWrite then byHome gs else byLine gs
  groups.foldl (fun t g =>
    let m := mkReq b bn wn o g
    let r := { m with replayed := replayed, pol := if s.region (128 * m.line) = .dev then 3 else m.pol }
    (t.present r).l1Write b.core r) s

/-! ### The TLB (R159) -/

def State.fillAll (s : State) (b : Block) (gs : List Got) : State :=
  gs.foldl (fun t g => t.tlbFill (clusterOf b.core) b.asn (s.rootOf b) g.acc.va) s

/-! ### IDEM (R46) -/

/-- A store clears IDEM when a target page lacks the idempotent-safe attribute. -/
def State.storeIdem (s : State) (bn wn : Nat) (kind : ReqKind) (gs : List Got) : State :=
  let store := match kind with
    | .store => true
    | .storeBlk => true
    | _ => false
  if store && gs.any (fun g => !leafIds g.leaf) then s.updWave bn wn (fun w => { w with idem := false }) else s

/-! ### Parking (R37, R39) -/

/-- Whether a lane of a wave holds a replay entry (R38). -/
def State.holdsEntry (s : State) (b w l : Nat) : Bool :=
  s.replays.any (fun r => r.blk = b && r.wave = w && !r.inPlace && r.accs.any (fun a => a.lane = l)) ||
  s.reqs.any (fun e => e.2.blk = b && e.2.wave = w && e.2.replayed && e.2.accs.any (fun a => a.lane = l))

/-- The replay entries in use on a core: one for each parked lane. -/
def State.replayUse (s : State) (core : Nat) : Nat := (s.replays.filter (fun r => r.core = core && !r.inPlace)).length

/-- Parks the faulting lanes, or holds the wave in place when the form is scalar, or the buffer or a lane, which holds at most one
entry (R38), cannot take them; the later slots of its chain group then wait with it (R484). A group has the address that faulted and
the accesses to be held. -/
def State.park (s : State) (x : Ctx) (scalar : Bool) (o : OpInfo) (groups : List (Int × List Want)) : State :=
  let b := x.blk
  let inPlace := scalar || Config.replayPerCore < s.replayUse b.core + groups.length ||
    (groups.flatMap Prod.snd).any (fun w => s.holdsEntry x.b x.w w.lane)
  let s := groups.foldl (fun t g =>
    let va := g.1.toNat
    let ws := g.2
    let (id, t) := t.report 1 b.core b.asn b.ten b.job o.need.code va (t.recOf b) true
    { t with replays := t.replays ++ [{ fault := id, blk := x.b, wave := x.w, core := b.core, inPlace := inPlace, op := o.op,
                                        kind := o.kind, accs := ws.map (fun w => w.at_ 0), dst := o.dst, after := o.after,
                                        acqScope := o.acqScope, rel := o.rel, trapPc := x.wordPc, set := x.groupActive, whole := scalar,
                                        hint := o.hint, acked := false, thr := o.thr, afterLines := o.afterLines }] }) s
  if groups.isEmpty then s
  else if inPlace then { s.updWave x.b x.w (fun w => { w with hold := .inPlace o.op }) with note := .cut }
  else s.updWave x.b x.w (fun w => w.updLanes (wantLanes (groups.flatMap Prod.snd)) (fun t => { t with st := .parked }))

/-! ### Outstanding operations of a wave -/

/-- Loads and atomics that have not returned, parked ones included (R235 step 1). -/
def State.readsOut (s : State) (b w : Nat) : Bool :=
  s.reqs.any (fun e => e.2.blk = b && e.2.wave = w && e.2.cmd.isNone && e.2.kind.returns) ||
  s.replays.any (fun r => r.blk = b && r.wave = w && r.kind.returns)

/-- The writes of a wave that have not performed, by operation (R234), with those it saw in its core's L1. -/
def State.writesOut (s : State) (b w : Nat) : List Nat :=
  let mine := (s.reqs.filter (fun e => e.2.blk = b && e.2.wave = w && e.2.cmd.isNone && e.2.kind.isWrite && !e.2.visible)).map
    (fun e => e.2.op)
  let held := (s.replays.filter (fun r => r.blk = b && r.wave = w && r.kind.isWrite)).map (fun r => r.op)
  (mine ++ held ++ (s.wave b w).elim [] (fun v => v.seen)).eraseDups

/-- Whether the writes of some operations have performed at a scope: 0 blk, 1 dev, 2 dom (Table 8-2, R486); dev scope covers every
line of this module that they name. -/
def State.writesDone (s : State) (scope : Nat) (ops : List Nat) : Bool :=
  !s.replays.any (fun r => ops.contains r.op && r.kind.isWrite) &&
  (scope = 0 || !s.reqs.any (fun e => ops.contains e.2.op && e.2.kind.isWrite && !e.2.visible &&
    (scope = 2 || e.2.lines.any (fun l => !s.away l))))

/-- Whether the newest value of a line of this module waits for sectors (R174): by local line, and by line of the domain. -/
def State.heldAt (s : State) (line : Nat) : Bool := (s.lag.get line).elim false (fun g => g.held)
def State.lineHeld (s : State) (line : Nat) : Bool := !s.away line && s.heldAt (line % 274877906944)

/-- Whether the newest value of a line of this module is not committed to sectors, and so may yet be held (Table 8-2). -/
def State.lagging (s : State) (line : Nat) : Bool := !s.away line && (s.lag.get (line % 274877906944)).isSome

def addNew (x : Nat) (xs : List Nat) : List Nat := if xs.contains x then xs else x :: xs

/-- A write of operation `op` to line `l` was performed: the wave that made it, those that had read it, and the closes, fences
and commands that wait for it now wait for the line to be committed, should it be held (R199, R201, R234, Table 8-2). -/
def Hold.noteLine (h : Hold) (op l : Nat) : Hold :=
  match h with
  | .close c => if c.ops.contains op then .close { c with lines := addNew l c.lines } else h
  | _ => h

def Wave.noteLine (w : Wave) (own : Bool) (op l : Nat) : Wave :=
  { w with wrote := (if own then addNew l w.wrote else w.wrote),
           seenLines := (if w.seen.contains op then addNew l w.seenLines else w.seenLines), hold := w.hold.noteLine op l }

def Fence.noteLine (f : Fence) (op l : Nat) : Fence := if f.ops.contains op then { f with lines := addNew l f.lines } else f
def CopyCmd.noteLine (c : CopyCmd) (op l : Nat) : CopyCmd :=
  if c.afterOps.contains op then { c with afterLines := addNew l c.afterLines } else c

def State.noteLine (s : State) (b w op l : Nat) : State :=
  { s with blocks := s.blocks.mapAll (fun k x => { x with waves := x.waves.mapIdx (fun i v => v.noteLine (k = b && i = w) op l),
                                                          fences := x.fences.map (fun f => f.noteLine op l) }),
           cores := s.cores.mapAll (fun _ c => { c with queues := c.queues.map (fun q => q.map (fun x => x.noteLine op l)) }),
           reqs := s.reqs.mapAll (fun _ r => if r.after.contains op then { r with afterLines := addNew l r.afterLines } else r),
           replays := s.replays.map (fun r => if r.after.contains op then { r with afterLines := addNew l r.afterLines } else r) }

/-- The lines of a request that a performed write left uncommitted. -/
def State.noteWrite (s : State) (r : Req) : State :=
  r.lines.foldl (fun t l => if t.lagging l then t.noteLine r.blk r.wave r.op l else t) s

/-- The lines a wave's closes need committed: those it read and those it wrote. -/
def Wave.closeLines (w : Wave) : List Nat := (w.seenLines ++ w.wrote).eraseDups

/-- The operations whose writes another wave's load of a line in this L1 returns before they reach their home. -/
def State.writesSeen (s : State) (core line : Nat) : List Nat :=
  (s.reqs.filter (fun e => e.2.core = core && e.2.lines.contains line && e.2.kind.isWrite && !e.2.visible)).map (fun e => e.2.op)

/-! ### Issue of a global access -/

/-- A result already at hand: written by LOAD_RESULT (R58). -/
def Ctx.readyReq (x : Ctx) (o : OpInfo) (as_ : List LaneAcc) (vals : List (Nat × List Byte)) : Req :=
  let k : ReqKind := match o.kind with
    | .load sgn h => .load sgn h
    | _ => .scratch
  { op := o.op, grid := x.blk.grid, core := x.blk.core, blk := x.b, wave := x.w, cmd := none, ten := x.blk.ten, asn := x.blk.asn, job := x.blk.job,
    user := false, kind := k, vline := 0, line := 0, pol := 3, stable := false, accs := as_, dst := o.dst, after := [],
    sent := true, visible := true, remoteTag := none, olds := vals, acqScope := 0, rel := 0, clobbered := [],
    replayed := false }

/-- A lane's earlier access to a virtual line is held for a fault: a later one to it, by the lane or a form that stands for all, waits
behind it (R231, R233). -/
def State.lineParked (s : State) (b w : Nat) (scalar : Bool) (lane va : Nat) : Bool :=
  s.replays.any (fun r => r.blk = b && r.wave = w && r.accs.any (fun a => (scalar || a.lane = lane) && lineOf a.va = lineOf va))

/-- Device registers are open to `ld` and `st` of 4 and 8 bytes (R512). -/
def devWidth (w : Want) : Bool := w.n = 4 || w.n = 8

/-- Whether an access of this kind may name a device register. -/
def ReqKind.devOk (k : ReqKind) (w : Want) : Bool :=
  match k with
  | .load _ _ => devWidth w
  | .store => devWidth w
  | _ => false

/-- Whether a line lies in the device registers of this module. -/
def State.ownDev (s : State) (line : Nat) : Bool := !s.away line && s.region (128 * line) = .dev

/-- The L1 line that serves a load without translation (R158, R188). -/
def State.l1Hit (s : State) (b : Block) (va : Nat) : Option L1Line :=
  match s.l1Find b.core b.asn (lineOf va) with
  | some l => if b.service || !l.userFill then some l else none
  | none => none

end Sys2Proof.Machine
end

