-- ==== Sys2Proof/Machine/Perform.lean ====
section
/-! DEFINITION. Machine/Perform.lean: how requests end: loads and atomics return (LOAD_RESULT), writes become visible
(WRITE_PERFORM), flush markers are sent (R249), and held accesses are performed when their fault is answered (R484). -/

namespace Sys2Proof.Machine

/-! ### Operations of Table 7-3 -/

/-- The new value at a location of `n` bytes; `b` and `b2` are the operands, `b2` the new value of `cas`. -/
def atomicNew (op : Nat) (uns : Bool) (n old b b2 : Nat) : Nat :=
  let w := 8 * n
  let lt := if uns then decide (old < b) else decide (readBits true w old < readBits true w b)
  match op with
  | 0 => (old + b) % 2 ^ w
  | 1 => if lt then old else b
  | 2 => if lt then b else old
  | 3 => Nat.land old b
  | 4 => Nat.lor old b
  | 5 => Nat.xor old b
  | 6 => b
  | 7 => if old = b then b2 else old
  | _ => f32.round .rne false (Num.add .rne (f32.num old) (f32.num b))

/-- An atomic on bytes: the old bytes and operands give the new bytes. -/
def atomicBytes (op : Nat) (uns : Bool) (n : Nat) (old data : List Byte) : List Byte :=
  bytesOfNat (atomicNew op uns n (natOfBytes old) (natOfBytes (data.take n)) (natOfBytes (data.drop n))) n

/-! ### Flush markers (R234, R249) -/

/-- A marker down every path to each of some modules; gives their tags. -/
def State.markersTo (s : State) (mods : List Nat) : List Nat × State :=
  mods.foldl (fun (acc : List Nat × State) m =>
    (acc.2.paths m).foldl (fun (acc : List Nat × State) p =>
      let (tag, t) := acc.2.newTag
      let pk : FabPacket := { typ := 5, src := t.dev.moduleNum, dst := m, path := p.1, tag := tag, atop := 0, status := 0,
                              addr := m * 2 ^ 45, data := [] }
      (acc.1 ++ [tag], { t with fabOut := t.fabOut ++ [pk], marks := t.marks ++ [(tag, m)], markPath := t.markPath.put tag p.1 })) acc) ([], s)

/-- Sends a marker down every path to each module the wave has written since its last dom close, and gives their tags. -/
def State.sendMarkers (s : State) (b w : Nat) : List Nat × State :=
  let mods := (s.wave b w).elim [] (fun v => v.remote)
  (s.updWave b w (fun v => { v with remote := [] })).markersTo mods

/-- A dom close, or a `.rel` operation at dom scope, sends its markers once the writes it waits for have left. -/
def State.markClose (s : State) (b w : Nat) : State :=
  match s.wave b w with
  | none => s
  | some v =>
    match v.hold with
    | .close c =>
      if c.scope = 2 && !c.sent && s.writesDone 2 c.ops then
        let (tags, s) := s.sendMarkers b w
        s.updWave b w (fun x => { x with hold := .close { c with marks := tags, sent := true } })
      else s
    | _ => s

def State.markReleases (s : State) (b w : Nat) : State :=
  (s.reqs.filter (fun e => e.2.blk = b && e.2.wave = w && e.2.rel = 2 && !e.2.visible)).foldl (fun t e =>
    if t.writesDone 2 e.2.after && !((t.wave b w).elim [] (fun v => v.remote)).isEmpty then
      let (tags, t) := t.sendMarkers b w
      { t with markOps := t.markOps.put e.1 ((t.markOps.get e.1).getD [] ++ tags) }
    else t) s

def State.sendDue (s : State) (b w : Nat) : State := (s.markClose b w).markReleases b w

/-- Whether a request's release has been met: the writes before it performed at its scope, nothing of them held, and the
markers acknowledged. -/
def State.released (s : State) (id : Nat) (r : Req) : Bool :=
  s.writesDone (if r.rel = 1 then 1 else 2) r.after &&
  (r.rel = 0 || (r.afterLines.all (fun l => !s.lineHeld l) &&
    (r.rel ≠ 2 || ((s.wave r.blk r.wave).elim true (fun v => v.remote.isEmpty) &&
      ((s.markOps.get id).getD []).all (fun t => !s.marks.any (fun m => m.1 = t))))))

/-! ### The end of an operation -/

/-- An open at a scope: at dev and dom scope the core's non-stable lines go (R200, R235). -/
def State.openAt (s : State) (core scope : Nat) : State :=
  if scope = 0 then s else s.l1Drop core (fun l => !l.stable)

/-- A wave's acquires take effect once every load and atomic it issued before them has returned (R196, R235 step 1). -/
def State.settleAcq (s : State) (b w core : Nat) : State :=
  match s.wave b w with
  | none => s
  | some v =>
    if v.acq.isEmpty || s.readsOut b w then s
    else (v.acq.foldl (fun t e => t.openAt core e.2) s).updWave b w (fun x => { x with acq := [] })

/-- A wave opens at a scope as it goes on (Table 8-3): at once, or when its earlier loads have returned; until then it issues no
load. -/
def State.beginOpen (s : State) (b w core scope : Nat) : State :=
  ({ s with nextId := s.nextId + 1 }.updWave b w (fun x => { x with acq := x.acq ++ [(s.nextId, scope)] })).settleAcq b w core

/-- A thread whose replay entries are gone: a parked one runs on, and exits if its packet had it exit, the trap of a denied access
first (R484); a waiting one waits on (R36, R37). `here` says that it stands in the packet being issued. -/
def Thread.unparked (t : Thread) (here : Bool) : Thread :=
  if t.st == .parked then
    if !here && t.exiting && t.slot = 0 then
      (if t.heldTrap.isSome then { t with st := .running, exiting := false, gone := some t.pc }
       else { t with st := .exited, exiting := false })
    else { t with st := .running }
  else { t with owed := false }

/-- Threads whose accesses have been performed hold no replay entry any more (R37). -/
def State.unpark (s : State) (b w : Nat) (m : Lanes) : State :=
  match s.wave b w with
  | none => s
  | some v =>
    let here := (v.issue.map (fun i => i.lanes)).getD 0
    let free := m &&& v.lanesWith Thread.parked &&& lanesOf (fun l => !s.holdsEntry b w l)
    (s.updWave b w (fun x => { x with threads := x.threads.mapIdx (fun l t =>
      if hasLane free l then t.unparked (hasLane here l) else t) })).settle b w
        (free &&& ~~~here &&& v.lanesWith (fun t => t.st == .parked && t.slot = 0))

/-- The lanes of some performed accesses of a replayed request hold no entry for them any more (R37). -/
def State.unparkReq (s : State) (r : Req) (as_ : List LaneAcc) : State :=
  if r.replayed then s.unpark r.blk r.wave (lanesOf (fun l => as_.any (fun a => a.lane = l))) else s

/-- The flag clears once no lane's result is missing, and an acquire takes effect once every earlier load has returned. -/
def State.finishOp (s : State) (b w op core : Nat) : State :=
  let reqs := s.reqs.any (fun e => e.2.op = op && e.2.blk = b && e.2.wave = w && e.2.kind.returns && !e.2.replayed)
  let held := s.replays.any (fun r => r.op = op && r.blk = b && r.wave = w && r.inPlace)
  (if reqs || held then s else s.clearFlag b w op).settleAcq b w core

/-! ### LOAD_RESULT (R58, R191 to R195) -/

/-- The register writes of a value of `bs` bytes at a destination. -/
def dstWrites (d : Dst) (lane : Nat) (ws : List Word) : List Wr :=
  match d with
  | .vec r => ws.mapIdx (fun i x => .v (r + i) lane x)
  | .scal r => ws.mapIdx (fun i x => .s (r + i) x)
  | _ => []

/-- The writes of a block-atomic load: data bytes 4l to 4l + 3, and the header in every active lane (R193). -/
def blkWrites (r : Nat) (m : Lanes) (data hdr : List Byte) : List Wr :=
  (lanesIn m).flatMap (fun l =>
    [.v r l (BitVec.ofNat 32 (natOfBytes ((data.drop (4 * l)).take 4))), .v (r + 1) l (BitVec.ofNat 32 (natOfBytes hdr))])

/-- A load of a vector register that another instruction wrote meanwhile keeps either value (R60). -/
def keepWrites (clobbered : List Nat) (seed : Nat) (ws : List Wr) : List Wr :=
  ws.filter (fun w => !(w.keys.any (fun k => clobbered.contains k && Config.freeBit seed k)))

/-- The key under which a whole line is kept among the values of a request. -/
def lineKey : Nat := 64

/-- The bytes of an access: its own value, or its part of the line. -/
def Req.valueOf (r : Req) (a : LaneAcc) : List Byte :=
  match r.olds.find? (fun e => e.1 = a.lane) with
  | some e => e.2
  | none => ((r.olds.find? (fun e => e.1 = lineKey)).elim [] (fun e => (e.2.drop (a.pa % 128)).take a.n))

/-- The register writes of a request whose values are known. -/
def Req.writes (r : Req) : List Wr :=
  match r.kind, r.dst with
  | .loadBlk, .blk d m => blkWrites d m ((r.accs[0]?).elim [] r.valueOf) ((r.accs[1]?).elim [] r.valueOf)
  | .load sgn _, d => r.accs.flatMap (fun a => dstWrites d a.lane (regWords sgn (r.valueOf a)))
  | _, d => r.accs.flatMap (fun a => dstWrites d a.lane (regWords false (r.valueOf a)))

/-- Writes the results, ends the request, and lets its parked lanes go on. -/
def State.returnReq (s : State) (id : Nat) (r : Req) : State :=
  let s := { s with reqs := s.reqs.del id }
  let s := s.commit r.blk r.wave (keepWrites r.clobbered s.fresh r.writes)
  (s.finishOp r.blk r.wave r.op r.core).unparkReq r r.accs

/-- What a wave's later closes also wait for: a line it read whose newest value is not committed (R234). -/
def State.noteRead (s : State) (r : Req) : State :=
  r.lines.foldl (fun t l =>
    if t.lagging l then t.updWave r.blk r.wave (fun v => { v with seenLines := addNew l v.seenLines }) else t) s

/-- The accesses that a request performs next: those of the lanes split off, or all that are left (R190). -/
def Req.now (r : Req) : List LaneAcc := if r.part = 0 then r.accs else r.accs.filter (fun a => hasLane r.part a.lane)
def Req.later (r : Req) : List LaneAcc := if r.part = 0 then [] else r.accs.filter (fun a => !hasLane r.part a.lane)

/-- Some lanes of a request are performed apart from, and before, the others: of a write, no lane outside may name a byte of theirs, so
that lanes of one location stay together and in order (R189); the lanes of a load keep no order (R255). -/
def State.setPart (s : State) (id : Nat) (m : Lanes) : Option State :=
  match s.reqs.get id with
  | none => none
  | some r =>
    let inside := r.accs.filter (fun a => hasLane m a.lane)
    let outside := r.accs.filter (fun a => !hasLane m a.lane)
    let apart := inside.all (fun a => outside.all (fun c => a.pa + a.n ≤ c.pa || c.pa + c.n ≤ a.pa))
    if r.cmd.isNone && (r.kind.isWrite || r.kind.returns) && !r.visible && !s.reqAway r && !r.kind.isBlk && !inside.isEmpty && !outside.isEmpty &&
        (apart || !r.kind.isWrite) then
      some { s with reqs := s.reqs.put id { r with part := m } }
    else none

/-- What is left of a load once its lanes `r.now` have their values: their registers are written, the others still wait. -/
def State.returnPart (s : State) (id : Nat) (r : Req) (vals : List (Nat × List Byte)) : State :=
  let mine := { r with accs := r.now, olds := vals }
  let s := { s with reqs := s.reqs.put id { r with accs := r.later, part := 0, passed := [] } }
  (s.commit r.blk r.wave (keepWrites r.clobbered s.fresh mine.writes)).unparkReq r mine.accs

/-- A load performed at its home in this module. -/
def State.serveLoad (s : State) (id : Nat) (r : Req) (ecc : Ecc) : State :=
  let s := s.l2Read r r.line
  match r.kind with
  | .loadBlk =>
    let (vals, s) := r.accs.foldl (fun (acc : List (Nat × List Byte) × State) a =>
      let (bs, t) := acc.2.eccRead ecc a.pa r.core r.grid r.job (acc.2.rd (localOf a.pa) a.n)
      (acc.1 ++ [(a.lane, bs)], t)) ([], s)
    ((s.noteRead r).l1Drop r.core (fun l => r.lines.contains l.pline)).returnReq id { r with olds := vals, visible := true }
  | _ =>
    let (data, s) := s.eccRead ecc (128 * r.line) r.core r.grid r.job (s.rd (localOf (128 * r.line)) 128)
    let s := s.noteRead r
    if r.part = 0 then (s.loadFill id r data).returnReq id { r with olds := [(lineKey, data)], visible := true }
    else s.returnPart id r (r.now.map (fun a => (a.lane, (data.drop (a.pa % 128)).take a.n)))

/-! ### Turns at a home slice (R349) -/

/-- An older load of the same wave to a line of `r` that has not been performed. -/
def State.olderRead (s : State) (id : Nat) (r : Req) : Bool :=
  s.reqs.any (fun e => e.1 < id && e.2.blk = r.blk && e.2.wave = r.wave && e.2.cmd.isNone && !e.2.visible && isRead e.2.kind &&
    e.2.lines.any (fun l => r.lines.contains l))

/-- What keeps a load from being performed: it has not left its core, or an older write of the core to its lines, or an older load
of the wave, has not been performed (R233 conditions 2 and 3). -/
def State.loadReady (s : State) (id : Nat) (r : Req) : Bool :=
  r.kind.returns && !r.kind.isAtomic && !s.reqAway r && !s.ownDev r.line && r.sent && !r.visible &&
  !s.olderPending id r ReqKind.isWrite && !s.olderRead id r

/-- Whether a write of a line of this module finds room: in the L2, or at a controller that can hold one more line (R179); tier-2
lines need none. -/
def State.roomAt (s : State) (line : Nat) (a : Alloc) : Bool :=
  !s.ctlFull line || s.l2Has line || s.heldAt line || (s.l2Access line a).l2Has line

/-- Whether a write of the device to this module waits: for a page that is MOVING (R177), or for room to hold its line (R179). -/
def State.writeWaits (s : State) (pa : Nat) : Bool := s.moving (localOf pa) || !s.roomAt (lineOf (localOf pa)) .all

/-- A write of a line takes the room that it may need. -/
def State.takeRoom (s : State) (line : Nat) (a : Alloc) : State :=
  let t := s.l2Access line a
  if t.l2Has line || t.heldAt line || Config.t2Base / 128 ≤ line then t
  else { t with lag := t.lag.put line { committed := [], held := true, job := 0, arrival := 0 } }

/-- Whether writes of some lines of this module, one after the other, all find room (R179). -/
def State.roomAll (s : State) (a : Alloc) : List Nat → Bool
  | [] => true
  | l :: ls => s.roomAt l a && (s.takeRoom l a).roomAll a ls

/-- The lines of this module that a request names, as local lines. -/
def State.homeLines (s : State) (r : Req) : List Nat := (r.lines.filter (fun l => !s.away l)).map (fun l => lineOf (localOf (128 * l)))

def State.heldRoom (s : State) (r : Req) : Bool := s.roomAll (s.allocOf r) (s.homeLines r)

/-- What keeps a lane write from being performed: it has not left its core, an older access of the core to the line, its
release, a page that is MOVING (R177), no room to hold it (R179), or a block of another module that is being read (R190). -/
def State.writeReady (s : State) (id : Nat) (r : Req) : Bool :=
  r.sent && !r.visible && r.remoteTag.isNone && !s.olderPending id r (fun k => k.isWrite || isRead k) && s.released id r &&
  !(r.accs.any (fun a => !s.away (lineOf a.pa) && s.moving (localOf a.pa))) && s.heldRoom r && !s.ownDev r.line && !s.blockOut r

/-- The rows of a copy (R215): its command, the requests of a row, and whether one of them has left the core and, if it reads another
module, has been answered. -/
def State.cmd (s : State) (core id : Nat) : Option CopyCmd := (s.core core).queues.flatten.find? (fun c => c.id = id)
def State.rowReqsOf (s : State) (id i : Nat) : List (Nat × Req) := s.reqs.filter (fun e => e.2.cmd = some id && e.2.dst = .window i)
def State.rowReqReady (s : State) (r : Req) : Bool :=
  r.sent && (match r.kind with
    | .copyRead => !s.away r.line || r.olds.length = r.accs.length
    | _ => !s.blockOut r && (s.away r.line || !r.accs.any (fun a => s.moving (localOf a.pa))))

/-- Whether the lines that the requests of a row write find room, one after the other (R179). -/
def State.rowRoom (s : State) (es : List (Nat × Req)) : Bool :=
  match es with
  | [] => true
  | e :: _ => !e.2.kind.isWrite || s.roomAll (s.allocOf e.2) (es.flatMap (fun f => s.homeLines f.2))

/-- A row that can be moved now. -/
def State.rowReady (s : State) (c : CopyCmd) : Bool :=
  let es := s.rowReqsOf c.id c.moved
  c.moved < c.row && es.all (fun e => s.rowReqReady e.2) && s.rowRoom es

/-- A request that its home slice could serve now, turns apart: a lane's, or one of the row that a copy moves next. -/
def State.able (s : State) (id : Nat) (r : Req) : Bool :=
  !s.reqAway r && (match r.cmd with
    | none => if r.kind.isWrite then s.writeReady id r else s.loadReady id r
    | some n => (s.cmd r.core n).elim false (fun c => r.dst = .window c.moved && s.rowReady c))

/-- A core is not served again for a line while the request of another one, which waits since before, could be (R349). -/
def State.lineFree (s : State) (r : Req) : Bool :=
  s.reqs.all (fun e => e.2.core = r.core || !e.2.passed.contains r.core || !e.2.lines.any (fun l => r.lines.contains l) || !s.able e.1 e.2)

/-- How far a core stands behind the one that a slice served last. -/
def behind (last core : Nat) : Nat := (core + 1024 - last - 1) % 1024

/-- A home slice takes the cores whose lanes request it in turn, from the one after the core it served last, and none twice for a line
that another one waits for (R349). -/
def State.myTurn (s : State) (r : Req) : Bool :=
  let slice := sliceOf (128 * r.line)
  let last := (s.slices.get slice).getD 1023
  s.lineFree r && s.reqs.all (fun e => e.2.core = r.core || e.2.cmd.isSome || sliceOf (128 * e.2.line) ≠ slice ||
    behind last r.core ≤ behind last e.2.core || !s.able e.1 e.2 || !s.lineFree e.2)

/-- The slice has served a core: the requests of the others that wait for its lines have been passed by it. -/
def State.served (s : State) (r : Req) : State :=
  { s with slices := s.slices.put (sliceOf (128 * r.line)) r.core,
           reqs := s.reqs.mapAll (fun _ (q : Req) =>
             if !q.sent || q.visible || !q.lines.any (fun l => r.lines.contains l) then q
             else { q with passed := if q.core = r.core then [] else addNew r.core q.passed }) }

/-! ### `mprobe` at its home (R204, R243) -/

/-- Whether a write of a MOVING page to a line waits at the controller (R177). -/
def State.heldMoving (s : State) (line : Nat) : Bool :=
  !s.away line && s.moving (localOf (128 * line)) &&
  (s.reqs.any (fun e => e.2.sent && e.2.kind.isWrite && !e.2.visible && e.2.lines.contains line) ||
   s.fabIn.any (fun p => (p.typ = 2 || p.typ = 3) && lineOf p.addr = line))

/-- The fields of Table 7-4 for a line that may be reported. -/
def probeWord (moving held t2 : Bool) (code : Nat) : Word :=
  BitVec.ofNat 32 (1024 * b2n moving + 512 * b2n held + (if t2 then 256 + 16 * 4 + 7 else 16 * codeSectors code + code))

/-- The report of a line of this module to a tenancy that may have it; a dirty line is written back first. -/
def State.probeOwned (s : State) (pa : Nat) : Word × State :=
  let line := lineOf (localOf pa)
  let mv := s.moving (localOf pa)
  let late := s.heldMoving (lineOf pa)
  if s.region pa = .hbm then
    let s := s.writeBack line
    (probeWord mv (s.heldAt line || late) false (lineCode (s.committed line)), s)
  else (probeWord mv late true 7, s)

/-- The result of `mprobe` for a line of this module (Table 7-4). -/
def State.probeLine (s : State) (pa ten : Nat) : Word × State :=
  match s.ownerOf pa with
  | some (_, t) => if t ≠ ten then (0x80000000, s) else s.probeOwned pa
  | none => s.probeOwned pa

/-- The value `mprobe` writes. No packet reports the storage of a line of another module: which of the values of Table 7-4 it
gives there stays open (notes/assumptions/54.md). -/
def State.probe (s : State) (pa ten : Nat) : Word × State :=
  if moduleOf pa ≠ s.dev.moduleNum then
    let bit := Config.freeBit s.fresh
    let code := b2n (bit 3) + 2 * b2n (bit 4) + 4 * b2n (bit 5)
    (if bit 31 then 0x80000000 else probeWord (bit 10) (bit 9) (bit 8) code, { s with fresh := s.fresh + 1 })
  else s.probeLine pa ten

/-- The threads for which a request of a wave acts (R243): its lanes, or those a scalar or block form stands for. -/
def Req.threads (r : Req) : Lanes := if r.thr = 0 then lanesOf (fun l => r.accs.any (fun a => a.lane = l)) else r.thr

/-- An earlier write of a thread of a probe to its line that is not yet visible at its home. -/
def State.ownWritePending (s : State) (id : Nat) (r : Req) : Bool :=
  s.reqs.any (fun e => e.1 < id && e.2.blk = r.blk && e.2.wave = r.wave && e.2.cmd.isNone && e.2.kind.isWrite && !e.2.visible &&
    e.2.lines.contains r.line && (e.2.threads &&& r.threads) != 0)

/-- A probe that has left its core waits for the earlier writes of its threads to its line (R243), and for room to write a dirty line
back (R179). -/
def State.probeReady (s : State) (id : Nat) (r : Req) : Bool :=
  r.sent && !s.ownWritePending id r &&
  (s.away r.line || !(s.dirty (lineOf (localOf (128 * r.line))) && s.ctlFull (lineOf (localOf (128 * r.line)))))

/-- The probes of one line write their results, lane by lane. -/
def State.probeResult (s : State) (id : Nat) (r : Req) : State :=
  let (ws, s) := r.accs.foldl (fun (acc : List Wr × State) (a : LaneAcc) =>
    let (v, t) := acc.2.probe a.pa r.ten
    (acc.1 ++ dstWrites r.dst a.lane [v], t)) (([] : List Wr), s)
  ((({ s with reqs := s.reqs.del id } : State).commit r.blk r.wave ws).endProbe r).unparkReq r r.accs

def execLoadResult (req : Nat) (ecc : Ecc) (s : State) : Out :=
  match s.reqs.get req with
  | none => .refused (.notEnabled "LOAD_RESULT")
  | some r =>
    if r.kind == .probe then event "LOAD_RESULT" (s.probeReady req r) (s.probeResult req r)
    else if !r.kind.returns then .refused (.notEnabled "LOAD_RESULT")
    else if r.visible then
      let s : State := match r.olds.find? (fun e => e.1 = lineKey) with
        | some e => s.loadFill req r e.2
        | none => s
      .next (s.returnReq req r)
    else if s.loadReady req r && s.myTurn r then .next ((s.served r).serveLoad req r ecc)
    else .refused (.notEnabled "LOAD_RESULT")

/-! ### WRITE_PERFORM (R232) -/

/-- An uncorrectable error in what a write merges into: the rest of the line is zeros (R493). -/
def State.eccMerge (s : State) (ecc : Ecc) (pa core grid job : Nat) : State :=
  match ecc with
  | .clean => s
  | _ =>
    let line := localOf pa / 128 * 128
    let (bs, s) := s.eccRead ecc pa core grid job (s.rd line 128)
    { s with mem := memWrite s.mem line bs }

/-- A write of this module's memory by a request. -/
def State.writeHome (s : State) (r : Req) (pa : Nat) (bs : List Byte) : State :=
  s.homeWrite (localOf pa) bs (s.allocOf r) (if r.cmd.isNone then some (r.blk, r.wave) else none) r.job

/-- The accesses of a write performed in ascending lane order (R189), with the old values of an atomic. -/
def State.writeAll (s : State) (r : Req) : List (Nat × List Byte) × State :=
  r.now.foldl (fun (acc : List (Nat × List Byte) × State) a =>
    let old := acc.2.rd (localOf a.pa) a.n
    let new := match r.kind with
      | .atomic op uns => atomicBytes op uns a.n old a.data
      | .red op uns => atomicBytes op uns a.n old a.data
      | _ => a.data
    (acc.1 ++ [(a.lane, old)], acc.2.writeHome r a.pa new)) ([], s)

/-- The ATOP field of a packet (Table 22-10). -/
def atopOf (op n : Nat) (noret : Bool) : Nat := op + (if n = 8 then 16 else 0) + (if noret then 32 else 0)

/-- What an operation held for a fault needs of a page (Table 18-4). -/
def needOf : ReqKind → Need
  | .store => .store
  | .storeBlk => .store
  | .atomic _ _ => .rmw
  | .red _ _ => .rmw
  | _ => .load

/-- Whose an access of a request is. -/
def State.sentBy (s : State) (r : Req) (va : Nat) : SentWrite :=
  { core := r.core, asn := r.asn, ten := r.ten, job := r.job, rec_ := (s.grids.get r.grid).elim 0 (fun g => g.recVa), va := va, need := (needOf r.kind).code }

/-- The ATOMIC packets of an atomic's lanes, in ascending order and one behind the other, so that no other core of this module comes
between lanes of one location (R189); their tags follow the first, which the request keeps. -/
def State.sendAtomic (s : State) (id : Nat) (r : Req) (op : Nat) : State :=
  let s := { s with reqs := s.reqs.put id { r with sent := true, remoteTag := some (s.nextTag % 65536) } }
  r.accs.foldl (fun (t : State) a =>
    let (tag, t) := t.newTag
    t.fabSend r.core 3 (moduleOf a.pa) tag (atopOf op a.n false) a.pa a.data) s

/-- A wave has written lines of other modules (R199). -/
def State.noteRemote (s : State) (r : Req) : State :=
  let mods := ((r.lines.filter s.away).map (fun l => moduleOf (128 * l))).eraseDups
  s.updWave r.blk r.wave (fun v => { v with remote := mods.foldl (fun ms m => addNew m ms) v.remote })

/-- A write of another module's lines leaves as packets, all in one step; a block whose other part lies in this module is written here
too (notes/assumptions/66.md). Reads of the core that are on their way fill no line with what was there before. -/
def State.writeAway (s : State) (id : Nat) (r : Req) : State :=
  let s := (s.noteRemote r).stale (fun q => q.core = r.core && r.lines.contains q.line && q.captured)
  match r.kind with
  | .atomic op _ => s.sendAtomic id r op
  | .red op _ =>
    let s := r.accs.foldl (fun (t : State) a => t.fabPut 3 (atopOf op a.n true) a.pa a.data (t.sentBy r a.va)) s
    ({ s with reqs := s.reqs.del id } : State).unparkReq r r.accs
  | _ =>
    let s := r.accs.foldl (fun (t : State) a =>
      if t.away (lineOf a.pa) then t.fabPut 2 0 a.pa a.data (t.sentBy r a.va) else t.writeHome r a.pa a.data) s
    let s := s.noteWrite r
    ({ s with reqs := s.reqs.del id } : State).unparkReq r r.accs

/-- What is left of a write whose accesses `r.now` have been performed, with their old values. -/
def State.wroteNow (s : State) (id : Nat) (r : Req) (olds : List (Nat × List Byte)) : State :=
  if r.later.isEmpty then
    match r.kind with
    | .atomic _ _ => { s with reqs := s.reqs.put id { r with visible := true, olds := olds } }
    | _ => ({ s with reqs := s.reqs.del id } : State).unparkReq r r.accs
  else match r.kind with
    | .atomic _ _ => s.returnPart id r olds
    | _ => ({ s with reqs := s.reqs.put id { r with accs := r.later, part := 0, passed := [] } } : State).unparkReq r r.now

/-- A write that is ready: it leaves for another module, or is performed here. -/
def State.performWrite (s : State) (id : Nat) (r : Req) (ecc : Ecc) : State :=
  if s.reqAway r then (s.writeAway id r).sendDue r.blk r.wave
  else
    let s := (s.served r).eccMerge ecc (128 * r.line) r.core r.grid r.job
    let (olds, s) := s.writeAll r
    ((s.noteWrite r).wroteNow id r olds).sendDue r.blk r.wave

def execWritePerform (req : Nat) (ecc : Ecc) (s : State) : Out :=
  match s.reqs.get req with
  | none => .refused (.notEnabled "WRITE_PERFORM")
  | some r => event "WRITE_PERFORM" (r.kind.isWrite && r.cmd.isNone && s.writeReady req r && (s.reqAway r || s.myTurn r)) (s.performWrite req r ecc)

/-! ### `mon.arm` at its home -/

/-- Registers a wave's monitor: the core's copy of the line goes, and a full slice loses its oldest monitor (R382, R384). Threads that
wait on the monitor which it replaces wait on (DESIGN CHOICE, notes/assumptions/76.md). -/
def State.armMonitor (s : State) (b w core pa scope : Nat) : State :=
  let line := lineOf pa
  let s := s.l1Drop core (fun l => l.pline = line)
  let s := s.updWave b w (fun v => { v with mon := none })
  let here := s.blocks.flatMap (fun e => (e.2.waves.mapIdx (fun i v => (e.1, i, v.mon))).filterMap (fun t =>
    match t.2.2 with
    | some m => if m.ended.isNone && !m.hit && moduleOf (128 * m.line) = moduleOf pa && sliceOf (128 * m.line) = sliceOf (128 * line) then
        some (t.1, t.2.1, m.age) else none
    | none => none))
  let s := if here.length < Config.monitorsPerSlice then s else
    match here with
    | [] => s
    | e :: es =>
      let o := es.foldl (fun (a : Nat × Nat × Nat) c => if c.2.2 < a.2.2 then c else a) e
      let s := s.updWave o.1 o.2.1 (fun v => { v with mon := v.mon.map (fun m => { m with ended := some 2 }) })
      if ((s.wave o.1 o.2.1).elim true (fun v => v.monWait.isEmpty)) then s else s.endMonitor o.1 o.2.1 (fun _ => 2)
  { s with nextId := s.nextId + 1 }.updWave b w (fun v =>
    { v with mon := some { line := line, scope := scope, age := s.nextId, hit := false, ended := none }, monLost := false })

/-! ### Replay (R37, R39, R484) -/

/-- The operation of an entry. -/
def Replay.info (r : Replay) (need : Need) : OpInfo :=
  { op := r.op, kind := r.kind, dst := r.dst, hint := r.hint, after := r.after, acqScope := r.acqScope, rel := r.rel, need := need,
    thr := r.thr, afterLines := r.afterLines }

/-- Performs an entry whose accesses have been translated. -/
def State.replayOk (s : State) (blk : Block) (r : Replay) (gs : List Got) : State :=
  let s := (s.fillAll blk gs).storeIdem r.blk r.wave r.kind gs
  let probes := match r.kind with
    | .probe => true
    | .arm _ => true
    | _ => false
  if probes then
    let s := gs.foldl (fun (t : State) g => t.present { mkReq blk r.blk r.wave (r.info .load) [g] with replayed := !r.inPlace }) s
    if r.inPlace then s.updWave r.blk r.wave (fun w => { w with hold := .probe r.op }) else s
  else (s.presentAll blk r.blk r.wave (r.info (needOf r.kind)) (!r.inPlace) gs).sendDue r.blk r.wave

/-- Threads that take a denial later stand at its instruction, out of the packet being issued. -/
def Wave.denyLater (w : Wave) (m : Lanes) (t : TrapInfo) : Wave :=
  (w.standAside m ((t.pc.toNat / 8 + 3) % 4)).updLanes m (fun x => { x with heldTrap := some t })

/-- A wave held in place takes the denial at its instruction, with the active threads of the chain group (R484); those that still hold
an entry take it once they run again, and all of them once the wave's trap has ended (R476). -/
def State.denyInPlace (s : State) (b w : Nat) (t : TrapInfo) : State :=
  match s.wave b w with
  | none => s
  | some v =>
    let late := t.set &&& v.lanesWith Thread.parked
    let now := t.set &&& ~~~late
    let t := { t with set := now }
    let s := s.updWave b w (fun x => { x.denyLater late t with hold := .none })
    if now = 0 then s
    else if v.trapSet.isSome && (v.lanesWith (fun x => x.inHandler) &&& now) = 0 then s.updWave b w (fun x => x.denyLater now t)
    else { s.takeTrap b w t with note := .fine }

/-- The denial of some entries of one operation: parked lanes take it later as one deferred trap; a wave held in place
takes it at the instruction, and its other held lanes are not performed. A flag that awaits results stays busy (R477). -/
def State.replayDenied (s : State) (rs : List Replay) : State :=
  match rs with
  | [] => s
  | r :: _ =>
    let lanes := lanesOf (fun l => rs.any (fun q => q.accs.any (fun a => a.lane = l)))
    let va := (r.accs.head?).elim 0 (fun a => a.va)
    let t : TrapInfo := { code := 0x08, sub := 0, pc := r.trapPc, addr := BitVec.ofNat 64 va, kstep := 0, lanes := lanes,
                          set := (if r.inPlace then r.set else lanes), whole := r.whole || !r.inPlace, feat := 0, defer := !r.inPlace }
    if r.inPlace then
      let s := { s with replays := s.replays.filter (fun q => !(q.blk = r.blk && q.wave = r.wave && q.op = r.op && q.inPlace)) }
      s.denyInPlace r.blk r.wave t
    else
      let s := s.updWave r.blk r.wave (fun v => v.updLanes lanes (fun x => { x with heldTrap := some t }))
      s.unpark r.blk r.wave lanes

/-- Retries the entries of one operation of one wave. -/
def State.replayGroup (s : State) (rs : List Replay) : State :=
  match rs with
  | [] => s
  | r :: _ =>
    match s.block r.blk with
    | none => s
    | some blk =>
      let outcome := fun (q : Replay) => s.checkAll blk (needOf q.kind) q.kind.devOk
        (q.accs.map (fun a => { lane := a.lane, va := (a.va : Int), n := a.n, align := 1, data := a.data }))
      match (rs.flatMap (fun q => (outcome q).fatal)).head? with
      | some w => s.fatalAccess blk.core blk.asn blk.ten blk.job (needOf r.kind).code w.va.toNat (s.recOf blk)
      | none =>
        let gone := fun (q : Replay) => rs.contains q
        let s := { s with replays := s.replays.filter (fun q => !gone q) }
        -- pages still not present are reported again
        let s := (rs.filter (fun q => (outcome q).denied.isEmpty && !(outcome q).absent.isEmpty)).foldl (fun t q =>
          let va := (((outcome q).absent.map Want.va).headD 0).toNat
          let (id, t) := t.report 1 blk.core blk.asn blk.ten blk.job (needOf q.kind).code va (t.recOf blk) true
          { t with replays := t.replays ++ [{ q with fault := id }] }) s
        let s := (rs.filter (fun q => (outcome q).denied.isEmpty && (outcome q).absent.isEmpty)).foldl (fun t q =>
          t.replayOk blk q (outcome q).got) s
        let s := s.replayDenied (rs.filter (fun q => !(outcome q).denied.isEmpty))
        -- a wave held in place goes on once nothing of it is held
        let still := s.replays.any (fun q => q.blk = r.blk && q.wave = r.wave && q.inPlace)
        let s := if r.inPlace && !still then
            s.updWave r.blk r.wave (fun v => { v with hold := match v.hold with | .inPlace _ => .none | h => h }) else s
        s.finishOp r.blk r.wave r.op r.core

/-- Replays every access joined to a fault, operation by operation in the order in which they were parked. -/
def State.replayFault (s : State) (fault : Nat) : State :=
  let mine := s.replays.filter (fun r => r.fault = fault)
  let ops := (mine.map (fun r => (r.blk, r.wave, r.op))).eraseDups
  ops.foldl (fun t o => t.replayGroup (mine.filter (fun r => r.blk = o.1 && r.wave = o.2.1 && r.op = o.2.2))) s

end Sys2Proof.Machine
end

