-- ==== Sys2Proof/Machine/Reed.lean ====
section
/-! DEFINITION. Machine/Reed.lean: writebacks and held writes, Reed's demotions, page moves, L2 flushes, the tier-2 free list
(R167, R173 to R184). -/

namespace Sys2Proof.Machine

/-! ### Writebacks and held writes (R167, R174, R179) -/

def State.lineJob (s : State) (line : Nat) : Nat := (s.lag.get line).elim 0 (fun g => g.job)

/-- A line leaves the L2, a dirty one for its controller, if that can hold one more; a retained line stays while its set holds others
(Table 6-2). -/
def State.writeback (s : State) (line : Nat) : State :=
  let kept := s.l2.any (fun e => e.line = line && e.retained) && s.l2.any (fun e => l2Set e.line = l2Set line && !e.retained)
  if kept then s else (s.l2Evict line).getD s

/-- The dirty lines that satisfy `p` are written back, as far as their controllers have room (R179). -/
def State.flushSome (s : State) (p : Nat → Bool) : State :=
  (s.lag.filter (fun e => !e.2.held && p e.1)).foldl (fun t e => if t.ctlFull e.1 then t else t.writeBack e.1) s

/-- The sectors a line needs now, and whether it may take them from the pool (R174, R178). -/
def State.commitFits (s : State) (line : Nat) : Bool :=
  let new := lineSectors (s.rd (128 * line) 128)
  let st := stackOf (128 * line)
  new ≤ lineSectors (s.committed line) || (new ≤ s.poolFree st && !s.exhausted (s.lineJob line) st)

def execHeldWriteCommit (line : Nat) (s : State) : Out :=
  event "HELD_WRITE_COMMIT" (s.heldAt line && s.commitFits line) (s.commitLine line (s.lineJob line))

/-- Tries every held write again (R484). -/
def State.retryHeld (s : State) : State :=
  (s.lag.filter (fun e => e.2.held)).foldl (fun t e => if t.commitFits e.1 then t.commitLine e.1 (t.lineJob e.1) else t) s

/-! ### STORAGE_EXHAUSTED (R178) -/

/-- Frames of presented HBM that hold anything, other than Granary frames and MOVING ones: those Reed may look at. -/
def State.granaryFrame (s : State) (pa : Nat) : Bool :=
  let base := localOf s.dev.granaryBase.toNat
  base ≤ pa && pa < base + 4096 * s.dev.granaryChunks

/-- The entries of a table that are not zero, by their addresses. -/
def State.entriesOf (s : State) (table : Nat) : List Nat :=
  let t := localOf table
  if s.backed table then
    ((s.mem.filter (fun c => t ≤ c.1 && c.1 < t + 8192)).map (fun c => c.1 / 8 * 8)).eraseDups
  else []

/-- The leaf entries of base pages below a table of level `4 - fuel`. -/
def State.leavesBelow (s : State) (table : Nat) : Nat → List Nat
  | 0 => (s.entriesOf table).filter (fun a => fld (s.rd64 a) 0 2 == 3 && leafOk (s.rd64 a) false)
  | fuel + 1 => (s.entriesOf table).flatMap (fun a =>
      if fld (s.rd64 a) 0 2 == 1 then s.leavesBelow (dirNext (s.rd64 a)) fuel else [])

/-- The leaf entries of the base pages that the enabled tenancies map. -/
def State.pageLeaves (s : State) : List Nat :=
  (List.range 16).flatMap (fun n => if tenEnabled (s.tenCfg n) then s.leavesBelow (s.dev.tenRoot.getD n 0).toNat 3 else [])

/-- The frame a base-page leaf names. -/
def leafFrame (e : DWord) : Nat := (fld e 16 36).toNat

/-- The local frames that Reed may choose (R175). -/
def State.demotable (s : State) : List Nat :=
  let own := s.dev.moduleNum * 2 ^ 29
  s.pageLeaves.filterMap (fun a =>
    let e := s.rd64 a
    let f := leafFrame e
    if own ≤ f && (f - own) * 65536 < s.hbmBytes && !leafNd e && !s.granaryFrame ((f - own) * 65536) && !s.moving ((f - own) * 65536)
    then some (f - own) else none)

def State.jobInfo (s : State) (job : Nat) : Nat × Nat := ((s.jobs.find? (fun j => j.number = job)).elim (0, 0) (fun j => (j.asn, j.ten)))

/-- Whether Reed finds no cold frame: none that it may choose, or two whole circles of its sweep met every one of them accessed, the
second one since the first cleared its bit (notes/assumptions/70.md). -/
def State.noneCold (s : State) : Bool := 2 * s.demotable.length ≤ s.reed.hot

/-- Held writes that cannot proceed, when Reed can make no room (it has no frame to move them to, or finds none cold), raise
STORAGE_EXHAUSTED against their jobs, once per job until it is answered. -/
def State.exhaustCheck (s : State) : State :=
  (s.lag.filter (fun e => e.2.held && !s.commitFits e.1)).foldl (fun t e =>
    if (t.reed.t2Count = 0 || t.noneCold) && !t.faultq.recs.any (fun f => f.open_ && f.kind = 4 && f.job = e.2.job) then
      let (asn, ten) := t.jobInfo e.2.job
      (t.report 4 noCore asn ten e.2.job 0 (128 * e.1 / 65536 * 65536) 0 true).2.setReed (fun r => { r with exhausted := true })
    else t) s

/-! ### Page moves (R176, R177, R181) -/

/-- The lines of a page that hold anything at the source or the destination, or whose sectors do. -/
def State.linesIn (s : State) (base size : Nat) : List Nat :=
  ((s.mem.filter (fun c => base ≤ c.1 && c.1 < base + size)).map (fun c => lineOf c.1) ++
   (s.lag.filter (fun e => base ≤ 128 * e.1 && 128 * e.1 < base + size)).map Prod.fst).eraseDups

/-- Step 1: the page becomes MOVING, its dirty lines are written back and its lines leave the L2. -/
def State.moveBegin (s : State) (m : Move) : State :=
  ((s.setReed (fun r => { r with moves := r.moves ++ [m] })).flushSome (fun l => m.covers (128 * l))).l2Drop (fun l => m.covers (128 * l))

/-- Sectors of the lines of a region, as committed. -/
def State.freeSectors (s : State) (lines : List Nat) : State :=
  lines.foldl (fun t l =>
    let st := stackOf (128 * l)
    t.setPool st (t.poolFree st + lineSectors (t.committed l))) s

/-- The page's bytes at the destination in this module, its lines committed there. -/
def State.copyPage (s : State) (m : Move) : State :=
  let dst := localOf m.dst
  let before := s.linesIn dst m.size
  let old : List (Nat × List Byte) := before.map (fun l => (l, s.committed l))
  let s := { s with mem := memMove s.mem m.src dst m.size }
  if s.region m.dst = .hbm then
    ((before ++ s.linesIn dst m.size).eraseDups).foldl (fun t l =>
      { t with lag := t.lag.put l { committed := ((old.find? (fun (e : Nat × List Byte) => e.1 = l)).elim (List.replicate 128 0) (fun e => e.2)),
                                    held := false, job := 0, arrival := 0 } }.commitLine l (t.chargedJob (128 * l) 0)) s
  else s

/-- The page's bytes sent to another module, line by line. -/
def State.sendPage (s : State) (m : Move) : State :=
  (List.range (m.size / 128)).foldl (fun (t : State) i =>
    let (tag, t) := t.newTag
    t.fabSend noCore 2 (moduleOf m.dst) tag 0 (m.dst + 128 * i) (t.rd (m.src + 128 * i) 128)) s

/-- Requests that reached the source act on the destination (step 4). -/
def Move.remap (m : Move) (own pa : Nat) : Nat :=
  if moduleOf pa = own && m.covers (localOf pa) then m.dst + (localOf pa - m.src) else pa

def Req.remap (m : Move) (own : Nat) (r : Req) : Req :=
  { r with line := lineOf (m.remap own (128 * r.line)), accs := r.accs.map (fun a => { a with pa := m.remap own a.pa }) }

/-- A line of the domain after the move. -/
def Move.line (m : Move) (own l : Nat) : Nat := lineOf (m.remap own (128 * l))

def Hold.remap (f : Nat → Nat) (h : Hold) : Hold :=
  match h with
  | .close c => .close { c with lines := c.lines.map f }
  | _ => h

/-- The lines that a wave's closes and monitor watch. -/
def Wave.remap (f : Nat → Nat) (w : Wave) : Wave :=
  { w with wrote := w.wrote.map f, seenLines := w.seenLines.map f, hold := w.hold.remap f,
           mon := w.mon.map (fun m => { m with line := f m.line }) }

def Pending.remap (f : Nat → Nat) (p : Pending) : Pending :=
  match p with
  | .held l v => .held (f l) v
  | _ => p

def CopyCmd.remap (f : Nat → Nat) (x : CopyCmd) : CopyCmd := { x with afterLines := x.afterLines.map f, lines := x.lines.map f }

/-- Everything that names lines of the page names them at the destination from step 4 on: closes, fences, commands, monitors,
and the packets that reached the source (R176, R177, R232). -/
def State.remapAll (s : State) (m : Move) : State :=
  let own := s.dev.moduleNum
  let f := m.line own
  let pk := fun (p : FabPacket) => if p.typ = 1 || p.typ = 2 || p.typ = 3 then { p with addr := m.remap own p.addr } else p
  let s : State := { s with
    reqs := s.reqs.mapAll (fun _ r => { r.remap m own with afterLines := r.afterLines.map f }),
    replays := s.replays.map (fun r => { r with afterLines := r.afterLines.map f }),
    blocks := s.blocks.mapAll (fun _ b => { b with waves := b.waves.map (Wave.remap f),
                                                   fences := b.fences.map (fun x => { x with lines := x.lines.map f }) }),
    cores := s.cores.mapAll (fun _ c => { c with queues := c.queues.map (fun q => q.map (CopyCmd.remap f)) }),
    queues := s.queues.mapAll (fun _ q => { q with pending := q.pending.map (Pending.remap f) }),
    fabHeld := s.fabHeld.map (fun e => (e.1, e.2.1, f e.2.2)),
    fabIn := s.fabIn.map pk, ports := s.ports.mapAll (fun _ x => { x with bufs := x.bufs.map pk }) }
  let gone := s.fabIn.filter (fun p => (p.typ = 1 || p.typ = 2 || p.typ = 3) && moduleOf p.addr ≠ own)
  let t := gone.foldl State.freeBuf s
  { t with fabIn := s.fabIn.filter (fun p => !gone.contains p),
           fabOut := s.fabOut ++ gone.map (fun p =>
             { p with dst := moduleOf p.addr, path := (s.pathFor noCore (moduleOf p.addr) (lineOf p.addr)).elim 0 Prod.fst }) }

/-- Translations and L1 lines of a page go from every cluster and core (R161). -/
def State.dropPage (s : State) (base size : Nat) : State :=
  let s := { s with tlb := s.tlb.filter (fun t => !(base ≤ leafPa t.leaf t.large 0 && leafPa t.leaf t.large 0 < base + size)) }
  s.l1DropAll (fun l => base ≤ 128 * l.pline && 128 * l.pline < base + size)

/-- Steps 2 to 4, the held writes apart: the copy, the leaf, and what reached the source names the destination. -/
def State.moveCopy (s : State) (m : Move) : State :=
  let s := if moduleOf m.dst = s.dev.moduleNum then s.copyPage m else s.sendPage m
  let leaf := s.rd64 (localOf m.pte)
  let keep := leaf &&& ~~~(BitVec.ofNat 64 (2 ^ 52 - 2 ^ 16))
  let new := keep ||| BitVec.ofNat 64 (m.dst % 2 ^ 52 / 65536 * 65536)
  let s := s.homeWrite (localOf m.pte) (bytesOfNat new.toNat 8) .all none 0
  (s.remapAll m).setReed (fun r => { r with moves := r.moves.filter (fun n => n.src ≠ m.src) })

/-- Steps 5 and 6: the translations go, and the source, whose lines were `lines`, is freed. -/
def State.moveFree (s : State) (m : Move) (lines : List Nat) : State :=
  let s := s.dropPage (s.dev.moduleNum * 2 ^ 45 + m.src) m.size
  if s.region (s.dev.moduleNum * 2 ^ 45 + m.src) = .hbm then
    let s := s.freeSectors lines
    { s with mem := s.mem.filter (fun c => !(m.src ≤ c.1 && c.1 < m.src + m.size)),
             lag := s.lag.filter (fun e => !(m.covers (128 * e.1))) }.reedUpdate
  else s

/-! ### Reed's demotions (R175) -/

/-- How far a frame stands ahead of the sweep. -/
def State.ahead (s : State) (frame : Nat) : Nat :=
  let n := s.hbmBytes / 65536
  (frame + n - s.reed.hand) % n

/-- Reed's sweep comes to a frame, the next one it may choose: an accessed frame loses its access bit, a cold one is moved to
tier-2 memory. -/
def execReedDemote (stack frame leaf : Nat) (s : State) : Out :=
  let s := s.reedUpdate
  let pa := 65536 * frame
  let e := s.rd64 (localOf leaf)
  let own := s.dev.moduleNum
  let ok := s.reed.working.getD stack false && 0 < s.reed.t2Count && pa < s.hbmBytes && !s.granaryFrame pa && !s.moving pa &&
    leaf % 8 = 0 && s.backed leaf && moduleOf leaf = own && fld e 0 2 == 3 && leafOk e false && !leafNd e &&
    leafFrame e = (own * 2 ^ 45 + pa) / 65536 && s.demotable.all (fun f => s.ahead frame ≤ s.ahead f)
  let s := s.setReed (fun r => { r with hand := frame + 1 })
  if !ok then .refused (.notEnabled "REED_DEMOTE")
  else if s.reed.accessed.contains frame then
    .next (s.setReed (fun r => { r with accessed := r.accessed.filter (· ≠ frame), hot := r.hot + 1 }))
  else
    let slot := localOf s.reed.t2Base.toNat + 8 * (s.reed.t2Count - 1)
    let dst := s.rdNat slot 8
    let s := s.setReed (fun r => { r with t2Count := r.t2Count - 1, hot := 0 })
    .next (s.moveBegin { pte := leaf, src := pa, dst := dst, large := false, software := false })

/-! ### MOVE_CTL (R181) -/

/-- Whether the table that holds an entry is a level-3 table of an enabled tenancy: its leaves map large pages. -/
def State.inLevel3 (s : State) (pte : Nat) : Bool :=
  let entries := fun (t : Nat) => if s.backed t then (List.range 1024).map (fun i => s.rd64 (localOf t + 8 * i)) else []
  let dirs := fun (t : Nat) => (entries t).filterMap (fun e => if fld e 0 2 == 1 then some (dirNext e) else none)
  (List.range 16).any (fun n => tenEnabled (s.tenCfg n) &&
    (dirs (s.dev.tenRoot.getD n 0).toNat).any (fun t2 => (dirs t2).any (fun t3 => t3 = pte / 8192 * 8192)))

/-- The code of RESULT for a start of the move that MOVE_PTE and MOVE_DST name, 0 when it may run; of several that apply, the lowest
(DESIGN CHOICE, notes/assumptions/65.md). -/
def State.moveResult (s : State) : Nat :=
  let pte := s.reed.movePte.toNat
  let dst := s.reed.moveDst.toNat
  let e := s.rd64 (localOf pte)
  let large := s.inLevel3 pte
  let src := (if large then (fld e 26 26).toNat * 67108864 else leafFrame e * 65536)
  let size := if large then 67108864 else 65536
  let own := s.dev.moduleNum
  if !(pte % 8 = 0 && s.backed pte && moduleOf pte = own && fld e 0 2 == 3 && leafOk e large && moduleOf src = own && s.backed src)
  then 1
  else if s.reed.moves.any (fun m => m.covers (localOf src) || (localOf src ≤ m.src && m.src < localOf src + size)) then 2
  else if dst % size ≠ 0 || Config.t2End < localOf dst + size ||
      (moduleOf dst = own && !(s.backed dst && s.backed (dst + size - 1))) then 3
  else if moduleOf dst ≠ own && (128 ≤ moduleOf dst || !s.hasRoute (moduleOf dst)) then 4
  else 0

def State.moveBusy (s : State) : Bool := s.reed.moves.any (fun m => m.software)

/-- A write of MOVE_CTL: only START acts, and not while BUSY. -/
def State.moveCtl (s : State) (v : DWord) : State :=
  if !v.getLsbD 0 || s.moveBusy then s
  else
    let r := s.moveResult
    let s := s.setReed (fun x => { x with moveResult := r })
    if r ≠ 0 then s
    else
      let pte := s.reed.movePte.toNat
      let e := s.rd64 (localOf pte)
      let large := s.inLevel3 pte
      let src := if large then (fld e 26 26).toNat * 67108864 else leafFrame e * 65536
      s.moveBegin { pte := pte, src := localOf src, dst := s.reed.moveDst.toNat, large := large, software := true }

def execMoveStart (value : DWord) (s : State) : Out := event "MOVE_START" (value.getLsbD 0) (s.moveCtl value)

/-! ### L2_FLUSH_CTL (R182) -/

/-- The lines of the flush that runs. -/
def State.flushLine (s : State) (line : Nat) : Bool := s.reed.flushFrom ≤ line && line < s.reed.flushFrom + s.reed.flushCount

/-- A START: the dirty lines of the range that lies in this module are written back; the registers may change meanwhile. -/
def State.flushStart (s : State) : State :=
  let here := moduleOf s.reed.flushAddr.toNat = s.dev.moduleNum
  let s := s.setReed (fun r => { r with flushBusy := true, flushFrom := lineOf (localOf r.flushAddr.toNat),
                                        flushCount := (if here then r.flushLines else 0), flushDrop := r.flushInv })
  s.flushSome s.flushLine

/-- A write of L2_FLUSH_CTL: LINES and INV are kept; START is ignored while BUSY is set or with LINES = 0. -/
def State.flushCtl (s : State) (v : DWord) : State :=
  let n := (fld v 8 21).toNat
  let t := s.setReed (fun r => { r with flushLines := n, flushInv := v.getLsbD 1 })
  if !v.getLsbD 0 || n = 0 || s.reed.flushBusy then t else t.flushStart

def execL2FlushStart (value : DWord) (s : State) : Out :=
  event "L2_FLUSH_START" (value.getLsbD 0 && !s.reed.flushBusy && fld value 8 21 != 0) (s.flushCtl value)

/-- The flush ends once every line of the range is committed; with INV its lines leave the L2. -/
def execL2FlushDone (s : State) : Out :=
  event "L2_FLUSH_DONE" (s.reed.flushBusy && !s.lag.any (fun e => s.flushLine e.1))
    ((if s.reed.flushDrop then s.l2Drop s.flushLine else s).setReed (fun r => { r with flushBusy := false }))

/-- Writebacks that a full controller made wait (R179): those of pages that are MOVING and of the flush that runs. -/
def State.flushWaiting (s : State) : State :=
  s.flushSome (fun l => s.moving (128 * l) || (s.reed.flushBusy && s.flushLine l))

/-! ### The tier-2 free list and the thresholds (R180, R183) -/

/-- A full list or a value that is no tier-2 frame refuses a push. -/
def State.t2PushRefused (s : State) (v : DWord) : Bool :=
  let a := v.toNat
  s.reed.t2Count = s.reed.t2Cap || a % 65536 ≠ 0 || 2 ^ 52 ≤ a || moduleOf a ≠ s.dev.moduleNum || s.region a ≠ .tier2

/-- A push stores the frame at entry T2_FREE_COUNT. -/
def State.t2Push (s : State) (v : DWord) : State :=
  let a := v.toNat
  if s.t2PushRefused v then
    s.setReed (fun r => { r with pushErr := true })
  else
    let s := s.homeWrite (localOf s.reed.t2Base.toNat + 8 * s.reed.t2Count) (bytesOfNat a 8) .all none 0
    s.setReed (fun r => { r with t2Count := r.t2Count + 1 })

def execT2FreePush (value : DWord) (s : State) : Out := .next (s.t2Push value)

def State.reedActive (s : State) : Bool := s.reedUpdate.reed.working.any id

def State.t2CountWrite (s : State) (v : DWord) : State :=
  if s.reedActive then s else s.setReed (fun r => { r with t2Count := (v.setWidth 32).toNat })

def execT2FreeCountWrite (value : DWord) (s : State) : Out := .next (s.t2CountWrite value)

/-- A write that would break the order of the thresholds (R180). -/
def State.thresholdRefused (s : State) (high : Bool) (n : Nat) (v : DWord) : Bool :=
  if high then v.toNat ≤ s.reed.poolLow.getD n 0 else s.reed.poolHigh.getD n 0 ≤ v.toNat

def State.thresholdWrite (s : State) (high : Bool) (n : Nat) (v : DWord) : State :=
  if s.thresholdRefused high n v then s
  else (s.setReed (fun r => if high then { r with poolHigh := r.poolHigh.set n v.toNat }
                            else { r with poolLow := r.poolLow.set n v.toNat })).reedUpdate

def execPoolThresholdWrite (high : Bool) (stack : Nat) (value : DWord) (s : State) : Out := .next (s.thresholdWrite high stack value)

end Sys2Proof.Machine
end

