-- ==== Sys2Proof/Machine/Grant.lean ====
section
/-! DEFINITION. Machine/Grant.lean: what a block takes of a core (R41, R42, Table 2-4), which physical units it gets and which
are cleared (R44, R443), core sets (R439, R442), and the placing of new blocks (R27, R366). -/

namespace Sys2Proof.Machine

/-! ### What a block takes -/

/-- A declared count as granted: rounded up to a multiple of 8 (Table 2-4). -/
def granule (n : Nat) : Nat := (n + 7) / 8 * 8
def Kern.rowCount (k : Kern) : Nat := (k.spad + 295) / 296

/-- What one block takes of its core. -/
structure Use where
  waves : Nat
  vrows : Nat
  row : Nat
  rows : Nat
  tiles : Nat
  accs : Nat
  convs : Nat
  bars : Nat
  deriving DecidableEq, Repr

def Kern.use (k : Kern) (waves row : Nat) : Use :=
  { waves := waves, vrows := granule k.vregs, row := row, rows := k.rowCount, tiles := k.tiles, accs := k.accs, convs := k.convs,
    bars := k.bars }

def Block.use (b : Block) : Use := b.kern.use b.waves.length b.grant.row

def Grid.waves (g : Grid) : Nat := wavesFor (g.bdim.1 * g.bdim.2.1 * g.bdim.2.2)

/-- The waves of `n` that run on sub-core `k` (R26). -/
def onSub (n k : Nat) : Nat := (n + 3 - k) / 4

/-- The first row of `rows` free contiguous rows. -/
def firstRow (us : List Use) (rows : Nat) : Option Nat :=
  if rows = 0 then some 0
  else
    let starts := 0 :: us.map (fun u => u.row + u.rows)
    let ok := starts.filter (fun r => r + rows ≤ Config.spadRows && us.all (fun u => u.rows = 0 || r + rows ≤ u.row || u.row + u.rows ≤ r))
    ok.foldl (fun (best : Option Nat) r => match best with
      | some b => if r < b then some r else some b
      | none => some r) none

/-- Whether one more block fits a core that holds the blocks `us`; gives its first row (R42). -/
def fitRow (us : List Use) (k : Kern) (waves : Nat) : Option Nat :=
  let subOk := [0, 1, 2, 3].all (fun j =>
    (us.map (fun u => onSub u.waves j)).sum + onSub waves j ≤ Config.waveSlotsPerSub &&
    (us.map (fun u => onSub u.waves j * u.vrows)).sum + onSub waves j * granule k.vregs ≤ Config.vregRowsPerSub)
  if subOk && (us.map Use.tiles).sum + k.tiles ≤ Config.tilesPerCore && (us.map Use.accs).sum + k.accs ≤ Config.accsPerCore &&
      (us.map Use.convs).sum + k.convs ≤ Config.convsPerCore && (us.map Use.bars).sum + k.bars ≤ Config.barsPerCore then
    firstRow us k.rowCount
  else none

/-- The blocks resident on a core. -/
def State.resident (s : State) (core : Nat) : List (Nat × Block) := s.blocks.filter (fun e => e.2.core = core)
def State.usesOn (s : State) (core : Nat) : List Use := (s.resident core).map (fun e => e.2.use)

/-- How many blocks of this shape an empty core takes, at most `n`. -/
def capacity (k : Kern) (waves : Nat) : Nat → List Use → Nat
  | 0, _ => 0
  | n + 1, us => match fitRow us k waves with
    | some r => 1 + capacity k waves n (us ++ [k.use waves r])
    | none => 0

def State.usable (s : State) (core : Nat) : Bool := !(s.core core).fenced && !s.health.clusters.contains (clusterOf core)

/-- A tenancy's core set in physical order (R439), and the cores of it that may take blocks. -/
def State.coreSet (s : State) (ten : Nat) : List Nat := (List.range Config.cores).filter (s.inSet ten)
def State.openCores (s : State) (ten : Nat) : List Nat := (s.coreSet ten).filter s.usable

/-! ### Reservations (R400) -/

/-- The reservations that hold resources of a core: those whose block is still to come, or has come and left again (R400). -/
def State.reservesOn (s : State) (core : Nat) : List Reserve :=
  s.disp.reserves.filter (fun r => r.core = core && (!r.placed || (s.block r.blk).isNone))

/-- The shape of a grid's blocks. -/
def State.shapeOf (s : State) (g : Nat) : Option (Kern × Nat) := (s.grids.get g).map (fun x => (x.kern, x.waves))

/-- Adds blocks of the reserved grids to a core, one after the other. -/
def addReserved (s : State) (us : List Use) : List Reserve → Option (List Use)
  | [] => some us
  | r :: rs => match s.shapeOf r.grid with
    | none => addReserved s us rs
    | some (k, w) => match fitRow us k w with
      | none => none
      | some row => addReserved s (us ++ [k.use w row]) rs

/-- A row at which a block of a grid fits a core now, leaving the reservations `others` their resources once their victims are
gone. -/
def State.fitOn (s : State) (core : Nat) (k : Kern) (waves : Nat) (others : List Reserve) : Option Nat :=
  match fitRow (s.usesOn core) k waves with
  | none => none
  | some row =>
    let victims := others.flatMap (fun r => r.victims)
    let stay := (s.resident core).filter (fun e => !victims.contains e.1)
    match addReserved s (stay.map (fun e => e.2.use) ++ [k.use waves row]) others with
    | some _ => some row
    | none => none

/-! ### Physical units and what is cleared (R44, R443) -/

/-- The rows, registers and accumulators that blocks of a core hold on a sub-core. -/
def usedV (bs : List (Nat × Block)) (sub : Nat) : List Nat :=
  bs.flatMap (fun e => (e.2.grant.vrows.mapIdx (fun i r => if i % 4 = sub then r else [])).flatten)
def usedS (bs : List (Nat × Block)) (sub : Nat) : List Nat :=
  bs.flatMap (fun e => (e.2.grant.sregs.mapIdx (fun i r => if i % 4 = sub then r else [])).flatten)

/-- The lowest free units (notes/assumptions/12.md). -/
def takeFree (total : Nat) (used : List Nat) (n : Nat) : List Nat := ((List.range total).filter (fun i => !used.contains i)).take n

/-- The units of each wave in turn. -/
def perWave (total n : Nat) (used : Nat → List Nat) (waves : Nat) : List (List Nat) :=
  (List.range waves).map (fun i => ((List.range total).filter (fun u => !(used (i % 4)).contains u)).drop (i / 4 * n) |>.take n)

def State.grantOn (s : State) (core : Nat) (k : Kern) (waves row : Nat) : Grant :=
  let bs := s.resident core
  { vrows := perWave Config.vregRowsPerSub (granule k.vregs) (usedV bs) waves,
    sregs := perWave Config.sregsPerSub (granule k.sregs) (usedS bs) waves,
    row := row, rows := k.rowCount, accs := takeFree Config.accsPerCore (bs.flatMap (fun e => e.2.grant.accs)) k.accs }

/-- Whether the record of a unit names another tenancy, or none. -/
def otherTen (t : Tbl Nat) (ten u : Nat) : Bool := t.get u != some ten

/-- The records of some units set to a tenancy. -/
def setTen (t : Tbl Nat) (ten : Nat) (us : List Nat) : Tbl Nat := us.foldl (fun t u => t.put u ten) t

/-- The keys of the physical vector and scalar registers of a grant. -/
def vUnits (g : Grant) : List (List Nat) := g.vrows.mapIdx (fun i r => r.map (fun x => 1024 * (i % 4) + x))
def sUnits (g : Grant) : List (List Nat) := g.sregs.mapIdx (fun i r => r.map (fun x => 1024 * (i % 4) + x))
def rowUnits (g : Grant) : List Nat := (List.range g.rows).map (fun i => g.row + i)

/-- The grant with what it clears for a tenancy. -/
def State.placement (s : State) (core vcore vcl vdie ten : Nat) (g : Grant) : Placement :=
  let c := s.core core
  { core := core, vcore := vcore, vcluster := vcl, vdie := vdie, grant := g,
    vclear := (vUnits g).map (fun us => us.map (otherTen c.vTen ten)), sclear := (sUnits g).map (fun us => us.map (otherTen c.sTen ten)),
    rowClear := (rowUnits g).map (otherTen c.rowTen ten), accClear := g.accs.map (otherTen c.accTen ten), seed := s.fresh }

/-- The records after the grant; the free values of the block's registers have numbers of their own. -/
def State.recordGrant (s : State) (core ten : Nat) (g : Grant) : State :=
  { s.updCore core (fun c => { c with vTen := setTen c.vTen ten (vUnits g).flatten, sTen := setTen c.sTen ten (sUnits g).flatten,
                                      rowTen := setTen c.rowTen ten (rowUnits g), accTen := setTen c.accTen ten g.accs })
      with fresh := s.fresh + 128 }

/-! ### The next block of a grid (R350, R366, R403) -/

inductive NextBlock where
  | saved (i : SavedImage)
  | flushed (f : Flushed)
  | new (index : Nat)
  deriving DecidableEq, Repr

def Grid.total (g : Grid) : Nat := g.gdim.1 * g.gdim.2.1 * g.gdim.2.2

/-- A grid's saved images, lowest sequence number first. -/
def State.imagesOf (s : State) (g : Nat) : List SavedImage :=
  (s.images.filter (fun i => i.blk.grid = g)).foldr (fun i acc => acc.filter (fun x => x.seq < i.seq) ++ [i] ++ acc.filter (fun x => i.seq ≤ x.seq)) []

/-- The blocks of a grid that Weir assigned to a core and that are not placed yet (R399). -/
def State.assigned (s : State) (g : Nat) : List Nat := (s.disp.reserves.filter (fun r => r.grid = g && !r.placed)).map (fun r => r.index)

/-- The first `n` of the grid's blocks to be placed that Weir has not assigned: saved ones, flushed ones, new ones (R350, R366, R403);
a cooperative grid's are placed together, the assigned ones among them. -/
def State.unassigned (s : State) (g n : Nat) : List Nat :=
  match s.grids.get g with
  | none => []
  | some gr =>
    let taken := if gr.coop then [] else s.assigned g
    let fresh := if gr.cancelled then [] else
      ((List.range (n + gr.early.length + taken.length)).map (fun i => gr.nextIndex + i)).filter (fun i => i < gr.total && !gr.early.contains i)
    (((s.imagesOf g).map (fun i => i.blk.index) ++ gr.flushed.map (fun f => f.index) ++ fresh).filter (fun i => !taken.contains i)).take n

/-- Where block `index` of a grid stands that waits to be placed. -/
def State.blockAt (s : State) (g index : Nat) : Option NextBlock :=
  match s.grids.get g, s.images.find? (fun i => i.blk.grid = g && i.blk.index = index) with
  | none, _ => none
  | some _, some i => some (.saved i)
  | some gr, none => match gr.flushed.find? (fun f => f.index = index) with
    | some f => some (.flushed f)
    | none => if !gr.cancelled && gr.nextIndex ≤ index && index < gr.total && !gr.early.contains index then some (.new index) else none

def State.nextBlockOf (s : State) (g : Nat) : Option NextBlock := (s.unassigned g 1).head?.bind (s.blockAt g)

def State.toPlace (s : State) (g : Nat) : Nat :=
  match s.grids.get g with
  | none => 0
  | some gr => (s.images.filter (fun i => i.blk.grid = g)).length + gr.flushed.length +
      (if gr.cancelled then 0 else gr.total - gr.nextIndex - gr.early.length)

/-- New block `i` has been placed: the next one is the first after it that was not placed ahead of its turn. -/
def Grid.took (g : Grid) (i : Nat) : Grid :=
  if i ≠ g.nextIndex then { g with early := g.early ++ [i] }
  else
    let n := g.early.foldl (fun n _ => if g.early.contains n then n + 1 else n) (i + 1)
    { g with nextIndex := n, early := g.early.filter (fun j => n ≤ j) }

/-! ### Placing a block -/

/-- Positions in the core set as it stands (R366, Table 16-5): of a core, of its cluster, of its C-die. -/
def posOf (cs : List Nat) (c : Nat) : Nat := (cs.filter (· < c)).length
def clusterPos (cs : List Nat) (c : Nat) : Nat := ((cs.map clusterOf).eraseDups.filter (· < clusterOf c)).length
def diePos (cs : List Nat) (c : Nat) : Nat := ((cs.map (fun x => x / 40)).eraseDups.filter (· < c / 40)).length

/-- The wave slots that the blocks of a core hold on a sub-core, and those that a new block's waves get: the lowest free ones
(R368; notes/assumptions/12.md). -/
def usedSlots (bs : List (Nat × Block)) (sub : Nat) : List Nat :=
  bs.flatMap (fun e => ((e.2.waves.mapIdx (fun i w => (i, w.wslot))).filter (fun x => x.1 % 4 = sub)).map Prod.snd)

def State.withSlots (s : State) (core : Nat) (ws : List Wave) : List Wave :=
  let slots := perWave Config.waveSlotsPerSub 1 (usedSlots (s.resident core)) ws.length
  ws.mapIdx (fun i w => { w with wslot := (slots.getD i []).headD 0 })

/-- A block placed from kernel entry (R47, R366). -/
def State.startBlock (s : State) (g : Nat) (gr : Grid) (index : Nat) (vcore : Option Nat) (core row : Nat) : State :=
  let cs := s.coreSet gr.ten
  let gt := s.grantOn core gr.kern gr.waves row
  let p := s.placement core (vcore.getD (posOf cs core)) (clusterPos cs core) (diePos cs core) gr.ten gt
  let s := s.recordGrant core gr.ten gt
  let b := Block.start g gr index p s.clock
  let b := { b with waves := s.withSlots core b.waves }
  let s := { s with blocks := s.blocks.put s.nextBlock b, nextBlock := s.nextBlock + 1 }
  s.l1Drop core (fun l => !l.stable)

/-! ### Locking instruction-cache lines (R205, R206) -/

/-- Locks one line for a block; none when the core's 256 lines are taken. -/
def lockLine (ls : List LockedLine) (b asn v : Nat) : Option (List LockedLine) :=
  if ls.any (fun l => l.asn = asn && l.vline = v) then
    some (ls.map (fun l => if l.asn = asn && l.vline = v && !l.holders.contains b then { l with holders := l.holders ++ [b] } else l))
  else if ls.length < Config.icLinesPerCore then some (ls ++ [{ asn := asn, vline := v, holders := [b] }])
  else none

/-- A line to be locked is fetched, by a request of operation `id`, if the instruction cache does not hold it. -/
def State.codeNeeded (s : State) (blk : Block) (b w id v pa : Nat) (leaf : DWord) : State :=
  let s := s.tlbFill (clusterOf blk.core) blk.asn (s.rootOf blk) (128 * v)
  if (s.core blk.core).icache.any (fun l => l.asn = blk.asn && l.vline = v && l.pline = lineOf pa) then s
  else s.present (fetchReq blk b w id (128 * v) pa leaf)

/-- Locks the lines from `v` up to `last` for a block, until one is refused, faults or is not canonical; every line locked is one
of 256, which bounds `fuel`. -/
def State.lockLines (s : State) (blk : Block) (b w id : Nat) (v last : Int) : Nat → State
  | 0 => s
  | fuel + 1 =>
    if last ≤ v || !canonicalInt (128 * v) then s
    else match s.xlateFor blk Need.fetch false (128 * v.toNat) with
      | .ok pa e _ => match lockLine (s.core blk.core).locked b blk.asn v.toNat with
        | some ls => ((s.codeNeeded blk b w id v.toNat pa e).updCore blk.core (fun c => { c with locked := ls })).lockLines blk b w id (v + 1) last fuel
        | none => s
      | .fatal => s.fatalAccess blk.core blk.asn blk.ten blk.job Need.fetch.code (128 * v.toNat) (s.recOf blk)
      | _ => s

/-- The lock runs of an image are requested again, in ascending order (R206, R416 step 2). -/
def State.relock (s : State) (b : Nat) (runs : List (Nat × Nat)) : State :=
  let runId := s.nextId
  let s : State := { s with nextId := s.nextId + 1 }
  runs.foldl (fun t r => match t.block b with
    | some blk => if blk.aborted.isSome then t
        else t.lockLines blk b 0 runId (r.1 : Int) ((r.1 + r.2 : Nat) : Int) (Config.icLinesPerCore + 1)
    | none => t) s

/-- The block of an image placed again: it gets the grants it declared, and waits for its reissued commands (R415, R416). -/
def State.reseat (s : State) (i : SavedImage) (core row : Nat) : State :=
  let b := i.blk
  let cs := s.coreSet b.ten
  let gt := s.grantOn core b.kern b.waves.length row
  let p := s.placement core b.vcore (clusterPos cs core) (diePos cs core) b.ten gt
  let s := s.recordGrant core b.ten gt
  let waves := b.waves.mapIdx (fun w v =>
    { v with v := { v.v with clear := p.vclear.getD w [], seed := p.seed + 2 * w }, busy := [],
             threads := v.threads.map (fun t => { t with fetchHeld := false }) })
  let again := (i.cmds.map (fun (e : Nat × CopyCmd) => e.2.id) ++
    b.accs.flatMap (fun (a : Acc) => a.queue.map (fun c => c.id))).filter (fun id =>
      b.waitCmds.contains id || b.waves.any (fun (w : Wave) => w.busy.any (fun e => e.2 = id)))
  let drains := fun (e : Nat × CopyCmd) => match e.2.kind with
    | .st => true
    | .sct => true
    | _ => false
  let tiles := b.tiles.mapIdx (fun n (t : Tile) =>
    if i.cmds.any (fun e => drains e && e.2.tile = n) then { t with st := .draining } else t)
  let nb : Block :=
    { b with core := core, vcluster := p.vcluster, vdie := p.vdie, grant := gt, waves := s.withSlots core waves, spadClear := p.rowClear,
             tiles := tiles, tileOps := b.tileOps.filter (fun o => o.goal == .release || o.goal == .drained),
             spadSeed := p.seed + 64, mode := .resuming, placedAt := s.clock, chunks := [], waitCmds := again, placeNo := p.seed }
  let s := { s with blocks := s.blocks.put i.id nb, images := s.images.filter (fun x => x.id ≠ i.id),
                    dev := { s.dev with granaryFree := s.dev.granaryFree ++ i.chunks },
                    replays := s.replays ++ i.replays.map (fun (r : Replay) => { r with core := core }) }
  let s := s.updCore core (fun c => { c with queues := c.queues.mapIdx (fun q l =>
    l ++ (i.cmds.filter (fun (e : Nat × CopyCmd) => e.1 = q)).map (fun (e : Nat × CopyCmd) => e.2)) })
  s.relock i.id i.lockRuns

/-- The first block of a grid on a core: the core's L1 drops its stable lines (R162). -/
def State.firstVisit (s : State) (g : Nat) (gr : Grid) (core : Nat) : State :=
  if gr.visited.contains core then s
  else (s.l1Drop core (fun l => l.stable)).updGrid g (fun x => { x with visited := x.visited ++ [core] })

/-- Places the next block of a grid on a core. -/
def State.placeNext (s : State) (g : Nat) (n : NextBlock) (core row : Nat) : State :=
  match s.grids.get g with
  | none => s
  | some gr =>
    let s := s.firstVisit g gr core
    let s := match n with
      | .saved i => s.reseat i core row
      | .flushed f => (s.startBlock g gr f.index (some f.vcore) core row).updGrid g (fun x => { x with flushed := x.flushed.erase f })
      | .new i => (s.startBlock g gr i none core row).updGrid g (fun x => x.took i)
    { s with disp := { s.disp with lastCluster := s.disp.lastCluster.put gr.ten (clusterOf core) } }

/-- A saved block also needs room for its replay entries (R415). -/
def State.replayRoom (s : State) (n : NextBlock) (core : Nat) : Bool :=
  match n with
  | .saved i => s.replayUse core + (i.replays.filter (fun r => !r.inPlace)).length ≤ Config.replayPerCore
  | _ => true

/-- Clusters of a set of cores after the one used last, in physical order and wrapping (R366); a tenancy that has placed nothing
begins with the lowest (DESIGN CHOICE, notes/assumptions/45.md). -/
def clusterOrder (cs : List Nat) (last : Option Nat) : List Nat :=
  let all := (cs.map clusterOf).eraseDups
  match last with
  | none => all
  | some l => all.filter (l < ·) ++ all.filter (· ≤ l)

/-- The core, with the first row, that the dispatcher takes for a block of a grid by R366, among those that fit; a cooperative
grid's own reservations are its own to use (R48, R400), while a block of another grid that Weir left unassigned keeps off those of its
grid, also off one whose block has left already (DESIGN CHOICE, notes/assumptions/78.md). -/
def State.chooseCore (s : State) (g : Nat) (gr : Grid) (n : NextBlock) : Option (Nat × Nat) :=
  let cs := s.openCores gr.ten
  let fit := cs.filterMap (fun c =>
    if s.replayRoom n c then (s.fitOn c gr.kern gr.waves ((s.reservesOn c).filter (fun r => !(gr.coop && r.grid = g)))).map (fun r => (c, r))
    else none)
  if gr.pack then
    match fit.find? (fun e => s.blocks.any (fun b => b.2.core = e.1 && b.2.grid = g)) with
    | some e => some e
    | none => fit.head?
  else (clusterOrder cs (s.disp.lastCluster.get gr.ten)).findSome? (fun k => fit.find? (fun e => clusterOf e.1 = k))

/-- Places the next block of a grid by R366. -/
def State.placeOne (s : State) (g : Nat) : Option State :=
  match s.grids.get g, s.nextBlockOf g with
  | some gr, some n => (s.chooseCore g gr n).map (fun e => s.placeNext g n e.1 e.2)
  | _, _ => none

/-- Places `n` blocks of a cooperative grid, all or none (R48, R49). -/
def State.placeAll (s : State) (g : Nat) : Nat → Option State
  | 0 => some s
  | n + 1 => (s.placeOne g).bind (fun t => t.placeAll g n)

/-- Whether all blocks of a cooperative grid fit the empty cores of its tenancy (R48). -/
def State.coopFits (s : State) (k : Kern) (waves total ten : Nat) : Bool :=
  total ≤ (s.openCores ten).length * capacity k waves 64 []

end Sys2Proof.Machine
end

