-- ==== Sys2Proof/Machine/Rank.lean ====
section
/-! DEFINITION. Machine/Rank.lean: the rank program of a queue (R361): at most 64 instructions of RV64I, M and C, which R361
takes from the RISC-V unprivileged specification (notes/assumptions/14.md). -/

namespace Sys2Proof.Machine

/-! ### Instructions -/

/-- The second source of a computation. -/
inductive RvSrc where
  | reg (r : Nat)
  | imm (x : DWord)
  deriving DecidableEq, Repr

/-- The computations of RV64I and M, by funct3; `alt` is SUB or SRA, `m` the M extension. -/
structure RvFn where
  f3 : Nat
  alt : Bool
  m : Bool
  deriving DecidableEq, Repr

inductive RvOp where
  | lui (rd : Nat) (x : DWord)
  | auipc (rd : Nat) (x : DWord)
  | jal (rd : Nat) (off : DWord)
  | jalr (rd rs : Nat) (off : DWord)
  | br (f3 a b : Nat) (off : DWord)
  | alu (fn : RvFn) (narrow : Bool) (rd a : Nat) (b : RvSrc)
  deriving DecidableEq, Repr

/-- Bits [lo + n − 1 : lo] of a number. -/
def bitsAt (x lo n : Nat) : Nat := x / 2 ^ lo % 2 ^ n

/-- An n-bit field as a signed 64-bit value. -/
def sxt (n x : Nat) : DWord := BitVec.ofInt 64 (if 2 ^ (n - 1) ≤ x % 2 ^ n then ((x % 2 ^ n : Nat) : Int) - (2 ^ n : Nat) else ((x % 2 ^ n : Nat) : Int))

/-- A 32-bit encoding; loads, stores, atomics, fences and system instructions are none. -/
def rvWide (w : Nat) : Option RvOp :=
  let rd := bitsAt w 7 5
  let f3 := bitsAt w 12 3
  let a := bitsAt w 15 5
  let b := bitsAt w 20 5
  let f7 := bitsAt w 25 7
  let immI := sxt 12 (bitsAt w 20 12)
  match bitsAt w 0 7 with
  | 0x37 => some (.lui rd (sxt 32 (w / 4096 * 4096)))
  | 0x17 => some (.auipc rd (sxt 32 (w / 4096 * 4096)))
  | 0x6F => some (.jal rd (sxt 21 (bitsAt w 31 1 * 2 ^ 20 + bitsAt w 12 8 * 2 ^ 12 + bitsAt w 20 1 * 2 ^ 11 + bitsAt w 21 10 * 2)))
  | 0x67 => if f3 = 0 then some (.jalr rd a immI) else none
  | 0x63 => if f3 = 2 || f3 = 3 then none else
      some (.br f3 a b (sxt 13 (bitsAt w 31 1 * 2 ^ 12 + bitsAt w 7 1 * 2 ^ 11 + bitsAt w 25 6 * 2 ^ 5 + bitsAt w 8 4 * 2)))
  | 0x13 =>
    if f3 = 1 then (if f7 / 2 = 0 then some (.alu ⟨1, false, false⟩ false rd a (.imm (BitVec.ofNat 64 (bitsAt w 20 6)))) else none)
    else if f3 = 5 then
      (if f7 / 2 = 0 || f7 / 2 = 0x10 then some (.alu ⟨5, f7 / 2 = 0x10, false⟩ false rd a (.imm (BitVec.ofNat 64 (bitsAt w 20 6)))) else none)
    else some (.alu ⟨f3, false, false⟩ false rd a (.imm immI))
  | 0x1B =>
    if f3 = 0 then some (.alu ⟨0, false, false⟩ true rd a (.imm immI))
    else if f3 = 1 && f7 = 0 then some (.alu ⟨1, false, false⟩ true rd a (.imm (BitVec.ofNat 64 b)))
    else if f3 = 5 && (f7 = 0 || f7 = 0x20) then some (.alu ⟨5, f7 = 0x20, false⟩ true rd a (.imm (BitVec.ofNat 64 b)))
    else none
  | 0x33 =>
    if f7 = 1 then some (.alu ⟨f3, false, true⟩ false rd a (.reg b))
    else if f7 = 0 then some (.alu ⟨f3, false, false⟩ false rd a (.reg b))
    else if f7 = 0x20 && (f3 = 0 || f3 = 5) then some (.alu ⟨f3, true, false⟩ false rd a (.reg b))
    else none
  | 0x3B =>
    if f7 = 1 then (if f3 = 0 || 4 ≤ f3 then some (.alu ⟨f3, false, true⟩ true rd a (.reg b)) else none)
    else if f7 = 0 && (f3 = 0 || f3 = 1 || f3 = 5) then some (.alu ⟨f3, false, false⟩ true rd a (.reg b))
    else if f7 = 0x20 && (f3 = 0 || f3 = 5) then some (.alu ⟨f3, true, false⟩ true rd a (.reg b))
    else none
  | _ => none

/-- A 16-bit encoding of the C extension. -/
def rvShort (w : Nat) : Option RvOp :=
  let rd := bitsAt w 7 5
  let rs := bitsAt w 2 5
  let dp := 8 + bitsAt w 7 3
  let sp := 8 + bitsAt w 2 3
  let imm6 := sxt 6 (bitsAt w 12 1 * 32 + bitsAt w 2 5)
  let sh := BitVec.ofNat 64 (bitsAt w 12 1 * 32 + bitsAt w 2 5)
  let add : RvFn := ⟨0, false, false⟩
  match bitsAt w 0 2, bitsAt w 13 3 with
  | 0, 0 =>
    let n := bitsAt w 11 2 * 16 + bitsAt w 7 4 * 64 + bitsAt w 6 1 * 4 + bitsAt w 5 1 * 8
    if n = 0 then none else some (.alu add false (8 + bitsAt w 2 3) 2 (.imm (BitVec.ofNat 64 n)))
  | 1, 0 => some (.alu add false rd rd (.imm imm6))
  | 1, 1 => if rd = 0 then none else some (.alu add true rd rd (.imm imm6))
  | 1, 2 => some (.alu add false rd 0 (.imm imm6))
  | 1, 3 =>
    if rd = 2 then
      let n := bitsAt w 12 1 * 512 + bitsAt w 6 1 * 16 + bitsAt w 5 1 * 64 + bitsAt w 3 2 * 128 + bitsAt w 2 1 * 32
      if n = 0 then none else some (.alu add false 2 2 (.imm (sxt 10 n)))
    else if bitsAt w 12 1 * 32 + bitsAt w 2 5 = 0 then none
    else some (.lui rd (imm6 <<< 12))
  | 1, 4 =>
    match bitsAt w 10 2 with
    | 0 => some (.alu ⟨5, false, false⟩ false dp dp (.imm sh))
    | 1 => some (.alu ⟨5, true, false⟩ false dp dp (.imm sh))
    | 2 => some (.alu ⟨7, false, false⟩ false dp dp (.imm imm6))
    | _ =>
      match bitsAt w 12 1, bitsAt w 5 2 with
      | 0, 0 => some (.alu ⟨0, true, false⟩ false dp dp (.reg sp))
      | 0, 1 => some (.alu ⟨4, false, false⟩ false dp dp (.reg sp))
      | 0, 2 => some (.alu ⟨6, false, false⟩ false dp dp (.reg sp))
      | 0, _ => some (.alu ⟨7, false, false⟩ false dp dp (.reg sp))
      | _, 0 => some (.alu ⟨0, true, false⟩ true dp dp (.reg sp))
      | _, 1 => some (.alu add true dp dp (.reg sp))
      | _, _ => none
  | 1, 5 =>
    some (.jal 0 (sxt 12 (bitsAt w 12 1 * 2048 + bitsAt w 11 1 * 16 + bitsAt w 9 2 * 256 + bitsAt w 8 1 * 1024 +
      bitsAt w 7 1 * 64 + bitsAt w 6 1 * 128 + bitsAt w 3 3 * 2 + bitsAt w 2 1 * 32)))
  | 1, k =>
    some (.br (if k = 6 then 0 else 1) dp 0 (sxt 9 (bitsAt w 12 1 * 256 + bitsAt w 10 2 * 8 + bitsAt w 5 2 * 64 +
      bitsAt w 3 2 * 2 + bitsAt w 2 1 * 32)))
  | 2, 0 => some (.alu ⟨1, false, false⟩ false rd rd (.imm sh))
  | 2, 4 =>
    match bitsAt w 12 1, rd, rs with
    | 0, 0, 0 => none
    | 0, r, 0 => some (.jalr 0 r 0)
    | 0, r, q => some (.alu add false r 0 (.reg q))
    | _, 0, 0 => none
    | _, r, 0 => some (.jalr 1 r 0)
    | _, r, q => some (.alu add false r r (.reg q))
  | _, _ => none

/-! ### Values -/

/-- Division truncating toward zero, with the results that the M extension defines for a zero divisor. -/
def rvDiv (x y : Int) : Int := if y = 0 then -1 else x.tdiv y
def rvRem (x y : Int) : Int := if y = 0 then x else x.tmod y

/-- The result of a computation on `n`-bit operands, as a number to be taken modulo 2^n. -/
def rvAlu (fn : RvFn) (n : Nat) (a b : DWord) : Int :=
  let ua := a.toNat % 2 ^ n
  let ub := b.toNat % 2 ^ n
  let sgn := fun (x : Nat) => if 2 ^ (n - 1) ≤ x then (x : Int) - (2 ^ n : Nat) else (x : Int)
  let sa := sgn ua
  let sb := sgn ub
  let sh := ub % n
  if fn.m then
    match fn.f3 with
    | 0 => sa * sb
    | 1 => sa * sb / (2 ^ 64 : Nat)
    | 2 => sa * (ub : Int) / (2 ^ 64 : Nat)
    | 3 => ((ua * ub / 2 ^ 64 : Nat) : Int)
    | 4 => rvDiv sa sb
    | 5 => if ub = 0 then -1 else ((ua / ub : Nat) : Int)
    | 6 => rvRem sa sb
    | _ => if ub = 0 then (ua : Int) else ((ua % ub : Nat) : Int)
  else
    match fn.f3 with
    | 0 => if fn.alt then sa - sb else sa + sb
    | 1 => ((ua * 2 ^ sh : Nat) : Int)
    | 2 => if sa < sb then 1 else 0
    | 3 => if ua < ub then 1 else 0
    | 4 => ((Nat.xor ua ub : Nat) : Int)
    | 5 => if fn.alt then sa / (2 ^ sh : Nat) else ((ua / 2 ^ sh : Nat) : Int)
    | 6 => ((Nat.lor ua ub : Nat) : Int)
    | _ => ((Nat.land ua ub : Nat) : Int)

/-- A branch's condition. -/
def rvTakes (f3 : Nat) (a b : DWord) : Bool :=
  match f3 with
  | 0 => a == b
  | 1 => a != b
  | 4 => a.slt b
  | 5 => !a.slt b
  | 6 => a.ult b
  | _ => !a.ult b

/-! ### The run -/

structure RvState where
  pc : DWord
  regs : List DWord
  deriving DecidableEq, Repr

def RvState.get (r : RvState) (i : Nat) : DWord := if i = 0 then 0 else r.regs.getD i 0
def RvState.set (r : RvState) (i : Nat) (x : DWord) : RvState := { r with regs := r.regs.set i x }

/-- One instruction of `len` bytes. -/
def RvState.run (r : RvState) (op : RvOp) (len : Nat) : RvState :=
  let next := r.pc + BitVec.ofNat 64 len
  match op with
  | .lui rd x => { r.set rd x with pc := next }
  | .auipc rd x => { r.set rd (r.pc + x) with pc := next }
  | .jal rd off => { r.set rd next with pc := r.pc + off }
  | .jalr rd a off => { r.set rd next with pc := (r.get a + off) &&& ~~~(1#64) }
  | .br f3 a b off => { r with pc := if rvTakes f3 (r.get a) (r.get b) then r.pc + off else next }
  | .alu fn narrow rd a b =>
    let n := if narrow then 32 else 64
    let y := match b with
      | .reg q => r.get q
      | .imm x => x
    { r.set rd (sxt n (rvAlu fn n (r.get a) y % ((2 ^ n : Nat) : Int)).toNat) with pc := next }

/-- Runs a program until it returns to `back`; none is a fault. Its address names this module's memory as a physical address does
(DESIGN CHOICE, notes/assumptions/76.md). -/
def RvState.runTo (s : State) (back : DWord) (r : RvState) : Nat → Option RvState
  | 0 => none
  | fuel + 1 =>
    let a := r.pc.toNat
    if a % 2 ≠ 0 || !s.backed a || !s.backed (a + 3) then none
    else
      let w := s.rdNat (localOf a) 4
      let step := if w % 4 = 3 then (rvWide w).map (fun o => r.run o 4) else (rvShort (w % 65536)).map (fun o => r.run o 2)
      match step with
      | none => none
      | some t => if t.pc = back then some t else RvState.runTo s back t fuel

/-- The registers a program is entered with; those that R361 does not name are not stated. -/
def rankRegs (seed rank bound blocks prio : Nat) : List DWord :=
  (List.range 32).map (fun i =>
    match i with
    | 0 => 0
    | 10 => BitVec.ofNat 64 rank
    | 11 => BitVec.ofNat 64 bound
    | 12 => BitVec.ofNat 64 (blocks % 2 ^ 32)
    | 13 => BitVec.ofNat 64 prio
    | i => pairOf (Config.freeWord seed (2 * i)) (Config.freeWord seed (2 * i + 1)))

/-- The rank of a launch and whether the program faulted (R361). -/
def State.rankOf (s : State) (prog rank bound blocks prio : Nat) : Nat × Bool :=
  if prog = 0 then (rank, false)
  else
    let r : RvState := { pc := BitVec.ofNat 64 prog, regs := rankRegs s.fresh rank bound blocks prio }
    match RvState.runTo s (r.get 1 &&& ~~~(1#64)) r 64 with
    | some t => ((t.get 10).toNat % 2 ^ 32, false)
    | none => (0xFFFFFFFF, true)

end Sys2Proof.Machine
end

