-- ==== Sys2Proof/Machine/Command.lean ====
section
/-! DEFINITION. Machine/Command.lean: the command processor: queues and frames (R352 to R355), refusals and reports (R357, R459),
its accesses (R359), the packets (R358, R360, R361, R441). -/

namespace Sys2Proof.Machine

/-- A list of bytes cut or padded to `n`. -/
def fit (n : Nat) (bs : List Byte) : List Byte := bs.take n ++ List.replicate (n - bs.length) 0

/-! ### What leaves for the host (R459) -/

/-- A session over which protected frames pass. -/
def Session.live (x : Session) : Bool := x.phase == .ready || x.phase == .rekeying

def State.session (s : State) (n : Nat) : Option Session := s.sessions.find? (fun x => x.number = n && x.live)

def State.updSession (s : State) (n : Nat) (f : Session → Session) : State :=
  { s with sessions := s.sessions.map (fun x => if x.number = n then f x else x) }

def OutFrame.session : OutFrame → Nat
  | .report n _ _ _ _ _ => n
  | .answer n _ _ _ _ => n
  | .message n _ _ => n

/-- The kind of a frame (R454): report, service, session. -/
def OutFrame.kind : OutFrame → Nat
  | .report _ _ _ _ _ _ => 1
  | .answer _ _ _ _ _ => 3
  | .message _ _ _ => 2

/-- The first word of a message (R456). -/
def msgWord (msg session : Nat) : List Byte := bytesOfNat (msg + session % 2 ^ 32 * 2 ^ 32) 8

/-- The payload of a frame (R456, R458, R459). -/
def OutFrame.payload : OutFrame → List Byte
  | .report _ typ q tag w1 w2 => bytesOfNat (typ + q * 2 ^ 16 + tag * 2 ^ 32) 8 ++ bytesOfNat w1.toNat 8 ++ bytesOfNat w2.toNat 8
  | .answer _ id service status body => bytesOfNat (service + id * 2 ^ 32) 8 ++ bytesOfNat status 8 ++ body
  | .message n msg body => msgWord msg n ++ body

/-- The 16-byte header of a host frame (R454). -/
def frameHeader (version kind queue len offset session : Nat) : List Byte :=
  bytesOfNat version 2 ++ bytesOfNat kind 1 ++ [0] ++ bytesOfNat queue 2 ++ bytesOfNat len 2 ++ bytesOfNat offset 4 ++ bytesOfNat session 4

/-- The GCM nonce: direction and counter (R454). -/
def gcmNonce (dir counter : Nat) : List Byte := bytesOfNat dir 4 ++ bytesOfNat counter 8

/-- The key for what the Z8 sends: from REKEYED on the new one (R457). -/
def Session.sendKey (x : Session) : List Byte := (if x.phase == .rekeying then x.newKeys else x.keys).drop 32

/-- A re-key ends with the first frame under the new keys (R457). -/
def Session.rekeyDone (x : Session) : Session := { x with keys := x.newKeys, newKeys := [], phase := .ready }

/-- A frame as it leaves: sealed under its session's key, or in clear (R456). The version field of a frame without a session is open. -/
def State.hostFrame (s : State) (x : Option Session) (prot : Bool) (o : OutFrame) : HostFrame :=
  let version := x.elim ((Config.freeWord s.fresh 0).toNat % 65536) (fun x => x.hostV)
  let head := frameHeader version o.kind 0 o.payload.length 0 o.session
  let ctr := if prot then x.elim 0 (fun x => x.nextOut) else 0
  { etherType := s.cfg.elim 0 (fun c => c.etherType), header := head, counter := ctr, frame := o,
    body := if prot then Config.gcmSeal (x.elim [] Session.sendKey) (gcmNonce 2 ctr) head o.payload else o.payload }

/-- A frame leaves over the host port; one of a priority that is paused waits, and later ones of its priority behind it (R19). A frame
that belongs to no session has no priority. -/
def State.emit (s : State) (x : Option Session) (prot : Bool) (o : OutFrame) : State :=
  let f := s.hostFrame x prot o
  match x with
  | some x =>
    if s.pfcPaused.getLsbD x.prio || s.outHeld.any (fun e => e.1 = x.prio) then { s with outHeld := s.outHeld ++ [(x.prio, f)] }
    else { s with out := s.out ++ [f] }
  | none => { s with out := s.out ++ [f] }

/-- Priorities whose pause is over run again, and their frames leave. -/
def State.hostGo (s : State) : State :=
  let still := (List.range 8).foldl (fun (m : BitVec 8) p =>
    if (s.pfcEnds.get p).elim false (fun c => c ≤ s.clock) then m &&& ~~~((1#8) <<< p) else m) s.pfcPaused
  let go := s.outHeld.filter (fun e => !still.getLsbD e.1)
  { s with pfcPaused := still, out := s.out ++ go.map Prod.snd, outHeld := s.outHeld.filter (fun e => still.getLsbD e.1) }

/-- A protected frame to the host over an open session; its counter rises. -/
def State.sendFrame (s : State) (n : Nat) (o : OutFrame) : State :=
  match s.session n with
  | none => s
  | some x => (s.emit (some x) true o).updSession n (fun x => { x with nextOut := x.nextOut + 1 })

/-- A report about a queue goes to the session that sent it a command frame last, be it mapped still or not (R459). -/
def State.queueReport (s : State) (q typ tag : Nat) (w1 w2 : DWord) : State :=
  let n := (s.qSess.get q).getD 0
  s.sendFrame n (.report n typ q tag w1 w2)

/-! ### Rings and packets (R352, R355, R356) -/

def Queue.size (q : Queue) : Nat := 2 ^ q.rsize

/-- Bytes of a ring from a byte offset on. -/
def State.ringBytes (s : State) (q : Queue) (off n : Nat) : List Byte :=
  (List.range n).map (fun i => memGet s.mem (localOf q.ring + (off + i) % q.size))

def State.ringWord (s : State) (q : Queue) (i : Nat) : DWord := wordOfBytes (s.ringBytes q (q.ridx + 8 * i) 8)

/-- Unread bytes. -/
def Queue.unread (q : Queue) : Nat := (q.widx + 2 ^ 32 - q.ridx) % 2 ^ 32

structure Pkt where
  typ : Nat
  len : Nat
  flags : Nat
  tag : Nat
  words : List DWord
  deriving DecidableEq, Repr

/-- What stands at RIDX: nothing whole, a header that refuses at once, or a packet. -/
inductive AtHead where
  | empty
  | bad (typ tag : Nat)
  | packet (p : Pkt)
  deriving DecidableEq, Repr

def State.atHead (s : State) (q : Queue) : AtHead :=
  if q.unread < 8 then .empty
  else
    let h := s.ringWord q 0
    let len := (fld h 8 8).toNat
    let tag := (fld h 48 16).toNat
    let typ := (fld h 0 8).toNat
    if len = 0 || q.size < 8 * len then .bad typ tag
    else if q.unread < 8 * len then .empty
    else
      if typ = 0 || 7 < typ then .bad typ tag
      else .packet { typ := typ, len := len, flags := (fld h 16 8).toNat, tag := tag, words := (List.range len).map (s.ringWord q) }

def Pkt.w (p : Pkt) (i : Nat) : DWord := p.words.getD i 0

/-! ### A queue moves on (R352, R355) -/

def State.updQueue (s : State) (n : Nat) (f : Queue → Queue) : State := { s with queues := s.queues.upd n f }

/-- STATUS of a queue that is not stopped: blocked while it holds no whole packet, or is held by WAIT, TICKALIGN or a full
Millrace (R351, R362). -/
def State.statusOf (s : State) (q : Queue) : Nat :=
  if q.status = 2 then 2
  else match q.pending with
    | some .wait => 1
    | some .met => 1
    | some (.tickalign _) => 1
    | some .launch => 1
    | some _ => 0
    | none => if s.atHead q = .empty then 1 else 0

/-- STATUS and the descriptor's words brought up to date. -/
def State.settleQueue (s : State) (n : Nat) : State :=
  match s.queues.get n with
  | none => s
  | some q => (s.updQueue n (fun x => { x with status := s.statusOf q })).showQueue n

/-- The packet has been performed, or skipped. -/
def State.endPacket (s : State) (n len : Nat) : State :=
  (s.updQueue n (fun q => { q with ridx := (q.ridx + 8 * len) % 2 ^ 32, pending := none })).settleQueue n

def State.holdPacket (s : State) (n : Nat) (p : Pending) : State := (s.updQueue n (fun q => { q with pending := some p })).settleQueue n

/-- Refuses a packet (R357): codes 0x01 and 0x06 stop the queue at it. -/
def State.refusePacket (s : State) (n tag len code : Nat) (w2 : DWord) : State :=
  let ridx := (s.queues.get n).elim 0 (fun q => q.ridx)
  let s := s.updQueue n (fun q => { q with lasterr := code, lasttag := tag })
  let s := s.queueReport n 1 tag (BitVec.ofNat 64 (ridx * 2 ^ 32 + code)) w2
  if code = 1 || code = 6 then (s.updQueue n (fun q => { q with status := 2, pending := none })).showQueue n else s.endPacket n len

/-! ### Accesses of the command processor (R359) -/

inductive CpAccess where
  | ok (pa : Nat) (al : Alloc)
  | refused
  | absent
  | fatal
  deriving DecidableEq, Repr

/-- User privilege on a queue thread, service privilege on a service thread (R351). -/
def Queue.user (q : Queue) : Bool := q.thread < 32

def State.cpAccess (s : State) (b : Binding) (user : Bool) (need : Need) (va : Nat) : CpAccess :=
  if va % 8 ≠ 0 || !canonicalNat va then .refused
  else match s.xlate none b.asn b.root user need va with
    | .ok pa leaf _ => if s.region pa = .dev then .refused else .ok pa (s.allocIn b.ten (leafPart leaf) (leafPol leaf))
    | .absent => .absent
    | .denied _ => .refused
    | .fatal => .fatal

def State.isOwn (s : State) (pa : Nat) : Bool := moduleOf pa = s.dev.moduleNum

/-- Eight bytes read; those of another module are not this module's to state (notes/assumptions/16.md). -/
def State.cpRead (s : State) (pa : Nat) : Nat × State :=
  if s.isOwn pa then (s.rdNat (localOf pa) 8, s)
  else ((pairOf (Config.freeWord s.fresh 0) (Config.freeWord s.fresh 1)).toNat, { s with fresh := s.fresh + 1 })

/-- Whose a write of the command processor is. -/
def State.cpSent (s : State) (job va : Nat) (need : Need) : SentWrite :=
  let j := s.jobs.find? (fun j => j.number = job)
  { core := noCore, asn := j.elim 0 (fun j => j.asn), ten := j.elim 0 (fun j => j.ten), job := job, rec_ := 0, va := va, need := need.code }

/-- Eight bytes written at dom scope, under the policy and partition of their leaf. -/
def State.cpWrite (s : State) (pa va : Nat) (al : Alloc) (v : DWord) (job : Nat) : State :=
  if s.isOwn pa then s.homeWrite (localOf pa) (bytesOfNat v.toNat 8) al none job
  else s.fabPut 2 0 pa (bytesOfNat v.toNat 8) (s.cpSent job va Need.store)

/-- A page not present: an entry of kind 7, and the packet waits. -/
def State.cpWait (s : State) (n : Nat) (b : Binding) (need : Need) (va : Nat) : State :=
  let (id, s) := s.report 7 noCore b.asn b.ten b.job need.code va n true
  s.holdPacket n (.fault id)

/-- A walk that ends the job (R146, R432). -/
def State.cpFatal (s : State) (b : Binding) (need : Need) (va : Nat) : State := s.fatalAccess noCore b.asn b.ten b.job need.code va 0

/-- Whether a write must wait for a page move or for room (R177, R179). -/
def State.cpMoving (s : State) (q : Queue) (va : Nat) : Bool :=
  match q.binding with
  | none => false
  | some b => match s.cpAccess b q.user Need.store va with
    | .ok pa _ => s.isOwn pa && s.writeWaits pa
    | _ => false

/-! ### Beginning a packet -/

/-- A service request of kind UNMAP_QUEUE waits for the queue (R353). -/
def State.unmapping (s : State) (n : Nat) : Bool := s.services.any (fun x => x.begun && x.req == .unmapQueue n)

/-- The packet of a type that a queue may begin, perform anew after an answer of RETRY (R359), or take up again where `again` says so. -/
def State.packetFor (s : State) (n typ : Nat) (again : Pending → Bool) : Option (Queue × Pkt) :=
  match s.queues.get n with
  | none => none
  | some q =>
    let open_ := match q.pending with
      | none => !s.unmapping n
      | some .retry => true
      | some p => again p
    if q.status = 2 || !open_ then none
    else match s.atHead q with
      | .packet p => if p.typ = typ then some ({ q with pending := if q.pending = some .retry then none else q.pending }, p) else none
      | _ => none

/-- Reserved bits and values of each type (Tables 14-3, 14-5). -/
def Pkt.formOk (p : Pkt) : Bool :=
  let h := p.w 0
  fld h 24 24 == 0 &&
  match p.typ with
  | 1 =>
    let narg := (fld (p.w 3) 33 5).toNat
    7 ≤ p.len && narg ≤ 16 && p.len = 7 + (narg + 1) / 2 && fld (p.w 3) 38 26 == 0 && fld (p.w 6) 16 16 == 0 && p.flags / 32 = 0 &&
      (p.flags / 16 % 2 = 1 || fld (p.w 4) 0 32 == 0)
  | 2 => p.len = 4 && p.flags / 16 = 0 && (p.flags % 4 = 0 || (p.w 2 == 0 && p.w 3 == 0))
  | 3 => p.len = 3 && p.flags / 8 = 0
  | 4 => p.len = 2 && p.flags / 4 = 0 && p.flags % 4 ≠ 3
  | 5 => p.len = 3 && p.flags = 0 && fld (p.w 2) 36 28 == 0
  | 6 => p.len = 1 && p.flags ≠ 0
  | 7 => p.len = 2 && p.flags ≤ 1 && fld (p.w 1) 16 48 == 0 && (p.flags = 0 || p.w 1 == 0)
  | _ => false

/-- A packet other than LAUNCH and BIND: its form, then the queue's binding. -/
def State.checked (s : State) (n : Nat) (q : Queue) (p : Pkt) (go : Binding → State → State) : State :=
  if !p.formOk then s.refusePacket n p.tag p.len 1 0
  else match q.binding with
    | none => s.refusePacket n p.tag p.len 4 0
    | some b => go b s

/-! ### LAUNCH (R357, R358, R361, R362) -/

/-- The status word of a refused launch (R357). -/
def refusedWord : DWord := 3#64

/-- A refused LAUNCH whose record's page is not present: LASTERR is set and a queue that stops does so at once; the report waits
for the record (R357, R359). -/
def State.holdRefusal (s : State) (n tag code : Nat) (b : Binding) (va : Nat) : State :=
  let (id, s) := s.report 7 noCore b.asn b.ten b.job Need.store.code va n true
  (s.updQueue n (fun q => { q with lasterr := code, lasttag := tag, pending := some (.refusing code id),
                                   status := if code = 1 || code = 6 then 2 else q.status })).settleQueue n

/-- Refuses a LAUNCH and writes its record. A record that cannot be written travels in the report, and the packet is refused as R359
says of such an access. -/
def State.refuseLaunch (s : State) (n : Nat) (q : Queue) (p : Pkt) (code : Nat) : State :=
  match q.binding with
  | none => s.refusePacket n p.tag p.len code refusedWord
  | some b =>
    if p.len < 6 then s.refusePacket n p.tag p.len code refusedWord
    else
      let va := (p.w 5).toNat
      match s.cpAccess b q.user Need.store va with
      | .ok pa al => (s.cpWrite pa va al refusedWord b.job).refusePacket n p.tag p.len code 0
      | .refused => s.refusePacket n p.tag p.len 6 refusedWord
      | .absent => s.holdRefusal n p.tag code b va
      | .fatal => (s.cpFatal b Need.store va).refusePacket n p.tag p.len 6 refusedWord

/-- The kernel that a descriptor's words declare, when they lie within the limits of Table 19-4. -/
def kernOf (desc : Nat) (o : Object) (w : Nat → DWord) : Option Kern :=
  let f := fun (i lo n : Nat) => (fld (w i) lo n).toNat
  let k : Kern :=
    { desc := desc, obj := o.va, code := o.code, entry := o.code + f 0 0 32,
      handler := (if f 0 32 32 = 0xFFFFFFFF then none else some (o.code + f 0 32 32)),
      vregs := f 1 0 9, sregs := f 1 9 7, spad := f 2 0 21, tiles := f 1 16 7, accs := f 1 23 3, convs := f 1 26 4, bars := f 1 30 5,
      idem := f 1 35 1 = 1, ptotal := f 3 0 32, cpuest := f 3 32 32 }
  if f 0 0 32 % 32 = 0 && (f 0 32 32 = 0xFFFFFFFF || f 0 32 32 % 32 = 0) && 1 ≤ k.vregs && k.vregs ≤ 256 && 1 ≤ k.sregs && k.sregs ≤ 64 &&
      k.spad ≤ Config.spadBytes && k.tiles ≤ 64 && k.accs ≤ 4 && k.convs ≤ 8 && k.bars ≤ 16 && 1 ≤ k.ptotal && 1 ≤ k.cpuest &&
      f 1 36 28 = 0 && f 2 21 43 = 0 && w 4 == 0 && w 5 == 0 && w 6 == 0 && w 7 == 0 then some k
  else none

/-- The loaded object of an address space that holds a descriptor. -/
def State.objectAt (s : State) (asn desc : Nat) : Option Object :=
  s.objects.find? (fun o => o.asn = asn && o.kdesc ≤ desc && desc < o.kdesc + 64 * o.kcount && (desc - o.kdesc) % 64 = 0)

/-- The first of the eight reads of a descriptor that fails, in ascending order, with its address. -/
def State.descRead (s : State) (b : Binding) (user : Bool) (desc : Nat) : Nat → Option (Nat × CpAccess)
  | 0 => none
  | i + 1 =>
    match s.descRead b user desc i with
    | some r => some r
    | none => match s.cpAccess b user Need.load (desc + 8 * i) with
      | .ok _ _ => none
      | r => some (desc + 8 * i, r)

/-- Word `i` of a descriptor that can be read. -/
def State.descWord (s : State) (b : Binding) (user : Bool) (desc i : Nat) : DWord :=
  match s.cpAccess b user Need.load (desc + 8 * i) with
  | .ok pa _ => BitVec.ofNat 64 (s.cpRead pa).1
  | _ => 0

def State.graphOf (s : State) (job graph : Nat) : Option Graph := s.graphs.find? (fun g => g.job = job && g.number = graph)
def State.jobOf (s : State) (job : Nat) : Option Job := s.jobs.find? (fun j => j.number = job)

/-- A launch names a closed graph, or a job that is closed or has finished (R360). -/
def State.launchClosed (s : State) (b : Binding) (graph : Nat) : Bool :=
  (s.jobBound b).elim true (fun j => j.closed) || (s.graphOf b.job graph).elim false (fun g => g.closed)

/-- The limits of R24. -/
def dimsOk (g b : Nat × Nat × Nat) : Bool :=
  1 ≤ g.1 && g.1 < 2 ^ 31 && 1 ≤ g.2.1 && g.2.1 < 2 ^ 16 && 1 ≤ g.2.2 && g.2.2 < 2 ^ 16 &&
  1 ≤ b.1 && b.1 ≤ 1024 && 1 ≤ b.2.1 && b.2.1 ≤ 1024 && 1 ≤ b.2.2 && b.2.2 ≤ 1024 && b.1 * b.2.1 * b.2.2 ≤ 1024

/-- The grids in Millrace (R362). -/
def State.millrace (s : State) : List (Nat × Grid) := s.grids.filter (fun e => e.2.place = .millrace)

/-- A graph joins its job with the first launch that names it; its counter rises with every launch (R28, R360). -/
def State.joinGraph (s : State) (job graph : Nat) : State :=
  match s.graphOf job graph with
  | some _ => { s with graphs := s.graphs.map (fun g => if g.job = job && g.number = graph then { g with left := g.left + 1 } else g) }
  | none => { s with graphs := s.graphs ++ [{ job := job, number := graph, left := 1, closed := false }],
                     jobs := s.jobs.map (fun j => if j.number = job then { j with left := j.left + 1 } else j) }

/-- The grid of a LAUNCH packet. -/
def Pkt.grid (p : Pkt) (n : Nat) (b : Binding) (k : Kern) (rank arrival clock : Nat) : Grid :=
  let f := fun (i lo m : Nat) => (fld (p.w i) lo m).toNat
  let flag := fun (i : Nat) => p.flags / 2 ^ i % 2 = 1
  let gd := (f 2 0 32, f 2 32 16, f 2 48 16)
  { recVa := (p.w 5).toNat, queue := n, tag := p.tag, asn := b.asn, root := b.root, ten := b.ten, job := b.job, graph := f 6 0 16, kern := k, gdim := gd,
    bdim := (f 3 0 11, f 3 11 11, f 3 22 11),
    args := (List.range (f 3 33 5)).map (fun i => if i % 2 = 0 then loOf (p.w (7 + i / 2)) else hiOf (p.w (7 + i / 2))),
    coop := flag 0, pack := flag 1, tick := flag 2, service := flag 3, bounded := flag 4, bound := f 4 0 32,
    ptotal := (if f 4 32 32 = 0 then k.ptotal else f 4 32 32), rank := rank, arrival := arrival,
    release := (if flag 2 then none else some clock), entered := clock, cpu := k.cpuest, left := gd.1 * gd.2.1 * gd.2.2, nextIndex := 0, flushed := [],
    place := .millrace, cancelled := false, trapcode := 0, aborts := 0, anyAbort := false, preempted := false, missed := false,
    dataLoss := false, recFault := none, remote := [], marks := [], visited := [] }

/-- The bytes of an object as service software reads them. -/
def State.objByte (s : State) (root : Nat) (o : Object) (i : Nat) : Byte :=
  match s.xlate none o.asn root false Need.load (o.va + i) with
  | .ok pa _ _ => if s.isOwn pa then memGet s.mem (localOf pa) else Config.freeByte s.fresh i
  | _ => Config.freeByte s.fresh i

/-- SERVICE takes in an object loaded for a service grid, at the first launch of one (R450; notes/assumptions/35.md). -/
def State.measureFor (s : State) (b : Binding) (k : Kern) : State :=
  match s.objects.find? (fun o => o.asn = b.asn && o.va = k.obj) with
  | none => s
  | some o =>
    if o.measured then s
    else
      let digest := Config.sha512 ((List.range o.size).map (s.objByte b.root o))
      let objs := s.objects.map (fun x => if x.asn = o.asn && x.va = o.va then { x with measured := true } else x)
      { s with secure := { s.secure with service := Config.sha512 (s.secure.service ++ digest) }, objects := objs }

/-- The entries of this clock that higher queue threads inserted: one that a lower thread inserts now comes before them (R362). -/
def State.enteredAfter (s : State) (thread : Nat) (g : Grid) : Bool :=
  g.place == .millrace && g.entered = s.clock && thread < g.thread

/-- The arrival number of an insertion by a queue thread now. -/
def State.arrivalFor (s : State) (thread : Nat) : Nat :=
  (((s.grids.filter (fun e => s.enteredAfter thread e.2)).map (fun e => e.2.arrival)).min?).getD s.arrivals

/-- The grid enters Millrace (R362): its rank is computed, its graph and job count it. -/
def State.enterMillrace (s : State) (n : Nat) (q : Queue) (p : Pkt) (b : Binding) (k : Kern) : State :=
  let g0 := { p.grid n b k 0 (s.arrivalFor q.thread) s.clock with thread := q.thread }
  let (rank, bad) := s.rankOf q.rankprog (fld (p.w 6) 32 32).toNat g0.bound g0.left q.prio
  let s : State := { s with grids := s.grids.mapAll (fun _ g =>
    if s.enteredAfter q.thread g then { g with arrival := g.arrival + 1 } else g) }
  let s := s.updQueue n (fun x => { x with rankfault := x.rankfault || bad })
  let s := s.joinGraph b.job g0.graph
  let s := if g0.service then s.measureFor b k else s
  { s with grids := s.grids.put s.nextGrid { g0 with rank := rank }, nextGrid := s.nextGrid + 1, arrivals := s.arrivals + 1,
           fresh := s.fresh + 1 }.endPacket n p.len

/-- Checks 8 and 9 of R357, then the insertion; a full Millrace holds the queue. -/
def State.launchRecord (s : State) (n : Nat) (q : Queue) (p : Pkt) (b : Binding) (k : Kern) : State :=
  let va := (p.w 5).toNat
  match s.cpAccess b q.user Need.store va with
  | .absent => s.cpWait n b Need.store va
  | .refused => s.refusePacket n p.tag p.len 6 refusedWord
  | .fatal => (s.cpFatal b Need.store va).refusePacket n p.tag p.len 6 refusedWord
  | .ok pa al =>
    let s := s.cpWrite pa va al 0 b.job
    let g := p.grid n b k 0 0 0
    if g.coop && !s.coopFits k g.waves g.total b.ten then s.refuseLaunch n q p 2
    else if Config.millraceCap ≤ s.millrace.length then s.holdPacket n .launch
    else s.enterMillrace n q p b k

/-- Checks 1 to 7 of R357, in order. -/
def State.launchPacket (s : State) (n : Nat) (q : Queue) (p : Pkt) : State :=
  if !p.formOk then s.refuseLaunch n q p 1
  else match q.binding with
    | none => s.refuseLaunch n q p 4
    | some b =>
      let desc := (p.w 1).toNat
      let g := fun (i lo m : Nat) => (fld (p.w i) lo m).toNat
      if p.flags / 8 % 2 = 1 && q.user then s.refuseLaunch n q p 3
      else if s.launchClosed b (g 6 0 16) then s.refuseLaunch n q p 7
      else if !dimsOk (g 2 0 32, g 2 32 16, g 2 48 16) (g 3 0 11, g 3 11 11, g 3 22 11) then s.refuseLaunch n q p 2
      else match s.descRead b q.user desc 8 with
        | some (va, .absent) => s.cpWait n b Need.load va
        | some (va, .fatal) => (s.cpFatal b Need.load va).refuseLaunch n q p 6
        | some _ => s.refuseLaunch n q p 6
        | none => match (s.objectAt b.asn desc).bind (fun o => kernOf desc o (s.descWord b q.user desc)) with
          | none => s.refuseLaunch n q p 4
          | some k => s.launchRecord n q p b k

def execLaunch (queue : Nat) (s : State) : Out :=
  match s.packetFor queue 1 (fun p => p == .launch && decide (s.millrace.length < Config.millraceCap)) with
  | some (q, p) => event "LAUNCH" (!s.cpMoving q (p.w 5).toNat) (s.launchPacket queue q p)
  | none => .refused (.notEnabled "LAUNCH")

/-! ### WAIT (R358) -/

/-- The condition of a WAIT of kind memory. -/
def waitCond (c v cmp mask : Nat) : Bool :=
  let a := Nat.land v mask
  let b := Nat.land cmp mask
  match c with
  | 0 => a = b
  | 1 => a ≠ b
  | 2 => b ≤ a
  | _ => a < b

/-- A WAIT whose packet stands at the head: met, not yet met, or its access has an outcome of its own. -/
def State.waitOnce (s : State) (n : Nat) (q : Queue) (p : Pkt) (b : Binding) : State :=
  let met := fun (t : State) (ok : Bool) => if ok then t.endPacket n p.len else t.holdPacket n .wait
  match p.flags % 4 with
  | 2 => met s ((s.jobBound b).isNone || (s.graphOf b.job (fld (p.w 1) 0 16).toNat).elim true (fun g => g.left = 0))
  | 3 => met s ((s.jobBound b).elim true (fun j => j.left = 0))
  | k =>
    let va := (p.w 1).toNat
    match s.cpAccess b q.user Need.load va with
    | .refused => s.refusePacket n p.tag p.len 6 0
    | .absent => s.cpWait n b Need.load va
    | .fatal => (s.cpFatal b Need.load va).refusePacket n p.tag p.len 6 0
    | .ok pa _ =>
      let (v, s) := s.cpRead pa
      met s (if k = 1 then v % 16 ≠ 0 else waitCond (p.flags / 4 % 4) v (p.w 2).toNat (p.w 3).toNat)

def execWait (queue : Nat) (s : State) : Out :=
  match s.packetFor queue 2 (fun _ => false) with
  | some (q, p) => .next (s.checked queue q p (fun b t => t.waitOnce queue q p b))
  | none => .refused (.notEnabled "WAIT")

/-- A held WAIT reads again; the event is that its condition is met. -/
def execWaitSatisfied (queue : Nat) (s : State) : Out :=
  match s.packetFor queue 2 (fun p => p == .wait || p == .met) with
  | some (q, p) =>
    (match q.pending, q.binding with
     | some .met, _ => .next (s.endPacket queue p.len)
     | some _, some b =>
       let t := s.waitOnce queue q p b
       event "WAIT_SATISFIED" ((t.queues.get queue).elim false (fun x => x.pending != some .wait)) t
     | _, _ => .refused (.notEnabled "WAIT_SATISFIED"))
  | none => .refused (.notEnabled "WAIT_SATISFIED")

/-! ### SIGNAL (R358) -/

/-- A grid has not finished. -/
def Grid.ended (g : Grid) : Bool := g.place == GridPlace.done
def State.unfinished (s : State) (g : Nat) : Bool := (s.grids.get g).elim false (fun x => !x.ended)

/-- The unfinished grids that satisfy `p`. -/
def State.liveGrids (s : State) (p : Grid → Bool) : List Nat := s.gridsWhere (fun g => p g && !g.ended)

/-- The grids launched earlier from a queue that have not finished. -/
def State.launchedFrom (s : State) (n : Nat) : List Nat := s.liveGrids (fun g => g.queue = n)

/-- The signal has performed at dom scope; NOTIFY reports the value at the address. -/
def State.signalEnd (s : State) (n : Nat) (p : Pkt) (v : DWord) : State :=
  (if p.flags / 4 % 2 = 1 then s.queueReport n 2 p.tag (p.w 1) v else s).endPacket n p.len

/-- A signal of another module's memory whose markers have been acknowledged; the value that an add left there is not this
module's to state (notes/assumptions/16.md). -/
def State.signalAcked (s : State) (n : Nat) (p : Pkt) : State :=
  let v := if p.flags % 2 = 1 then pairOf (Config.freeWord s.fresh 0) (Config.freeWord s.fresh 1) else p.w 2
  { s with fresh := s.fresh + 1 }.signalEnd n p v

def State.acked (s : State) (tags : List Nat) : Bool := tags.all (fun t => !s.marks.any (fun m => m.1 = t))

/-- The value stands at its home: the signal has performed at dom scope once its line is not held (Table 8-2). -/
def State.signalStored (s : State) (n : Nat) (p : Pkt) (pa : Nat) (v : DWord) : State :=
  if s.lineHeld (lineOf pa) then s.holdPacket n (.held (lineOf pa) v) else s.signalEnd n p v

def State.signalPerform (s : State) (n : Nat) (q : Queue) (p : Pkt) (b : Binding) : State :=
  let va := (p.w 1).toNat
  let add := p.flags % 2 = 1
  let need := if add then Need.rmw else Need.store
  match s.cpAccess b q.user need va with
  | .refused => s.refusePacket n p.tag p.len 6 0
  | .absent => s.cpWait n b need va
  | .fatal => (s.cpFatal b need va).refusePacket n p.tag p.len 6 0
  | .ok pa al =>
    if s.isOwn pa then
      let v := if add then BitVec.ofNat 64 (s.rdNat (localOf pa) 8) + p.w 2 else p.w 2
      (s.cpWrite pa va al v b.job).signalStored n p pa v
    else
      let m := moduleOf pa
      let s := if add then s.fabPut 3 (atopOf 0 8 true) pa (bytesOfNat (p.w 2).toNat 8) (s.cpSent b.job va need)
        else s.cpWrite pa va al (p.w 2) b.job
      let (tags, s) := s.markersTo [m]
      s.holdPacket n (.sent tags)

def execSignal (queue : Nat) (s : State) : Out :=
  match s.packetFor queue 3 (fun p => match p with
      | .signal gs => gs.all (fun g => !s.unfinished g)
      | .sent tags => s.acked tags
      | .held l _ => !s.lineHeld l
      | _ => false) with
  | some (q, p) => (match q.pending with
    | some (.held _ v) => .next (s.signalEnd queue p v)
    | some (.sent _) => .next (s.signalAcked queue p)
    | _ => event "SIGNAL" (!s.cpMoving q (p.w 1).toNat) (s.checked queue q p (fun b t =>
        let gs := t.launchedFrom queue
        if q.pending.isNone && p.flags / 2 % 2 = 1 && !gs.isEmpty then t.holdPacket queue (.signal gs)
        else t.signalPerform queue q p b)))
  | none => .refused (.notEnabled "SIGNAL")

/-! ### CANCEL and CLOSE (R30, R358, R360) -/

/-- A CANCEL on a queue whose job has finished finds nothing of it (R360). -/
def State.cancelPerform (s : State) (n : Nat) (p : Pkt) (b : Binding) : State :=
  if (s.jobBound b).isNone then s.endPacket n p.len else
  let graph := (fld (p.w 1) 0 16).toNat
  let gs : List Nat := match p.flags % 4 with
    | 0 => s.liveGrids (fun g => g.job = b.job && g.recVa = (p.w 1).toNat)
    | 1 => s.liveGrids (fun g => g.job = b.job && g.graph = graph)
    | _ => s.liveGrids (fun g => g.job = b.job)
  let s : State := match p.flags % 4 with
    | 0 => gs.foldl (fun t g => t.cancelGrid g) s
    | 1 => s.cancelGraph b.job graph
    | _ => s.cancelJob b.job
  if gs.any s.unfinished then s.holdPacket n (.cancel gs) else s.endPacket n p.len

def execCancel (queue : Nat) (s : State) : Out :=
  match s.packetFor queue 4 (fun p => match p with
      | .cancel gs => gs.all (fun g => !s.unfinished g)
      | _ => false) with
  | some (q, p) => .next (if q.pending.isSome then s.endPacket queue p.len
      else s.checked queue q p (fun b t => t.cancelPerform queue p b))
  | none => .refused (.notEnabled "CANCEL")

/-- CLOSE; one of a job that has finished has no effect (R360). -/
def State.closePerform (s : State) (n : Nat) (p : Pkt) (b : Binding) : State :=
  if (s.jobBound b).isNone then s.endPacket n p.len
  else ((if p.flags % 4 = 0 then s.closeGraph b.job (fld (p.w 1) 0 16).toNat else s.closeJob b.job).reapJobs).endPacket n p.len

def execClose (queue : Nat) (s : State) : Out :=
  match s.packetFor queue 7 (fun _ => false) with
  | some (q, p) => .next (s.checked queue q p (fun b t => t.closePerform queue p b))
  | none => .refused (.notEnabled "CLOSE")

/-! ### BIND (R360, R441) -/

/-- A tenancy has a grid in Millrace, in the dispatcher, resident or saved. -/
def State.tenBusy (s : State) (ten : Nat) : Bool := s.grids.any (fun e => e.2.ten = ten && !e.2.ended)

/-- Every translation and L1 line of an address space goes (R441, R489). -/
def State.dropAsn (s : State) (asn : Nat) : State :=
  { s with tlb := s.tlb.filter (fun t => t.asn ≠ asn) }.l1DropAll (fun l => l.asn = asn)

def tenAsn (cfg : DWord) : Nat := (fld cfg 32 16).toNat

def State.setTen (s : State) (n : Nat) (cfg root : DWord) : State :=
  { s with dev := { s.dev with tenCfg := s.dev.tenCfg.set n cfg, tenRoot := s.dev.tenRoot.set n root } }

/-- The bindings and grids of a tenancy take its new root and address space, in which they are translated from now on (R430, R441). -/
def State.rebind (s : State) (ten root asn : Nat) : State :=
  { s with
    queues := s.queues.mapAll (fun _ q => { q with binding := q.binding.map (fun b : Binding =>
      if b.ten = ten then { b with root := root, asn := asn } else b) }),
    grids := s.grids.mapAll (fun _ g => if g.ten = ten then { g with root := root, asn := asn } else g) }

def State.bindPerform (s : State) (n : Nat) (p : Pkt) : State :=
  let f := fun (lo m : Nat) => (fld (p.w 2) lo m).toNat
  let asn := f 0 16
  let ten := f 16 4
  let job := f 20 16
  let root := p.w 1 &&& 0xFFFFFFFFFE000#64
  let taken := (List.range 16).any (fun m => m ≠ ten && tenEnabled (s.tenCfg m) && tenAsn (s.tenCfg m) = asn)
  let other := (s.jobOf job).elim false (fun j => j.asn ≠ asn || j.ten ≠ ten)
  if taken || other then s.refusePacket n p.tag p.len 5 0
  else
    let old := s.tenCfg ten
    let s := if tenAsn old = asn then s.dropAsn asn else s
    let cfg := (old &&& ~~~0xFFFF00000000#64) ||| BitVec.ofNat 64 (asn * 2 ^ 32)
    let s := (s.setTen ten cfg root).rebind ten root.toNat asn
    let (serial, s) := match s.jobOf job with
      | some j => (j.serial, s)
      | none =>
        let (id, s) := s.newId
        let j : Job := { number := job, asn := asn, ten := ten, left := 0, closed := false, serial := id }
        (id, { s with jobs := s.jobs ++ [j] })
    let b : Binding := { root := root.toNat, asn := asn, ten := ten, job := job, serial := serial }
    (s.updQueue n (fun q => { q with binding := some b })).endPacket n p.len

def execBind (queue : Nat) (s : State) : Out :=
  match s.packetFor queue 5 (fun p => p == .bind) with
  | some (q, p) =>
    let busy := s.tenBusy (fld (p.w 2) 16 4).toNat
    if q.pending.isSome && busy then .refused (.notEnabled "BIND")
    else .next (if !p.formOk then s.refusePacket queue p.tag p.len 1 0
      else if !q.priv then s.refusePacket queue p.tag p.len 3 0
      else if busy then s.holdPacket queue .bind
      else s.bindPerform queue p)
  | none => .refused (.notEnabled "BIND")

/-! ### TICKALIGN and tick boundaries (R358, R362, R364) -/

def execTickalign (queue : Nat) (s : State) : Out :=
  match s.packetFor queue 6 (fun _ => false) with
  | some (q, p) => .next (s.checked queue q p (fun _ t => t.holdPacket queue (.tickalign (t.tick + p.flags))))
  | none => .refused (.notEnabled "TICKALIGN")

/-- A tick boundary is due: its microsecond count is reached at 1.4 GHz. -/
def State.tickDue (s : State) : Bool := s.startup = 4 && s.lastTick + s.tickSpacing * Config.clocksPerUs ≤ s.clock

/-- A boundary falls: the count rises, TICK grids are released, TICKALIGN packets whose count is reached are performed, and a
written period takes effect for the next spacing. -/
def State.tickFalls (s : State) : State :=
  let at_ := s.lastTick + s.tickSpacing * Config.clocksPerUs
  let s : State :=
    { s with tick := s.tick + 1, lastTick := at_, tickSpacing := s.tickPeriod,
             grids := s.grids.mapAll (fun _ g =>
               if g.place = GridPlace.millrace && g.release.isNone then { g with release := some at_ } else g) }
  s.queues.foldl (fun (t : State) (e : Nat × Queue) => match e.2.pending with
    | some (Pending.tickalign n) => if n ≤ t.tick then t.endPacket e.1 1 else t
    | _ => t) s

def execTickBoundary (s : State) : Out := event "TICK_BOUNDARY" s.tickDue s.tickFalls

/-! ### What a queue thread does by itself -/

/-- A header with a reserved type or an impossible length is refused as soon as the thread reads it (R355, R357); a LAUNCH without a
length names no record, so its report carries the status word. -/
def State.refuseReserved (s : State) : State :=
  s.queues.foldl (fun t e => match t.queues.get e.1 with
    | some q => if q.status ≠ 2 && q.pending.isNone && !t.unmapping e.1 then
        (match t.atHead q with
         | .bad typ tag => t.refusePacket e.1 tag 0 1 (if typ = 1 then refusedWord else 0)
         | _ => t)
      else t
    | none => t) s

end Sys2Proof.Machine
end

