-- ==== Sys2Proof/Machine/Sched.lean ====
section
/-! DEFINITION. Machine/Sched.lean: Millrace and the dispatcher (R362, R363, R366, R367), block retirement (R29, R341, R395) and grid
completion (R28, R31, R359, R365). -/

namespace Sys2Proof.Machine

/-! ### Taking a grid from Millrace (R363, R366) -/

/-- The grids that the dispatcher holds with blocks to place, in the order they left Millrace: at most four (R366). One whose
flushed or saved blocks return while four are held is met again when one of them has nothing left to place. -/
def State.heldGrids (s : State) : List Nat := (s.disp.held.filter (fun g => 0 < s.toPlace g)).take 4
def State.head (s : State) : Option Nat := s.heldGrids.head?

def State.updDisp (s : State) (f : Dispatcher → Dispatcher) : State := { s with disp := f s.disp }

/-- A grid that becomes the head begins to wait, and Weir has not met it (R367, R392). -/
def State.noteHead (s : State) : State :=
  if s.disp.headGrid = s.head then s
  else s.updDisp (fun d => { d with headGrid := s.head, headSince := s.clock, weirDone := none })

/-- The released entry with the lowest rank, then the lowest arrival number. -/
def State.nextFromMillrace (s : State) : Option Nat :=
  ((s.millrace.filter (fun e => e.2.release.elim false (fun r => r ≤ s.clock))).foldl
    (fun (best : Option (Nat × Grid)) e => match best with
      | none => some e
      | some x => if e.2.rank < x.2.rank || (e.2.rank = x.2.rank && e.2.arrival < x.2.arrival) then some e else some x) none).map Prod.fst

def execDispatchTakeGrid (s : State) : Out :=
  if 4 ≤ s.heldGrids.length then .refused (.notEnabled "DISPATCH_TAKE_GRID")
  else match s.nextFromMillrace with
    | none => .refused (.notEnabled "DISPATCH_TAKE_GRID")
    | some g => .next (((s.updGrid g (fun x => { x with place := .dispatcher })).updDisp (fun d => { d with held := d.held ++ [g] })).noteHead)

/-! ### Placement (R366, R367, R400) -/

/-- Reservations of a grid that still wait for their block. -/
def State.waitingReserves (s : State) (g : Nat) : Nat := (s.disp.reserves.filter (fun r => r.grid = g && !r.placed)).length

/-- Reservations end once every assigned block has been placed, or nothing of the grid is left to place (R400). -/
def State.endReserves (s : State) (g : Nat) : State :=
  if s.waitingReserves g = 0 || s.toPlace g = 0 then
    s.updDisp (fun d => { d with reserves := d.reserves.filter (fun r => r.grid ≠ g) })
  else s

/-- The head's block is placed. -/
def State.headPlaced (s : State) : State := (s.updDisp (fun d => { d with headSince := s.clock })).noteHead

/-- The reservation at position `i` has its block. -/
def State.markReserve (s : State) (i blk : Nat) : State :=
  s.updDisp (fun d => { d with reserves := d.reserves.mapIdx (fun j r => if j = i then { r with placed := true, blk := blk } else r) })

/-- The number that a block gets when it is placed. -/
def State.blockNo (s : State) (n : NextBlock) : Nat :=
  match n with
  | .saved i => i.id
  | _ => s.nextBlock

/-- Places the block that a reservation is for on its core, if its resources are free there. -/
def State.placeReserved (s : State) (i : Nat) (r : Reserve) : Option State :=
  match s.grids.get r.grid, s.blockAt r.grid r.index with
  | some gr, some n =>
    if r.placed || !(s.openCores gr.ten).contains r.core || !s.replayRoom n r.core then none
    else (s.fitOn r.core gr.kern gr.waves ((s.reservesOn r.core).erase r)).map (fun row =>
      let t := ((s.placeNext r.grid n r.core row).markReserve i (s.blockNo n)).endReserves r.grid
      if s.head = some r.grid then t.headPlaced else t)
  | _, _ => none

/-- The same for a cooperative grid whose blocks are all assigned: every one is placed, or none, and none while one of the grid is still
being saved (R48, R49). -/
def State.placeReservedAll (s : State) (g : Nat) : Option State :=
  if s.waitingReserves g ≠ s.toPlace g || s.blocks.any (fun e => e.2.grid = g && e.2.mode == .saving) then none
  else ((s.disp.reserves.mapIdx (fun i r => (i, r))).filter (fun e => e.2.grid = g && !e.2.placed)).foldl
    (fun (t : Option State) e => t.bind (fun u => u.placeReserved e.1 e.2)) (some s)

/-- The first reservation that can be used. -/
def State.placeAssigned (s : State) : Option State :=
  (s.disp.reserves.mapIdx (fun i r => (i, r))).findSome? (fun e =>
    if (s.grids.get e.2.grid).elim false (fun g => g.coop) then (if e.2.placed then none else s.placeReservedAll e.2.grid)
    else s.placeReserved e.1 e.2)

/-- Places the next block of a grid, or all remaining blocks of a cooperative one, once none of it is still being saved (R48, R49). -/
def State.placeGrid (s : State) (g : Nat) : Option State :=
  match s.grids.get g with
  | none => none
  | some gr =>
    if gr.coop && s.blocks.any (fun e => e.2.grid = g && e.2.mode == .saving) then none
    else if gr.coop then (s.placeAll g (s.toPlace g)).map (fun t => (t.updDisp (fun d => { d with reserves := d.reserves.filter (fun r => r.grid ≠ g) })))
    else if s.toPlace g ≤ s.waitingReserves g then none
    else (s.placeOne g).map (fun t => t.endReserves g)

/-- A grid whose blocks fit no core, even an empty one, is aborted (R367). -/
def State.neverFits (s : State) (g : Nat) : Bool :=
  (s.grids.get g).elim false (fun x => (fitRow [] x.kern x.waves).isNone)

def State.abortGrid (s : State) (g : Nat) : State :=
  (s.dropImages g).updGrid g (fun x => { x with anyAbort := true, aborts := 1, trapcode := 0, flushed := [], left := 0,
                                                nextIndex := x.total })

def execBlockPlace (s : State) : Out :=
  let s := s.noteHead
  match s.placeAssigned with
  | some t => .next t.noteHead
  | none => match s.head with
    | none => .refused (.notEnabled "BLOCK_PLACE")
    | some g => match s.placeGrid g with
      | some t => .next t.headPlaced
      | none => if s.neverFits g then .next (s.abortGrid g).noteHead else .refused (.notEnabled "BLOCK_PLACE")

/-- When the dispatcher may backfill (R367): the head has waited 4,096 clocks, or is a bounded grid that Weir has met; its
next block does not fit. -/
def State.mayBackfill (s : State) (h : Nat) : Bool :=
  (s.placeGrid h).isNone && s.placeAssigned.isNone &&
  (s.disp.headSince + 4096 ≤ s.clock ||
    ((s.grids.get h).elim false (fun g => g.bounded) && s.disp.weirDone = some h))

/-- A block of the `behind`-th of the next three grids is placed; those before it come first (R367). -/
def execBackfill (behind : Nat) (s : State) : Out :=
  let s := s.noteHead
  match s.head, s.heldGrids[behind]? with
  | some h, some g =>
    if behind = 0 || 3 < behind || !s.mayBackfill h || ((s.heldGrids.take behind).drop 1).any (fun k => (s.placeGrid k).isSome) then .refused (.notEnabled "BACKFILL")
    else match s.placeGrid g with
      | some t => .next t
      | none => .refused (.notEnabled "BACKFILL")
  | _, _ => .refused (.notEnabled "BACKFILL")

/-! ### What a block still waits for (R29, R405) -/

/-- Requests of a block's waves that are not mere hints. -/
def ReqKind.counts : ReqKind → Bool
  | .hint => false
  | .prefetch _ => false
  | .fetch => false
  | _ => true

/-- The lines of this module that waves of a block wrote and whose newest value is held (R29, R174). -/
def State.writesHeld (s : State) (blk : Block) : Bool := blk.waves.any (fun w => w.wrote.any s.lineHeld)

/-- The lines that a block wrote and that are not committed yet. -/
def State.lagLines (s : State) (blk : Block) : List Nat := ((blk.waves.flatMap (fun w => w.wrote)).filter s.lagging).eraseDups

/-- The writes of a block that have not performed, its commands not completed, and its puts in flight. -/
def State.workLeft (s : State) (b : Nat) (blk : Block) : Bool :=
  s.reqs.any (fun e => e.2.blk = b && (e.2.kind.isWrite || e.2.cmd.isSome)) ||
  s.replays.any (fun r => r.blk = b && r.kind.isWrite) ||
  (s.core blk.core).queues.any (fun q => q.any (fun c => c.blk = b)) ||
  blk.accs.any (fun a => !a.queue.isEmpty) || s.puts.any (fun p => p.blk = b) || !blk.tileOps.isEmpty || s.writesHeld blk

/-- What a block that is being saved has written and that has not reached its home (R405): parked accesses and commands not begun go
into the image. -/
def State.savedWritesOut (s : State) (b : Nat) (blk : Block) : Bool :=
  s.reqs.any (fun e => e.2.blk = b && e.2.kind.isWrite) || (s.core blk.core).queues.any (fun q => q.any (fun c => c.blk = b && c.begun))

/-- Flush markers of a block that are not acknowledged. -/
def State.marksOut (s : State) (blk : Block) : Bool := blk.marks.any (fun t => s.marks.any (fun m => m.1 = t))

def Block.remoteLeft (blk : Block) : Bool := blk.waves.any (fun w => !w.remote.isEmpty)

/-- A block whose threads have all exited, or that has ended. -/
def Block.over (b : Block) : Bool :=
  (b.cancelled && b.mode != .saving) || b.aborted.isSome || (b.waves.all Wave.finished && (b.mode == .normal || b.mode == .drain))

/-- A block that has nothing left but remote writes sends a marker down every path of each module it wrote (R29, R249). -/
def State.blockMarkers (s : State) : State :=
  s.blocks.foldl (fun t e =>
    let out := if e.2.mode == .saving then t.savedWritesOut e.1 e.2 else t.workLeft e.1 e.2
    if (e.2.over || e.2.mode == .saving) && e.2.remoteLeft && !out then
      let (tags, t) := (List.range e.2.waves.length).foldl (fun (acc : List Nat × State) w =>
        let (ts, u) := acc.2.sendMarkers e.1 w
        (acc.1 ++ ts, u)) ([], t)
      t.updBlock e.1 (fun x => { x with marks := x.marks ++ tags })
    else t) s

/-- So does a finished grid for the blocks that were flushed. -/
def State.gridMarkers (s : State) : State :=
  s.grids.foldl (fun t e =>
    if e.2.left = 0 && !e.2.remote.isEmpty && !t.reqs.any (fun r => r.2.grid = e.1 && r.2.kind.isWrite) then
      let (tags, t) := t.markersTo e.2.remote
      t.updGrid e.1 (fun g => { g with remote := [], marks := g.marks ++ tags })
    else t) s

/-! ### BLOCK_RETIRE (R29, R30, R341) -/

/-- The code of a deferred fault record that nothing delivered: an accumulator's (R341) or a tile's copy fault (R219, Table 21-8). -/
def Block.faultLeft (b : Block) : Option Nat :=
  if b.accs.any (fun a => a.fault.isSome) then some 0x05 else (b.tiles.findSome? (fun t => t.fault)).map (fun f => f.code)

/-- Instruction-cache locks of a block are released (R206). -/
def State.dropLocks (s : State) (b core : Nat) : State :=
  let free := fun (ls : List LockedLine) =>
    (ls.map (fun l => { l with holders := l.holders.filter (· ≠ b) })).filter (fun l => !l.holders.isEmpty)
  s.updCore core (fun c => { c with locked := free c.locked })

/-- The estimate of R395 with a retired block's sample. -/
def Grid.learn (g : Grid) (clocks prog : Nat) : Grid := { g with cpu := (3 * g.cpu + clocks / max prog 1) / 4 }

/-- A block's resources return to its core; nothing of it is in flight any more. -/
def State.removeBlock (s : State) (b : Nat) (blk : Block) : State :=
  let s := s.dropLocks b blk.core
  { s with blocks := s.blocks.del b, reqs := s.reqs.filter (fun e => !(e.2.blk = b && e.2.kind.counts)),
           replays := s.replays.filter (fun r => r.blk ≠ b) }

def State.retireBlock (s : State) (b : Nat) (blk : Block) : State :=
  let s := s.removeBlock b blk
  let s := { s with dev := { s.dev with granaryFree := s.dev.granaryFree ++ blk.chunks } }
  let normal := !blk.cancelled && blk.aborted.isNone
  s.updGrid blk.grid (fun g =>
    let g := if normal then g.learn (blk.resident + (s.clock - blk.placedAt)) blk.prog else g
    { g with left := g.left - 1, lines := (g.lines ++ s.lagLines blk).eraseDups })

/-- A block with an undelivered fault record aborts instead of retiring; its end follows. -/
def execBlockRetire (blk : Nat) (s : State) : Out :=
  match s.block blk with
  | none => .refused (.notEnabled "BLOCK_RETIRE")
  | some b =>
    if !b.over || s.workLeft blk b || b.remoteLeft || s.marksOut b then .refused (.notEnabled "BLOCK_RETIRE")
    else match (if b.cancelled || b.aborted.isSome then none else b.faultLeft) with
      | some code => .next (s.abortBlock blk code)
      | none => .next (s.retireBlock blk b).noteHead

/-! ### GRID_COMPLETE (R31, R359, R365) -/

/-- Whether a bounded grid has passed its bound. -/
def State.overBound (s : State) (g : Grid) : Bool :=
  g.bounded && g.release.elim false (fun r => g.bound * Config.clocksPerUs < s.clock - r)

/-- The grid status word (Table 2-3). -/
def Grid.status (g : Grid) : DWord :=
  let state := if g.cancelled then 2 else if g.anyAbort then 3 else 1
  BitVec.ofNat 64 (g.trapcode * 2 ^ 24 + g.aborts * 2 ^ 16 + b2n g.preempted * 64 + b2n g.missed * 32 + b2n g.dataLoss * 16 + state)

/-- The grid leaves the machine once its record is settled. -/
def State.forgetGrid (s : State) (g : Nat) : State := { s with grids := s.grids.del g }

/-- The record could not be written: the status word travels to the host. -/
def State.gridLost (s : State) (g : Nat) (gr : Grid) : State :=
  (s.queueReport gr.queue 3 gr.tag (BitVec.ofNat 64 gr.recVa) gr.status).forgetGrid g

/-- The privilege of the queue thread that launched a grid (R351, R359). -/
def Grid.user (g : Grid) : Bool := g.thread < 32

/-- Writes the status word of a finished grid to its completion record. -/
def State.writeRecord (s : State) (g : Nat) : State :=
  match s.grids.get g with
  | none => s
  | some gr0 =>
    let gr := { gr0 with missed := gr0.missed || s.overBound gr0 }
    let s := s.updGrid g (fun _ => { gr with recFault := none })
    let b : Binding := { root := gr.root, asn := gr.asn, ten := gr.ten, job := gr.job }
    match s.cpAccess b gr.user Need.store gr.recVa with
    | .ok pa al => (s.cpWrite pa gr.recVa al gr.status gr.job).forgetGrid g
    | .refused => s.gridLost g gr
    | .fatal => (s.cpFatal b Need.store gr.recVa).gridLost g gr
    | .absent =>
      let (id, s) := s.report 7 noCore gr.asn gr.ten gr.job Need.store.code gr.recVa gr.queue true
      s.updGrid g (fun x => { x with recFault := some id })

/-- The counters of the grid's graph and job fall (R28). -/
def State.leaveGraph (s : State) (job graph : Nat) : State :=
  let fall := fun (g : Graph) => if g.job = job && g.number = graph then { g with left := g.left - 1 } else g
  { s with graphs := s.graphs.map fall }.reapJobs

def State.finishGrid (s : State) (g : Nat) (gr : Grid) : State :=
  let s := s.updDisp (fun d => { d with held := d.held.filter (· ≠ g), reserves := d.reserves.filter (fun r => r.grid ≠ g) })
  let s := (s.updGrid g (fun x => { x with place := .done })).leaveGraph gr.job gr.graph
  (s.writeRecord g).noteHead

/-- The dom-scope close of a grid: what its blocks wrote has performed everywhere (R29). -/
def State.gridClosed (s : State) (n : Nat) (gr : Grid) : Bool :=
  !s.reqs.any (fun r => r.2.grid = n && r.2.kind.isWrite) && gr.remote.isEmpty && !gr.marks.any (fun t => s.marks.any (fun m => m.1 = t)) &&
  gr.lines.all (fun l => !s.lineHeld l)

/-- The write of the record must wait: its page is being moved (R177), or there is no room for its line (R179). -/
def State.recordMoving (s : State) (gr : Grid) : Bool :=
  match s.cpAccess { root := gr.root, asn := gr.asn, ten := gr.ten, job := gr.job } gr.user Need.store gr.recVa with
  | .ok pa _ => s.isOwn pa && s.writeWaits pa
  | _ => false

def execGridComplete (grid : Nat) (s : State) : Out :=
  match s.grids.get grid with
  | none => .refused (.notEnabled "GRID_COMPLETE")
  | some gr =>
    event "GRID_COMPLETE" (gr.place == .dispatcher && gr.left = 0 && s.gridClosed grid gr && !s.recordMoving gr) (s.finishGrid grid gr)

end Sys2Proof.Machine
end

