-- ==== Sys2Proof/Machine/Weir.lean ====
section
/-! DEFINITION. Machine/Weir.lean: pre-emption: Weir's arithmetic and plans (R392 to R400), drain, flush and save (R402 to R410),
the Granary and the image (R411 to R414), resume (R415 to R417). -/

namespace Sys2Proof.Machine

/-! ### Liveness (R62, R409) -/

def allLive : BitVec 256 := BitVec.allOnes 256

/-- A byte that a save reads in a block's address space: none where its page is not present, denied or cannot be translated; one of
another module is not this module's to state (notes/assumptions/16.md). -/
def State.readVa (s : State) (b : Block) (va : Nat) : Option Byte :=
  match s.xlate none b.asn (s.rootOf b) (!b.service) Need.load va with
  | .ok pa _ _ =>
    if s.region pa = .dev then none
    else some (if s.isOwn pa then memGet s.mem (localOf pa) else Config.freeByte s.fresh (2 ^ 64 + va))
  | _ => none

def State.readVas (s : State) (b : Block) (va n : Nat) : Option (List Byte) := (List.range n).mapM (fun i => s.readVa b (va + i))

/-- The control word of the packet at an address, from the instruction cache or from memory. -/
def State.controlAt (s : State) (b : Block) (pc : DWord) : Option DWord :=
  match s.fetch b pc with
  | .packet p => some p.ctl
  | .away pa _ => some (wordOfBytes (if s.isOwn pa then s.rd (localOf pa) 8
      else (List.range 8).map (fun i => Config.freeByte s.fresh (2 ^ 64 + pc.toNat + i))))
  | _ => none

/-- The object whose dictionary the packets at an address name: the one that holds them, be it a routine's (R62, R463). -/
def State.objectOfCode (s : State) (b : Block) (pc : DWord) : Nat :=
  (s.objects.find? (fun o => o.asn = b.asn && o.va ≤ pc.toNat && pc.toNat < o.va + o.size)).elim b.kern.obj (fun o => o.va)

/-- The liveness mask of the packet at which a thread stands, none where the packet or its entry cannot be read. -/
def State.liveMask (s : State) (b : Block) (pc : DWord) : Option (BitVec 256) :=
  (s.controlAt b pc).bind (fun ctl =>
    let ix := (fld ctl 32 16).toNat
    let obj := s.objectOfCode b pc
    if ix = 0xFFFF then some allLive
    else ((s.readVas b (obj + 72) 8).map wordOfBytes).bind (fun d =>
      if (fld d 32 16).toNat ≤ ix then some allLive
      else (s.readVas b (obj + (fld d 0 32).toNat + 32 * ix) 32).map (fun bs => BitVec.ofNat 256 (natOfBytes bs))))

/-- The registers of a thread that a save takes as live: those its mask marks of the declared ones, or every granted one where the
mask cannot be read (R62). -/
def State.liveRegs (s : State) (b : Block) (t : Thread) : List Nat :=
  match s.liveMask b t.pc with
  | some m => (List.range b.kern.vregs).filter (fun r => m.getLsbD r)
  | none => List.range (granule b.kern.vregs)

/-- The counts of live granted registers of every non-exited thread. -/
def State.liveCounts (s : State) (b : Block) : List Nat :=
  b.waves.flatMap (fun w => (w.threads.filter (fun t => t.st != .exited)).map (fun t => (s.liveRegs b t).length))

/-- A block's live bytes (R396). -/
def State.liveBytes (s : State) (b : Block) : Nat := 4 * (s.liveCounts b).sum + 296 * b.touched.length + 65536 * b.kern.accs

/-! ### Image size (Table 16-6, R412, R413) -/

def up8 (n : Nat) : Nat := (n + 7) / 8 * 8

/-- The size of an image with the given variable parts: bytes of section 3, touched rows, replay entries, copy commands,
matrix commands. -/
def Block.imageSize (b : Block) (sec3 touched reps cmds mats : Nat) : Nat :=
  let n := b.waves.length
  ([128, 512 * n, sec3, 4 * granule b.kern.sregs * n, 48 * n, 32 * reps, 32 * b.kern.tiles, 32 * cmds, 64 * mats, 65552 * b.kern.accs,
    192 * b.kern.convs, 16 * (b.kern.bars + 1) + 256 * n, 112, up8 ((b.kern.rowCount + 7) / 8) + 296 * touched].map up8).sum

/-- The chunks that an image takes. -/
def chunksFor (size : Nat) : Nat := if size ≤ 4096 then 1 else 1 + (size - 4096 + 4087) / 4088

/-- The threads of a block that exist (R25). -/
def Block.threadCount (b : Block) : Nat := b.bdim.1 * b.bdim.2.1 * b.bdim.2.2

/-- The chunks of the largest image of a block (R412). -/
def Block.largest (b : Block) : Nat :=
  let t := b.threadCount
  chunksFor (b.imageSize (t * (32 + 4 * granule b.kern.vregs)) b.kern.rowCount (min t 256) 256 (64 * b.kern.accs))

/-! ### Weir's options (R392 to R398) -/

inductive Choice where
  | drain | save | flush
  deriving DecidableEq, Repr

/-- A candidate: the blocks that give way together, the option chosen, its time and waste, the chunks it reserves. -/
structure Victim where
  blocks : List Nat
  choice : Choice
  time : Int
  waste : Nat
  chunks : Nat
  placeNo : Nat
  deriving DecidableEq, Repr

/-- A decision of R46 is still pending: a store parked, or a drain whose rows are not all translated. -/
def State.undecided (s : State) (b : Nat) (blk : Block) : Bool :=
  s.replays.any (fun r => r.blk = b && r.kind.isWrite) ||
  (s.core blk.core).queues.any (fun q => q.any (fun c => c.blk = b && c.undecided))

/-- Whether a block may be flushed (R47). -/
def State.flushable (s : State) (b : Nat) (blk : Block) : Bool := blk.waves.all (fun w => w.idem) && !s.undecided b blk

/-- The option of Table 16-1 with its time and waste, and whether it is legal. -/
structure Option16 where
  choice : Choice
  time : Nat
  waste : Nat
  legal : Bool
  deriving DecidableEq, Repr

/-- The choice of R397: the least waste among the options that fit the budget, else the least time; ties go to drain, then
save, then flush. -/
def pickOption (budget : Int) (os : List Option16) : Option Option16 :=
  let least := fun (key : Option16 → Nat) (xs : List Option16) => xs.foldl (fun (best : Option Option16) o => match best with
    | none => some o
    | some x => if key o < key x then some o else some x) none
  let legal := os.filter Option16.legal
  let fit := legal.filter (fun o => (o.time : Int) ≤ budget)
  if 0 ≤ budget && !fit.isEmpty then least Option16.waste fit else least Option16.time legal

/-- The options of the blocks of a candidate, with `avail` chunks left (R394, R398). -/
def State.options (s : State) (bs : List (Nat × Block)) (avail : Nat) : List Option16 :=
  let cpu := fun (b : Block) => (s.grids.get b.grid).elim 0 (fun g => g.cpu)
  let total := fun (b : Block) => (s.grids.get b.grid).elim 0 (fun g => g.ptotal)
  let drains := bs.map (fun e => (total e.2 - e.2.prog) * cpu e.2)
  let saves := bs.map (fun e => (s.liveBytes e.2 + 127) / 128 + 600)
  let maxOf := fun (xs : List Nat) => xs.foldl max 0
  [⟨.drain, maxOf drains, 0, true⟩,
   ⟨.save, maxOf saves, 2 * saves.sum, decide ((bs.map (fun e => e.2.largest)).sum ≤ avail)⟩,
   ⟨.flush, 400, (bs.map (fun e => e.2.prog * cpu e.2)).sum, bs.all (fun e => s.flushable e.1 e.2)⟩]

/-- Whether a block may be a victim of a grid (R392). -/
def State.victimOk (s : State) (gr : Grid) (cs : List Nat) (b : Block) : Bool :=
  cs.contains b.core && b.ten = gr.ten && (b.mode == .normal || b.mode == .resuming) && !b.draining &&
  (s.grids.get b.grid).elim false (fun g => !g.bounded && !g.service)

/-- The candidates: every victim block by itself, a cooperative grid with all its resident blocks, each of which must be one (R49,
R398). -/
def State.weirGroups (s : State) (gr : Grid) : List (List (Nat × Block)) :=
  let cs := s.coreSet gr.ten
  let coop := fun (b : Block) => (s.grids.get b.grid).elim false (fun g => g.coop)
  let own := s.blocks.filter (fun e => s.victimOk gr cs e.2)
  let grids := ((own.filter (fun e => coop e.2)).map (fun e => e.2.grid)).eraseDups
  (own.filter (fun e => !coop e.2)).map (fun e => [e]) ++
  (grids.map (fun g => s.blocks.filter (fun e => e.2.grid = g))).filter (fun bs => bs.all (fun e => s.victimOk gr cs e.2))

/-- A candidate with the option that R397 takes for it while `avail` chunks are left. -/
def State.victimOf (s : State) (budget : Int) (avail : Nat) (g : List (Nat × Block)) : Option Victim :=
  (pickOption budget (s.options g avail)).map (fun o =>
    { blocks := g.map (fun e => e.1), choice := o.choice, time := o.time, waste := o.waste,
      chunks := if o.choice = .save then (g.map (fun e => e.2.largest)).sum else 0,
      placeNo := (g.map (fun e => e.2.placeNo)).foldl min ((g.head?).elim 0 (fun e => e.2.placeNo)) })

/-! ### The plan (R399) -/

/-- Whether a victim is taken before another: less waste, or placed earlier. -/
def Victim.before (v u : Victim) : Bool := v.waste < u.waste || (v.waste = u.waste && v.placeNo < u.placeNo)

/-- The uses of a core without the blocks `gone`, with `extra` blocks of the incoming grid already assigned. -/
def State.usesWithout (s : State) (core : Nat) (gone : List Nat) (gr : Grid) : Nat → Option (List Use)
  | 0 =>
    let rs := s.reservesOn core
    let away := gone ++ rs.flatMap (fun r => r.victims)
    addReserved s (((s.resident core).filter (fun e => !away.contains e.1)).map (fun e => e.2.use)) rs
  | n + 1 => (s.usesWithout core gone gr n).bind (fun us => (fitRow us gr.kern gr.waves).map (fun r => us ++ [gr.kern.use gr.waves r]))

/-- The shortest list of victims of a core, cheapest first, whose removal lets one more block fit; every save takes its chunks from
those that the next may have (R412). `fuel` bounds the candidates. -/
def State.planOn (s : State) (core : Nat) (gone : List Nat) (gr : Grid) (n : Nat) (budget : Int) (avail : Nat)
    (groups : List (List (Nat × Block))) (taken : List Victim) : Nat → Option (List Victim)
  | 0 => none
  | fuel + 1 =>
    if (s.usesWithout core (gone ++ taken.flatMap Victim.blocks) gr (n + 1)).isSome then some taken
    else
      let left := groups.filter (fun g => !taken.any (fun v => v.blocks = g.map (fun e => e.1)))
      let best := (left.filterMap (s.victimOf budget avail)).foldl (fun (b : Option Victim) v => match b with
        | none => some v
        | some u => if v.before u then some v else some u) none
      match best with
      | none => none
      | some v => s.planOn core gone gr n budget (avail - v.chunks) groups (taken ++ [v]) fuel

/-- What Weir has decided so far: the victims chosen, and each assigned core with its victims' blocks. -/
structure Plan where
  chosen : List Victim
  cores : List (Nat × List Nat)
  deriving DecidableEq, Repr

/-- Assigns one more block to the core of least cost, the lowest one on a tie: also where one core needs no victim and a lower one only
drains, both of cost 0 (DESIGN CHOICE, notes/assumptions/79.md). -/
def State.planOne (s : State) (gr : Grid) (cs : List Nat) (budget : Int) (p : Plan) : Option Plan :=
  let gone := p.chosen.flatMap Victim.blocks
  let groups := (s.weirGroups gr).filter (fun g => g.all (fun e => !gone.contains e.1))
  let avail := s.dev.granaryFree.length - (p.chosen.map Victim.chunks).sum
  let best := cs.foldl (fun (best : Option (Nat × Nat × List Victim)) k =>
    let here := groups.filter (fun g => g.any (fun e => e.2.core = k))
    match s.planOn k gone gr (p.cores.filter (fun e => e.1 = k)).length budget avail here [] (here.length + 1) with
    | none => best
    | some vs =>
      let cost := (vs.map Victim.waste).sum
      match best with
      | none => some (cost, k, vs)
      | some x => if cost < x.1 then some (cost, k, vs) else some x) none
  best.map (fun (x : Nat × Nat × List Victim) =>
    ({ chosen := p.chosen ++ x.2.2, cores := p.cores ++ [(x.2.1, x.2.2.flatMap Victim.blocks)] } : Plan))

def State.planAll (s : State) (gr : Grid) (cs : List Nat) (budget : Int) : Nat → Plan → Plan
  | 0, p => p
  | n + 1, p => match s.planOne gr cs budget p with
    | none => p
    | some q => s.planAll gr cs budget n q

/-! ### Flush (R403) -/

/-- The block goes with everything of it that has not left its core; it restarts from kernel entry later. -/
def State.flushBlock (s : State) (b : Nat) (blk : Block) : State :=
  let stays := fun (r : Req) => r.blk ≠ b || (r.sent && r.kind.isWrite && r.cmd.isNone)
  let s := { s with reqs := s.reqs.filter (fun e => stays e.2), replays := s.replays.filter (fun r => r.blk ≠ b) }
  let s := s.updCore blk.core (fun c => { c with queues := c.queues.map (fun q => q.filter (fun x => x.blk ≠ b)) })
  let s := s.dropLocks b blk.core
  let f : Flushed := { index := blk.index, vcore := blk.vcore }
  let wrote := blk.waves.flatMap (fun w => w.remote)
  { s with blocks := s.blocks.del b }.updGrid blk.grid (fun g =>
    { g with preempted := true, flushed := g.flushed ++ [f], remote := (g.remote ++ wrote).eraseDups,
             lines := (g.lines ++ s.lagLines blk).eraseDups })

/-! ### Save: the commit (R404, R406) -/

/-- Threads WAITING in `shf.take` or `shf.wait` stand before the instruction again (R391). -/
def Wave.withdraw (w : Wave) : Wave :=
  { w with take := [], threads := w.threads.map (fun t => match t.st with
      | .waiting .take => { t.wake with slot := t.slot - 1 }
      | .waiting (.shfWait _) => { t.wake with slot := t.slot - 1 }
      | _ => t) }

/-- The threads of a packet being issued stand before its next slot. -/
def Wave.leaveIssue (w : Wave) : Wave :=
  match w.issue with
  | none => w
  | some i => { w.updLanes i.lanes (fun (t : Thread) => { t with slot := i.slot }) with issue := none }

/-- A fill that has begun stops at its next row boundary and is recorded from row 0; a hint goes. -/
def CopyCmd.forSave (c : CopyCmd) : CopyCmd :=
  match c.kind with
  | .ld => { c with begun := false, row := 0, moved := 0, fault := none, index := [] }
  | .gth => { c with begun := false, row := 0, moved := 0, fault := none, index := [] }
  | _ => c

def CopyCmd.isHint (c : CopyCmd) : Bool :=
  match c.kind with
  | .hint _ _ => true
  | _ => false

def CopyCmd.isFill (c : CopyCmd) : Bool :=
  match c.kind with
  | .ld => true
  | .gth => true
  | _ => false

/-- Steps 1 and 2 of a save, the reservation of its chunks, and the stopping of its fills. -/
def State.saveBegin (s : State) (b : Nat) (blk : Block) : State :=
  let fills := ((s.core blk.core).queues.flatten.filter (fun c => c.blk = b && c.isFill)).map (fun c => c.id)
  let hints := ((s.core blk.core).queues.flatten.filter (fun c => c.blk = b && c.isHint)).map (fun c => c.id)
  let gone := fun (r : Req) => r.blk = b && r.cmd.elim false (fun c => (fills ++ hints).contains c)
  let s := { s with reqs := s.reqs.filter (fun e => !gone e.2) }
  let s := s.updCore blk.core (fun c => { c with queues := c.queues.map (fun q =>
    (q.filter (fun (x : CopyCmd) => !(x.blk = b && x.isHint))).map (fun (x : CopyCmd) => if x.blk = b then x.forSave else x)) })
  let n := blk.largest
  let s := s.updBlock b (fun x => { x with mode := .saving, chunks := s.dev.granaryFree.take n,
                                           waves := x.waves.map (fun w => { w.leaveIssue.withdraw with sleep := none }) })
  let s := { s with dev := { s.dev with granaryFree := s.dev.granaryFree.drop n } }
  let s := (List.range blk.waves.length).foldl (fun t w => t.loseMonitor b w true) s
  s.updGrid blk.grid (fun g => { g with preempted := true })

/-- Commits one victim (R401); a block that still resumes is drained once it runs, and one that ends already, cancelled or aborted, only
ends (DESIGN CHOICE, notes/assumptions/80.md). -/
def State.commitVictim (s : State) (v : Victim) : State :=
  v.blocks.foldl (fun t b => match t.block b with
    | none => t
    | some blk =>
      let t := { t with dev := { t.dev with weirCount := t.dev.weirCount + 1 } }
      match if blk.cancelled || blk.aborted.isSome then .drain else v.choice with
      | .drain => t.updBlock b (fun x => if x.mode == .resuming then { x with draining := true } else { x with mode := .drain })
      | .flush => t.flushBlock b blk
      | .save => t.saveBegin b blk) s

/-! ### WEIR_RUN (R392, R393, R399, R400) -/

def State.weirBudget (s : State) (gr : Grid) : Int :=
  1400 * (gr.bound : Int) - ((s.clock : Int) - gr.release.getD s.clock) - s.dev.weirDispatch

def State.weirDue (s : State) : Option (Nat × Grid) :=
  match s.head with
  | none => none
  | some g => (s.grids.get g).bind (fun gr =>
      if gr.bounded && s.disp.weirDone ≠ some g && (s.placeGrid g).isNone && s.placeAssigned.isNone && !s.neverFits g then some (g, gr)
      else none)

def execWeirRun (s : State) : Out :=
  let s := s.noteHead
  match s.weirDue with
  | none => .refused (.notEnabled "WEIR_RUN")
  | some (g, gr) =>
    let cs := s.openCores gr.ten
    let p := s.planAll gr cs (s.weirBudget gr) (s.toPlace g - s.waitingReserves g) { chosen := [], cores := [] }
    let blocks := if gr.coop then (s.unassigned g (s.toPlace g)).drop (s.waitingReserves g) else s.unassigned g p.cores.length
    let s := s.updDisp (fun d => { d with weirDone := some g, reserves := d.reserves ++ (p.cores.zip blocks).map (fun e =>
      { grid := g, core := e.1.1, victims := e.1.2, placed := false, index := e.2 }) })
    .next (p.chosen.foldl (fun t v => t.commitVictim v) s).noteHead

/-! ### The image (R405 to R410, R413, R414) -/

/-- An accumulator command that a save lets run: `acc.flg`, whose result it waits for (R405). -/
def AccCmd.runsOn (c : AccCmd) : Bool :=
  match c.kind with
  | .flg _ _ _ => true
  | _ => false

/-- What a save still waits for (R405 to R407, R445): among it a drained tile until it is EMPTY; parked lanes and held lines do not hold it. -/
def State.saveWaits (s : State) (b : Nat) (blk : Block) : Bool :=
  s.reqs.any (fun e => e.2.blk = b && (e.2.kind.counts || !e.2.sent)) || blk.waves.any (fun w => !w.sfu.isEmpty) || s.puts.any (fun p => p.blk = b) ||
  (s.core blk.core).queues.any (fun q => q.any (fun c => c.blk = b && c.begun)) || blk.remoteLeft || s.marksOut blk ||
  !blk.collWaits.isEmpty || blk.accs.any (fun a => a.queue.any AccCmd.runsOn) || blk.tileOps.any (fun o => o.goal == .drained)

/-- A thread's registers as the image holds them: the live ones, as they read now (R409). -/
def State.keepLive (s : State) (b : Block) (w : Wave) : Wave :=
  let cells := (w.threads.mapIdx (fun l t => (l, t))).flatMap (fun e =>
    if e.2.st == .exited then [] else (s.liveRegs b e.2).map (fun r => (vkey r e.1, w.v.vec r e.1)))
  { w with v := { w.v with cells := cells.foldl (fun (t : Tbl Word) e => t.put e.1 e.2) [] } }

/-- The window as the image holds it: the touched rows (R410). -/
def Block.keepRows (b : Block) : Block :=
  let bytes := b.touched.flatMap (fun r => (List.range 296).map (fun i => (296 * r + i, b.spadByte (296 * r + i))))
  { b with spad := bytes.foldl (fun (t : Tbl Byte) e => t.put e.1 e.2) [] }

/-- The runs of consecutive locked lines of a block, the 16 lowest (R206). -/
def lockRuns (lines : List Nat) : List (Nat × Nat) :=
  ((lines.foldl (fun (acc : List (Nat × Nat)) v => match acc with
    | (a, n) :: rest => if v = a + n then (a, n + 1) :: rest else (v, 1) :: (a, n) :: rest
    | [] => [(v, 1)]) []).reverse).take 16

/-- Numbers in rising order. -/
def sortNat (xs : List Nat) : List Nat :=
  xs.foldr (fun x acc => acc.filter (· < x) ++ [x] ++ acc.filter (fun y => x ≤ y)) []

def State.locksOf (s : State) (b core : Nat) : List Nat :=
  sortNat (((s.core core).locked.filter (fun l => l.holders.contains b)).map (fun l => l.vline))

/-- The address of a chunk. -/
def State.chunkAddr (s : State) (k : Nat) : Nat := s.dev.granaryBase.toNat + 4096 * k

/-- The header (Table 16-5). -/
def imageHeader (b : Block) (rec_ size chunks seq next : Nat) : List Byte :=
  [chunks * 2 ^ 16 + size * 2 ^ 32,
   b.asn * 2 ^ 16 + b.ten * 2 ^ 32 + b.vdie * 2 ^ 36 + b.vcluster * 2 ^ 40 + b.vcore * 2 ^ 48,
   rec_, b.bid.2.2 + b.bid.2.1 * 2 ^ 16 + b.bid.1 * 2 ^ 32, b.waves.length * 2 ^ 24 + b.prog * 2 ^ 32, seq, next].flatMap
    (fun x => bytesOfNat x 8) ++ List.replicate 72 0

/-- A write into the Granary, charged to the saved block's job whatever owner record its frame has (R412); `fuel` bounds the lines. -/
def State.granaryStore (s : State) (pa : Nat) (bs : List Byte) (job : Nat) : Nat → State
  | 0 => s
  | fuel + 1 =>
    if bs.isEmpty then s
    else
      let n := 128 - pa % 128
      (s.rawWrite pa (bs.take n) .all none job).granaryStore (pa + n) (bs.drop n) job fuel

/-- The chunks written in order: the header or the next-chunk address, then stream bytes that the spec leaves open, then
zeros beyond the stream (R413, R414). The Granary is presented HBM of this module (R185): where GRANARY_BASE names something else, the
module-local bits of it are written (DESIGN CHOICE, notes/assumptions/81.md). -/
def State.writeChunks (s : State) (job size : Nat) (head : List Byte) : List Nat → Nat → State
  | [], _ => s
  | k :: ks, pos =>
    let next := match ks with
      | [] => 0
      | j :: _ => s.chunkAddr j
    let body := fun (n from_ : Nat) => (List.range n).map (fun i => if from_ + i < size then Config.freeByte s.fresh (from_ + i) else 0)
    let bytes := if pos = 0 then head ++ body 3968 128 else bytesOfNat next 8 ++ body 4088 pos
    (s.granaryStore (localOf (s.chunkAddr k)) bytes job (linesFor bytes.length)).writeChunks job size head ks (if pos = 0 then 4096 else pos + 4088)

/-- The image is written, the block's resources return, and the grid holds it as saved. Accesses held in place take no replay entry
(R39), so the image counts none for them (R414). -/
def State.takeImage (s : State) (b : Nat) (blk : Block) : State :=
  let cmds := (s.core blk.core).queues.mapIdx (fun q l => (l.filter (fun c => c.blk = b)).map (fun c => (q, { c with fault := none }))) |>.flatten
  let reps := s.replays.filter (fun r => r.blk = b)
  let mats := (blk.accs.map (fun a => a.queue.length)).sum
  let counts := s.liveCounts blk
  let size := blk.imageSize ((counts.map (fun n => 32 + 4 * n)).sum) blk.touched.length (reps.filter (fun r => !r.inPlace)).length cmds.length mats
  let used := blk.chunks.take (chunksFor size)
  let gridRec := s.recOf blk
  let waves := blk.waves.map (s.keepLive blk)
  let locks := lockRuns (s.locksOf b blk.core)
  let tiles := blk.tiles.mapIdx (fun i t =>
    if cmds.any (fun e => e.2.tile = i && (match e.2.kind with | .st => true | .sct => true | _ => false)) then { t with st := .ready } else t)
  let kept : Block :=
    { blk.keepRows with waves := waves, tiles := tiles, resident := blk.resident + (s.clock - blk.placedAt), chunks := [], marks := [] }
  let img : SavedImage :=
    { blk := kept, id := b, seq := s.saveSeq + 1, size := size, chunks := used, cmds := cmds, replays := reps, lockRuns := locks }
  let next := match used.drop 1 with
    | k :: _ => s.chunkAddr k
    | [] => 0
  let s := s.writeChunks blk.job size (imageHeader kept gridRec size used.length (s.saveSeq + 1) next) used 0
  let s := s.updCore blk.core (fun c => { c with queues := c.queues.map (fun q => q.filter (fun x => x.blk ≠ b)) })
  let s := s.removeBlock b blk
  { s with images := s.images ++ [img], saveSeq := s.saveSeq + 1, fresh := s.fresh + 1,
           dev := { s.dev with granaryFree := s.dev.granaryFree ++ blk.chunks.drop (chunksFor size) } }

def execSaveImageWrite (blk : Nat) (s : State) : Out :=
  match s.block blk with
  | none => .refused (.notEnabled "SAVE_IMAGE_WRITE")
  | some b =>
    if b.mode != .saving || b.aborted.isSome || s.saveWaits blk b then .refused (.notEnabled "SAVE_IMAGE_WRITE")
    -- the image of a block that was cancelled meanwhile is discarded, with the commands that had not begun (R30, R417)
    else if b.cancelled then .next ((s.stopBlock blk).retireBlock blk b).noteHead
    else
      -- a monitor armed by an access that ended meanwhile is discarded too
      let s := (List.range b.waves.length).foldl (fun t w => t.loseMonitor blk w true) s
      match s.block blk with
      | none => .refused (.notEnabled "SAVE_IMAGE_WRITE")
      | some b => .next (s.takeImage blk b).noteHead

/-! ### RESUME_ISSUE (R416, R417) -/

/-- The accesses of the block whose faults were answered while it was saved are performed. -/
def State.replayAcked (s : State) (b : Nat) : State :=
  let mine := s.replays.filter (fun r => r.blk = b && r.acked)
  let ops := (mine.map (fun r => (r.wave, r.op))).eraseDups
  ops.foldl (fun t o => t.replayGroup (mine.filter (fun r => r.wave = o.1 && r.op = o.2))) s

/-- The reissued commands whose flags were busy have completed: the waves issue from their recorded positions, after an open
at dom scope. -/
def execResumeIssue (blk : Nat) (s : State) : Out :=
  match s.block blk with
  | none => .refused (.notEnabled "RESUME_ISSUE")
  | some b =>
    let left := b.waitCmds.any (fun id => (s.core b.core).queues.any (fun q => q.any (fun c => c.id = id)) ||
      b.accs.any (fun a => a.queue.any (fun c => c.id = id)))
    if b.mode != .resuming || b.cancelled || b.aborted.isSome || left then .refused (.notEnabled "RESUME_ISSUE")
    else
      let s := s.updBlock blk (fun x => { x with mode := (if b.draining then .drain else .normal), draining := false, waitCmds := [] })
      .next ((s.openAt b.core 2).replayAcked blk)

end Sys2Proof.Machine
end

