-- ==== Sys2Proof/Machine/Copy.lean ====
section
/-! DEFINITION. Machine/Copy.lean: tile states (R209, R211), the copy queues and the copy engine: rows, their requests, faults and
completion (R213 to R220, R467), and the sending of requests by a core port (R445). -/

namespace Sys2Proof.Machine

/-! ### Tile states (Table 7-7) -/

def State.updTile (s : State) (b n : Nat) (f : Tile → Tile) : State := s.updBlock b (fun x => { x with tiles := updAt x.tiles n f })

/-- A flag of whichever wave of a block an operation belongs to clears. -/
def State.clearFlagAll (s : State) (b op : Nat) : State :=
  s.updBlock b (fun x => { x with waves := x.waves.map (fun w => { w with busy := w.busy.filter (fun e => e.2 ≠ op) }) })

/-- Whether a tile with these operations goes to EMPTY: no reader is left, and a `tile.rel` of a READY tile or a finished
drain waits for that. -/
def Tile.empties (t : Tile) (n : Nat) (ops : List TileOp) : Bool :=
  t.readers = 0 && ops.any (fun o => o.tile = n &&
    ((o.goal == .release && t.st == .ready) || (o.goal == .drained && t.st == .draining)))

/-- An operation that a tile's state now meets. -/
def TileOp.met (o : TileOp) (ts : List Tile) : Bool :=
  match ts[o.tile]? with
  | none => true
  | some t => if o.goal == .ready then t.st == .ready else t.st == .empty

/-- After a change of a tile's state or readers: tiles that were only waiting for their readers become EMPTY, and the flags
of operations whose state is reached clear. -/
def State.settleTiles (s : State) (b : Nat) : State :=
  match s.block b with
  | none => s
  | some blk =>
    let ts := blk.tiles.mapIdx (fun n t => if t.empties n blk.tileOps then { t with st := .empty } else t)
    let (done, left) := blk.tileOps.partition (fun o => o.met ts)
    done.foldl (fun t o => t.clearFlagAll b o.id) (s.updBlock b (fun x => { x with tiles := ts, tileOps := left }))

/-- A tile's state changes. -/
def State.setTile (s : State) (b n : Nat) (st : TileState) : State := (s.updTile b n (fun t => { t with st := st })).settleTiles b

/-- Adds to the reader counts of some tiles. -/
def State.addReaders (s : State) (b : Nat) (ns : List Nat) : State :=
  ns.foldl (fun t n => t.updTile b n (fun x => { x with readers := x.readers + 1 })) s
def State.dropReaders (s : State) (b : Nat) (ns : List Nat) : State :=
  (ns.foldl (fun t n => t.updTile b n (fun x => { x with readers := x.readers - 1 })) s).settleTiles b

/-! ### The queues -/

def State.queueOf (s : State) (core q : Nat) : List CopyCmd := (s.core core).queues.getD q []
def State.updQueueOf (s : State) (core q : Nat) (f : List CopyCmd → List CopyCmd) : State :=
  s.updCore core (fun c => { c with queues := updAt c.queues q f })
def State.updCmd (s : State) (core id : Nat) (f : CopyCmd → CopyCmd) : State :=
  s.updCore core (fun c => { c with queues := c.queues.map (fun q => q.map (fun x => if x.id = id then f x else x)) })
def State.dropCmd (s : State) (core id : Nat) : State :=
  s.updCore core (fun c => { c with queues := c.queues.map (fun q => q.filter (fun x => x.id ≠ id)) })

/-- Whether a command is queued or in flight on a core. -/
def State.cmdLeft (s : State) (core id : Nat) : Bool := (s.cmd core id).isSome

/-- Whether the fences before a command let it begin (R201). -/
def State.fencesMet (s : State) (core : Nat) (c : CopyCmd) : Bool :=
  c.after.all (fun id => !s.cmdLeft core id) && s.writesDone 1 c.afterOps && c.afterLines.all (fun l => !s.lineHeld l)

def CopyCmd.isDrain (c : CopyCmd) : Bool :=
  match c.kind with
  | .st => true
  | .sct => true
  | _ => false
def CopyCmd.isColl (c : CopyCmd) : Bool :=
  match c.kind with
  | .collAr _ _ => true
  | .collBc _ => true
  | _ => false
def CopyCmd.indexed (c : CopyCmd) : Bool :=
  match c.kind with
  | .gth => true
  | .sct => true
  | _ => false

/-- The head of a queue, if it may begin. While its block is being saved it stays queued (R406), unless a `coll.wait` whose
result the save waits for (R405) needs a command on this queue. -/
def State.canBegin (s : State) (core q : Nat) (p : CopyCmd → Bool) : Option (CopyCmd × Block) :=
  match s.queueOf core q with
  | [] => none
  | c :: cs => match s.block c.blk with
    | none => none
    | some b =>
      let needed := b.collWaits.any (fun w => w.cmds.any (fun id => (c :: cs).any (fun y => y.id = id)))
      if p c && !c.begun && (b.mode != .saving || needed) && s.fencesMet core c then some (c, b) else none

/-! ### Rows (R215 to R217) -/

/-- The number that stands for row `i`: its index for a gather or scatter. -/
def CopyCmd.rowNum (c : CopyCmd) (i : Nat) : Int := ((if c.indexed then c.index.getD i 0 else i : Nat) : Int)
def CopyCmd.dataVa (c : CopyCmd) (i : Nat) : Int := c.d + c.rowNum i * c.ds
def CopyCmd.hdrVa (c : CopyCmd) (i : Nat) : Int := c.h + c.rowNum i * c.hs

/-- A stretch of a row in one line: global address, bytes, window offset. -/
structure Piece where
  va : Int
  n : Nat
  off : Nat
  deriving DecidableEq, Repr

/-- A range cut at line boundaries; `fuel` bounds the lines. -/
def piecesOf (va : Int) (n off : Nat) : Nat → List Piece
  | 0 => []
  | fuel + 1 =>
    if n = 0 then []
    else
      let k := min n (128 - va % 128).toNat
      ⟨va, k, off⟩ :: piecesOf (va + k) (n - k) (off + k) fuel

/-- The pieces of row `i`, data before header. -/
def CopyCmd.rowPieces (c : CopyCmd) (t : Tile) (i : Nat) : List Piece :=
  piecesOf (c.dataVa i) (8 * t.len) (t.base + 8 * t.pitch * i) (linesFor (8 * t.len)) ++
  piecesOf (c.hdrVa i) (8 * t.hslots) (t.hbase + 8 * t.hslots * i) (linesFor (8 * t.hslots))

def CopyCmd.need (c : CopyCmd) : Need := if c.isDrain then Need.store else Need.load

/-- What a row meets when its addresses are translated. -/
inductive RowEnd where
  | ok (gs : List (Piece × Nat × DWord × Bool))
  | absent (va : Nat)
  | failed (code : Nat) (va : Int)
  | fatal (va : Nat)
  deriving DecidableEq, Repr

def State.rowXl (s : State) (b : Block) (need : Need) : List Piece → List (Piece × Nat × DWord × Bool) → RowEnd
  | [], acc => .ok acc
  | p :: ps, acc =>
    if !(canonicalInt p.va && canonicalInt (p.va + p.n - 1)) then .failed 0x07 p.va
    else match s.xlateFor b need false p.va.toNat with
      | .ok pa e st => s.rowXl b need ps (acc ++ [(p, pa, e, st)])
      | .absent => .absent p.va.toNat
      | .denied _ => .failed 0x08 p.va
      | .fatal => .fatal p.va.toNat

/-- The requests of a row: one for each line of it (R467). -/
def rowReqs (c : CopyCmd) (b : Block) (i : Nat) (gs : List (Piece × Nat × DWord × Bool)) : List Req :=
  ((gs.map (fun g => lineOf g.2.1)).eraseDups).map (fun line =>
    let mine := gs.filter (fun g => lineOf g.2.1 = line)
    let e : DWord := (mine.head?).elim 0 (fun g => g.2.2.1)
    { op := c.id, grid := b.grid, core := b.core, blk := c.blk, wave := c.wave, cmd := some c.id, ten := b.ten, asn := b.asn,
      job := b.job, user := !leafUser e, kind := (if c.isDrain then .copyWrite else .copyRead),
      vline := lineOf ((mine.head?).elim 0 (fun g => g.1.va.toNat)), line := line, pol := effPolicy (leafPol e) c.pol,
      stable := false, accs := mine.map (fun g => { lane := g.1.off, va := g.1.va.toNat, pa := g.2.1, n := g.1.n, data := [] }),
      dst := .window i, after := [], sent := false, visible := false, remoteTag := none, olds := [], acqScope := 0, rel := 0,
      clobbered := [], replayed := false, l2part := leafPart e })

/-- The row's pages enter the TLB; a drain to a page that is not idempotent-safe clears IDEM (R46, R218). -/
def State.rowPages (s : State) (c : CopyCmd) (b : Block) (gs : List (Piece × Nat × DWord × Bool)) : State :=
  let s := gs.foldl (fun t g => t.tlbFill (clusterOf b.core) b.asn (s.rootOf b) g.1.va.toNat) s
  if c.isDrain && gs.any (fun g => !leafIds g.2.2.1) then s.updWave c.blk c.wave (fun w => { w with idem := false }) else s

/-- Presents the rows from `row` on, in order, up to one whose page is not present or that fails. -/
def State.presentRows (s : State) (core id : Nat) (b : Block) (t : Tile) : List Nat → State
  | [] => s.updCmd core id (fun c => { c with undecided := false })
  | i :: is =>
    match s.cmd core id with
    | none => s
    | some c => match s.rowXl b c.need (c.rowPieces t i) [] with
      | .ok gs =>
        let s := s.rowPages c b gs
        let s := (rowReqs c b i gs).foldl (fun u r => u.present r) s
        (s.updCmd core id (fun x => { x with row := i + 1 })).presentRows core id b t is
      | .absent va =>
        let (f, s) := s.report 2 b.core b.asn b.ten b.job c.need.code va (s.recOf b) true
        s.updCmd core id (fun x => { x with fault := some f })
      | .failed code va =>
        s.updCmd core id (fun x => { x with failed := some ⟨code, BitVec.ofInt 64 va⟩, undecided := false })
      | .fatal va => s.fatalAccess b.core b.asn b.ten b.job c.need.code va (s.recOf b)

/-- Presents what a command has still to present. -/
def State.presentCmd (s : State) (core id : Nat) : State :=
  match s.cmd core id with
  | none => s
  | some c => match s.block c.blk with
    | none => s
    | some b => match b.tiles[c.tile]? with
      | none => s
      | some t => s.presentRows core id b t ((List.range t.rows).drop c.row)

/-- The request of one line of a `cp.hint`: it comes into the L2 under the retain policy (R166). -/
def hintReq (c : CopyCmd) (b : Block) (va pa : Nat) (e : DWord) : Req :=
  { op := c.id, grid := b.grid, core := b.core, blk := c.blk, wave := c.wave, cmd := some c.id, ten := b.ten, asn := b.asn,
    job := b.job, user := false, kind := .hint, vline := lineOf va, line := lineOf pa, pol := effPolicy (leafPol e) 3, stable := false,
    accs := [{ lane := 0, va := va, pa := pa, n := 128, data := [] }], dst := .none, after := [], sent := false, visible := false,
    remoteTag := none, olds := [], acqScope := 0, rel := 0, clobbered := [], replayed := false, l2part := leafPart e }

/-- The lines of a `cp.hint`'s range that can be read are presented; the others are skipped (R220, R512). -/
def State.presentHint (s : State) (c : CopyCmd) (b : Block) (addr len : Nat) : State :=
  let first := addr / 128
  let n := if len = 0 then 0 else (addr + len - 1) / 128 - first + 1
  (List.range n).foldl (fun (t : State) i =>
    let va := 128 * (first + i)
    if !canonicalNat va || (t.block c.blk).elim true (fun x => x.aborted.isSome) then t
    else match t.xlateFor b Need.load false va with
      | .ok pa e _ => t.present (hintReq c b va pa e)
      | .fatal => t.fatalAccess b.core b.asn b.ten b.job Need.load.code va (t.recOf b)
      | _ => t) s

/-- Index `i` of a command's array: as it stands in the window, apart from what lanes wrote after the command was issued (R217). -/
def CopyCmd.indexAt (c : CopyCmd) (b : Block) (i : Nat) : Nat :=
  natOfBytes ((List.range 4).map (fun k => let o := c.idx + 4 * i + k; (c.shadow.get o).getD (b.spadByte o)))

/-- A command begins: a gather or scatter reads its whole index array (R217), and every row is presented. -/
def execCopyBegin (core queue : Nat) (s : State) : Out :=
  match s.canBegin core queue (fun c => !c.isColl) with
  | none => .refused (.notEnabled "COPY_BEGIN")
  | some (c, b) =>
    let rows := (b.tiles[c.tile]?).elim 0 (fun t => t.rows)
    let ix := if c.indexed then (List.range rows).map (c.indexAt b) else []
    let s := s.updCmd core c.id (fun x => { x with begun := true, index := ix })
    match c.kind with
    | .hint addr len => .next (s.presentHint c b addr len)
    | _ => .next (s.presentCmd core c.id)

/-! ### Moving rows -/

/-- The bytes a fill's request brings, each access with its window offset. -/
def State.fillBytes (s : State) (ecc : Ecc) (r : Req) : List (Nat × List Byte) × State :=
  if s.away r.line then (r.accs.map (fun a => (a.lane, (r.olds.find? (fun e => e.1 = a.lane)).elim [] (fun e => e.2))), s)
  else r.accs.foldl (fun (acc : List (Nat × List Byte) × State) a =>
    let (bs, t) := acc.2.eccRead ecc a.pa r.core r.grid r.job (acc.2.rd (localOf a.pa) a.n)
    (acc.1 ++ [(a.lane, bs)], t)) ([], s.l2Read r r.line)

/-- A line that a drain wrote and that is not committed: the copy completes only while it is not held (R218), and later closes of
the block's waves wait for it (R199, R234). -/
def State.noteDrained (s : State) (r : Req) : State :=
  if s.lagging r.line then
    (s.updCmd r.core (r.cmd.getD 0) (fun c => { c with lines := addNew r.line c.lines })).updBlock r.blk
      (fun x => { x with waves := x.waves.map (fun w => { w with seenLines := addNew r.line w.seenLines }) })
  else s

/-- The bytes of a drain's request go to their home and to the core's copy of the line (R218). -/
def State.drainReq (s : State) (ecc : Ecc) (b : Block) (r : Req) : State :=
  let s := r.accs.foldl (fun (t : State) a =>
    let bs := b.spadRead a.lane a.n
    let t := t.l1Store r.core r.line (a.pa % 128) bs
    if t.away r.line then t.fabPut 2 0 a.pa bs (t.sentBy r a.va)
    else (t.eccMerge ecc a.pa r.core r.grid r.job).writeHome r a.pa bs) s
  if s.away r.line then
    let m := moduleOf (128 * r.line)
    s.updBlock r.blk (fun x => { x with waves := x.waves.map (fun w => { w with remote := addNew m w.remote }) })
  else s.noteDrained r

/-- Moves the bytes of one row, all of it in one step (R190); its core has been served for its lines (R349). -/
def State.moveRow (s : State) (ecc : Ecc) (b : Nat) (es : List (Nat × Req)) : State :=
  let s := es.foldl (fun (t : State) e => if t.away e.2.line then t else t.served e.2) s
  let s := { s with reqs := s.reqs.filter (fun e => !es.any (fun f => f.1 = e.1)) }
  es.foldl (fun (t : State) e =>
    match e.2.kind with
    | .copyRead =>
      let (vals, t) := t.fillBytes ecc e.2
      vals.foldl (fun (u : State) v => u.engineWrite b v.1 v.2) t
    | _ => match t.block b with
      | some blk => t.drainReq ecc blk e.2
      | none => t) s

/-- Moves the rows of a command that are ready, in ascending order (R215). -/
def State.moveRows (s : State) (ecc : Ecc) (core id : Nat) : Nat → State
  | 0 => s
  | fuel + 1 =>
    match s.cmd core id with
    | none => s
    | some c =>
      let es := s.rowReqsOf id c.moved
      if s.rowReady c && es.all (fun e => s.lineFree e.2) then
        ((s.moveRow ecc c.blk es).updCmd core id (fun x => { x with moved := x.moved + 1 })).moveRows ecc core id fuel
      else s

/-- A tile has at most 256 rows (Table 7-6). -/
def maxRows : Nat := 256

def State.copyAdvance (s : State) (ecc : Ecc) (core id : Nat) : State := s.moveRows ecc core id maxRows

/-- Every copy under way moves the rows it can. -/
def State.advanceAll (s : State) : State :=
  s.cores.foldl (fun (t : State) e => (e.2.queues.flatten.filter (fun c => c.begun && !c.isColl)).foldl (fun (t : State) c =>
    t.copyAdvance .clean e.1 c.id) t) s

/-! ### COPY_COMPLETE (R215, R219, R220) -/

/-- Whether a command that has begun has nothing left to do. -/
def State.copyOver (s : State) (c : CopyCmd) (rows : Nat) : Bool :=
  match c.kind with
  | .hint _ _ => !s.reqs.any (fun e => e.2.cmd = some c.id)
  | _ => c.fault.isNone && c.moved = c.row && (c.failed.isSome || c.row = rows) && c.lines.all (fun l => !s.lineHeld l)

/-- The command leaves its queue; its tile's state changes and its flag clears. -/
def State.copyFinish (s : State) (core : Nat) (c : CopyCmd) : State :=
  let s := s.dropCmd core c.id
  match c.kind with
  | .hint _ _ => s.clearFlagAll c.blk c.id
  | _ => match c.failed with
    | some f =>
      let s := s.updTile c.blk c.tile (fun t => { t with fault := some f })
      (s.setTile c.blk c.tile (if c.isDrain then .ready else .empty)).clearFlagAll c.blk c.id
    | none =>
      if c.isDrain then
        (s.updBlock c.blk (fun x => { x with tileOps := x.tileOps ++ [⟨c.id, c.wave, c.tile, .drained⟩] })).settleTiles c.blk
      else (s.setTile c.blk c.tile .ready).clearFlagAll c.blk c.id

def execCopyComplete (core queue : Nat) (ecc : Ecc) (s : State) : Out :=
  match s.queueOf core queue with
  | [] => .refused (.notEnabled "COPY_COMPLETE")
  | c0 :: _ =>
    if !c0.begun || c0.isColl then .refused (.notEnabled "COPY_COMPLETE")
    else
      let s := s.copyAdvance ecc core c0.id
      match s.cmd core c0.id with
      | none => .refused (.notEnabled "COPY_COMPLETE")
      | some c =>
        let rows := ((s.block c.blk).bind (fun b => b.tiles[c.tile]?)).elim 0 (fun t => t.rows)
        event "COPY_COMPLETE" (s.copyOver c rows) (s.copyFinish core c)

/-! ### PORT_SEND (R445) -/

/-- A request leaves its core; a copy's row whose requests have all left is moved. -/
def execPortSend (core : Nat) (ecc : Ecc) (s : State) : Out :=
  match (if s.refillDue then none else s.portChoice core) with
  | none => .refused (.notEnabled "PORT_SEND")
  | some (id, r) =>
    let s := { s with reqs := s.reqs.put id { r with sent := true } }
    let s := s.updShare core r.ten (fun h => h.take r.cost)
    let s := s.updCore core (fun c => { c with busyUntil := s.clock + r.cost, lastServed := r.ten })
    let s := s.afterSend id r ecc
    .next (match r.kind, r.cmd with
      | .copyRead, some c => s.copyAdvance ecc core c
      | .copyWrite, some c => s.copyAdvance ecc core c
      | _, _ => s)

end Sys2Proof.Machine
end

