-- ==== Sys2Proof/Machine/Tiles.lean ====
section
/-! DEFINITION. Machine/Tiles.lean: the tile and copy commands as they issue (R207 to R211, R213 to R220). -/

namespace Sys2Proof.Machine

/-! ### A command that names a tile -/

/-- TILE_STATE with a tile or accumulator number (Table 21-1). -/
def Ctx.tileTrap (x : Ctx) (n : Nat) : TrapInfo := x.trap 0x0A 0 (BitVec.ofNat 64 n) x.act true

/-- The delivery of a copy fault (R219). -/
def Ctx.copyFaultTrap (x : Ctx) (n : Nat) (f : CopyFault) : TrapInfo :=
  { x.trap f.code (if f.code = 0x08 then 1 else 2) f.addr x.act true with defer := true, record := .tile n }

/-- What a command that names tile `n` meets first: the declared count, a recorded copy fault, an UNDEFINED tile where the
command does not take one (R208, R210, R219). -/
def Ctx.withTile (x : Ctx) (n : Nat) (undef : Bool) (go : Tile → State → State) (s : State) : State :=
  match x.blk.tiles[n]? with
  | none => x.raise (x.tileTrap n) s
  | some t => match t.fault with
    | some f => x.raise (x.copyFaultTrap n f) s
    | none => if t.st == .undefined && !undef then x.raise (x.tileTrap n) s else go t s

/-- Holds the group until the tile is in a state the command needs (R210). -/
def needState (ok : Bool) (go : State → State) (s : State) : State := if ok then go s else s.hold

/-! ### `tile.def` (R208) -/

/-- The first byte of some rows at or beyond the declared count. -/
def rowsBeyond (spad base pitch len : Nat) : Nat → Nat → Option Nat
  | 0, _ => none
  | n + 1, i =>
    let a := base + pitch * i
    if spad < a + len then some (max a spad) else rowsBeyond spad base pitch len n (i + 1)

/-- The descriptor that the fields and scalar values give. -/
def Ctx.tileDesc (x : Ctx) (f : EFmt) (t : Tile) : Tile :=
  let c := (x.scal f.c.toNat).toNat
  { t with base := (x.scal f.a.toNat).toNat, hbase := (x.scal f.b.toNat).toNat, pitch := c % 4096, len := c / 4096 % 4096,
           rows := c / 2 ^ 24 + 1, width := f.bits 16 14, blk := f.bits 13 12, hslots := f.bits 11 6 }

/-- The limits of Table 7-6. -/
def Tile.limitsOk (t : Tile) : Bool :=
  t.base % 8 = 0 && (t.hslots = 0 || t.hbase % 8 = 0) && 1 ≤ t.pitch && 1 ≤ t.len && t.len ≤ t.pitch && (t.width < 2 || t.hslots = 0)

/-- The first byte of the tile's regions outside the window. -/
def Tile.beyond (t : Tile) (spad : Nat) : Option Nat :=
  match rowsBeyond spad t.base (8 * t.pitch) (8 * t.len) t.rows 0 with
  | some a => some a
  | none => if t.hslots = 0 then none else rowsBeyond spad t.hbase (8 * t.hslots) (8 * t.hslots) t.rows 0

def Ctx.defineTile (x : Ctx) (f : EFmt) (t : Tile) (s : State) : State :=
  let n := f.x.toNat
  let d := x.tileDesc f t
  if !d.limitsOk then x.raise (x.tileTrap n) s
  else match d.beyond x.blk.kern.spad with
    | some a => x.raise (x.trap 0x09 1 (BitVec.ofNat 64 a) x.act true) s
    | none => (s.updTile x.b n (fun _ => { d with st := if t.st == .ready then .ready else .empty })).settleTiles x.b

/-- A tile that `tile.def` may take. -/
def Tile.definable (t : Tile) : Bool := t.st == .undefined || t.st == .empty || (t.st == .ready && t.readers = 0)

def execTileDef (h : Head) (f : EFmt) (s : State) : Out :=
  issueOp "TILE_DEF" h false [.s f.a.toNat 1, .s f.b.toNat 1, .s f.c.toNat 1] (waveOp fun x =>
    x.withTile f.x.toNat true (fun t => needState t.definable (x.defineTile f t))) s

/-! ### `tile.rel`, `tile.wait`, `tile.q` (R209, R211) -/

/-- An operation that completes once a tile reaches its goal; the slot's flag is busy until then. -/
def Ctx.tileOp (x : Ctx) (n : Nat) (g : TileGoal) (s : State) : State :=
  let (id, s) := s.newId
  let s := x.setFlag id s
  (s.updBlock x.b (fun b => { b with tileOps := b.tileOps ++ [⟨id, x.w, n, g⟩] })).settleTiles x.b

def execTileRel (h : Head) (f : EFmt) (s : State) : Out :=
  issueOp "TILE_REL" h false [] (waveOp fun x =>
    x.withTile f.x.toNat false (fun t => needState (t.st == .ready) (x.tileOp f.x.toNat .release))) s

def execTileWait (h : Head) (f : EFmt) (s : State) : Out :=
  issueOp "TILE_WAIT" h false [] (waveOp fun x =>
    x.withTile f.x.toNat false (fun _ => x.tileOp f.x.toNat (if f.n % 2 = 0 then .ready else .empty))) s

/-- The number of a state as `tile.q` reads it. -/
def TileState.code : TileState → Nat
  | .empty => 0
  | .filling => 1
  | .ready => 2
  | .draining => 3
  | .undefined => 0xFF

/-- A scalar result taken now and written by LOAD_RESULT (R58). -/
def Ctx.scalLater (x : Ctx) (d : Nat) (v : Nat) (s : State) : State :=
  let (id, s) := s.newId
  let o : OpInfo := { op := id, kind := .scratch, dst := .scal d, hint := 0, after := [], acqScope := 0, rel := 0, need := Need.load }
  (x.setFlag id s).present (x.readyReq o [{ lane := 0, va := 0, pa := 0, n := 4, data := [] }] [(0, bytesOfNat v 4)])

def execTileQ (h : Head) (f : EFmt) (s : State) : Out :=
  issueOp "TILE_Q" h false [.s f.a.toNat 1] (waveOp fun x =>
    x.withTile f.x.toNat true (fun t => x.scalLater f.a.toNat t.st.code)) s

/-! ### Copy commands (R213 to R220) -/

/-- The fences in force for a queue (R201). -/
def Block.fencesFor (b : Block) (q : Nat) : List Fence := b.fences.filter (fun f => f.mask.getLsbD q)

/-- A command as it issues, with the commands, operations and lines that the fences make it wait for. -/
def Ctx.newCmd (x : Ctx) (id q : Nat) (k : CopyKind) : CopyCmd :=
  let fs := x.blk.fencesFor q
  { id := id, blk := x.b, wave := x.w, kind := k, tile := 0, d := 0, h := 0, ds := 0, hs := 0, idx := 0, pol := 0, group := 0,
    index := [], after := (fs.flatMap Fence.cmds).eraseDups, afterOps := (fs.flatMap Fence.ops).eraseDups, begun := false, row := 0, moved := 0, fault := none, failed := none,
    undecided := false, num := 0, local_ := [], status := 0, afterLines := (fs.flatMap Fence.lines).eraseDups }

/-- Queues a command and sets the slot's flag. -/
def Ctx.enqueue (x : Ctx) (q : Nat) (mk : Nat → CopyCmd) (s : State) : State :=
  let (id, s) := s.newId
  (x.setFlag id s).updQueueOf x.blk.core q (fun l => l ++ [mk id])

/-- Whether a queue has room for one more command (R213). -/
def State.queueRoom (s : State) (core q : Nat) : Bool := (s.queueOf core q).length < Config.copyQueueDepth

/-- A stride, or the packed one where it is zero (R214). -/
def strideOf (v : DWord) (packed : Nat) : Int := if v = 0 then (packed : Int) else v.toInt

/-- The lowest and the highest byte of `rows` rows of `len` bytes are canonical. -/
def spanOk (d ds : Int) (rows len : Nat) : Bool :=
  let last := d + ((rows : Int) - 1) * ds
  canonicalInt (min d last) && canonicalInt (max d last + len - 1)

/-- A copy's operands as read at issue. -/
def Ctx.copyOf (x : Ctx) (f : EFmt) (k : CopyKind) (t : Tile) (id : Nat) : CopyCmd :=
  { x.newCmd id (f.bits 16 15) k with
    tile := f.x.toNat, d := ((x.scalPair f.a.toNat).toNat : Int), h := ((x.scalPair f.b.toNat).toNat : Int),
    ds := strideOf x.blk.dstride (8 * t.len), hs := strideOf x.blk.hstride (8 * t.hslots),
    idx := (x.scal f.c.toNat).toNat, pol := f.bits 14 12 }

/-- The first check at issue that a copy fails (R215, R217): the trap's code, subcode and address. For an index array that leaves the
window the subcode is 0 and the address the first byte outside, and the checks of the array's offset come after those of the strides
(DESIGN CHOICE, notes/assumptions/76.md). -/
def copyCheck (c : CopyCmd) (t : Tile) (spad : Nat) : Option (Nat × Nat × Int) :=
  if c.d % 8 ≠ 0 then some (0x06, 2, c.d)
  else if c.ds % 8 ≠ 0 then some (0x06, 2, c.ds)
  else if t.hslots ≠ 0 && c.h % 2 ≠ 0 then some (0x06, 2, c.h)
  else if t.hslots ≠ 0 && c.hs % 2 ≠ 0 then some (0x06, 2, c.hs)
  else if c.indexed then
    if c.idx % 4 ≠ 0 then some (0x06, 2, (c.idx : Int))
    else if spad < c.idx + 4 * t.rows then some (0x09, 0, (max c.idx spad : Nat))
    else none
  else if !spanOk c.d c.ds t.rows (8 * t.len) then some (0x07, 2, c.d)
  else if t.hslots ≠ 0 && !spanOk c.h c.hs t.rows (8 * t.hslots) then some (0x07, 2, c.h)
  else none

/-- The leaf of a page that the cluster's TLB holds. -/
def State.knownLeaf (s : State) (b : Block) (va : Nat) : Option DWord :=
  (s.tlb.find? (fun t => t.cluster = clusterOf b.core && t.asn = b.asn &&
    t.vpage = (if t.large then va / 67108864 else va / 65536))).map (fun t => t.leaf)

/-- The pages a drain without an index writes. -/
def CopyCmd.targets (c : CopyCmd) (t : Tile) : List Nat :=
  (List.range t.rows).flatMap (fun i => (c.rowPieces t i).map (fun p => p.va.toNat))

/-- The decisions of R46 that can be made at issue. -/
def State.drainIdem (s : State) (x : Ctx) (c : CopyCmd) (t : Tile) : State :=
  if c.isDrain && !c.indexed && (c.targets t).any (fun va => (s.knownLeaf x.blk va).elim false (fun e => !leafIds e)) then
    s.updWave x.b x.w (fun w => { w with idem := false })
  else s

def State.drainPending (s : State) (x : Ctx) (c : CopyCmd) (t : Tile) : Bool :=
  c.isDrain && (c.indexed || (c.targets t).any (fun va => (s.knownLeaf x.blk va).isNone))

/-- Issues a copy once its tile and queue allow. -/
def Ctx.issueCopy (x : Ctx) (f : EFmt) (k : CopyKind) (t : Tile) (s : State) : State :=
  let c := x.copyOf f k t 0
  match copyCheck c t x.blk.kern.spad with
  | some (code, sub, a) => x.raise (x.trap code sub (BitVec.ofInt 64 a) x.act true) s
  | none =>
    let wait := s.drainPending x c t
    let s := s.drainIdem x c t
    (x.enqueue (f.bits 16 15) (fun id => { c with id := id, undecided := wait }) s).updTile x.b f.x.toNat
      (fun y => { y with st := if c.isDrain then .draining else .filling })

/-- A copy command: its tile's state, room on its queue, then its issue. -/
def copyIssue (name : String) (h : Head) (f : EFmt) (k : CopyKind) (st : TileState) (uses : List RegUse) (s : State) : Out :=
  issueOp name h false uses (waveOp fun x =>
    x.withTile f.x.toNat false (fun t => fun s =>
      needState (t.st == st && s.queueRoom x.blk.core (f.bits 16 15)) (x.issueCopy f k t) s)) s

def copyUses (f : EFmt) : List RegUse := [.s f.a.toNat 2, .s f.b.toNat 2]

def execCpLd (h : Head) (f : EFmt) (s : State) : Out := copyIssue "CP_LD" h f .ld .empty (copyUses f) s
def execCpSt (h : Head) (f : EFmt) (s : State) : Out := copyIssue "CP_ST" h f .st .ready (copyUses f) s
def execCpGth (h : Head) (f : EFmt) (s : State) : Out := copyIssue "CP_GTH" h f .gth .empty (copyUses f ++ [.s f.c.toNat 1]) s
def execCpSct (h : Head) (f : EFmt) (s : State) : Out := copyIssue "CP_SCT" h f .sct .ready (copyUses f ++ [.s f.c.toNat 1]) s

/-- The range of a `cp.hint` (R220). -/
def execCpHint (h : Head) (f : EFmt) (s : State) : Out :=
  issueOp "CP_HINT" h false [.s f.a.toNat 2, .s f.b.toNat 1] (waveOp fun x s =>
    let q := f.bits 16 15
    needState (s.queueRoom x.blk.core q) (x.enqueue q (fun id =>
      x.newCmd id q (.hint (x.scalPair f.a.toNat).toNat (x.scal f.b.toNat).toNat))) s) s

/-- The block's strides (R214). -/
def execCpSet (h : Head) (f : EFmt) (s : State) : Out :=
  issueOp "CP_SET" h false [.s f.a.toNat 2] (waveOp fun x s =>
    let v := x.scalPair f.a.toNat
    s.updBlock x.b (fun b => if f.n % 2 = 0 then { b with dstride := v } else { b with hstride := v })) s

end Sys2Proof.Machine
end

