-- ==== Sys2Proof/Machine/Coll.lean ====
section
/-! DEFINITION. Machine/Coll.lean: collective groups and the collective engine of this module (R221 to R227). What the other
members send arrives as COLL packets; node numbers are the model's (notes/assumptions/21.md). -/

namespace Sys2Proof.Machine

/-! ### Groups (Tables 7-9, 7-10) -/

def CollGroup.reset : CollGroup := { cfg := 0, map := List.replicate 16 0, count := 0, inbox := [] }
def State.coll (s : State) (g : Nat) : CollGroup := (s.colls.get g).getD CollGroup.reset
def State.updColl (s : State) (g : Nat) (f : CollGroup → CollGroup) : State := { s with colls := s.colls.put g (f (s.coll g)) }

def collEn (cfg : DWord) : Bool := fld cfg 63 1 == 1
def collTen (cfg : DWord) : Nat := (fld cfg 32 4).toNat
def collRank (cfg : DWord) : Nat := (fld cfg 0 7).toNat
/-- The number of members. -/
def collSize (cfg : DWord) : Nat := (fld cfg 16 7).toNat + 1
/-- The byte of a rank in a map. -/
def mapByte (map : List DWord) (r : Nat) : Nat := (fld (map.getD (r / 8) 0) (8 * (r % 8)) 8).toNat
def CollGroup.size (g : CollGroup) : Nat := collSize g.cfg
def CollGroup.rank (g : CollGroup) : Nat := collRank g.cfg
/-- The module of a rank. -/
def CollGroup.module (g : CollGroup) (r : Nat) : Nat := mapByte g.map r % 128
/-- The other members' modules. -/
def CollGroup.others (g : CollGroup) : List Nat := ((List.range g.size).filter (fun r => r ≠ g.rank)).map g.module

/-! ### The combine of R224 -/

/-- Bytes of an element type. -/
def collBytes (ty : Nat) : Nat := if ty < 3 then 4 else 2
def collFmt (ty : Nat) : Fmt :=
  match ty with
  | 3 => bf16
  | 4 => h16
  | _ => f32

/-- The result of one combine on two elements. -/
def combineElem (op ty a b : Nat) : Nat :=
  let f := collFmt ty
  if ty = 1 || ty = 2 then
    let v := fun x => readBits (ty == 1) 32 x
    match op with
    | 0 => (a + b) % 2 ^ 32
    | 1 => if v b < v a then b else a
    | _ => if v a < v b then b else a
  else match op with
    | 0 => f.round .rne false (Num.add .rne (f.num a) (f.num b))
    | 1 => fltPick false f a b
    | _ => fltPick true f a b

def combineBytes (op ty : Nat) (a b : List Byte) : List Byte :=
  let k := collBytes ty
  (List.range (a.length / k)).flatMap (fun i =>
    bytesOfNat (combineElem op ty (natOfBytes ((a.drop (k * i)).take k)) (natOfBytes ((b.drop (k * i)).take k))) k)

/-- The largest power of two below `n`, for `n` of at least 2. -/
def splitAt (n : Nat) : Nat := 2 ^ ((n - 1).log2)

/-- The node number of ranks `first` .. `first + n - 1`: 2 first for a leaf, an odd number between its halves otherwise. -/
def nodeOf (first n : Nat) : Nat := if n ≤ 1 then 2 * first else 2 * (first + splitAt n) - 1

/-- The tree of R224 over what is known of its nodes; none while something is missing. -/
def treeOf (op ty : Nat) (known : Nat → Option (List Byte)) : Nat → Nat → Nat → Option (List Byte)
  | 0, _, _ => none
  | fuel + 1, first, n =>
    match known (nodeOf first n) with
    | some bs => some bs
    | none =>
      if n ≤ 1 then none
      else
        let h := splitAt n
        match treeOf op ty known fuel first h, treeOf op ty known fuel (first + h) (n - h) with
        | some a, some b => some (combineBytes op ty a b)
        | _, _ => none

/-! ### Issue (R223 to R226) -/

/-- A command that breaks the limits of R223. `coll.bc` has no element type: its elements are bytes (DESIGN CHOICE,
notes/assumptions/60.md). -/
def Ctx.collBad (x : Ctx) (s : State) (f : EFmt) (elem : Nat) (bc : Bool) : Bool :=
  let c := (x.scal f.c.toNat).toNat
  let len := (x.scal f.b.toNat).toNat
  let g := s.coll (c % 65536)
  (x.scalPair f.a.toNat).toNat % 8 ≠ 0 || len < 4 || 4096 < len || len % elem ≠ 0 || 64 ≤ c % 65536 || !collEn g.cfg ||
  collTen g.cfg ≠ x.blk.ten || (bc && g.size ≤ c / 65536)

/-- The status record of a queue gains bits (R227). -/
def State.collNote (s : State) (b q : Nat) (bits : Word) : State :=
  s.updBlock b (fun x => { x with collStatus := updAt x.collStatus q (fun w => w ||| bits) })

/-- Queues a collective; one that breaks a limit completes at once with ARG and does not count among the group's collectives
(DESIGN CHOICE, notes/assumptions/60.md). IDEM clears whatever the guard (R46). -/
def collIssue (name : String) (h : Head) (f : EFmt) (elem : Nat) (bc : Bool) (s : State) : Out :=
  issueOp name h false [.s f.a.toNat 2, .s f.b.toNat 1, .s f.c.toNat 1] (fun x s =>
    waveOp (fun x s =>
      let q := f.bits 16 15
      let c := (x.scal f.c.toNat).toNat
      if x.collBad s f elem bc then s.collNote x.b q 1
      else needState (s.queueRoom x.blk.core q) (fun s =>
        let g := s.coll (c % 65536)
        let k : CopyKind := if bc then .collBc (c / 65536) else .collAr (f.bits 14 13) (f.bits 12 10)
        (x.enqueue q (fun id => { x.newCmd id q k with
          d := ((x.scalPair f.a.toNat).toNat : Int), idx := (x.scal f.b.toNat).toNat, group := c % 65536, num := g.count }) s).updColl
            (c % 65536) (fun y => { y with count := y.count + 1 })) s) x (x.clearIdem s)) s

def execCollAr (h : Head) (f : EFmt) (s : State) : Out := collIssue "COLL_AR" h f (collBytes (f.bits 12 10)) false s
def execCollBc (h : Head) (f : EFmt) (s : State) : Out := collIssue "COLL_BC" h f 1 true s

/-! ### `coll.wait` (R227) -/

/-- Waits whose collectives have all completed take the queue's status record as it stands then, a later collective's ARG
included (DESIGN CHOICE, notes/assumptions/60.md), and clear it; LOAD_RESULT writes it. -/
def State.settleColls (s : State) (b : Nat) : State :=
  match s.block b with
  | none => s
  | some blk =>
    let (done, left) := blk.collWaits.partition (fun w => w.cmds.all (fun id => !s.cmdLeft blk.core id))
    let s := s.updBlock b (fun x => { x with collWaits := left })
    done.foldl (fun (t : State) w =>
      let v : Word := (t.block b).elim 0 (fun x => x.collStatus.getD w.queue 0)
      let t := t.updBlock b (fun x => { x with collStatus := updAt x.collStatus w.queue (fun _ => 0) })
      let r : Req :=
        { op := w.id, grid := blk.grid, core := blk.core, blk := b, wave := w.wave, cmd := none, ten := blk.ten, asn := blk.asn,
          job := blk.job, user := false, kind := .scratch, vline := 0, line := 0, pol := 3, stable := false,
          accs := [{ lane := 0, va := 0, pa := 0, n := 4, data := [] }], dst := .scal w.dst, after := [], sent := true,
          visible := true, remoteTag := none, olds := [(0, bytesOfNat v.toNat 4)], acqScope := 0, rel := 0, clobbered := w.clobbered,
          replayed := false }
      t.present r) s

def execCollWait (h : Head) (f : EFmt) (s : State) : Out :=
  issueOp "COLL_WAIT" h false [.s f.x.toNat 1] (waveOp fun x s =>
    let q := f.bits 16 15
    let mine := ((s.queueOf x.blk.core q).filter (fun c => c.blk = x.b && c.isColl)).map (fun c => c.id)
    let (id, s) := s.newId
    let w : CollWait := { id := id, wave := x.w, queue := q, dst := f.x.toNat, cmds := mine, clobbered := [] }
    ((x.setFlag id s).updBlock x.b (fun b => { b with collWaits := b.collWaits ++ [w] })).settleColls x.b) s

/-! ### The buffer -/

/-- A piece of the buffer in one line: its physical address, and how its accesses use the L2 (R164, R165). -/
structure BufPiece where
  p : Piece
  pa : Nat
  al : Alloc
  deriving DecidableEq, Repr

/-- What the buffer's pages allow: its pieces, a page not present, a refusal, the job's end. -/
inductive BufEnd where
  | ok (ps : List BufPiece)
  | absent (va : Nat)
  | refused
  | fatal (va : Nat)
  deriving DecidableEq, Repr

def State.bufXl (s : State) (b : Block) (need : Need) : List Piece → List BufPiece → BufEnd
  | [], acc => .ok acc
  | p :: ps, acc =>
    if !(canonicalInt p.va && canonicalInt (p.va + p.n - 1)) then .refused
    else match s.xlateFor b need false p.va.toNat with
      | .ok pa e _ => s.bufXl b need ps (acc ++ [⟨p, pa, s.allocIn b.ten (leafPart e) (leafPol e)⟩])
      | .absent => .absent p.va.toNat
      | .denied _ => .refused
      | .fatal => .fatal p.va.toNat

/-- Whether this module is the root of a broadcast. -/
def CollGroup.isRoot (g : CollGroup) (c : CopyCmd) : Bool :=
  match c.kind with
  | .collBc r => r = g.rank
  | _ => false

/-- The accesses a member makes to its buffer: a root reads, another member of a broadcast writes, a reduction does both. -/
def State.collNeed (s : State) (c : CopyCmd) : Need :=
  match c.kind with
  | .collBc _ => if (s.coll c.group).isRoot c then Need.load else Need.store
  | _ => Need.rmw

def State.collBuf (s : State) (c : CopyCmd) (b : Block) : BufEnd :=
  s.bufXl b (s.collNeed c) (piecesOf c.d c.idx 0 (linesFor c.idx)) []

/-- The bytes of the buffer; those of another module's memory are not this module's to state (notes/assumptions/16.md). -/
def State.bufRead (s : State) (ps : List BufPiece) : List Byte :=
  ps.flatMap (fun p => if s.isOwn p.pa then s.rd (localOf p.pa) p.p.n
    else (List.range p.p.n).map (fun i => Config.freeByte s.fresh (p.p.off + i)))

/-- A read of the buffer passes the home slices of its lines. -/
def State.bufPass (s : State) (ps : List BufPiece) : State :=
  ps.foldl (fun (t : State) p => if t.isOwn p.pa then t.l2Access (lineOf (localOf p.pa)) p.al else t) s

/-- Writes the buffer at dev scope, and the core's copies of its lines. -/
def State.bufWrite (s : State) (b : Block) (ps : List BufPiece) (bs : List Byte) : State :=
  ps.foldl (fun (t : State) p =>
    let x := (bs.drop p.p.off).take p.p.n
    let t := t.l1Store b.core (lineOf p.pa) (p.pa % 128) x
    if t.isOwn p.pa then t.homeWrite (localOf p.pa) x p.al none b.job
    else t.fabPut 2 0 p.pa x { core := b.core, asn := b.asn, ten := b.ten, job := b.job, rec_ := t.recOf b, va := p.p.va.toNat }) s

/-- The pieces in this module can be written, one after the other: no page of them is MOVING (R177), and their lines find room (R179). -/
def State.bufRoom (s : State) : List BufPiece → Bool
  | [] => true
  | p :: ps =>
    if s.isOwn p.pa then
      !s.moving (localOf p.pa) && s.roomAt (lineOf (localOf p.pa)) p.al && (s.takeRoom (lineOf (localOf p.pa)) p.al).bufRoom ps
    else s.bufRoom ps

/-! ### COLL_BEGIN, COLL_COMPLETE (R226, R227) -/

/-- The command completes with these status bits. -/
def State.collFinish (s : State) (core q : Nat) (c : CopyCmd) (bits : Word) : State :=
  let s := (s.dropCmd core c.id).collNote c.blk q bits
  let s := s.updColl c.group (fun g => { g with inbox := g.inbox.filter (fun p => p.num ≠ c.num % 256) })
  (s.clearFlagAll c.blk c.id).settleColls c.blk

/-- Fragments of a buffer of 128 bytes each, with their offsets. -/
def fragments (bs : List Byte) : List (Nat × List Byte) :=
  (List.range ((bs.length + 127) / 128)).map (fun i => (128 * i, (bs.drop (128 * i)).take 128))

/-- Sends this member's buffer to the members that need it. -/
def State.collSend (s : State) (c : CopyCmd) (bs : List Byte) : State :=
  let g := s.coll c.group
  let sends : Bool := match c.kind with
    | .collBc _ => g.isRoot c
    | _ => true
  if !sends then s
  else g.others.foldl (fun (t : State) m => (fragments bs).foldl (fun (t : State) e =>
    let (tag, t) := t.newTag
    t.fabSend noCore 8 m tag 0 (m * 2 ^ 45 + c.group + e.1 * 2 ^ 6 + c.num % 256 * 2 ^ 18 + nodeOf g.rank 1 * 2 ^ 26) e.2) t) s

def execCollBegin (core queue : Nat) (s : State) : Out :=
  match s.canBegin core queue (fun c => c.isColl && c.fault.isNone) with
  | none => .refused (.notEnabled "COLL_BEGIN")
  | some (c, b) =>
    match s.collBuf c b with
    | .refused => .next (s.collFinish core queue c 1)
    | .fatal va => .next (s.fatalAccess b.core b.asn b.ten b.job (s.collNeed c).code va (s.recOf b))
    | .absent va =>
      let (f, s) := s.report 2 b.core b.asn b.ten b.job (s.collNeed c).code va (s.recOf b) true
      .next (s.updCmd core c.id (fun x => { x with fault := some f }))
    | .ok ps =>
      let bs := s.bufRead ps
      .next ({ ((s.bufPass ps).updCmd core c.id (fun x => { x with begun := true, local_ := bs })).collSend c bs with fresh := s.fresh + 1 })

/-- What has arrived of a node, when it is whole. -/
def CollGroup.arrived (g : CollGroup) (num node len : Nat) : Option (List Byte) :=
  let parts := g.inbox.filter (fun p => p.num = num % 256 && p.node = node)
  let bs := parts.foldl (fun (d : List (Option Byte)) p => p.data.mapIdx (fun i x => (p.off + i, x)) |>.foldl (fun d e => d.set e.1 (some e.2)) d)
    (List.replicate len none)
  if bs.all (fun x => x.isSome) then some (bs.map (fun x => x.getD 0)) else none

/-- The result of a collective from the members' buffers. -/
def CollGroup.result (g : CollGroup) (c : CopyCmd) : Option (List Byte) :=
  let known := fun (node : Nat) => if node = nodeOf g.rank 1 then some c.local_ else g.arrived c.num node c.idx
  match c.kind with
  | .collBc r => if g.isRoot c then some c.local_ else g.arrived c.num (nodeOf r 1) c.idx
  | .collAr op ty => treeOf op ty known 9 0 g.size
  | _ => none

/-- Whether what has arrived shows that a member disagrees (R227): a fragment that reaches beyond this member's buffer or ends
short of it, or one of a broadcast from a member that this one does not hold for the root. What else would show it travels in no
packet of Table 22-11 (notes/assumptions/21.md). -/
def CollGroup.disagrees (g : CollGroup) (c : CopyCmd) : Bool :=
  g.inbox.any (fun p => p.num = c.num % 256 && (p.data.length ≠ min 128 (c.idx - p.off) || c.idx ≤ p.off ||
    (match c.kind with
     | .collBc r => p.node ≠ nodeOf r 1
     | _ => false)))

/-- What the collective leaves in the buffer: the result, or free bytes after MISMATCH or LOST. -/
def State.collBytesOf (s : State) (c : CopyCmd) (bad : Bool) : Option (List Byte) :=
  if bad then some ((List.range c.idx).map (fun i => Config.freeByte s.fresh i)) else (s.coll c.group).result c

/-- The result stands in the buffer: the collective completes once no line of it is held, nor one that was dirty then and has been written
back meanwhile (R226, Table 8-2). -/
def State.collWritten (s : State) (core q : Nat) (c : CopyCmd) (ps : List BufPiece) (bits : Word) : State :=
  let lines := (ps.map (fun p => lineOf p.pa)).filter s.lagging
  if lines.all (fun l => !s.lineHeld l) then s.collFinish core q c bits
  else s.updCmd core c.id (fun x => { x with row := 1, lines := lines, status := bits })

/-- A fragment of the collective that has reached this module and is not taken in yet. -/
def State.collComing (s : State) (c : CopyCmd) : Bool :=
  s.fabIn.any (fun p => p.typ = 8 && p.addr % 64 = c.group && p.addr / 2 ^ 18 % 256 = c.num % 256)

/-- A collective ends. `mismatch` and `lost` are what the other members' engines report; what arrived may show a mismatch by
itself, and a member that no path reaches is lost (R498). -/
def execCollComplete (core queue : Nat) (mismatch lost : Bool) (s : State) : Out :=
  match s.queueOf core queue with
  | [] => .refused (.notEnabled "COLL_COMPLETE")
  | c :: _ =>
    let g := s.coll c.group
    let lost := lost || g.others.any (fun m => !s.hasRoute m)
    let mismatch := mismatch || g.disagrees c
    if c.row = 1 then event "COLL_COMPLETE" (c.isColl && c.lines.all (fun l => !s.lineHeld l)) (s.collFinish core queue c c.status)
    else match s.block c.blk, s.collBytesOf c (mismatch || lost) with
    | some b, some bs =>
      if !c.begun || !c.isColl || c.fault.isSome || s.collComing c || ((mismatch || lost) && g.others.isEmpty) then .refused (.notEnabled "COLL_COMPLETE")
      else
        let bits : Word := BitVec.ofNat 32 (2 * b2n mismatch + 4 * b2n lost)
        let s := { s with fresh := s.fresh + 1 }
        if g.isRoot c && !(mismatch || lost) then .next (s.collFinish core queue c bits)
        else match s.collBuf c b with
          | .refused => .next (s.collFinish core queue c (bits ||| 1))
          | .fatal va => .next ((s.fatalAccess b.core b.asn b.ten b.job (s.collNeed c).code va (s.recOf b)).collFinish core queue c bits)
          | .absent va =>
            let (f, s) := s.report 2 b.core b.asn b.ten b.job (s.collNeed c).code va (s.recOf b) true
            .next (s.updCmd core c.id (fun x => { x with fault := some f }))
          | .ok ps =>
            event "COLL_COMPLETE" (s.bufRoom ps)
              ((s.bufWrite b ps bs).collWritten core queue c ps bits)
    | _, _ => .refused (.notEnabled "COLL_COMPLETE")

/-! ### FABRIC_COLL (R509) -/

/-- A fragment of a collective of this module's group arrives. -/
def execFabricColl (p : FabPacket) (s : State) : Out :=
  let part : CollPart := { num := p.addr / 2 ^ 18 % 256, node := p.addr / 2 ^ 26 % 256, off := p.addr / 64 % 4096, data := p.data }
  event "FABRIC_COLL" (p.typ = 8 && s.fabIn.contains p)
    ((s.taken p).updColl (p.addr % 64) (fun g => { g with inbox := g.inbox ++ [part] }))

end Sys2Proof.Machine
end

