-- ==== Sys2Proof/Machine/Control.lean ====
section
/-! DEFINITION. Machine/Control.lean: control flow (R36, R94, R114 to R122). -/

namespace Sys2Proof.Machine

def execNop (chain : Bool) (s : State) : Out := issueOp "NOP" ⟨none, chain⟩ false [] (fun _ s => s) s

/-! ### Transfers (R67, R115) -/

/-- The packet's address plus 32 × OFFP, formed exactly (R81). -/
def Ctx.relative (x : Ctx) (f : CFmt) : Int := (x.c.pc.toNat : Int) + 32 * f.offp.toInt

/-- The target that an indirect transfer reads in lane `l`. -/
def Ctx.indirect (x : Ctx) (f : CFmt) (l : Nat) : Int :=
  ((if f.offp = 0 then x.vecPair f.a.toNat l else x.scalPair f.a.toNat).toNat : Int)

/-- The lanes of `m` that fail `p`. -/
def failing (m : Lanes) (p : Nat → Bool) : Lanes := lanesOf (fun l => hasLane m l && !p l)

/-- A transfer of the lanes `m` to `tgt`: both checks of R115, then `also`, then the transfer pends until the packet ends. -/
def Ctx.transfer (x : Ctx) (m : Lanes) (tgt : Nat → Int) (also : State → State) (s : State) : State :=
  let bad := failing m (fun l => canonicalInt (tgt l))
  let odd := failing m (fun l => tgt l % 32 == 0)
  let addr := fun (b : Lanes) => BitVec.ofInt 64 (tgt ((lanesIn b).headD 0))
  if bad != 0 then x.raise (x.trap 0x07 1 (addr bad) bad false) s
  else if odd != 0 then x.raise (x.trap 0x06 1 (addr odd) odd false) s
  else (also s).updWave x.b x.w (fun w =>
    { w with threads := w.threads.mapIdx (fun l t => if hasLane m l then { t with next := some (BitVec.ofInt 64 (tgt l)) } else t) })

/-- Writes the address of the following packet to the link pair of every active lane (R117). -/
def Ctx.link (x : Ctx) (f : CFmt) (s : State) : State := x.vecResult true f.d.toNat (fun _ => x.c.pc + 32) s

def execBr (h : Head) (f : CFmt) (s : State) : Out :=
  issueOp "BR" h false [] (fun x => x.transfer x.act (fun _ => x.relative f) id) s
def execBrx (h : Head) (f : CFmt) (s : State) : Out :=
  issueOp "BRX" h false [targetUse f] (fun x => x.transfer x.act (x.indirect f) id) s
def execCall (h : Head) (f : CFmt) (s : State) : Out :=
  issueOp "CALL" h false [.v f.d.toNat 2] (fun x => x.transfer x.act (fun _ => x.relative f) (x.link f)) s
def execCallx (h : Head) (f : CFmt) (s : State) : Out :=
  issueOp "CALLX" h false [.v f.d.toNat 2, targetUse f] (fun x => x.transfer x.act (x.indirect f) (x.link f)) s
def execRet (h : Head) (f : CFmt) (s : State) : Out :=
  issueOp "RET" h false [targetUse f] (fun x => x.transfer x.act (x.indirect f) id) s

/-- The threads become EXITED once the packet has been performed (R118). -/
def execExit (h : Head) (_f : CFmt) (s : State) : Out :=
  issueOp "EXIT" h false [] (fun x s =>
    s.updWave x.b x.w (fun w => w.updLanes x.act (fun t => { t with exiting := true }))) s

/-- The count falls once per issue, and the active threads branch while it is not zero (R120). -/
def execLoop (h : Head) (f : CFmt) (s : State) : Out :=
  issueOp "LOOP" h false [.s f.a.toNat 1] (waveOp fun x s =>
    let n := x.scal f.a.toNat - 1
    let dec := x.commit [.s f.a.toNat n]
    if n = 0 then dec s else x.transfer x.act (fun _ => x.relative f) dec s) s

/-- Transfers every active lane if the vote holds, none otherwise (R116). -/
def Ctx.branchIf (x : Ctx) (f : CFmt) (vote : Bool) (s : State) : State :=
  if vote then x.transfer x.act (fun _ => x.relative f) id s else s

def execBrany (h : Head) (f : CFmt) (s : State) : Out :=
  issueOp "BRANY" h false [] (fun x => x.branchIf f (x.voteAny f.a.toNat)) s
def execBrall (h : Head) (f : CFmt) (s : State) : Out :=
  issueOp "BRALL" h false [] (fun x => x.branchIf f (x.voteAll f.a.toNat)) s

/-! ### Reconvergence (R36, R119) -/

def execRcv (h : Head) (_f : CFmt) (s : State) : Out :=
  issueOp "RCV" h false [] (fun x => x.makeWait x.act .rcv) s

/-- Whether every non-exited thread waits at an `rcv` with no replay entry held, and one does. -/
def Wave.rcvReady (w : Wave) : Bool :=
  !w.finished && w.threads.all (fun t => t.st == .exited || (t.st == .waiting .rcv && !t.owed))

def execRcvRelease (blk wave : Nat) (s : State) : Out :=
  match s.wave blk wave with
  | none => .refused (.notEnabled "RCV_RELEASE")
  | some w =>
    event "RCV_RELEASE" w.rcvReady (s.resumeLanes blk wave (w.lanesWith (fun t => t.st == .waiting .rcv)))

/-! ### `yield` and `sleep` (R121, R122) -/

/-- The wave's run of consecutive issues ends. -/
def Ctx.endRun (x : Ctx) (s : State) : State := s.updWave x.b x.w (fun w => { w with run := 0 })

def execYield (h : Head) (_f : CFmt) (s : State) : Out := issueOp "YIELD" h false [] (waveOp fun x => x.endRun) s

/-- A sleep until a clock; a longer one of the same packet stands. -/
def Wave.nap (w : Wave) (until_ : Nat) (pc : DWord) : Wave :=
  { w with sleep := some (max until_ (w.sleep.getD 0)), napPc := some pc }

def execSleep (h : Head) (f : CFmt) (s : State) : Out :=
  issueOp "SLEEP" h false [] (waveOp fun x s =>
    if f.offp = 0 then x.endRun s else s.updWave x.b x.w (fun w => w.nap (s.clock + f.offp.toNat) x.c.pc)) s

def execSleepEnd (blk wave : Nat) (s : State) : Out :=
  match (s.wave blk wave).bind (fun w => w.sleep) with
  | none => .refused (.notEnabled "SLEEP_END")
  | some until_ => event "SLEEP_END" (until_ ≤ s.clock) (s.updWave blk wave (fun w => { w with sleep := none, napPc := none }))

end Sys2Proof.Machine
end

