-- ==== Sys2Proof/Machine/Convert.lean ====
section
/-! DEFINITION. Machine/Convert.lean: conversions, block quantising and decoding, packing: 0x80 to 0x91 (R298 to R311). -/

namespace Sys2Proof.Machine

/-! ### Between formats and integers (R298 to R301) -/

/-- The float formats and integers a conversion reads or writes; the pair of a 64-bit integer type is one value. -/
def execCvtFf (h : Head) (f : A3) (s : State) : Out :=
  let row := { (rowFlt [0, 1, 2] true).noB with sat := true, c := .n 2 }
  let src := fmtOf f.c.toNat
  issueOp "CVT_FF" h false (fltUses row f) (fun x => x.vecResult false f.d.toNat (fun l =>
    BitVec.ofNat 64 ((fmtOf f.ty.toNat).round f.rm f.sat (src.num (x.vec f.a.toNat l).toNat)))) s

/-- An integer operand read at the type `ty`. -/
def Ctx.intA (x : Ctx) (ty : BitVec 3) (r l : Nat) : Int := typed ty (x.vecN (wideTy ty) r l)

/-- The low three bits of C name a source type. -/
def srcTy (f : A3) : BitVec 3 := f.c.setWidth 3

def execCvtIf (h : Head) (f : A3) (s : State) : Out :=
  let row := { (rowFlt [0, 1, 2] true).noB with sat := true, c := .n 7, a := if cvtSrcWide f then .v2 else .v }
  issueOp "CVT_IF" h false (fltUses row f) (fun x => x.vecResult false f.d.toNat (fun l =>
    BitVec.ofNat 64 ((fmtOf f.ty.toNat).round f.rm f.sat (.ofInt (x.intA (srcTy f) f.a.toNat l))))) s

/-- A value as an integer of a type, always saturated (R300). -/
def toInt (rm : RM) (ty : BitVec 3) (a : Num) : Int :=
  match a with
  | .nan => 0
  | .inf n => satInt (tySigned ty) (tyBits ty) (if n then -(2 ^ 64 : Int) else 2 ^ 64)
  | .fin n m e =>
    let q := fracOf m e
    let k : Int := roundNat rm n q.1 q.2
    satInt (tySigned ty) (tyBits ty) (if n then -k else k)

def execCvtFi (h : Head) (f : A3) (s : State) : Out :=
  let wide := wideTy f.ty
  let row := { (rowFlt allTys true).noB with d := .vT, c := .n 2 }
  issueOp "CVT_FI" h false (intUses row f) (fun x => x.vecResult wide f.d.toNat (fun l =>
    fitInt true f.ty (toInt f.rm f.ty ((fmtOf f.c.toNat).num (x.vec f.a.toNat l).toNat)))) s

def execCvtIi (h : Head) (f : A3) (s : State) : Out :=
  let wide := wideTy f.ty
  let row := { (rowInt allTys true).noB with c := .n 7, a := if cvtSrcWide f then .v2 else .v }
  issueOp "CVT_II" h false (intUses row f) (fun x => x.vecResult wide f.d.toNat (fun l =>
    fitInt f.sat f.ty (x.intA (srcTy f) f.a.toNat l))) s

/-! ### One element per lane under a header (R302 to R304) -/

/-- The active lanes whose header fails its check. -/
def Ctx.badHeaders (x : Ctx) (hdr : Nat → Nat) : Lanes := failing x.act (fun l => hdrOk (hdr l))

/-- SELECTOR_CHECK with the header of the lowest failing lane and that lane (R304). -/
def Ctx.headerTrap (x : Ctx) (hdr : Nat → Nat) (bad : Lanes) : TrapInfo :=
  let l := (lanesIn bad).headD 0
  x.trap 0x05 0 (BitVec.ofNat 64 (hdr l + 65536 * l)) bad false

/-- A conversion under headers: all of them are checked before any lane is written. -/
def hdrLane (name : String) (h : Head) (row : A3Row) (f : A3) (op : Nat → Nat → Nat) (s : State) : Out :=
  issueOp name h false (fltUses row f) (fun x s =>
    let hdr := fun l => (loOf (x.srcB false f.b 0 l)).toNat % 65536
    let bad := x.badHeaders hdr
    if bad != 0 then x.raise (x.headerTrap hdr bad) s
    else x.vecResult false f.d.toNat (fun l => BitVec.ofNat 64 (op (x.vec f.a.toNat l).toNat (hdr l))) s) s

/-- The code of one value under a header, SAT in bit 8 and INV in bit 9 (R302). -/
def encodeUnder (eight : Bool) (v : Num) (h : Nat) : Nat :=
  let enc := encOf eight (hdrSel h)
  match v with
  | .nan => enc.zeroCode + 512
  | .inf n => if hdrExp h = 255 then enc.zeroCode + 512 else enc.maxCode n + 512
  | v =>
    if hdrExp h = 255 then enc.zeroCode + 512
    else if hdrExp h = 0 then enc.zeroCode + 256 * b2n (!v.isZero)
    else
      let q := v.toFrac
      let sc := (scaleNum (h % 4096)).toFrac
      let n := q.1 * sc.2
      let d := q.2 * sc.1.toNat
      qround enc n d + 256 * b2n (decide (enc.maxMag * d < n.natAbs))

def execCvtE8 (h : Head) (f : A3) (s : State) : Out :=
  hdrLane "CVT_E8" h (rowFlt [0, 1, 2] false).noImm f (fun a hd => encodeUnder true ((fmtOf f.ty.toNat).num a) hd) s
def execCvtE4 (h : Head) (f : A3) (s : State) : Out :=
  hdrLane "CVT_E4" h (rowFlt [0, 1, 2] false).noImm f (fun a hd => encodeUnder false ((fmtOf f.ty.toNat).num a) hd) s
def execDcvtE8 (h : Head) (f : A3) (s : State) : Out :=
  hdrLane "DCVT_E8" h (rowFlt [0, 1, 2] true).noImm f
    (fun a hd => (fmtOf f.ty.toNat).round f.rm false (decodeUnder hd true (a % 256))) s
def execDcvtE4 (h : Head) (f : A3) (s : State) : Out :=
  hdrLane "DCVT_E4" h (rowFlt [0, 1, 2] true).noImm f
    (fun a hd => (fmtOf f.ty.toNat).round f.rm false (decodeUnder hd false (a % 16))) s

/-! ### Whole blocks across the wave (R307 to R309) -/

/-- C of `qblk` and `dqblk`: width, block length. -/
def blkEight (f : A3) : Bool := f.c.getLsbD 4
def blkLen (f : A3) : Nat := 16 * 2 ^ (f.c.toNat / 32 % 4)

/-- The elements held across the 32 lanes of a register, one or two per lane. -/
def Ctx.waveElems (x : Ctx) (ty r : Nat) : List Nat := laneList.flatMap (fun l => elemsOf ty (x.vec r l).toNat)

/-- A list cut into pieces of `n`. -/
def pieces {α : Type} (n : Nat) (xs : List α) : List (List α) :=
  (List.range (xs.length / n)).map (fun i => (xs.drop (n * i)).take n)

def execQblk (h : Head) (f : A3) (s : State) : Out :=
  let ty := f.ty.toNat
  let row := { (rowFlt [0, 3, 4] false).noB with d := .v2, c := .n 127 }
  issueOp "QBLK" h false (fltUses row f) (fun x =>
    let vals := (x.waveElems ty f.a.toNat).map (fmtOf ty).num
    let qs := (pieces (blkLen f) vals).map (quantise (blkEight f) (f.c.toNat % 16))
    let bytes := qs.flatMap (fun q => packCodes (blkEight f) q.codes)
    x.vecResult true f.d.toNat (fun l =>
      let lo := natOfBytes ((bytes.drop (4 * l)).take 4)
      let hi := match qs[l]? with
        | some q => q.header + 65536 * b2n q.sat + 131072 * b2n q.inv
        | none => 0
      BitVec.ofNat 64 (lo + 2 ^ 32 * hi))) s

def execDqblk (h : Head) (f : A3) (s : State) : Out :=
  let ty := f.ty.toNat
  let fm := fmtOf ty
  let row := { (rowFlt [0, 3, 4] true).noImm with bS := none, pp := false, c := .n 127 }
  issueOp "DQBLK" h false (fltUses row f) (waveOp fun x s =>
    let per := if packedTy ty then 2 else 1
    let len := blkLen f
    let hdr := fun i => (loOf (x.srcB false f.b 0 i)).toNat % 65536
    match (List.range (32 * per / len)).find? (fun i => !hdrOk (hdr i)) with
    | some i => x.raise (x.trap 0x05 0 (BitVec.ofNat 64 (hdr i + 65536 * i)) 0 true) s
    | none =>
      let bytes := laneList.flatMap (fun l => bytesOfNat (x.vec f.a.toNat l).toNat 4)
      let size := len * (if blkEight f then 2 else 1) / 2
      let value := fun (e : Nat) =>
        let i := e / len
        fm.round f.rm false (decodeUnder (hdr i) (blkEight f) (codeAt (blkEight f) (bytes.drop (size * i)) (e % len)))
      x.vecResult false f.d.toNat (fun l => joinElems ((List.range per).map (fun k => value (per * l + k)))) s) s

/-! ### Headers (R305, R306) -/

/-- The header that a largest magnitude and one selector give, SAT in bit 16 and INV in bit 17. -/
def headerFor (eight : Bool) (k : Nat) (a : Num) : Nat :=
  match a with
  | .fin _ m e =>
    if m = 0 then 0
    else
      let q := fracOf m e
      let (sc, top) := scaleFor (encOf eight k) q.1 q.2
      hdrMake k sc + 65536 * b2n top
  | _ => 0x0FF0 + 131072

def execQhdr (h : Head) (f : A3) (s : State) : Out :=
  issueOp "QHDR" h false (fltUses { (rowFlt [0] false).noB with c := .n 7 } f) (fun x => x.vecResult false f.d.toNat (fun l =>
    BitVec.ofNat 64 (headerFor (f.c.getLsbD 2) (f.c.toNat % 4) (f32.num (x.vec f.a.toNat l).toNat)))) s

def execHchk (h : Head) (f : A3) (s : State) : Out :=
  issueOp "HCHK" h false (fltUses { (rowFlt [0] false).noB with d := .p } f) (fun x =>
    x.predResult f.d.toNat (fun l => hdrOk ((x.vec f.a.toNat l).toNat % 65536))) s

/-! ### Packing (R310, R311) -/

/-- `a` with its `w`-bit field `n` replaced by the low bits of `b`. -/
def insertCode (w n : Nat) (a b : Nat) : Nat := a - a / 2 ^ (w * n) % 2 ^ w * 2 ^ (w * n) + b % 2 ^ w * 2 ^ (w * n)

def packLane (name : String) (h : Head) (f : A3) (w max : Nat) (s : State) : Out :=
  issueOp name h false (fltUses { rowFlt [0] false with c := .n max } f) (fun x => x.vecResult false f.d.toNat (fun l =>
    BitVec.ofNat 64 (insertCode w f.c.toNat (x.vec f.a.toNat l).toNat (loOf (x.srcB false f.b 0 l)).toNat))) s

def unpackLane (name : String) (h : Head) (f : A3) (w max : Nat) (s : State) : Out :=
  issueOp name h false (fltUses { (rowFlt [0] false).noB with c := .n max } f) (fun x => x.vecResult false f.d.toNat (fun l =>
    BitVec.ofNat 64 ((x.vec f.a.toNat l).toNat / 2 ^ (w * f.c.toNat) % 2 ^ w))) s

def execPack4 (h : Head) (f : A3) (s : State) : Out := packLane "PACK4" h f 4 7 s
def execPack8 (h : Head) (f : A3) (s : State) : Out := packLane "PACK8" h f 8 3 s
def execUnpk4 (h : Head) (f : A3) (s : State) : Out := unpackLane "UNPK4" h f 4 7 s
def execUnpk8 (h : Head) (f : A3) (s : State) : Out := unpackLane "UNPK8" h f 8 3 s

def execFpk2 (h : Head) (f : A3) (s : State) : Out :=
  let fm := fmtOf f.ty.toNat
  issueOp "FPK2" h false (fltUses { rowFlt [3, 4] true with sat := true } f) (fun x => x.vecResult false f.d.toNat (fun l =>
    joinElems [fm.round f.rm f.sat (f32.num (x.vec f.a.toNat l).toNat),
               fm.round f.rm f.sat (f32.num (x.fltB 0 f.b 0 l))])) s

def execFupk2 (h : Head) (f : A3) (s : State) : Out :=
  let fm := fmtOf f.ty.toNat
  issueOp "FUPK2" h false (fltUses { (rowFlt [3, 4] false).noB with c := .n 1 } f) (fun x => x.vecResult false f.d.toNat (fun l =>
    BitVec.ofNat 64 (f32.round .rne false (fm.num ((x.vec f.a.toNat l).toNat / 65536 ^ f.c.toNat % 65536))))) s

end Sys2Proof.Machine
end

