-- ==== Sys2Proof/Machine/Faults.lean ====
section
/-! DEFINITION. Machine/Faults.lean: the fault queue registers (R482) and answers to faults (R417, R481, R484, R485, R359). -/

namespace Sys2Proof.Machine

/-! ### The fault queue registers (Table 21-5) -/

/-- A write of FAULTQ_BASE sets both indices to 0; the address is a multiple of 4,096. -/
def State.faultqBase (s : State) (v : DWord) : State :=
  (s.setFq (fun q => { q with base := v &&& ~~~0xFFF#64, widx := 0, ridx := 0 })).writeFaults

/-- FAULTQ_SIZE takes 6 to 16; held entries are then written. -/
def faultqSizeRefused (v : DWord) : Bool := (loOf v).toNat < 6 || 16 < (loOf v).toNat

def State.faultqSize (s : State) (v : DWord) : State :=
  if faultqSizeRefused v then s else (s.setFq (fun q => { q with size := (loOf v).toNat })).writeFaults

def State.faultqRidx (s : State) (v : DWord) : State := (s.setFq (fun q => { q with ridx := (loOf v).toNat })).writeFaults

def execFaultqBaseWrite (value : DWord) (s : State) : Out := .next (s.faultqBase value)
def execFaultqSizeWrite (value : DWord) (s : State) : Out := .next (s.faultqSize value)
def execFaultqRidxWrite (value : DWord) (s : State) : Out := .next (s.faultqRidx value)

/-! ### Answers (R484, R485) -/

/-- The fault that an ID names, while it is unanswered. -/
def State.openFault (s : State) (id : Nat) : Option FaultRec := s.faultq.recs.find? (fun f => f.open_ && f.id = id)

/-- The fault is answered. -/
def State.answered (s : State) (id : Nat) : State :=
  let close := fun (f : FaultRec) => if f.id = id then { f with open_ := false } else f
  s.setFq (fun q => { q with recs := (q.recs.map close).filter (fun f => f.open_ || !f.written) })

/-- Threads of a core held for a page of an address space attempt their fetches again. -/
def Thread.refetch (asn page : Nat) (b : Block) (t : Thread) : Thread :=
  if b.asn = asn && t.pc.toNat / 65536 = page then { t with fetchHeld := false } else t

def Block.refetch (asn page : Nat) (b : Block) : Block :=
  { b with waves := b.waves.map (fun w => { w with threads := w.threads.map (Thread.refetch asn page b) }) }

def State.refetch (s : State) (core asn page : Nat) : State :=
  { s with blocks := s.blocks.mapAll (fun _ b => if b.core = core then b.refetch asn page else b) }

/-- The copies and collectives that wait for a fault go on. -/
def State.resumeCopies (s : State) (id : Nat) : State :=
  let mine := s.cores.flatMap (fun e => (e.2.queues.flatten.filter (fun c => c.fault = some id)).map (fun c => (e.1, c)))
  mine.foldl (fun t e =>
    let t := t.updCmd e.1 e.2.id (fun c => { c with fault := none })
    if e.2.isColl then t else t.presentCmd e.1 e.2.id) s

/-- The held accesses in an image are performed after the resume (R417). -/
def State.ackImages (s : State) (id : Nat) : State :=
  { s with images := s.images.map (fun i => { i with replays := i.replays.map (fun r => if r.fault = id then { r with acked := true } else r) }) }

/-- The record of a refused LAUNCH has been settled: its report leaves, and a queue that goes on skips the packet (R357, R359). -/
def State.endRefusal (s : State) (n : Nat) (q : Queue) (p : Pkt) (code : Nat) (w2 : DWord) : State :=
  let s := (s.updQueue n (fun x => { x with pending := none })).queueReport n 1 p.tag (BitVec.ofNat 64 (q.ridx * 2 ^ 32 + code)) w2
  if code = 1 || code = 6 then s.settleQueue n else s.endPacket n p.len

/-- The record's page has been answered: the write is tried again, or given up. -/
def State.settleRefusal (s : State) (again : Bool) (n code : Nat) : State :=
  match s.queues.get n with
  | none => s
  | some q => match s.atHead q, q.binding with
    | .packet p, some b =>
      let va := (p.w 5).toNat
      if !again then (s.updQueue n (fun x => { x with lasterr := 6, status := 2 })).endRefusal n q p 6 refusedWord
      else match s.cpAccess b q.user Need.store va with
        | .ok pa al => (s.cpWrite pa va al refusedWord b.job).endRefusal n q p code 0
        | .refused => (s.updQueue n (fun x => { x with lasterr := 6, status := 2 })).endRefusal n q p 6 refusedWord
        | .absent => s.holdRefusal n p.tag code b va
        | .fatal => ((s.cpFatal b Need.store va).updQueue n (fun x => { x with lasterr := 6, status := 2 })).endRefusal n q p 6 refusedWord
    | _, _ => s

/-- The refused launches that wait for a fault, each with its code. -/
def State.refusals (s : State) (id : Nat) : List (Nat × Nat) :=
  s.queues.filterMap (fun e => match e.2.pending with
    | some (.refusing code f) => if f = id then some (e.1, code) else none
    | _ => none)

/-- An access of the command processor is performed again (R359); a LAUNCH that waits is performed again from its first check
(DESIGN CHOICE, notes/assumptions/77.md). -/
def State.retryCp (s : State) (id : Nat) : State :=
  let rs := s.refusals id
  let qs := (s.queues.filter (fun e => e.2.pending = some (.fault id))).map Prod.fst
  let s := rs.foldl (fun t r => t.settleRefusal true r.1 r.2) s
  let s := qs.foldl (fun t n => (t.updQueue n (fun q => { q with pending := some .retry })).settleQueue n) s
  (s.gridsWhere (fun g => g.recFault = some id)).foldl (fun t g => t.writeRecord g) s

/-- Threads held at a `brk` go on after it (R481), those of a saved block from its image. -/
def State.resumeBreak (s : State) (id : Nat) : State :=
  let free := fun (t : Thread) => if t.st == .waiting (.brk id) then t.resume else t
  let s : State := { s with images := s.images.map (fun i =>
    { i with blk := { i.blk with waves := i.blk.waves.map (fun w => { w with threads := w.threads.map free }) } }) }
  s.blocks.foldl (fun t e => (List.range e.2.waves.length).foldl (fun t w =>
    match t.wave e.1 w with
    | none => t
    | some v =>
      let m := v.lanesWith (fun x => x.st == .waiting (.brk id))
      if m = 0 then t else t.resumeLanes e.1 w m) t) s

/-- Blocks with accesses held for faults 1 to 3 that were answered while being saved do not replay until they resume: a block
that is being saved keeps its entries (R417). -/
def State.ackSaving (s : State) (id : Nat) : State :=
  let saving := fun (b : Nat) => (s.block b).elim false (fun x => x.mode == .saving || x.mode == .resuming)
  { s with replays := s.replays.map (fun r => if r.fault = id && saving r.blk then { r with acked := true, fault := 2 ^ 32 } else r) }

/-- An answer of RETRY. -/
def State.faultRetry (s : State) (f : FaultRec) : State :=
  let s := s.answered f.id
  if f.kind ≤ 3 then ((((s.ackSaving f.id).replayFault f.id).resumeCopies f.id).refetch f.core f.asn (f.addr / 65536)).ackImages f.id
  else if f.kind = 4 then s.retryHeld
  else if f.kind = 6 then s.resumeBreak f.id
  else if f.kind = 7 then s.retryCp f.id
  else s

def execFaultAckRetry (fault : Nat) (s : State) : Out :=
  .next (match s.openFault fault with
    | some f => s.faultRetry f
    | none => s)

/-- FATAL to an access of the command processor (R359): the packet is refused and its queue stops; a launch whose record
was to be written says so in its report; a grid's record is lost. -/
def State.fatalCp (s : State) (f : FaultRec) : State :=
  let rs := s.refusals f.id
  let qs := (s.queues.filter (fun e => e.2.pending = some (.fault f.id))).map Prod.fst
  let s := rs.foldl (fun t r => t.settleRefusal false r.1 r.2) s
  let s := qs.foldl (fun t n =>
    let t := t.updQueue n (fun q => { q with pending := none })
    match t.queues.get n with
    | none => t
    | some q => match t.atHead q with
      | .packet p =>
        if p.typ ≠ 1 then t.refusePacket n p.tag p.len 6 0
        else if (p.w 5).toNat = f.addr then t.refusePacket n p.tag p.len 6 refusedWord
        else t.refuseLaunch n q p 6
      | _ => t) s
  (s.gridsWhere (fun g => g.recFault = some f.id)).foldl (fun t g => match t.grids.get g with
    | some gr => t.gridLost g gr
    | none => t) s

def Block.heldAtBreak (b : Block) (id : Nat) : Bool := b.waves.any (fun w => w.threads.any (fun t => t.st == .waiting (.brk id)))

/-- A saved block aborts: its image is discarded, its Sheaf bits clear, and its grid counts it (R478, R412, R391). -/
def State.abortImage (s : State) (code : Nat) (i : SavedImage) : State :=
  let s : State := { s.dropImageBits i.blk with
    images := s.images.filter (fun x => x.id ≠ i.id), dev := { s.dev with granaryFree := s.dev.granaryFree ++ i.chunks } }
  s.updGrid i.blk.grid (fun g => { g with trapcode := (if g.anyAbort then g.trapcode else code), anyAbort := true,
                                          aborts := min 255 (g.aborts + 1), left := g.left - 1 })

/-- FATAL to a held `brk`: its blocks abort with BREAK (R481). -/
def State.fatalBreak (s : State) (id : Nat) : State :=
  let s := (s.images.filter (fun i => i.blk.heldAtBreak id)).foldl (fun t i => t.abortImage 0x0E i) s
  (s.blocks.filter (fun e => e.2.heldAtBreak id)).foldl (fun t e => t.abortBlock e.1 0x0E) s

/-- An answer of FATAL. -/
def State.faultFatal (s : State) (f : FaultRec) : State :=
  let s := s.answered f.id
  if f.kind ≤ 3 || f.kind = 5 then s.endJob f.job 0x0C
  else if f.kind = 4 then s.endJob f.job 0x0B
  else if f.kind = 6 then s.fatalBreak f.id
  else s.fatalCp f

def execFaultAckFatal (fault : Nat) (s : State) : Out :=
  .next (match s.openFault fault with
    | some f => s.faultFatal f
    | none => s)

/-- A write of FAULT_ACK. -/
def State.faultAck (s : State) (v : DWord) : State :=
  match s.openFault (fld v 0 32).toNat with
  | none => s
  | some f =>
    if fld v 34 30 != 0 then s
    else match (fld v 32 2).toNat with
      | 0 => s.faultRetry f
      | 1 => s.faultFatal f
      | _ => s

end Sys2Proof.Machine
end

