-- ==== Sys2Proof/Machine/Device.lean ====
section
/-! DEFINITION. Machine/Device.lean: the registers of device register space (R504, R505, R512, Table 22-7): what each reads as and
what a write of it does. -/

namespace Sys2Proof.Machine

def State.setDev (s : State) (f : Dev → Dev) : State := { s with dev := f s.dev }

/-! ### Tenancies (R439, R466) -/

/-- The fields of TEN_CFGn that a write sets; ASN is BIND's. -/
def tenMask : DWord := 0x87FF0000FFFF0000#64

/-- The quotas of the enabled tenancies with one register changed. -/
def State.quotaSum (s : State) (n : Nat) (cfg : DWord) : Nat :=
  ((List.range 16).map (fun m => let c := if m = n then cfg else s.tenCfg m; if tenEnabled c then tenQuota c else 0)).sum

/-- At every port a tenancy that becomes enabled starts with no tokens (R466). -/
def State.zeroShares (s : State) (n : Nat) : State :=
  { s with cores := s.cores.mapAll (fun _ c => { c with shares := c.shares.upd n (fun h => { h with b := 0, e := 0 }) }) }

/-- The value a write would give TEN_CFGn, and what refuses it (R439). -/
def State.tenCfgNew (s : State) (n : Nat) (v : DWord) : DWord := (v &&& tenMask) ||| (s.tenCfg n &&& 0x0000FFFF00000000#64)
def State.tenCfgRefused (s : State) (n : Nat) (v : DWord) : Bool :=
  let new := s.tenCfgNew n v
  1024 < tenQuota new || 1024 < s.quotaSum n new || (!tenEnabled new && s.tenBusy n)

def State.tenCfgSet (s : State) (n : Nat) (v : DWord) : State :=
  let old := s.tenCfg n
  let new := s.tenCfgNew n v
  if s.tenCfgRefused n v then s
  else
    let s := s.setDev (fun d => { d with tenCfg := d.tenCfg.set n new })
    if tenEnabled new && !tenEnabled old then s.zeroShares n else s

def execTenCfgWrite (tenancy : Nat) (value : DWord) (s : State) : Out := .next (s.tenCfgSet tenancy value)

/-! ### Collective groups (R222) -/

/-- A collective of the group is queued or in flight. -/
def State.collBusy (s : State) (g : Nat) : Bool :=
  s.cores.any (fun e => e.2.queues.any (fun q => q.any (fun c => c.isColl && c.group = g))) ||
  s.images.any (fun i => i.cmds.any (fun e => e.2.isColl && e.2.group = g))

def collMask : DWord := 0x8000000F007F007F#64

/-- What a write of EN = 1 needs of the group's registers. -/
def State.collDefOk (s : State) (cfg : DWord) (map : List DWord) : Bool :=
  let n := collSize cfg
  let bytes := (List.range n).map (mapByte map)
  collRank cfg < n && bytes.all (fun b => 128 ≤ b) && bytes.eraseDups.length = n &&
  mapByte map (collRank cfg) % 128 = s.dev.moduleNum

/-- What refuses a write of COLL_CFGg, or of word `j` of its map. -/
def State.collRefused (s : State) (g : Nat) (j : Option Nat) (v : DWord) : Bool :=
  s.collBusy g || (j.isNone && collEn v && !s.collDefOk (v &&& collMask) (s.coll g).map)

/-- A write of a group's registers. The number of the group's next collective never restarts (DESIGN CHOICE, notes/assumptions/60.md). -/
def State.collSet (s : State) (g : Nat) (j : Option Nat) (v : DWord) : State :=
  if s.collRefused g j v then s
  else match j with
    | some j => s.updColl g (fun x => { x with map := x.map.set j v })
    | none => s.updColl g (fun x => { x with cfg := v &&& collMask })

def execCollCfgWrite (group : Nat) (map : Option Nat) (value : DWord) (s : State) : Out := .next (s.collSet group map value)

/-! ### Sheaf groups (R385, R387) -/

def Sheaf.reset : Sheaf :=
  { cfg := 0, state := 3, producers := 0, takers := 0, regerr := false, fullerr := false, lists := [],
    used := [] }
def State.sheaf (s : State) (g : Nat) : Sheaf := (s.sheafs.get g).getD Sheaf.reset
def State.updSheaf (s : State) (g : Nat) (f : Sheaf → Sheaf) : State := { s with sheafs := s.sheafs.put g (f (s.sheaf g)) }

/-- Clears one group's bits of a wave. -/
def Wave.leaveSheaf (g : Nat) (w : Wave) : Wave :=
  { w with producer := w.producer &&& ~~~(1#64 <<< g), taker := w.taker &&& ~~~(1#64 <<< g) }

def Block.leaveSheaf (g : Nat) (b : Block) : Block := { b with waves := b.waves.map (Wave.leaveSheaf g) }

/-- A CAPLOG of 11 to 15 or a reserved bit refuses a write of SHF_CFGn. -/
def shfRefused (v : DWord) : Bool := fld v 56 7 != 0 || 11 ≤ (fld v 52 4).toNat

/-- A write of SHF_CFGn; EN = 1 resets the group to ARMED. -/
def State.shfSet (s : State) (g : Nat) (v : DWord) : State :=
  if shfRefused v then s
  else if fld v 63 1 == 1 then
    let s : State := { s with blocks := s.blocks.mapAll (fun _ b => b.leaveSheaf g),
                              images := s.images.map (fun i => { i with blk := i.blk.leaveSheaf g }) }
    s.updSheaf g (fun _ => { Sheaf.reset with cfg := v, state := 0 })
  else s.updSheaf g (fun x => { x with cfg := v, state := 3 })

def execShfCfgWrite (group : Nat) (value : DWord) (s : State) : Out := .next (s.shfSet group value)

/-- SHF_STATn as it reads. -/
def Sheaf.stat (x : Sheaf) : DWord :=
  BitVec.ofNat 64 (x.state * 2 ^ 62 + x.producers * 2 ^ 32 + x.takers * 2 ^ 16 + 2 * b2n x.regerr + b2n x.fullerr)

def State.shfStatSet (s : State) (g : Nat) (v : DWord) : State :=
  s.updSheaf g (fun x => { x with regerr := x.regerr && !v.getLsbD 1, fullerr := x.fullerr && !v.getLsbD 0 })

/-! ### The Granary, queue descriptors, the module number, routes (R411, R505, R510) -/

/-- An image is held or being written. -/
def State.granaryRefused (s : State) : Bool := !s.images.isEmpty || s.blocks.any (fun e => !e.2.chunks.isEmpty)

/-- GRANARY_CHUNKS rebuilds the free list; refused while an image is held or being written. -/
def State.granaryChunksSet (s : State) (v : DWord) : State :=
  if s.granaryRefused then s
  else
    let n := (loOf v).toNat
    s.setDev (fun d => { d with granaryChunks := n, granaryFree := List.range n })

def execGranaryChunksWrite (value : DWord) (s : State) : Out := .next (s.granaryChunksSet value)

/-- A fabric session is open. -/
def State.fabricOpen (s : State) : Bool := s.sessions.any (fun x => x.port.isSome && x.live)

def State.moduleNumSet (s : State) (v : DWord) : State :=
  if s.fabricOpen then s else s.setDev (fun d => { d with moduleNum := (fld v 0 7).toNat })

def execModuleNumWrite (value : DWord) (s : State) : Out := .next (s.moduleNumSet value)

def State.qdescSet (s : State) (v : DWord) : State :=
  if !s.queues.isEmpty then s else s.setDev (fun d => { d with qdescBase := v &&& ~~~0xFFFF#64 })

def execQdescBaseWrite (value : DWord) (s : State) : Out := .next (s.qdescSet value)

/-- Packets to a module are in flight on a path: they wait to leave, a hop has not acknowledged them, their accesses have not been
performed, or a marker on it has not been acknowledged. -/
def State.pathBusy (s : State) (m p : Nat) : Bool :=
  s.fabOut.any (fun k => k.dst = m && k.path = p) || s.pins.any (fun e => e.dst = m && e.path = p) ||
  s.marks.any (fun e => e.2 = m && s.markPath.get e.1 = some p) ||
  s.ports.any (fun e => e.2.unacked.any (fun u => u.packet.dst = m && u.packet.path = p))

def State.fabRouteSet (s : State) (m p : Nat) (v : DWord) : State :=
  if s.pathBusy m p then s else s.setDev (fun d => { d with fabRoute := d.fabRoute.put (16 * m + p) (v &&& 0x803F#64).toNat })

def execFabRouteWrite (module path : Nat) (value : DWord) (s : State) : Out := .next (s.fabRouteSet module path value)

/-! ### Power, ticks, health (R16, R364, R500) -/

def powerLimitRefused (v : DWord) : Bool := (loOf v).toNat < 2000 || 8000 < (loOf v).toNat

/-- A limit that the average no longer exceeds ends the 10 ms of R16. -/
def State.powerLimitSet (s : State) (v : DWord) : State :=
  if powerLimitRefused v then s
  else { s with power := { s.power with limit := (loOf v).toNat,
                                        overSince := if (loOf v).toNat < s.power.now then s.power.overSince else none } }

def execPowerLimitWrite (value : DWord) (s : State) : Out := .next (s.powerLimitSet value)

def State.tickPeriodSet (s : State) (v : DWord) : State :=
  let n := (loOf v).toNat
  if 1000 ≤ n && n ≤ 4000000 then { s with tickPeriod := n } else s

def execTickPeriodWrite (value : DWord) (s : State) : Out := .next (s.tickPeriodSet value)

def State.setHealth (s : State) (f : Health → Health) : State := { s with health := f s.health }

/-- The held dump is released (R22). -/
def execDumpRelease (s : State) : Out := .next (s.setHealth (fun h => { h with dump := false, dumps := [] }))

def State.fencedCores (s : State) : Nat :=
  ((List.range Config.cores).filter (fun c => (s.cores.get c).elim false (fun k => k.fenced) || s.health.clusters.contains (clusterOf c))).length

/-- DEV_HEALTH (Table 22-4). -/
def State.devHealth (s : State) : DWord :=
  BitVec.ofNat 64 (b2n s.health.replace * 2 ^ 63 + b2n s.health.dump * 2 ^ 62 + s.fencedCores * 2 ^ 48 + s.health.clusters.length * 2 ^ 40 +
    (s.ports.filter (fun e => e.2.fenced)).length * 2 ^ 32 + (s.health.fencedStacks.map (fun n => 2 ^ (16 + n))).sum +
    (s.ports.filter (fun e => e.2.trained && !e.2.fenced && e.2.lanes = 3)).length * 2 ^ 8)

/-! ### Reed's registers (Tables 6-4 to 6-8) -/

def State.reedStatus (s : State) : Nat :=
  let r := s.reedUpdate.reed
  let held := ((List.range 16).filter s.stackHeld).map (fun n => 2 ^ (16 + n))
  let active := r.working.any id
  held.sum + min 255 r.moves.length * 256 + 8 * b2n (active && r.t2Count = 0) + 4 * b2n r.pushErr + 2 * b2n r.exhausted + b2n active

def State.moveCtlRead (s : State) : Nat := b2n s.moveBusy * 2 ^ 31 + s.reed.moveResult * 2
def State.flushCtlRead (s : State) : Nat := b2n s.reed.flushBusy * 2 ^ 31 + s.reed.flushLines * 256 + 2 * b2n s.reed.flushInv

/-- PORT_TOKc_n (Table 20-1), after a refill that is due. -/
def State.portTok (s : State) (c n : Nat) : DWord :=
  let h := (s.refill.core c).share n
  BitVec.ofNat 64 (h.sentLast % 65536 * 2 ^ 48 + h.e * 2 ^ 16 + h.b)

/-! ### The registers by offset (Table 22-7) -/

inductive DevReg where
  | tenCfg (n : Nat) | tenRoot (n : Nat) | cset (n j : Nat)
  | l2Part (n : Nat) | ownerBase
  | poolFree (n : Nat) | poolLow (n : Nat) | poolHigh (n : Nat)
  | t2Count | t2Base | t2Cap | t2Push | reedStatus | movePte | moveDst | moveCtl | flushAddr | flushCtl
  | granaryBase | granaryChunks | granaryFree | weirDispatch | weirCount
  | fqBase | fqSize | fqWidx | fqRidx | faultAck
  | shfCfg (n : Nat) | shfStat (n : Nat)
  | collCfg (g : Nat) | collMap (g j : Nat)
  | moduleNum | qdescBase | powerLimit | powerNow | paceClocks | paceActive
  | portTok (c n : Nat)
  | devHealth | dumpBase
  | fabRoute (m p : Nat)
  deriving DecidableEq, Repr

/-- The register at a slot offset. -/
def regAt (o : Nat) : Option DevReg :=
  let i := o / 8
  if o < 0x80 then some (.tenCfg i)
  else if o < 0x100 then some (.tenRoot (i - 16))
  else if o < 0x600 then some (.cset ((i - 32) / 10) ((i - 32) % 10))
  else if o < 0x1000 then none
  else if o < 0x1080 then some (.l2Part ((o - 0x1000) / 8))
  else if o < 0x1088 then some .ownerBase
  else if o < 0x2000 then none
  else if o < 0x2080 then some (.poolFree ((o - 0x2000) / 8))
  else if o < 0x2100 then some (.poolLow ((o - 0x2080) / 8))
  else if o < 0x2180 then some (.poolHigh ((o - 0x2100) / 8))
  else if o < 0x3000 then
    match (o - 0x2180) / 8 with
    | 0 => some .t2Count
    | 1 => some .t2Base
    | 2 => some .t2Cap
    | 3 => some .t2Push
    | 4 => some .reedStatus
    | 5 => some .movePte
    | 6 => some .moveDst
    | 7 => some .moveCtl
    | 8 => some .flushAddr
    | 9 => some .flushCtl
    | _ => none
  else if o < 0x4000 then
    match (o - 0x3000) / 8 with
    | 0 => some .granaryBase
    | 1 => some .granaryChunks
    | 2 => some .granaryFree
    | 3 => some .weirDispatch
    | 4 => some .weirCount
    | _ => none
  else if o < 0x5000 then
    match (o - 0x4000) / 8 with
    | 0 => some .fqBase
    | 1 => some .fqSize
    | 2 => some .fqWidx
    | 3 => some .fqRidx
    | 4 => some .faultAck
    | _ => none
  else if o < 0x5200 then some (.shfCfg ((o - 0x5000) / 8))
  else if o < 0x5400 then some (.shfStat ((o - 0x5200) / 8))
  else if o < 0x6000 then none
  else if o < 0x6200 then some (.collCfg ((o - 0x6000) / 8))
  else if o < 0x8200 then some (.collMap ((o - 0x6200) / 128) ((o - 0x6200) / 8 % 16))
  else if o < 0x9000 then none
  else if o < 0x10000 then
    match (o - 0x9000) / 8 with
    | 0 => some .moduleNum
    | 1 => some .qdescBase
    | 2 => some .powerLimit
    | 3 => some .powerNow
    | 4 => some .paceClocks
    | 5 => some .paceActive
    | _ => none
  else if o < 0x24000 then some (.portTok ((o - 0x10000) / 128) ((o - 0x10000) / 8 % 16))
  else if o < 0x30000 then none
  else if o < 0x30008 then some .devHealth
  else if o < 0x30010 then some .dumpBase
  else if o < 0x40000 then none
  else if o < 0x44000 then some (.fabRoute ((o - 0x40000) / 128) ((o - 0x40000) / 8 % 16))
  else none

/-- The registers of 32 bits. -/
def DevReg.is32 : DevReg → Bool
  | .l2Part _ => true
  | .t2Count => true
  | .t2Cap => true
  | .reedStatus => true
  | .moveCtl => true
  | .flushCtl => true
  | .granaryChunks => true
  | .granaryFree => true
  | .weirDispatch => true
  | .fqSize => true
  | .fqWidx => true
  | .fqRidx => true
  | .moduleNum => true
  | .powerLimit => true
  | .powerNow => true
  | .paceActive => true
  | _ => false

/-- The registers that are only written. -/
def DevReg.writeOnly : DevReg → Bool
  | .t2Push => true
  | .faultAck => true
  | _ => false

/-- What a register reads as; a write-only one reads 0. -/
def State.devValue (s : State) (r : DevReg) : DWord :=
  let n64 := fun (n : Nat) => BitVec.ofNat 64 n
  match r with
  | .tenCfg n => s.tenCfg n
  | .tenRoot n => s.dev.tenRoot.getD n 0
  | .cset n j => (s.dev.cset.getD n []).getD j 0
  | .l2Part n => n64 (s.dev.l2Part.getD n 0)
  | .ownerBase => s.dev.ownerBase
  | .poolFree n => n64 (s.poolFree n)
  | .poolLow n => n64 (s.reed.poolLow.getD n 0)
  | .poolHigh n => n64 (s.reed.poolHigh.getD n 0)
  | .t2Count => n64 s.reed.t2Count
  | .t2Base => s.reed.t2Base
  | .t2Cap => n64 s.reed.t2Cap
  | .t2Push => 0
  | .reedStatus => n64 s.reedStatus
  | .movePte => s.reed.movePte
  | .moveDst => s.reed.moveDst
  | .moveCtl => n64 s.moveCtlRead
  | .flushAddr => s.reed.flushAddr
  | .flushCtl => n64 s.flushCtlRead
  | .granaryBase => s.dev.granaryBase
  | .granaryChunks => n64 s.dev.granaryChunks
  | .granaryFree => n64 s.dev.granaryFree.length
  | .weirDispatch => n64 s.dev.weirDispatch
  | .weirCount => n64 s.dev.weirCount
  | .fqBase => s.faultq.base
  | .fqSize => n64 s.faultq.size
  | .fqWidx => n64 s.faultq.widx
  | .fqRidx => n64 s.faultq.ridx
  | .faultAck => 0
  | .shfCfg n => (s.sheaf n).cfg
  | .shfStat n => (s.sheaf n).stat
  | .collCfg g => (s.coll g).cfg
  | .collMap g j => (s.coll g).map.getD j 0
  | .moduleNum => n64 s.dev.moduleNum
  | .qdescBase => s.dev.qdescBase
  | .powerLimit => n64 s.power.limit
  | .powerNow => n64 s.power.now
  | .paceClocks => n64 s.power.paceClocks
  | .paceActive => n64 (b2n s.power.pacing)
  | .portTok c n => s.portTok c n
  | .devHealth => s.devHealth
  | .dumpBase => s.health.dumpBase
  | .fabRoute m p => n64 ((s.dev.fabRoute.get (16 * m + p)).getD 0)

/-- A write of a whole register; the bits of OWNER_BASE below the multiple that its address must be are dropped (DESIGN CHOICE,
notes/assumptions/82.md). -/
def State.devSet (s : State) (r : DevReg) (v : DWord) : State :=
  match r with
  | .tenCfg n => s.tenCfgSet n v
  | .cset n j => s.setDev (fun d => { d with cset := updAt d.cset n (fun ws => ws.set j v) })
  | .l2Part n => s.setDev (fun d => { d with l2Part := d.l2Part.set n (v.toNat % 65536) })
  | .ownerBase => s.setDev (fun d => { d with ownerBase := v &&& ~~~0xFFFF#64 })
  | .poolLow n => s.thresholdWrite false n v
  | .poolHigh n => s.thresholdWrite true n v
  | .t2Count => s.t2CountWrite v
  | .t2Base => s.setReed (fun x => { x with t2Base := v &&& ~~~7#64 })
  | .t2Cap => s.setReed (fun x => { x with t2Cap := (loOf v).toNat })
  | .t2Push => s.t2Push v
  | .reedStatus => s.setReed (fun x => { x with pushErr := x.pushErr && !v.getLsbD 2, exhausted := x.exhausted && !v.getLsbD 1 })
  | .movePte => s.setReed (fun x => { x with movePte := v })
  | .moveDst => s.setReed (fun x => { x with moveDst := v })
  | .moveCtl => s.moveCtl v
  | .flushAddr => s.setReed (fun x => { x with flushAddr := v &&& ~~~127#64 })
  | .flushCtl => s.flushCtl v
  | .granaryBase => s.setDev (fun d => { d with granaryBase := v &&& ~~~0xFFFF#64 })
  | .granaryChunks => s.granaryChunksSet v
  | .weirDispatch => s.setDev (fun d => { d with weirDispatch := (loOf v).toNat })
  | .fqBase => s.faultqBase v
  | .fqSize => s.faultqSize v
  | .fqRidx => s.faultqRidx v
  | .faultAck => s.faultAck v
  | .shfCfg n => s.shfSet n v
  | .shfStat n => s.shfStatSet n v
  | .collCfg g => s.collSet g none v
  | .collMap g j => s.collSet g (some j) v
  | .moduleNum => s.moduleNumSet v
  | .qdescBase => s.qdescSet v
  | .powerLimit => s.powerLimitSet v
  | .devHealth => if v.getLsbD 62 then s.setHealth (fun h => { h with dump := false, dumps := [] }) else s
  | .dumpBase => s.setHealth (fun h => { h with dumpBase := v })
  | .fabRoute m p => s.fabRouteSet m p v
  | .tenRoot _ => s
  | .poolFree _ => s
  | .granaryFree => s
  | .weirCount => s
  | .fqWidx => s
  | .powerNow => s
  | .paceClocks => s
  | .paceActive => s
  | .portTok _ _ => s

/-- A write that the register refuses under its own rule (Table 19-7, REG_WRITE). -/
def State.devRefuses (s : State) (r : DevReg) (v : DWord) : Bool :=
  match r with
  | .tenCfg n => s.tenCfgRefused n v
  | .poolLow n => s.thresholdRefused false n v
  | .poolHigh n => s.thresholdRefused true n v
  | .t2Count => s.reedActive
  | .t2Push => s.t2PushRefused v
  | .granaryChunks => s.granaryRefused
  | .fqSize => faultqSizeRefused v
  | .shfCfg _ => shfRefused v
  | .collCfg g => s.collRefused g none v
  | .collMap g j => s.collRefused g (some j) v
  | .moduleNum => s.fabricOpen
  | .qdescBase => !s.queues.isEmpty
  | .powerLimit => powerLimitRefused v
  | .fabRoute m p => s.pathBusy m p
  | _ => false

/-! ### Accesses (R512) -/

def State.devRead (s : State) (o : Nat) : DWord := (regAt (o / 8 * 8)).elim 0 s.devValue

/-- A read of 4 or 8 bytes at an offset of the space. -/
def State.devLoad (s : State) (o n : Nat) : List Byte := ((bytesOfNat (s.devRead o).toNat 8).drop (o % 8)).take n

def State.devWrite (s : State) (o : Nat) (v : DWord) : State :=
  match regAt (o / 8 * 8) with
  | none => s
  | some r => s.devSet r v

/-- A write of 4 or 8 bytes: half of a 64-bit register is merged with the other half. -/
def State.devStore (s : State) (o : Nat) (bs : List Byte) : State :=
  match regAt (o / 8 * 8) with
  | none => s
  | some r =>
    if bs.length = 8 then s.devSet r (wordOfBytes bs)
    else if r.is32 then (if o % 8 = 0 then s.devSet r (BitVec.ofNat 64 (natOfBytes bs)) else s)
    else
      let old := if r.writeOnly then 0 else s.devValue r
      s.devSet r (wordOfBytes (putBytes (bytesOfNat old.toNat 8) (o % 8) bs))

/-- A register write by the Z8's own units or service software (R512). -/
def execRegisterWrite (offset : Nat) (value : DWord) (s : State) : Out := .next (s.devWrite offset value)

end Sys2Proof.Machine
end

