-- ==== Sys2Proof/Machine/Wire.lean ====
section
/-! DEFINITION. Machine/Wire.lean: how sequences and packets travel over a fabric port: the check code and the fields of a sequence
(Table 22-9), the packet header (Table 22-10), packets in a stream of payload bytes (R508, R509). -/

namespace Sys2Proof.Machine

/-! ### CRC-32C (R508) -/

/-- One bit of the reflected Castagnoli polynomial 0x1EDC_6F41; the register starts as ones and is inverted at the end (PRESUMED, the
usual form of CRC-32C; notes/assumptions/83.md). -/
def crcBit (c : Nat) : Nat := if c % 2 = 1 then Nat.xor (c / 2) 0x82F63B78 else c / 2
def crcByte (c : Nat) (b : Byte) : Nat := (List.range 8).foldl (fun c _ => crcBit c) (Nat.xor c b.toNat)
def crc32c (bs : List Byte) : Nat := Nat.xor (bs.foldl crcByte 0xFFFFFFFF) 0xFFFFFFFF

/-! ### Sequences (Table 22-9) -/

/-- The fields of a sequence beside its payload and CRC. -/
structure SeqHead where
  seq : Nat
  ctrl : Bool
  ack : Nat
  ackv : Bool
  nak : Bool
  creditReq : Nat
  creditRep : Nat
  deriving DecidableEq, Repr

/-- The 256 bytes of a sequence. -/
def sequenceBytes (payload : List Byte) (h : SeqHead) : List Byte :=
  let body := fit 246 payload ++ bytesOfNat (h.seq + b2n h.ctrl * 2 ^ 15) 2 ++ bytesOfNat (h.ack + b2n h.ackv * 2 ^ 12 + b2n h.nak * 2 ^ 13) 2 ++
    bytesOfNat (h.creditReq + h.creditRep * 256) 2
  body ++ bytesOfNat (crc32c body) 4

def seqPayload (bs : List Byte) : List Byte := bs.take 246

/-- Whether the CRC of a sequence is good. -/
def seqGood (bs : List Byte) : Bool := bs.length = 256 && natOfBytes (bs.drop 252) = crc32c (bs.take 252)

def seqHead (bs : List Byte) : SeqHead :=
  let f := fun (o : Nat) => natOfBytes ((bs.drop o).take 2)
  { seq := f 246 % 4096, ctrl := f 246 / 2 ^ 15 % 2 = 1, ack := f 248 % 4096, ackv := f 248 / 2 ^ 12 % 2 = 1, nak := f 248 / 2 ^ 13 % 2 = 1,
    creditReq := f 250 % 256, creditRep := f 250 / 256 % 256 }

/-! ### Packets (Table 22-10) -/

/-- LEN; the data of a READ stand for the bytes that it asks for. -/
def packetLen (p : FabPacket) : Nat := if p.typ = 5 || p.typ = 6 then 0 else (p.data.length - 1) % 128

/-- The data bytes that travel with a packet: none with a READ, a marker or its acknowledgement, or a REPLY that refuses an address
(DESIGN CHOICE for the last, notes/assumptions/83.md). -/
def carried (typ status len : Nat) : Nat := if typ = 1 || typ = 5 || typ = 6 || (typ = 4 && status = 1) then 0 else len + 1

/-- The header's 16 bytes. -/
def packetHeader (p : FabPacket) : List Byte :=
  bytesOfNat (p.typ % 16 + packetLen p * 2 ^ 8 + p.src % 128 * 2 ^ 16 + p.dst % 128 * 2 ^ 23 + p.path % 16 * 2 ^ 30 + p.tag % 65536 * 2 ^ 34 +
    p.atop % 256 * 2 ^ 50 + p.status % 64 * 2 ^ 58) 8 ++ bytesOfNat (p.addr % 2 ^ 52) 8

/-- The data that travel. -/
def packetPlain (p : FabPacket) : List Byte := if carried p.typ p.status (packetLen p) = 0 then [] else fit (packetLen p + 1) p.data

/-- A packet as its bytes stand in the stream: header, counter and what follows; on a port that is not keyed the counter is 0. -/
structure RawPacket where
  head : List Byte
  counter : Nat
  body : List Byte
  deriving DecidableEq, Repr

def RawPacket.word (r : RawPacket) (i : Nat) : DWord := wordOfBytes ((r.head.drop (8 * i)).take 8)

/-- The packet of a header and the data that came with it. -/
def RawPacket.packet (r : RawPacket) (data : List Byte) : FabPacket :=
  let f := fun (lo n : Nat) => (fld (r.word 0) lo n).toNat
  { typ := f 0 4, src := f 16 7, dst := f 23 7, path := f 30 4, tag := f 34 16, atop := f 50 8, status := f 58 6,
    addr := (fld (r.word 1) 0 52).toNat,
    data := if f 0 4 = 1 then List.replicate (f 8 8 + 1) 0 else data }

/-- A header with no reserved value: its reserved bits, the operation of an ATOMIC, the fields of other types. -/
def RawPacket.formOk (r : RawPacket) : Bool :=
  let f := fun (lo n : Nat) => (fld (r.word 0) lo n).toNat
  f 4 4 = 0 && f 15 1 = 0 && fld (r.word 1) 52 12 == 0 && (f 0 4 = 4 || f 58 6 = 0) && f 58 6 ≤ 2 && (f 0 4 = 3 || f 50 8 = 0) && f 56 2 = 0 &&
  (f 0 4 ≠ 3 || f 50 4 ≤ 8) && (!(f 0 4 = 5 || f 0 4 = 6) || f 8 8 = 0)

/-- The packets at the front of a stream, and the bytes of one that continues in the next sequence; a zero TYPE where a packet would
begin makes the rest padding (R508). A reserved TYPE is taken to carry LEN + 1 bytes. -/
def parsePackets (keyed : Bool) : Nat → List Byte → List RawPacket × List Byte
  | 0, bs => ([], bs)
  | fuel + 1, bs =>
    let t := (bs.headD 0).toNat % 16
    if t = 0 then ([], [])
    else if bs.length < 16 then ([], bs)
    else
      let w := wordOfBytes (bs.take 8)
      let n := carried t (fld w 58 6).toNat (fld w 8 8).toNat
      let total := 16 + (if keyed then 24 + n else n)
      if bs.length < total then ([], bs)
      else
        let r : RawPacket := if keyed
          then { head := bs.take 16, counter := natOfBytes ((bs.drop 16).take 8), body := (bs.drop 24).take (n + 16) }
          else { head := bs.take 16, counter := 0, body := (bs.drop 16).take n }
        let (rs, rest) := parsePackets keyed fuel (bs.drop total)
        (r :: rs, rest)

/-! ### What a port sends (R508, R509, R511) -/

def State.updPort (s : State) (p : Nat) (f : FabPort → FabPort) : State := { s with ports := s.ports.upd p f }

/-- The session that keys a port. -/
def State.portSession (s : State) (port : Nat) : Option Session := s.sessions.find? (fun x => x.port = some port && x.live)

/-- The direction value of packets over a port: 1 from the lower-numbered module of the link. -/
def State.direction (s : State) (x : FabPort) (out : Bool) : Nat := if decide (s.dev.moduleNum < x.peer) == out then 1 else 2

/-- A packet as the peer of a port takes it: a version before 3 knows no NORET, the first no STATUS 2 (R511). -/
def FabPort.adapt (x : FabPort) (p : FabPacket) : FabPacket :=
  { p with atop := if p.typ = 3 && x.peerV < 3 && p.atop / 32 % 2 = 1 then p.atop - 32 else p.atop,
           status := if p.typ = 4 && x.peerV < 2 && p.status = 2 then 0 else p.status }

/-- The acknowledgement that a sequence carries: of the last number accepted, and the credits to return. -/
def FabPort.ackHead (x : FabPort) (seq : Nat) (ctrl : Bool) : SeqHead :=
  { seq := seq, ctrl := ctrl, ack := (x.nextRecv + 4095) % 4096, ackv := true, nak := false, creditReq := min 255 x.oweReq,
    creditRep := min 255 x.oweRep }

/-- What was owed has been returned. -/
def FabPort.paid (x : FabPort) : FabPort :=
  { x with oweReq := x.oweReq - min 255 x.oweReq, oweRep := x.oweRep - min 255 x.oweRep, oweAck := false }

/-- A payload leaves in a numbered sequence, which the retry buffer keeps. -/
def FabPort.sendBytes (x : FabPort) (p : FabPacket) (bytes : List Byte) : FabPort :=
  let q := sequenceBytes bytes (x.ackHead x.nextSend false)
  { x.paid with nextSend := (x.nextSend + 1) % 4096, unacked := x.unacked ++ [⟨x.nextSend, p, q⟩], wire := x.wire ++ [q],
                credReq := if isRequest p then x.credReq - 1 else x.credReq, credRep := if isRequest p then x.credRep else x.credRep - 1 }

/-- A packet leaves over a port in a sequence of its own (notes/assumptions/36.md), sealed where the port is keyed. -/
def State.sendOver (s : State) (port : Nat) (p : FabPacket) : State :=
  match s.ports.get port with
  | none => s
  | some x =>
    let p := x.adapt p
    match (if x.ready then s.portSession port else none) with
    | none => s.updPort port (fun x => x.sendBytes p (packetHeader p ++ packetPlain p))
    | some k =>
      let body := Config.gcmSeal k.sendKey (gcmNonce (s.direction x true) k.nextOut) (packetHeader p) (packetPlain p)
      (s.updPort port (fun x => x.sendBytes p (packetHeader p ++ bytesOfNat k.nextOut 8 ++ body))).updSession k.number
        (fun y => { y with nextOut := y.nextOut + 1 })

/-- Acknowledgements and credits that are due leave in a sequence of their own. -/
def FabPort.pay (x : FabPort) : FabPort :=
  if x.trained && !x.fenced && (x.oweAck || 0 < x.oweReq || 0 < x.oweRep) then
    { x.paid with wire := x.wire ++ [sequenceBytes [] (x.ackHead 0 true)] }
  else x

/-- Asks for the expected sequence again. -/
def FabPort.askAgain (x : FabPort) : FabPort :=
  { x with wire := x.wire ++ [sequenceBytes [] { seq := 0, ctrl := true, ack := x.nextRecv, ackv := false, nak := true, creditReq := 0, creditRep := 0 }] }

/-- The retry buffer is sent again, in order; each sequence is counted in counter 8. -/
def State.resend (s : State) (port : Nat) : State :=
  match s.ports.get port with
  | none => s
  | some x =>
    let s := s.updPort port (fun x => { x with wire := x.wire ++ x.unacked.map (fun u => u.bytes) })
    x.unacked.foldl (fun (t : State) _ => t.countError 8) s

end Sys2Proof.Machine
end

