-- ==== Sys2Proof/Machine/Recover.lean ====
section
/-! DEFINITION. Machine/Recover.lean: power, temperature and rails (R15 to R17), the fatal dump (R501, R502), reset and boot
(R21, R22, R447 to R450), scrubbing (R494), fencing (R499) and lost modules (R498). -/

namespace Sys2Proof.Machine

/-! ### What survives a reset -/

/-- Memory after a reset: undefined until written, so nothing is listed, but for the dumps that are held (R22). -/
def State.keptMem (s : State) : List Host.Cell :=
  if s.health.dump then s.mem.filter (fun c => s.health.dumps.any (fun d => d.1 ≤ c.1 && c.1 < d.1 + d.2)) else []

/-- Health after a reset: fences remain and set REPLACE again (R499), held dumps stay where they are. -/
def State.keptHealth (s : State) : Health :=
  { Health.reset with
    replace := s.cores.any (fun e => e.2.fenced) || !s.health.clusters.isEmpty || !s.health.fencedStacks.isEmpty ||
      s.ports.any (fun e => e.2.fenced),
    dump := s.health.dump, clusters := s.health.clusters, fencedStacks := s.health.fencedStacks,
    dumpBase := if s.health.dump then s.health.dumpBase else 0, dumps := s.health.dumps }

/-- Fenced cores and ports keep their fence. -/
def State.keptCores (s : State) : Tbl Core :=
  (s.cores.filter (fun e => e.2.fenced)).map (fun e => (e.1, { State.reset.core e.1 with fenced := true }))

def FabPort.down : FabPort :=
  { trained := false, lanes := 4, fenced := false, ready := false, peerV := 0, nextSend := 0, nextRecv := 0, discarding := false,
    unacked := [], credReq := 0, credRep := 0, nakAt := none, retries := 0, sessIn := [], sessOut := [], msg := [], msgLen := 0 }

def State.keptPorts (s : State) : Tbl FabPort :=
  (s.ports.filter (fun e => e.2.fenced)).map (fun e => (e.1, { FabPort.down with fenced := true }))

/-- The module held in reset: step 1 of R21, with what flash, the secure element's counter and the fences keep; what
remains on the agenda goes on. -/
def State.toReset (s : State) : State :=
  { State.reset with
    mem := s.keptMem, health := s.keptHealth, cores := s.keptCores, ports := s.keptPorts, flash := s.flash,
    secure := { Secure.reset with rollback := s.secure.rollback },
    power := { Power.reset with railsBad := s.power.railsBad.map (fun e => (e.1, 0)), therm := s.power.therm },
    presented := s.presented, agenda := s.agenda, fresh := s.fresh + 1 }

def execResetAssert (s : State) : Out := .next s.toReset

/-! ### The fatal dump (R501, R502) -/

/-- A resident block's image in the dump: its header, then a stream whose bytes the spec leaves open. -/
def State.dumpImage (s : State) (b : Nat) (blk : Block) : List Byte :=
  let counts := s.liveCounts blk
  let reps := (s.replays.filter (fun r => r.blk = b && !r.inPlace)).length
  let cmds := ((s.core blk.core).queues.map (fun q => (q.filter (fun c => c.blk = b)).length)).sum
  let mats := (blk.accs.map (fun a => a.queue.length)).sum
  let size := blk.imageSize ((counts.map (fun n => 32 + 4 * n)).sum) blk.touched.length reps cmds mats
  imageHeader blk (s.recOf blk) size (chunksFor size) (s.saveSeq + 1) 0 ++
    (List.range (size - 128)).map (fun i => Config.freeByte s.fresh (128 + i))

/-- The payload: the images, then the error log. -/
def State.dumpPayload (s : State) : List Byte :=
  s.blocks.flatMap (fun e => s.dumpImage e.1 e.2) ++
  s.health.log.flatMap (fun r =>
    [r.seq * 2 ^ 32 + r.cls * 2 ^ 24 + r.unit * 65536 + r.num, r.addr, r.job % 65536 * 2 ^ 48 + r.synd.toNat, r.clock].flatMap
      (fun w => bytesOfNat w 8))

/-- Bytes 0 to 511 of the dump header (Table 22-5). -/
def State.dumpHead (s : State) (reason arg size : Nat) : List Byte :=
  bytesOfNat 0x504D5544 4 ++ bytesOfNat reason 2 ++ bytesOfNat arg 2 ++ bytesOfNat size 4 ++ bytesOfNat s.blocks.length 4 ++
  fit 64 s.secure.fw ++ List.replicate 432 0

/-- The dump: header, signature, payload. -/
def State.dump (s : State) (reason arg : Nat) : List Byte :=
  let payload := s.dumpPayload
  let head := s.dumpHead reason arg payload.length
  head ++ fit 512 (Config.identitySign s.fresh (head ++ payload)) ++ payload

/-- Whether a dump of `n` bytes can be written at `base`: the dump area lies in tier-2 memory (R185), and a dump that is held is
kept (R22; notes/assumptions/24.md). -/
def State.dumpFits (s : State) (base n : Nat) : Bool :=
  Config.t2Base ≤ base && base + n ≤ Config.t2End && s.health.dumps.all (fun d => d.1 + d.2 ≤ base || base + n ≤ d.1)

/-- THE FATAL-ERROR PATH (R501): the dump is written at DUMP_BASE, DUMP is set, and the device resets. Before step 4 of R21
no firmware runs that could write one. -/
def State.fatal (s : State) (reason arg : Nat) : State :=
  let base := localOf s.health.dumpBase.toNat
  let own := s.health.dumpBase.toNat / 35184372088832 = s.dev.moduleNum
  let d := s.dump reason arg
  if s.startup = 4 && own && s.dumpFits base d.length then
    ((s.store base d 0).setHealth (fun h => { h with dump := true, dumps := h.dumps ++ [(base, d.length)] })).toReset
  else s.toReset

/-- Fatal errors that the firmware finds in itself, or a failed fence; the others have events of their own. -/
def execFatalError (reason arg : Nat) (s : State) : Out :=
  event "FATAL_ERROR" (1 ≤ reason && reason ≤ 5 && s.startup = 4) (s.fatal reason (if reason = 3 then arg else 0))

/-- `halt`: the path is taken once per issue; nothing of the chain group or of the packet is performed: the issue of a group takes it
on the state before the group (R491). -/
def execHalt (h : Head) (f : YFmt) (s : State) : Out :=
  issueOp "HALT" h true [] (waveOp fun _ s => { s.fatal 3 f.sysno.toNat with cur := s.cur, note := .halted f.sysno.toNat }) s

/-! ### Power, temperature, rails (R15 to R18) -/

/-- The governor after a sample of the 1 ms average. -/
def Power.sample (p : Power) (watts clock : Nat) : Power :=
  let pacing := if p.limit * 98 < watts * 100 then true else if watts * 100 < p.limit * 95 then false else p.pacing
  { p with now := watts, pacing := pacing,
           overSince := if pacing && p.limit < watts then some (p.overSince.getD clock) else none }

def execPowerSample (watts : Nat) (s : State) : Out := .next { s with power := s.power.sample watts s.clock }

/-- 10 ms of clocks (R5). -/
def overlimitClocks : Nat := 10000 * Config.clocksPerUs

/-- The average has stayed above POWER_LIMIT for 10 ms while every C-die was paced (R16). -/
def State.overlimitDue (s : State) : Bool :=
  s.power.pacing && s.power.limit < s.power.now && s.power.overSince.elim false (fun c => c + overlimitClocks ≤ s.clock)

def execPowerOverlimitFault (s : State) : Out :=
  event "POWER_OVERLIMIT_FAULT" s.overlimitDue (s.fatal 2 0)

/-- The hottest die: THERM_ALERT from 95 °C, until below 90 °C; a fatal error from 105 °C (R17). -/
def execTemperatureSample (hottest : Nat) (s : State) : Out :=
  let alert := if 95 ≤ hottest then true else if hottest < 90 then false else s.power.therm
  let s := { s with power := { s.power with therm := alert } }
  .next (if 105 ≤ hottest then s.fatal 1 0 else s)

/-- 1 ms of clocks. -/
def railClocks : Nat := 1000 * Config.clocksPerUs

/-- A rail that has been outside its window for more than 1 ms while RESET_N is high (R15, R17). -/
def State.railDue (s : State) (rail : Nat) : Bool :=
  !s.resetLow && s.power.railsBad.any (fun e => e.1 = rail && e.2 + railClocks < s.clock)

def execRailOutOfWindow (rail : Nat) (s : State) : Out := event "RAIL_OUT_OF_WINDOW" (s.railDue rail) (s.fatal 2 0)

/-- Whether a fatal error of the rails or the package power is due now. -/
def State.fatalDue (s : State) : Bool := s.overlimitDue || s.power.railsBad.any (fun e => s.railDue e.1)

/-- Clocks until the next such moment. -/
def State.untilFatal (s : State) : Option Nat :=
  let power := s.power.overSince.elim [] (fun c => [c + overlimitClocks - s.clock])
  let rails := if s.resetLow then [] else s.power.railsBad.map (fun e => e.2 + railClocks + 1 - s.clock)
  (power ++ rails).min?

/-- A rail enters or leaves its window; PWR_GOOD is high while `railsBad` is empty (R18). -/
def execRailRegulationChange (rail : Nat) (inWindow : Bool) (s : State) : Out :=
  let old := s.power.railsBad
  let bad := if inWindow then old.filter (fun e => e.1 ≠ rail) else if old.any (fun e => e.1 = rail) then old
    else old ++ [(rail, s.clock)]
  .next { s with power := { s.power with railsBad := bad } }

/-- PWR_GOOD (Table 1-5). -/
def State.pwrGood (s : State) : Bool := s.power.railsBad.isEmpty

/-- The priorities that host sessions past their offer chose. -/
def State.chosenPrio (s : State) : BitVec 8 :=
  (s.sessions.filter (fun x => x.port.isNone && x.phase != .offered)).foldl (fun (m : BitVec 8) x => m ||| ((1#8) <<< x.prio)) 0#8

/-- The clocks of a pause: a quantum of IEEE 802.1Qbb is the time of 512 bits, here at 1.6 Tb/s, of clocks at 1.4 GHz (PRESUMED,
notes/assumptions/22.md). -/
def pauseClocks (quanta : Nat) : Nat := (quanta * 512 * 14 + 15999) / 16000

/-- A pause frame is honoured for the one priority that open host sessions chose and the configuration lists (R19). -/
def execPfcPauseFrame (priorities : BitVec 8) (quanta : Nat) (s : State) : Out :=
  let mine := priorities &&& s.chosenPrio &&& s.cfg.elim 0#8 (fun c => c.pfcMask)
  let ends := (List.range 8).foldl (fun (t : Tbl Nat) p => if mine.getLsbD p then t.put p (s.clock + pauseClocks quanta) else t) s.pfcEnds
  .next { s with pfcPaused := (if quanta = 0 then s.pfcPaused &&& ~~~mine else s.pfcPaused ||| mine), pfcEnds := ends }

/-! ### Boot (R21, R447 to R450) -/

/-- Flash slots: 0 firmware A, 1 firmware B, 2 configuration. -/
def State.flashByte (s : State) (slot o : Nat) : Byte :=
  match (s.flash.getD slot []).get o with
  | some b => b
  | none => Config.flashByte slot o

def State.flashRead (s : State) (slot o n : Nat) : List Byte := (List.range n).map (fun i => s.flashByte slot (o + i))
def State.flashNat (s : State) (slot o n : Nat) : Nat := natOfBytes (s.flashRead slot o n)

/-- The fields of an image header that R448 checks; configuration keys of a configuration are zero. -/
def State.headerOk (s : State) (slot typ : Nat) : Bool :=
  s.flashNat slot 0 4 = 0x4749535A && s.flashNat slot 4 4 = typ && s.flashNat slot 12 4 = 0 &&
  s.flashNat slot 16 8 ≤ 33554432 - 1536 && (s.flashRead slot 668 356).all (· == 0) &&
  (typ ≠ 2 || (s.flashRead slot 24 128).all (· == 0))

def State.slotSvn (s : State) (slot : Nat) : Nat := s.flashNat slot 8 4

/-- An image's measurement (R447). -/
def State.measure (s : State) (slot : Nat) : List Byte :=
  Config.sha512 (s.flashRead slot 0 1024 ++ s.flashRead slot 1536 (s.flashNat slot 16 8))

/-- MODULUS followed by EXPONENT of an image, and its hash (Table 19-1). -/
def State.imageKey (s : State) (slot : Nat) : List Byte := s.flashRead slot 152 512 ++ s.flashRead slot 664 4
def State.keyHash (s : State) (slot : Nat) : List Byte := Config.sha512 (s.imageKey slot)

/-- Whether an image's signature verifies under its own key (R447). -/
def State.signed (s : State) (slot : Nat) : Bool :=
  Config.pssVerify (s.flashRead slot 152 512) (s.flashRead slot 664 4)
    (s.flashRead slot 0 1024 ++ s.flashRead slot 1536 (s.flashNat slot 16 8)) (s.flashRead slot 1024 512)

/-- Whether a firmware slot verifies (R448). -/
def State.fwOk (s : State) (slot : Nat) : Bool :=
  s.headerOk slot 1 && s.signed slot && s.keyHash slot == Config.vendorKey && s.secure.rollback ≤ s.slotSvn slot

/-- Whether the configuration verifies against a booted firmware image (R448, R449). -/
def State.cfgOk (s : State) (slot : Nat) : Bool :=
  s.headerOk 2 2 && s.signed 2 &&
  [s.flashRead slot 24 64, s.flashRead slot 88 64].any (fun k => k.any (· != 0) && k == s.keyHash 2)

/-- The slot that boots: the verified one with the higher SVN, A on equal SVN (R449). -/
def State.bootSlot (s : State) : Option Nat :=
  let a := s.fwOk 0
  let b := s.fwOk 1
  if a && b then some (if s.slotSvn 0 < s.slotSvn 1 then 1 else 0) else if a then some 0 else if b then some 1 else none

def FabPort.up : FabPort := { FabPort.down with trained := true, credReq := 128, credRep := 128 }

/-- The ports after bring-up: every one that is not fenced trains. -/
def State.bootPorts (s : State) : Tbl FabPort :=
  (List.range 36).map (fun p => (p, if s.portFenced p then { FabPort.down with fenced := true } else FabPort.up))

/-- Steps 2 to 4 of R21 with a verified image. -/
def State.boot (s : State) (slot : Nat) (cfg : SignedConfig) (presented : Nat) : State :=
  { s with
    startup := 4, resetLow := false, clock := 0, lastTick := 0, cfg := some cfg,
    presented := if 768 ≤ presented && presented ≤ 1536 then presented else s.presented,
    reed := { s.reed with poolFree := (List.range 16).map Config.poolFree }, ports := s.bootPorts,
    power := { s.power with railsBad := s.power.railsBad.map (fun e => (e.1, 0)), overSince := none },
    secure := { s.secure with romm := Config.sha512 Config.bootRom, fw := s.measure slot, config := s.measure 2, slot := slot,
                              svn := s.slotSvn slot } }

/-- RESET_N rises: a failed verification leaves the module in step 1. `cfg` is what the payload of the configuration says. -/
def execResetRelease (cfg : SignedConfig) (presented : Nat) (s : State) : Out :=
  event "RESET_RELEASE" (s.resetLow && s.startup = 1)
    (match s.bootSlot with
     | some slot => if s.cfgOk slot then s.boot slot cfg presented else { s with resetLow := false }
     | none => { s with resetLow := false })

/-! ### SCRUB_READ (R494) -/

/-- Every running grid of a job has lost data. -/
def State.markJobLoss (s : State) (job : Nat) : State :=
  { s with grids := s.grids.mapAll (fun _ g => if g.job = job && g.place = .dispatcher then { g with dataLoss := true } else g) }

/-- A zero line is written back. -/
def State.zeroLine (s : State) (line job : Nat) : State :=
  let s := s.homeWrite (128 * line) (List.replicate 128 0) .all none job
  if (s.lag.get line).isSome then s.commitLine line job else s

/-- A read that no grid issued — the scrubber's, a writeback's, Reed's — finds an error in the memory or the L2: a corrected one is
counted; an uncorrectable one is counted and logged, and a zero line is written back. -/
def State.scrub (s : State) (line : Nat) (ecc : Ecc) : State :=
  let pa := 128 * line
  let full := s.dev.moduleNum * 35184372088832 + pa
  let unit := match ecc with
    | .uncorrectable .l2 => (4, 5, sliceOf full)
    | .corrected .l2 => (4, 5, sliceOf full)
    | _ => storeUnit pa
  match ecc with
  | .clean => s
  | .corrected _ => s.countError unit.1
  | .uncorrectable _ =>
    let owner := s.ownerOf full
    let job := owner.elim 0 (fun o => o.1)
    let s := ((s.countError (unit.1 + 1)).logError (unit.1 + 1) unit.2.1 unit.2.2 full job (Config.freeSyndrome s.fresh)).unitError unit.2.1 unit.2.2
    owner.elim (s.zeroLine line job) (fun o => (s.zeroLine line job).markJobLoss o.1)

def Ecc.atHome : Ecc → Bool
  | .corrected .core => false
  | .uncorrectable .core => false
  | _ => true

def execScrubRead (r : LineRead) (s : State) : Out :=
  event "SCRUB_READ" (s.backed (s.dev.moduleNum * 35184372088832 + 128 * r.line) && Ecc.atHome r.ecc) (s.scrub r.line r.ecc)

/-! ### Errors in a core's own storage (R493) -/

/-- The core and the block of a cell of core storage. -/
def State.cellPlace (s : State) : Cell → Option (Nat × Option (Nat × Block))
  | .vreg b _ _ _ => (s.block b).map (fun x => (x.core, some (b, x)))
  | .sreg b _ _ => (s.block b).map (fun x => (x.core, some (b, x)))
  | .spad b _ => (s.block b).map (fun x => (x.core, some (b, x)))
  | .acc b _ _ => (s.block b).map (fun x => (x.core, some (b, x)))
  | .l1 c _ _ => some (c, none)
  | .code c _ _ => some (c, none)
  | .home _ _ _ => none

/-- The cell reads as zeros. -/
def State.blank (s : State) : Cell → State
  | .vreg b w r l => s.updWave b w (fun x => { x with v := x.v.write (vkey r l) 0 })
  | .sreg b w r => s.updWave b w (fun x => { x with s := x.s.write r 0 })
  | .spad b a => s.updBlock b (fun x => { x with spad := x.spad.put a 0 })
  | .acc b n k => s.updBlock b (fun x => { x with accs := updAt x.accs n (fun y => { y with cells := y.cells.put k 0 }) })
  | .l1 c asn v => s.updCore c (fun k => { k with l1 := k.l1.map (fun m =>
      if m.asn = asn && m.vline = v then { m with data := List.replicate 128 0 } else m) })
  | .code c asn v => s.updCore c (fun k => { k with icache := k.icache.map (fun m =>
      if m.asn = asn && m.vline = v then { m with data := List.replicate 128 0 } else m) })
  | .home l _ _ => s.zeroLine l ((s.ownerOf (s.dev.moduleNum * 35184372088832 + 128 * l)).elim 0 (fun o => o.1))

/-- A unit's read of a line of this module finds an error: for a grid it delivers zeros and marks the grid, for none it is a read of R494.
The line reads as zeros from now on (R493; DESIGN CHOICE, notes/assumptions/22.md). -/
def State.homeDecay (s : State) (line : Nat) (inL2 : Bool) (grid : Nat) (corrected : Bool) : State :=
  let full := s.dev.moduleNum * 35184372088832 + 128 * line
  let k : EccUnit := if inL2 then .l2 else .memory
  let e : Ecc := if corrected then .corrected k else .uncorrectable k
  if !s.backed full then s
  else if corrected || (s.grids.get grid).isNone then s.scrub line e
  else (s.eccRead e full noCore grid 0 []).2.blank (.home line inL2 grid)

/-- A read of a core's own storage is about to find an error: a corrected one is counted; an uncorrectable one makes the cell read as
zeros from now on until it is written, is counted and logged, and marks the grids whose block reads it: the cell's own, or those
with a block of the line's address space on the core (R493; DESIGN CHOICE, notes/assumptions/22.md). -/
def State.decay (s : State) (c : Cell) (corrected : Bool) : State :=
  match s.cellPlace c with
  | none => match c with
    | .home l k g => s.homeDecay l k g corrected
    | _ => s
  | some (core, b) =>
    if corrected then s.countError 6
    else
      let asn := match c with
        | .l1 _ a _ => a
        | .code _ a _ => a
        | _ => 0
      let grids := match b with
        | some x => [x.2.grid]
        | none => ((s.blocks.filter (fun (e : Nat × Block) => e.2.core = core && e.2.asn = asn)).map (fun (e : Nat × Block) => e.2.grid)).eraseDups
      let job := b.elim 0 (fun x => x.2.job)
      let s := (((s.blank c).countError 7).logError 7 0 core 0 job (Config.freeSyndrome s.fresh)).unitError 0 core
      grids.foldl (fun (t : State) g => t.markLoss g) s

/-! ### Modules that leave the domain (R498) -/

/-- The waves that await a module: they wrote it since their last dom close, or wait for a marker to it. -/
def Wave.awaits (w : Wave) (m : Nat) (tags : List Nat) : Bool :=
  w.remote.contains m || (match w.hold with
    | .close c => c.marks.any (fun t => tags.contains t)
    | _ => false)

/-- Whether a request waits for something of module `m`. -/
def Req.asks (r : Req) (m : Nat) : Bool := !r.visible && r.lines.any (fun l => moduleOf (128 * l) = m)

/-- A read of a module that has gone delivers zeros (notes/assumptions/34.md); what would only bring a line is gone. -/
def Req.lostReply (r : Req) (m : Nat) : Req :=
  let zeros := r.olds ++ (r.accs.drop r.olds.length).map (fun a => (a.lane, List.replicate a.n 0))
  if !r.asks m then r
  else match r.kind with
    | .copyRead => { r with sent := true, remoteTag := none, olds := zeros }
    | .load _ _ => { r with sent := true, visible := true, remoteTag := none,
                            olds := if r.whole then [(lineKey, List.replicate 128 0)] else zeros }
    | .loadBlk => { r with sent := true, visible := true, remoteTag := none, olds := zeros }
    | .atomic _ _ => { r with sent := true, visible := true, remoteTag := none, olds := zeros }
    | _ => r

def Req.onlyLine (r : Req) : Bool :=
  match r.kind with
  | .fetch => true
  | .prefetch _ => true
  | .hint => true
  | _ => false

/-- No path to module `m` is left: writes not acknowledged are lost, closes that wait for its markers go on, and DATA_LOSS
is set on the grids concerned. -/
def State.moduleGone (s : State) (m : Nat) : State :=
  let tags := (s.marks.filter (fun e => e.2 = m)).map (fun e => e.1)
  let grids := s.blocks.flatMap (fun e => if e.2.waves.any (fun w => w.awaits m tags) || e.2.marks.any (fun t => tags.contains t) then [e.2.grid] else [])
    ++ (s.reqs.filter (fun e => e.2.asks m && !e.2.onlyLine)).map (fun e => e.2.grid)
    ++ (s.reqs.filter (fun e => ((s.markOps.get e.1).getD []).any (fun t => tags.contains t))).map (fun e => e.2.grid)
    ++ (s.grids.filter (fun e => e.2.remote.contains m || e.2.marks.any (fun t => tags.contains t))).map Prod.fst
  let s := grids.eraseDups.foldl (fun t g => t.markLoss g) s
  let s := { s with
    marks := s.marks.filter (fun e => e.2 ≠ m),
    reqs := Tbl.mapAll (s.reqs.filter (fun e => !(e.2.asks m && e.2.onlyLine))) (fun _ r => r.lostReply m),
    fabOut := s.fabOut.filter (fun p => p.dst ≠ m), pins := s.pins.filter (fun e => e.dst ≠ m),
    grids := s.grids.mapAll (fun _ g => { g with remote := g.remote.filter (· ≠ m) }) }
  { s with blocks := s.blocks.mapAll (fun _ b => { b with waves := b.waves.map (fun w => { w with remote := w.remote.filter (· ≠ m) }) }) }

/-- The modules that the route table names. -/
def State.routed (s : State) : List Nat := (s.dev.fabRoute.map (fun e => e.1 / 16)).eraseDups

/-- What was on a path whose port is fenced counts as on the one that takes its traffic. -/
def State.repath (s : State) : State :=
  let via := fun (m path : Nat) => (s.pathBy m path).elim path Prod.fst
  { s with pins := s.pins.map (fun e => { e with path := via e.dst e.path }),
           markPath := s.markPath.mapAll (fun tag path => ((s.marks.find? (fun e => e.1 = tag)).map (fun e => via e.2 path)).getD path) }

/-- A port is fenced: its session is over, what it had not delivered takes the remaining paths, and modules without another
path are gone (notes/assumptions/38.md). -/
def State.fencePort (s : State) (p : Nat) : State :=
  let back := (s.ports.get p).elim [] (fun x => (x.unacked.map (fun e => e.packet)).filter (fun k => k.typ ≠ 7))
  let s := s.updPort p (fun x =>
    { x with fenced := true, trained := false, ready := false, unacked := [], sessIn := [], sessOut := [], msg := [], msgLen := 0, rx := [],
             bufs := [], oweReq := 0, oweRep := 0, oweAck := false })
  let s := { s with fabOut := back ++ s.fabOut, sessions := s.sessions.filter (fun x => x.port ≠ some p) }.repath
  s.routed.foldl (fun t m => if t.hasRoute m then t else t.moduleGone m) s

/-! ### UNIT_FENCE (R499) -/

/-- A fence sets REPLACE and is counted. -/
def State.noteFence (s : State) : State := (s.countError 11).setHealth (fun h => { h with replace := true })

/-- A core's resident blocks are saved; one that the Granary cannot take aborts. The core leaves every core set. -/
def State.fenceCore (s : State) (c : Nat) : State :=
  let s := s.updCore c (fun k => { k with fenced := true })
  let s := { s with dev := { s.dev with cset := s.dev.cset.map (fun ws => updAt ws (c / 64) (fun w => w &&& ~~~(1#64 <<< (c % 64)))) } }
  (s.blocks.filter (fun e => e.2.core = c)).foldl (fun t e =>
    if e.2.mode == .saving || e.2.cancelled || e.2.aborted.isSome then t
    else if e.2.largest ≤ t.dev.granaryFree.length then t.saveBegin e.1 e.2 else t.abortBlock e.1 0) s

/-- The lines of stack `n` move into the pool of its neighbour (Table 22-3). -/
def State.fenceStack (s : State) (n : Nat) : State :=
  let used := Config.poolFree n - s.reed.poolFree.getD n 0
  let peer := Nat.xor n 1
  let s := s.setReed (fun r => { r with poolFree := updAt r.poolFree peer (fun k => k - used) })
  (s.setHealth (fun h => { h with fencedStacks := h.fencedStacks ++ [n] })).reedUpdate

/-- The uncorrectable errors of a unit, and the threshold of the signed configuration. -/
def State.fenceDue (s : State) (u : FenceUnit) (n : Nat) : Bool :=
  match s.cfg with
  | none => false
  | some c =>
    match u with
    | .core => n < Config.cores && !(s.core n).fenced && c.coreFence ≤ s.unitErrors 0 n
    | .cluster => n < Config.clusters && !s.health.clusters.contains n &&
        c.clusterFence ≤ s.unitErrors 1 n + ((clusterCores n).map (s.unitErrors 0)).sum
    | .hbmStack => n < 16 && !s.health.fencedStacks.contains n && c.stackFence ≤ s.unitErrors 2 n
    | .fabricPort => n < 36 && !s.portFenced n && c.portFence ≤ s.unitErrors 3 n

/-- A stack can be fenced while its neighbour serves itself and its pool has room for the lines that move (notes/assumptions/72.md). -/
def State.stackFits (s : State) (n : Nat) : Bool :=
  let peer := Nat.xor n 1
  !s.health.fencedStacks.contains peer && Config.poolFree n - s.reed.poolFree.getD n 0 ≤ s.reed.poolFree.getD peer 0

/-- A fence takes effect; one that fails is a fatal error (R499, R501). -/
def State.fence (s : State) (u : FenceUnit) (n : Nat) : State :=
  match u with
  | .core => s.noteFence.fenceCore n
  | .cluster =>
    let s := s.noteFence.setHealth (fun h => { h with clusters := h.clusters ++ [n] })
    (clusterCores n).foldl (fun t c => if (t.core c).fenced then t else t.noteFence.fenceCore c) s
  | .hbmStack => if s.stackFits n then s.noteFence.fenceStack n else s.fatal 5 0
  | .fabricPort => s.noteFence.fencePort n

def execUnitFence (unit : FenceUnit) (number : Nat) (s : State) : Out :=
  event "UNIT_FENCE" (s.fenceDue unit number) (s.fence unit number)

/-! ### PORT_RETRAIN (R497) -/

/-- The lanes that a training dropped are counted, and a record names their mask, which is open (Table 22-2). -/
def State.lanesDropped (s : State) (port n : Nat) : State :=
  let t := (List.range n).foldl (fun (t : State) _ => t.countError 9) (s.unitError 3 port)
  if n = 0 then t else t.logError 9 3 port 0 0 (Config.freeSyndrome s.fresh)

/-- After 16 failed retries a port trains again with `lanes` lanes; below 3 it is fenced. The numbered sequences not
acknowledged are sent again, and take buffers of those that the far end grants anew (R508). -/
def execPortRetrain (port lanes : Nat) (s : State) : Out :=
  match s.ports.get port with
  | none => .refused (.notEnabled "PORT_RETRAIN")
  | some x =>
    event "PORT_RETRAIN" (!x.fenced && 16 ≤ x.retries && lanes ≤ x.lanes)
      (let s := s.lanesDropped port (x.lanes - lanes)
       if lanes < 3 then (s.updPort port (fun y => { y with lanes := lanes })).noteFence.fencePort port
       else
         let out := fun (request : Bool) => (x.unacked.filter (fun u => isRequest u.packet == request)).length
         (s.updPort port (fun y => { y with lanes := lanes, retries := 0, trained := true, credReq := 128 - out true, credRep := 128 - out false,
                                            discarding := false, bufs := [], oweReq := 0, oweRep := 0 })).resend port)

end Sys2Proof.Machine
end

