-- ==== Sys2Proof/Machine/Fabric.lean ====
section
/-! DEFINITION. Machine/Fabric.lean: the fabric protocol: sequences, packets sent and received, what a home does with them,
the fragments of session messages (R249, R497, R508 to R511), and the end of a page move (R176). A packet takes one sequence of its own
(notes/assumptions/36.md). -/

namespace Sys2Proof.Machine

/-! ### Sending (R508, R510) -/

/-- Whether a port can send a packet now: trained, its class's credit held, at most 256 unacknowledged, and READY unless the
packet is SESSION (R511). -/
def FabPort.takes (x : FabPort) (p : FabPacket) : Bool :=
  x.trained && !x.fenced && x.unacked.length < 256 && (x.ready || p.typ = 7) && 0 < (if isRequest p then x.credReq else x.credRep)

/-- SESSION packets that wait at a port leave. -/
def State.sendSession (s : State) (port : Nat) : List FabPacket → State
  | [] => s.updPort port (fun x => { x with sessOut := [] })
  | p :: ps =>
    if (s.ports.get port).elim false (fun x => x.takes p) then (s.sendOver port p).sendSession port ps
    else s.updPort port (fun x => { x with sessOut := p :: ps })

/-- The path and port of a packet. One of this module takes its own path, or a remaining one where that is fenced (R498). One that is
forwarded takes what the entry of its destination and path names, or a remaining path where that port is fenced; without a valid entry
it is dropped (R510; DESIGN CHOICE, notes/assumptions/59.md). -/
def State.routeOf (s : State) (p : FabPacket) : Option (Nat × Nat) :=
  if p.src = s.dev.moduleNum || ((s.dev.fabRoute.get (16 * p.dst + p.path)).getD 0) / 2 ^ 15 % 2 = 1 then s.pathBy p.dst p.path else none

/-- What a pass over the waiting packets has done: the state, the packets that stay, the ports and classes that are full. -/
structure Pump where
  s : State
  kept : List FabPacket
  full : List (Nat × Bool)

/-- One waiting packet leaves, or stays and holds the later ones of its port and class: replies never wait for requests. A packet that
is forwarded leaves its receive buffer (R508). -/
def Pump.one (a : Pump) (p : FabPacket) : Pump :=
  match a.s.routeOf p with
  | none => { a with s := a.s.freeBuf p }
  | some (path, q) =>
    let k := { p with path := path }
    let go := (a.s.ports.get q).elim false (fun x => x.takes k) && !a.full.contains (q, isRequest k)
    if go then { a with s := (a.s.sendOver q k).freeBuf p } else { a with kept := a.kept ++ [p], full := (q, isRequest k) :: a.full }

/-- Every packet that can leave does, then what the ports owe. -/
def State.pump (s : State) : State :=
  let s := s.ports.foldl (fun (t : State) e => t.sendSession e.1 e.2.sessOut) s
  let a := s.fabOut.foldl Pump.one { s := s, kept := [], full := [] }
  { a.s with fabOut := a.kept, ports := a.s.ports.mapAll (fun _ x => x.pay) }

/-! ### FABRIC_SEQUENCE (R508) -/

/-- Packets of the retry buffer up to number `n`, that one included or not, have been received. -/
def FabPort.acked (x : FabPort) (n : Nat) (incl : Bool) : FabPort :=
  match x.unacked.findIdx? (fun e => e.seq = n) with
  | none => if !incl && x.nextSend = n then { x with unacked := [], nakAt := none, retries := 0 } else x
  | some i =>
    let k := if incl then i + 1 else i
    if k = 0 then x else { x with unacked := x.unacked.drop k, nakAt := none, retries := 0 }

/-- A NAK: everything from `n` on is to be sent again. -/
def FabPort.naked (x : FabPort) (n : Nat) : FabPort :=
  let y := x.acked n false
  if y.unacked.isEmpty then y else { y with retries := if y.nakAt = some n then y.retries + 1 else 0, nakAt := some n }

/-- The acknowledgement, the credits and the request to send again of a sequence. -/
def State.control (s : State) (port : Nat) (h : SeqHead) : State :=
  let s := s.updPort port (fun x => { x with credReq := x.credReq + h.creditReq, credRep := x.credRep + h.creditRep })
  if h.nak then (s.updPort port (fun x => x.naked h.ack)).resend port
  else if h.ackv then s.updPort port (fun x => x.acked h.ack true)
  else s

/-- A packet takes no receive buffer any more: its credit is owed. -/
def State.skip (s : State) (port : Nat) (p : FabPacket) : State := s.updPort port (fun x => { x with bufs := p :: x.bufs }.free p)

/-- A packet that arrived: dropped and counted where a value of it is reserved, handed to the port's session, forwarded, or this
module's to perform. Before READY only SESSION packets pass. -/
def State.arrive (s : State) (port : Nat) (ok : Bool) (p : FabPacket) : State :=
  if !ok || 9 ≤ p.typ then (s.countError 10).skip port p
  else if p.typ = 7 then s.updPort port (fun x => { x with sessIn := x.sessIn ++ [p], bufs := x.bufs ++ [p] })
  else if !((s.ports.get port).elim false (fun x => x.ready)) then s.skip port p
  else
    let s := s.updPort port (fun x => { x with bufs := x.bufs ++ [p] })
    if p.dst ≠ s.dev.moduleNum then { s with fabOut := s.fabOut ++ [p] } else { s with fabIn := s.fabIn ++ [p] }

/-- A packet of a keyed port is opened under the session's key, or under the new one, which ends a re-key (R455, R457, R509): none where
its tag fails; one whose counter is not above the last, or past 2^48, is dropped and counted. -/
def State.openPacket (s : State) (port : Nat) (x : Session) (r : RawPacket) : Option State :=
  let nonce := gcmNonce ((s.ports.get port).elim 0 (fun p => s.direction p false)) r.counter
  let take := fun (last : Nat) (f : Session → Session) (d : List Byte) =>
    if r.counter ≤ last || 2 ^ 48 < r.counter then (s.countError 10).skip port (r.packet d)
    else (s.updSession x.number (fun y => { f y with lastIn := r.counter })).arrive port r.formOk (r.packet d)
  match Config.gcmOpen (x.keys.take 32) nonce r.head r.body with
  | some d => some (take x.lastIn id d)
  | none =>
    if x.phase == .rekeying then
      (Config.gcmOpen (x.newKeys.take 32) nonce r.head r.body).map (take 0 Session.rekeyDone)
    else none

/-- The packets of a sequence, in order; none where a tag fails. -/
def State.arriveAll (s : State) (port : Nat) : List RawPacket → Option State
  | [] => some s
  | r :: rs =>
    match (if (s.ports.get port).elim false (fun x => x.ready) then s.portSession port else none) with
    | none => (s.arrive port r.formOk (r.packet r.body)).arriveAll port rs
    | some x => (s.openPacket port x r).bind (fun t => t.arriveAll port rs)

/-- Asks for the expected sequence again, and discards the others meanwhile. -/
def State.again (s : State) (port : Nat) : State := s.updPort port (fun x => { x.askAgain with discarding := true })

/-- The bytes of a packet that the payload continues, and the packets that it completes. -/
def FabPort.parse (x : FabPort) (bs : List Byte) : List RawPacket × List Byte := parsePackets x.ready 40 (x.rx ++ seqPayload bs)

/-- A sequence reaches a port: only the next expected number with a good CRC, and with good tags, is accepted (R497, R508). -/
def State.receive (s : State) (port : Nat) (x : FabPort) (bs : List Byte) : State :=
  let h := seqHead bs
  if !seqGood bs then s.again port
  else if h.ctrl then s.control port h
  else if h.seq ≠ x.nextRecv then (if x.discarding then s else s.again port)
  else
    let ready := (s.control port h).updPort port (fun y =>
      { y with nextRecv := (x.nextRecv + 1) % 4096, discarding := false, oweAck := true, rx := (x.parse bs).2 })
    (ready.arriveAll port (x.parse bs).1).getD (s.again port)

def execFabricSequence (port : Nat) (bytes : List Byte) (s : State) : Out :=
  match s.ports.get port with
  | none => .refused (.notEnabled "FABRIC_SEQUENCE")
  | some x => event "FABRIC_SEQUENCE" (x.trained && !x.fenced) (s.receive port x bytes)

/-! ### Requests at their home (R509) -/

/-- A packet that arrived and has not been performed, with no earlier one of its path to the same line. -/
def State.turn (s : State) (p : FabPacket) : Bool :=
  s.fabIn.contains p &&
  (s.fabIn.take (s.fabIn.idxOf p)).all (fun q => !(q.src = p.src && q.path = p.path && isRequest q && lineOf q.addr = lineOf p.addr))

/-- A packet back to the source of `p`, with its tag. -/
def State.answerTo (s : State) (p : FabPacket) (typ status : Nat) (data : List Byte) : State :=
  let path := (s.pathFor noCore p.src (lineOf p.addr)).elim 0 Prod.fst
  let k : FabPacket := { typ := typ, src := s.dev.moduleNum, dst := p.src, path := path, tag := p.tag, atop := 0, status := status,
                         addr := p.src * 2 ^ 45, data := data }
  { s with fabOut := s.fabOut ++ [k], fresh := s.fresh + 1 }

/-- The address check of R146 at the destination: memory of this module. -/
def State.homeAddr (s : State) (addr n : Nat) : Bool := moduleOf addr = s.dev.moduleNum && s.backed addr && s.backed (addr + n - 1)

/-- STATUS of an answer: lost data is status 2; a port to a peer on version 1 sends 0 in its place (R511). -/
def lossStatus (ecc : Ecc) : Nat :=
  match ecc with
  | .uncorrectable _ => 2
  | _ => 0

def State.readFor (s : State) (p : FabPacket) (ecc : Ecc) (n : Nat) : List Byte × State :=
  (s.l2Access (lineOf (localOf p.addr)) .all).eccRead ecc p.addr 0 0 ((s.ownerOf p.addr).elim 0 (fun o => o.1)) (s.rd (localOf p.addr) n)

/-- A packet that names a device register of this module as R512 lets an access name one: the source has checked its privilege, the
destination its address (R145, R509). -/
def State.regAddr (s : State) (addr n : Nat) : Bool :=
  moduleOf addr = s.dev.moduleNum && s.region addr = .dev && (n = 4 || n = 8) && addr % n = 0

def execFabricRead (p : FabPacket) (ecc : Ecc) (s : State) : Out :=
  let n := p.data.length
  event "FABRIC_READ" (p.typ = 1 && s.turn p && Ecc.atHome ecc)
    (let s := s.taken p
     if s.regAddr p.addr n then s.answerTo p 4 0 (s.devLoad (localOf p.addr - Config.devBase) n)
     else if !s.homeAddr p.addr n then s.answerTo p 4 1 []
     else
       let (bs, t) := s.readFor p ecc n
       t.answerTo p 4 (lossStatus ecc) bs)

/-- A write waits for a page that is MOVING (R177), and for room to hold its line (R179). -/
def State.packetWaits (s : State) (p : FabPacket) : Bool :=
  s.homeAddr p.addr 1 && s.writeWaits p.addr

/-- A line that a packet wrote and that is not committed: a marker behind it on its path waits should it be held (R249). -/
def State.noteFab (s : State) (p : FabPacket) : State :=
  let left := s.fabHeld.filter (fun e => s.lagging e.2.2)
  { s with fabHeld := if s.lagging (lineOf p.addr) then (p.src, p.path, lineOf p.addr) :: left else left }

/-- A WRITE packet is performed, or its address is refused. -/
def State.packetWrite (s : State) (p : FabPacket) (ecc : Ecc) : State :=
  let s := s.taken p
  if s.regAddr p.addr p.data.length then s.devStore (localOf p.addr - Config.devBase) p.data
  else if !s.homeAddr p.addr p.data.length then s.answerTo p 4 1 []
  else
    let s := if p.data.length = 128 then s else s.eccMerge ecc p.addr 0 0 ((s.ownerOf p.addr).elim 0 (fun o => o.1))
    (s.homeWrite (localOf p.addr) p.data .all none (s.chargedJob p.addr 0)).noteFab p

def execFabricWrite (p : FabPacket) (ecc : Ecc) (s : State) : Out :=
  event "FABRIC_WRITE" (p.typ = 2 && s.turn p && Ecc.atHome ecc && !s.packetWaits p) (s.packetWrite p ecc)

/-- An ATOMIC packet is performed. ATOP (Table 22-10) does not say whether min and max are signed: which it is stays open
(notes/assumptions/37.md). -/
def State.packetAtomic (s : State) (p : FabPacket) (ecc : Ecc) : State :=
  let n := if p.atop / 16 % 2 = 1 then 8 else 4
  let s := s.taken p
  if !s.homeAddr p.addr n then s.answerTo p 4 1 []
  else
    let s := s.eccMerge ecc p.addr 0 0 ((s.ownerOf p.addr).elim 0 (fun o => o.1))
    let old := s.rd (localOf p.addr) n
    let new := atomicBytes (p.atop % 16) (Config.freeBit s.fresh 0) n old p.data
    let s := { (s.homeWrite (localOf p.addr) new .all none (s.chargedJob p.addr 0)).noteFab p with fresh := s.fresh + 1 }
    if p.atop / 32 % 2 = 1 then s else s.answerTo p 4 (lossStatus ecc) old

def execFabricAtomic (p : FabPacket) (ecc : Ecc) (s : State) : Out :=
  event "FABRIC_ATOMIC" (p.typ = 3 && s.turn p && Ecc.atHome ecc && !s.packetWaits p) (s.packetAtomic p ecc)

/-! ### REPLY (R509) -/

/-- The access of an atomic to whose packet a tag belongs: its packets have consecutive tags from its own on. -/
def Req.laneOf (r : Req) (tag : Nat) : Option LaneAcc :=
  match r.kind, r.remoteTag with
  | .atomic _ _, some t => r.accs[(tag + 65536 - t) % 65536]?
  | _, _ => none

/-- The request that a reply answers. -/
def State.awaiting (s : State) (p : FabPacket) : Option (Nat × Req) :=
  s.reqs.find? (fun e => e.2.remoteTag = some p.tag || (e.2.laneOf p.tag).isSome)

/-- The answer to one packet of a request; the next packet of a read leaves if there is one. -/
def State.answered1 (s : State) (id : Nat) (r : Req) (tag : Nat) (data : List Byte) : State :=
  match r.kind with
  | .atomic _ _ =>
    let r := { r with olds := r.olds ++ [((r.laneOf tag).elim 0 (fun a => a.lane), data)] }
    let last : Bool := r.accs.length ≤ r.olds.length
    { s with reqs := s.reqs.put id { r with visible := last, remoteTag := if last then none else r.remoteTag } }
  | .fetch => s.codeArrives id r data
  | .prefetch _ => { s with reqs := s.reqs.del id }.loadFill id r data
  | _ =>
    let key := if r.whole then lineKey else (r.accs[r.olds.length]?).elim 0 (fun a => a.lane)
    let r := { r with remoteTag := none, olds := r.olds ++ [(key, data)] }
    let last : Bool := r.whole || r.accs.length ≤ r.olds.length
    if r.kind == .copyRead then
      (if last then { s with reqs := s.reqs.put id r } else s.sendRead id r r.pieces).copyAdvance .clean r.core (r.cmd.getD 0)
    else if last then { s with reqs := s.reqs.put id { r with visible := true } }
    else s.sendRead id r r.pieces

/-- A reply: it completes its request, ends the job (status 1), or delivers zeros and marks the grid (status 2). What its core sent to
the line before it has arrived (R248). -/
def State.reply (s : State) (p : FabPacket) : State :=
  let s := s.unpin (fun e => e.dst = p.src && e.tags.contains p.tag) p.tag
  match s.awaiting p with
  | some (id, r) =>
    let w := s.sentBy r ((r.accs.head?).elim (128 * r.vline) (fun a => a.va))
    if p.status = 1 then { s with reqs := s.reqs.del id }.fatalAccess w.core w.asn w.ten w.job w.need w.va w.rec_
    else if p.status = 2 then (s.markLoss r.grid).answered1 id r p.tag (p.data.map (fun _ => 0))
    else s.answered1 id r p.tag p.data
  | none => match s.sent.get p.tag with
    | some w =>
      let s := { s with sent := s.sent.del p.tag }
      if p.status = 1 then s.fatalAccess w.core w.asn w.ten w.job w.need w.va w.rec_ else s
    | none => s

def execFabricReply (p : FabPacket) (s : State) : Out :=
  event "FABRIC_REPLY" (p.typ = 4 && s.fabIn.contains p) ((s.taken p).reply p)

/-! ### Flush markers (R249) -/

/-- A marker is acknowledged once the writes that arrived ahead of it on its path have been performed, none of them held. -/
def State.markerDue (s : State) (p : FabPacket) : Bool :=
  s.fabIn.contains p && s.fabHeld.all (fun e => !(e.1 = p.src && e.2.1 = p.path && s.lineHeld e.2.2)) &&
  (s.fabIn.take (s.fabIn.idxOf p)).all (fun q => !(q.src = p.src && q.path = p.path && (q.typ = 2 || q.typ = 3)))

def execMarker (p : FabPacket) (s : State) : Out :=
  event "MARKER" (p.typ = 5 && s.markerDue p) ((s.taken p).answerTo p 6 0 [])

def execMarkerAck (p : FabPacket) (s : State) : Out :=
  event "MARKER_ACK" (p.typ = 6 && s.fabIn.contains p)
    (let s := s.taken p
     let s := (s.markPath.get p.tag).elim s (fun path => s.unpin (fun e => e.dst = p.src && e.path = path) p.tag)
     { s with marks := s.marks.filter (fun e => !(e.1 = p.tag && e.2 = p.src)), markPath := s.markPath.del p.tag })

/-! ### SESSION packets (R511) -/

/-- A fragment joins the message being put together; one with offset 0 begins a new message. -/
def FabPort.fragment (x : FabPort) (p : FabPacket) : FabPort :=
  let off := p.addr % 65536
  let len := p.addr / 65536 % 65536
  { x.free p with sessIn := x.sessIn.erase p, peer := p.src, msg := (if off = 0 then [(off, p.data)] else x.msg ++ [(off, p.data)]), msgLen := len }

/-- The message of a port, when every fragment has arrived. -/
def FabPort.message (x : FabPort) : Option (List Byte) :=
  let bs := x.msg.flatMap (fun e => e.2)
  if x.msgLen ≠ 0 && bs.length = x.msgLen then some bs else none

def execFabricSession (port : Nat) (p : FabPacket) (s : State) : Out :=
  event "FABRIC_SESSION" (p.typ = 7 && (s.ports.get port).elim false (fun x => x.sessIn.head? = some p && x.message.isNone))
    (s.updPort port (fun x => x.fragment p))

/-- A message to a peer in SESSION packets of at most 128 bytes. -/
def State.sessionPackets (s : State) (port : Nat) (bs : List Byte) : State :=
  let ps := (fragments bs).map (fun e =>
    ({ typ := 7, src := s.dev.moduleNum, dst := (s.ports.get port).elim 0 (fun x => x.peer), path := 0, tag := 0, atop := 0, status := 0,
       addr := e.1 + 65536 * (bs.length % 65536), data := e.2 } : FabPacket))
  s.updPort port (fun x => { x with sessOut := x.sessOut ++ ps })

/-! ### The end of a page move (R176, R177) -/

/-- The writes of this module that wait for a page, in the order in which they came: a lane's by its request, a copy's by its core and
command. -/
def State.waitingFor (s : State) (m : Move) : List (Nat × Req) :=
  s.reqs.filter (fun e => e.2.sent && e.2.kind.isWrite && !e.2.visible &&
    e.2.accs.any (fun a => moduleOf a.pa = s.dev.moduleNum && m.covers (localOf a.pa)))

/-- The packets that wait for it, as step 4 names their place. -/
def State.packetsFor (s : State) (m : Move) : List FabPacket :=
  (s.fabIn.filter (fun p => (p.typ = 2 || p.typ = 3) && moduleOf p.addr = s.dev.moduleNum && m.covers (localOf p.addr))).map
    (fun p => { p with addr := m.remap s.dev.moduleNum p.addr })

/-- The writes held by a move are performed at the destination, in order: the module's own before those of other modules
(DESIGN CHOICE, notes/assumptions/65.md). -/
def State.performHeld (s : State) (reqs : List (Nat × Req)) (pks : List FabPacket) : State :=
  let s := reqs.foldl (fun (t : State) e => match e.2.cmd, t.reqs.get e.1 with
    | some c, _ => t.copyAdvance .clean e.2.core c
    | none, some r => if t.writeReady e.1 r then t.performWrite e.1 r .clean else t
    | none, none => t) s
  pks.foldl (fun (t : State) p =>
    if !t.turn p || t.packetWaits p then t else if p.typ = 2 then t.packetWrite p .clean else t.packetAtomic p .clean) s

/-- Steps 2 to 6 of a move. -/
def State.moveEnd (s : State) (m : Move) : State :=
  let lines := s.linesIn m.src m.size
  ((s.moveCopy m).performHeld (s.waitingFor m) (s.packetsFor m)).moveFree m lines

/-- Whether a move may end: its dirty lines have been written back, the controllers of the destination can hold what its pools cannot
take, and the held writes find room there (R179). -/
def State.moveFits (s : State) (m : Move) : Bool :=
  !s.lag.any (fun e => !e.2.held && m.covers (128 * e.1)) &&
  (moduleOf m.dst ≠ s.dev.moduleNum ||
    (let t := s.copyPage m
     let u := s.moveEnd m
     (List.range 16).all (fun n => t.heldOn n ≤ max Config.heldLinesPerStack (s.heldOn n)) &&
     (s.waitingFor m).all (fun e => (u.reqs.get e.1).elim true (fun r => r.cmd.isSome || r.visible || u.heldRoom r)) &&
     (s.packetsFor m).all (fun p => !(u.fabIn.contains p && u.packetWaits p))))

/-- A move ends; `frame` names the page by its source frame. -/
def execPageMoveComplete (frame : Nat) (s : State) : Out :=
  match s.reed.moves.find? (fun m => m.src = 65536 * frame) with
  | some m => event "PAGE_MOVE_COMPLETE" (s.moveFits m) (s.moveEnd m)
  | none => .refused (.notEnabled "PAGE_MOVE_COMPLETE")

end Sys2Proof.Machine
end

