-- ==== Sys2Proof/Machine/Matrix.lean ====
section
/-! DEFINITION. Machine/Matrix.lean: the matrix engine: convergence registers and signing (R318 to R323), operands and k-steps
(R324 to R331), accumulator commands (R332 to R340). -/

namespace Sys2Proof.Machine

/-! ### Accumulators -/

def Acc.read (a : Acc) (i j : Nat) : Word :=
  match a.cells.get (128 * i + j) with
  | some x => x
  | none => match a.fill with
    | .zero => 0
    | .free seed => Config.freeWord seed (128 * i + j)

/-- Element numbers in ascending order, and an accumulator with every element given by row and column. -/
def accKeys : List Nat := List.range 16384
def Acc.setAll (a : Acc) (f : Nat → Nat → Word) : Acc := { a with cells := accKeys.map (fun k => (k, f (k / 128) (k % 128))) }

def State.updAcc (s : State) (b n : Nat) (f : Acc → Acc) : State := s.updBlock b (fun x => { x with accs := updAt x.accs n f })

/-- The distinct tiles that a command reads. -/
def AccKind.reads : AccKind → List Nat
  | .mma a bs _ _ _ _ _ _ _ => (a :: bs).eraseDups
  | .ld t _ => [t]
  | _ => []

/-- Whether an accumulator's commands go on: not while the block is being saved, unless the save waits for the result of one, or for
a drained tile that one still reads (R405 to R407). -/
def Block.accRuns (b : Block) (a : Acc) : Bool :=
  b.mode != .saving || a.queue.any AccCmd.runsOn ||
  a.queue.any (fun c => b.tileOps.any (fun o => o.goal == .drained && c.kind.reads.contains o.tile))

/-- The physical accumulator of a block's accumulator (Table 2-4). -/
def Block.physAcc (b : Block) (n : Nat) : Nat := b.grant.accs.getD n n

/-- An operation is at the head of an accumulator's queue, and goes on. -/
def Block.stepReady (b : Block) (a : Acc) : Bool :=
  b.accRuns a && (match a.queue with
    | ⟨_, .mma _ _ _ _ _ _ _ _ _⟩ :: _ => true
    | _ => false)

/-- How far an accumulator stands behind the one that the engine stepped last. -/
def afterAcc (last n : Nat) : Nat := (n + 3 - last) % 4

/-- The engine of a core steps its ready operations in turn, from the accumulator after the one it stepped last (R334). -/
def State.engineTurn (s : State) (b : Block) (n : Nat) : Bool :=
  let last := (s.core b.core).lastAcc
  (s.resident b.core).all (fun e => (List.range e.2.accs.length).all (fun i => match e.2.accs[i]? with
    | some a => !e.2.stepReady a || afterAcc last (b.physAcc n) ≤ afterAcc last (e.2.physAcc i)
    | none => true))

/-- A fault record as a trap (R332). -/
def Ctx.accFaultTrap (x : Ctx) (n : Nat) (f : AccFault) : TrapInfo :=
  { x.trap 0x05 0 (BitVec.ofNat 64 f.addr) x.act true with defer := true, kstep := f.kstep, record := .acc n }

/-- What an instruction that names accumulator `n` meets first: the declared count, an undelivered fault (R315, R332). -/
def Ctx.withAcc (x : Ctx) (n : Nat) (go : Acc → State → State) (s : State) : State :=
  match x.blk.accs[n]? with
  | none => x.raise (x.tileTrap n) s
  | some a => match a.fault with
    | some f => x.raise (x.accFaultTrap n f) s
    | none => go a s

/-- Queues a command on an accumulator; the slot's flag is busy until it has been performed (R334). -/
def Ctx.queueAcc (x : Ctx) (n : Nat) (k : AccKind) (s : State) : State :=
  let (id, s) := s.newId
  (x.setFlag id s).updAcc x.b n (fun a => { a with queue := a.queue ++ [{ id := id, kind := k }] })

def Acc.room (a : Acc) : Bool := a.queue.length < Config.accQueueDepth

/-! ### `conv.decl` (R320) -/

/-- The waves of a mask that do not exist or have finished. -/
def Block.badWaves (b : Block) (m : Lanes) : Bool :=
  (lanesIn m).any (fun n => match b.waves[n]? with | some w => w.finished | none => true)

/-- The register's new state; none where `conv.decl` is misused. -/
def Conv.declare (c : Conv) (m : Lanes) : Option Conv :=
  match c with
  | .free => some (if m = 0 then .free else .opened m [])
  | .opened mask signers =>
    if m = mask then some c else if m = 0 && signers.isEmpty then some .free else none
  | .broken _ => some (if m = 0 then .free else .opened m [])

/-- CONV_MISUSE of an instruction. -/
def Ctx.convTrap (x : Ctx) : TrapInfo := x.trap 0x11 0 0 x.act true

def execConvDecl (h : Head) (f : EFmt) (s : State) : Out :=
  issueOp "CONV_DECL" h false [.s f.a.toNat 1] (waveOp fun x s =>
    let m : Lanes := x.scal f.a.toNat
    match x.blk.convs[f.x.toNat]? with
    | none => x.raise x.convTrap s
    | some c =>
      if x.blk.badWaves m then x.raise x.convTrap s
      else match c.declare m with
        | none => x.raise x.convTrap s
        | some d => s.updBlock x.b (fun b => { b with convs := updAt b.convs f.x.toNat (fun _ => d) })) s

/-! ### Signing (R321) -/

/-- A word without its guard and chain bit (R322). -/
def bareWord (w : DWord) : DWord := w &&& 0xFF01FFFFFFFFFFFF#64

/-- The B tiles a signer names: one, or the eight of `mma.g` (R326). -/
def Ctx.groupTiles (x : Ctx) (r : Nat) : List Nat :=
  (List.range 4).flatMap (fun q => let v := (x.scal (r + q)).toNat; [v % 64, v / 65536 % 64])

/-- A trap of the threads that met it only; the others of the group go on (Table 21-4). -/
def Ctx.raiseOwn (t : TrapInfo) (s : State) : State := { s with note := .split t }

/-- The active threads sign and wait. -/
def Ctx.sign (x : Ctx) (f : EFmt) (tiles : List Nat) (s : State) : State :=
  let cv := f.bits 8 6
  match x.blk.accs[f.x.toNat]?, x.blk.convs[cv]? with
  | none, _ => Ctx.raiseOwn (x.tileTrap f.x.toNat) s
  | some _, some (.opened mask _) =>
    if !hasLane mask x.w then Ctx.raiseOwn x.convTrap s
    else
      let mine := x.lanes.map (fun l =>
        { wave := x.w, lane := l, word := bareWord x.c.word, fmt := x.vec f.c.toNat l, tiles := tiles, flag := x.c.flag : Signer })
      (x.makeWait x.act (.sign cv) s).updBlock x.b (fun b => { b with convs := updAt b.convs cv (fun c => match c with
        | .opened m ss => .opened m (ss ++ mine)
        | _ => c) })
  | _, _ => Ctx.raiseOwn x.convTrap s

def execMma (h : Head) (f : EFmt) (s : State) : Out :=
  issueOp "MMA" h false [.v f.c.toNat 1] (waveOp fun x => x.sign f [f.b.toNat]) s

def execMmaG (h : Head) (f : EFmt) (s : State) : Out :=
  issueOp "MMA_G" h false [.s f.b.toNat 4, .v f.c.toNat 1] (waveOp fun x => x.sign f (x.groupTiles f.b.toNat)) s

/-! ### The end of a round (R318, R322, R325, R326) -/

/-- A reserved value in a format word (Table 12-3, subcode 3). -/
def fmtReserved (w : Nat) : Bool :=
  w / 2 ^ 10 % 4 != 0 || 2 ≤ w / 2 ^ 16 % 4 || (2 ≤ w % 4 && w / 16 % 8 != 0) || (2 ≤ w / 4 % 4 && w / 128 % 8 != 0)

/-- The width in bits of an operand width code. -/
def widthOf (c : Nat) : Nat := if c = 0 then 4 else if c = 1 then 8 else 16

/-- One operand of an operation: its width code, whether headers are forced, the forced selector, the block length code. -/
structure Operand where
  wc : Nat
  forced : Bool
  sel : Nat
  blk : Nat
  deriving DecidableEq, Repr

def opA (fmt blk : Nat) : Operand := { wc := fmt % 4, forced := fmt / 16 % 2 = 1, sel := fmt / 32 % 4, blk := blk }
def opB (fmt blk : Nat) : Operand := { wc := fmt / 4 % 4, forced := fmt / 128 % 2 = 1, sel := fmt / 256 % 4, blk := blk }

/-- An operand with per-block headers (R317). -/
def Operand.headed (o : Operand) : Bool := o.wc < 2 && !o.forced
/-- Its block length in elements. -/
def Operand.len (o : Operand) : Nat := 16 * 2 ^ o.blk

/-- The width code of a tile (Table 7-6) that holds operands of this width. -/
def tileBits (t : Tile) : Nat := match t.width with | 0 => 4 | 1 => 8 | 2 => 16 | _ => 32

/-- Table 12-5, for `steps` = KOFF + KC. -/
def Operand.suits (o : Operand) (t : Tile) (steps : Nat) : Bool :=
  t.rows = 128 && tileBits t = widthOf o.wc && widthOf o.wc * steps ≤ t.len &&
  (!o.headed || (t.blk = o.blk && (16 * steps + o.len - 1) / o.len ≤ t.hslots))

/-- The fields of a signed word. -/
structure Signed where
  acc : Nat
  tileA : Nat
  blkA : Nat
  blkB : Nat
  kc : Nat
  koff : Nat
  grouped : Bool
  deriving DecidableEq, Repr

def signedOf (w : DWord) : Signed :=
  let g := fun (lo n : Nat) => w.toNat / 2 ^ lo % 2 ^ n
  { acc := g 41 2, tileA := g 33 6, blkA := g 15 2, blkB := g 13 2, kc := (if g 9 4 = 0 then 16 else g 9 4), koff := g 0 6,
    grouped := g 56 8 = 0xCC }

/-- The tiles in the order in which step 3 meets them. -/
def Signed.tiles (g : Signed) (bs : List Nat) : List Nat := g.tileA :: bs

/-- TILE_STATE at a signing. -/
def tileStateAt (n : Nat) : TrapInfo := waitTrap 0x0A 0 (BitVec.ofNat 64 n)

/-- The first tile that is undeclared or UNDEFINED, or whose copy fault is delivered (R208, R219, R322 step 3). That a recorded copy
fault is delivered at this step, to every signer, is the model's choice (DESIGN CHOICE, notes/assumptions/32.md). -/
def Block.tileMissing (b : Block) : List Nat → Option TrapInfo
  | [] => none
  | n :: ns => match b.tiles[n]? with
    | none => some (tileStateAt n)
    | some t =>
      if t.st == .undefined then some (tileStateAt n)
      else match t.fault with
        | some f => some { waitTrap f.code (if f.code = 0x08 then 1 else 2) f.addr with defer := true, record := .tile n }
        | none => b.tileMissing ns

/-- The eight B tiles of `mma.g` agree in all but PITCH, BASE and HBASE (R326). -/
def sameShape (t u : Tile) : Bool := t.rows = u.rows && t.width = u.width && t.len = u.len && t.blk = u.blk && t.hslots = u.hslots

/-- Step 3 of R322. Which of several tiles that fail TRAP_ADDR names is open, and likewise where the eight B tiles disagree (R326): the
model names the first in the order A, B, those UNDEFINED first, and T_0 (DESIGN CHOICE, notes/assumptions/32.md). -/
def Block.operandTrap (b : Block) (g : Signed) (fmt : Nat) (bs : List Nat) : Option TrapInfo :=
  let steps := g.koff + g.kc
  let tile := fun (n : Nat) => (b.tiles[n]?).getD Tile.start
  match b.tileMissing (g.tiles bs) with
  | some t => some t
  | none =>
    if !(opA fmt g.blkA).suits (tile g.tileA) steps then some (tileStateAt g.tileA)
    else match bs.find? (fun n => !(opB fmt g.blkB).suits (tile n) steps) with
      | some n => some (tileStateAt n)
      | none => if bs.all (fun n => sameShape (tile n) (tile (bs.headD 0))) then none else some (tileStateAt (bs.headD 0))

/-- The subcode of FORMAT_DIVERGENCE (Table 12-3), if the signatures call for it. -/
def formatSub (ss : List Signer) : Option Nat :=
  match ss with
  | [] => none
  | s :: rest =>
    if !rest.all (fun t => t.word = s.word && t.fmt = s.fmt && t.tiles = s.tiles) then some 1
    else if s.fmt.toNat / 2 ^ 20 != 0 then some 2
    else if fmtReserved s.fmt.toNat then some 3
    else none

/-- Whether every non-exited thread of the declared waves waits in the round, its replays done (R321). -/
def Block.roundComplete (b : Block) (cv : Nat) (mask : Lanes) : Bool :=
  (lanesIn mask).all (fun n => match b.waves[n]? with
    | some w => w.threads.all (fun t => t.st == .exited || (t.st == .waiting (.sign cv) && !t.owed))
    | none => true)

/-- The signers of a wave. -/
def signersOf (ss : List Signer) (w : Nat) : Lanes := lanesOf (fun l => ss.any (fun s => s.wave = w && s.lane = l))

/-- The register at the end of a round: OPEN with no signatures. -/
def Conv.newRound (c : Conv) : Conv :=
  match c with
  | .opened m _ => .opened m []
  | _ => c

def Block.newRound (b : Block) (cv : Nat) : Block := { b with convs := updAt b.convs cv Conv.newRound }

/-- The round ends without an operation: every signer takes a trap at its own instruction. -/
def State.failRound (s : State) (b cv : Nat) (ss : List Signer) (mk : Nat → Nat → TrapInfo) : State :=
  s.updBlock b (fun x =>
    { x.newRound cv with waves := x.waves.mapIdx (fun i w => w.recordTraps (signersOf ss i) (mk i)) })

/-- Step 5 of R322. -/
def State.issueMma (s : State) (b cv : Nat) (g : Signed) (fmt : Word) (bs : List Nat) (ss : List Signer) : State :=
  let (id, s) := s.newId
  let k : AccKind := .mma g.tileA bs g.grouped fmt g.blkA g.blkB g.kc g.koff 0
  let s := s.updAcc b g.acc (fun a => { a with queue := a.queue ++ [{ id := id, kind := k }] })
  let s := s.addReaders b (g.tiles bs).eraseDups
  let s := s.updBlock b (fun x => x.newRound cv)
  let s := ((ss.map (fun t => (t.wave, t.flag))).eraseDups).foldl (fun t e => t.setFlag b e.1 e.2 id) s
  ((ss.map (fun t => t.wave)).eraseDups).foldl (fun t w => t.resumeLanes b w (signersOf ss w)) s

/-- What a complete round comes to: a trap of every signer, the issue, or more waiting (step 4). Steps 1 to 3 are tested anew while the
round waits in step 4 (DESIGN CHOICE, notes/assumptions/32.md). -/
def State.endRound (s : State) (b cv : Nat) (blk : Block) (ss : List Signer) : Option State :=
  match ss with
  | [] => none
  | s0 :: _ =>
    let g := signedOf s0.word
    match formatSub ss with
    | some sub => some (s.failRound b cv ss (fun w l => waitTrap 0x04 sub
        (((ss.find? (fun t => t.wave = w && t.lane = l)).elim 0 (fun t => t.fmt)).setWidth 64)))
    | none =>
      match (blk.accs[g.acc]?).bind (fun a => a.fault) with
      | some f => some ((s.failRound b cv ss (fun _ _ =>
          { waitTrap 0x05 0 (BitVec.ofNat 64 f.addr) with defer := true, kstep := f.kstep })).clearRecord b (.acc g.acc))
      | none =>
        match blk.operandTrap g s0.fmt.toNat s0.tiles with
        | some t => some ((s.failRound b cv ss (fun _ _ => { t with record := .none })).clearRecord b t.record)
        | none =>
          if (g.tiles s0.tiles).all (fun n => (blk.tiles[n]?).elim false (fun t => t.st == .ready)) &&
             (blk.accs[g.acc]?).elim false Acc.room
          then some (s.issueMma b cv g s0.fmt s0.tiles ss) else none

def execSigningRoundComplete (blk conv : Nat) (s : State) : Out :=
  match s.block blk with
  | none => .refused (.notEnabled "SIGNING_ROUND_COMPLETE")
  | some b => match b.convs[conv]? with
    | some (.opened mask ss) =>
      if !(b.mode == .normal || b.mode == .drain) || b.cancelled || b.aborted.isSome || !b.roundComplete conv mask then .refused (.notEnabled "SIGNING_ROUND_COMPLETE")
      else match s.endRound blk conv b ss with
        | some t => .next t
        | none => .refused (.notEnabled "SIGNING_ROUND_COMPLETE")
    | _ => .refused (.notEnabled "SIGNING_ROUND_COMPLETE")

/-! ### Operands in the window (R325, R327) -/

/-- The value in the `n` bytes at a window offset. -/
def Block.spadNat (b : Block) (o n : Nat) : Nat := natOfBytes (b.spadRead o n)

/-- The header of block `k` of row `i`. -/
def Block.header (b : Block) (t : Tile) (i k : Nat) : Nat := b.spadNat (t.hbase + 8 * t.hslots * i + 2 * k) 2

/-- Element `k` of row `i` (R267, R327). -/
def Block.element (b : Block) (o : Operand) (t : Tile) (i k : Nat) : Num :=
  let row := t.base + 8 * t.pitch * i
  let code := if o.wc = 0 then b.spadNat (row + k / 2) 1 / 16 ^ (k % 2) % 16 else b.spadNat (row + k) 1
  if o.wc = 2 then h16.num (b.spadNat (row + 2 * k) 2)
  else if o.wc = 3 then bf16.num (b.spadNat (row + 2 * k) 2)
  else if o.forced then (encOf (o.wc = 1) o.sel).decode code
  else decodeUnder (b.header t i (k / o.len)) (o.wc = 1) code

/-- The headers of one step: row block, row, block within the step, value (R330). -/
def Block.stepHeaders (b : Block) (o : Operand) (t : Tile) (rb m : Nat) : List (Nat × Nat × Nat × Nat) :=
  if o.headed then
    let n := max 1 (64 / o.len)
    (List.range 128).flatMap (fun i => (List.range n).map (fun k => (rb, i, k, b.header t i (64 * m / o.len + k))))
  else []

/-! ### The k-step (R328) -/

/-- One update of an element: the new value, and whether INV or OVF is set. -/
def stepElem (c : Word) (t : Num) : Word × Bool × Bool :=
  let a := f32.num c.toNat
  let t := if t.isZero then Num.fin false 0 0 else t
  let sum := Num.add .rne a t
  let r := f32.round .rne false sum
  let fin := fun (x : Num) => match x with | .fin _ _ _ => true | _ => false
  (BitVec.ofNat 32 r, sum.isNan, fin a && fin t && r % 2 ^ 31 = f32.infBits)

/-- T of an element: the exact sum of its 64 products. -/
def Block.stepSum (b : Block) (oa ob : Operand) (ta tb : Tile) (i j m : Nat) : Num :=
  Num.sum .rne ((List.range 64).map (fun k => (b.element oa ta i (64 * m + k)).mul (b.element ob tb j (64 * m + k))))

/-- TRAP_ADDR of a matrix fault (R331). -/
def accFaultAddr (isB : Bool) (h : Nat × Nat × Nat × Nat) : Nat :=
  h.2.2.2 + 2 ^ 16 * b2n isB + 2 ^ 17 * h.2.1 + 2 ^ 24 * h.2.2.1 + 2 ^ 27 * h.1

/-- An operation's operands. -/
structure MmaOp where
  ta : Tile
  tbs : List Tile
  grouped : Bool
  oa : Operand
  ob : Operand
  m : Nat
  deriving DecidableEq, Repr

/-- The first header of a step that fails its check, as a fault address. -/
def Block.badHeader (b : Block) (p : MmaOp) : Option Nat :=
  let as_ := (b.stepHeaders p.oa p.ta 0 p.m).map (fun h => (false, h))
  let bs := (p.tbs.mapIdx (fun r t => b.stepHeaders p.ob t (if p.grouped then r else 0) p.m)).flatten.map (fun h => (true, h))
  ((as_ ++ bs).find? (fun e => !hdrOk e.2.2.2.2)).map (fun e => accFaultAddr e.1 e.2)

/-- The B tile of an accumulator row. -/
def MmaOp.tileB (p : MmaOp) (i : Nat) : Tile := (p.tbs[if p.grouped then i / 16 else 0]?).getD Tile.start

/-- The accumulator after a step that every header passed. -/
def Block.stepAcc (b : Block) (p : MmaOp) (a : Acc) : Acc :=
  let rs := accKeys.map (fun k => stepElem (a.read (k / 128) (k % 128)) (b.stepSum p.oa p.ob p.ta (p.tileB (k / 128)) (k / 128) (k % 128) p.m))
  { a with cells := List.zip accKeys (rs.map (fun r => r.1)), inv := a.inv || rs.any (fun r => r.2.1), ovf := a.ovf || rs.any (fun r => r.2.2) }

/-- The tile that a command writes. -/
def AccKind.writes : AccKind → Option Nat
  | .st t _ => some t
  | .stq t _ => some t
  | _ => none

/-- A command is discarded: its flag clears, a tile it would write goes back to EMPTY, its readers fall (R331). -/
def State.discardAcc (s : State) (b : Nat) (c : AccCmd) : State :=
  let s := (s.clearFlagAll b c.id).dropReaders b c.kind.reads
  match c.kind.writes with
  | some t => s.setTile b t .empty
  | none => s

/-- A failing header stops the operation and discards the commands behind it (R331). -/
def State.stopMma (s : State) (b n done addr : Nat) (q : List AccCmd) : State :=
  q.foldl (fun t c => t.discardAcc b c) (s.updAcc b n (fun a => { a with queue := [], fault := some { kstep := done, addr := addr } }))

/-- A step: a checkpoint, or the end of the operation. -/
def State.kstep (s : State) (b n : Nat) (blk : Block) (a : Acc) (c : AccCmd) (rest : List AccCmd) : State :=
  match c.kind with
  | .mma ta tbs grouped fmt blkA blkB kc koff done =>
    let tile := fun (k : Nat) => (blk.tiles[k]?).getD Tile.start
    let p : MmaOp := { ta := tile ta, tbs := tbs.map tile, grouped := grouped, oa := opA fmt.toNat blkA, ob := opB fmt.toNat blkB,
                       m := koff + done }
    (match blk.badHeader p with
     | some addr => s.stopMma b n done addr (c :: rest)
     | none =>
       let a := blk.stepAcc p a
       if done + 1 < kc then
         s.updAcc b n (fun _ => { a with queue := { c with kind := .mma ta tbs grouped fmt blkA blkB kc koff (done + 1) } :: rest })
       else
         ((s.updAcc b n (fun _ => { a with queue := rest })).clearFlagAll b c.id).dropReaders b c.kind.reads)
  | _ => s

def execMmaKstep (blk acc : Nat) (s : State) : Out :=
  match s.block blk with
  | none => .refused (.notEnabled "MMA_KSTEP")
  | some b => match b.accs[acc]? with
    | none => .refused (.notEnabled "MMA_KSTEP")
    | some a => match a.queue with
      | c :: rest => match c.kind with
        | .mma _ _ _ _ _ _ _ _ _ => event "MMA_KSTEP" (b.accRuns a && s.engineTurn b acc)
          ((s.kstep blk acc b a c rest).updCore b.core (fun k => { k with lastAcc := b.physAcc acc }))
        | _ => .refused (.notEnabled "MMA_KSTEP")
      | [] => .refused (.notEnabled "MMA_KSTEP")

/-! ### `mma.wait` and the accumulator commands (R333, R337 to R340) -/

def execMmaWait (h : Head) (f : EFmt) (s : State) : Out :=
  issueOp "MMA_WAIT" h false [] (waveOp fun x s =>
    match x.blk.accs[f.x.toNat]? with
    | none => x.raise (x.tileTrap f.x.toNat) s
    | some a => needState a.queue.isEmpty (x.withAcc f.x.toNat (fun _ s => s)) s) s

/-- A command without a tile: room in the queue, then its place in it. -/
def accPlain (name : String) (h : Head) (f : EFmt) (k : AccKind) (s : State) : Out :=
  issueOp name h false [] (waveOp fun x =>
    x.withAcc f.x.toNat (fun a => needState a.room (x.queueAcc f.x.toNat k))) s

def execAccZero (h : Head) (f : EFmt) (s : State) : Out := accPlain "ACC_ZERO" h f .zero s
def execAccFclr (h : Head) (f : EFmt) (s : State) : Out := accPlain "ACC_FCLR" h f (.fclr (f.bits 2 0)) s

def execAccFlg (h : Head) (f : EFmt) (s : State) : Out :=
  issueOp "ACC_FLG" h false [.s f.a.toNat 1] (waveOp fun x =>
    x.withAcc f.x.toNat (fun a => needState a.room (x.queueAcc f.x.toNat (.flg x.w f.a.toNat false)))) s

/-- The shape a tile needs for `acc.ld` and `acc.st` (R337). -/
def formTile (form : Nat) (t : Tile) : Bool :=
  t.rows = 128 && tileBits t = (if form = 0 then 32 else 16) && (if form = 0 then 64 else 32) ≤ t.len

/-- The shape a tile needs for `acc.stq` (R338). -/
def stqTile (w : Nat) (t : Tile) : Bool :=
  let qw := w / 65536 % 4
  let len := 16 * 2 ^ (w / 2 ^ 18 % 4)
  qw ≤ 1 && t.rows = 128 && tileBits t = widthOf qw && t.blk = w / 2 ^ 18 % 4 && 2 * widthOf qw ≤ t.len &&
  (32 + len - 1) / len ≤ t.hslots

/-- A command that names tile A: it issues once the tile is in the state it needs and the queue has room (R210, R334); an unsuitable
tile then traps (R340; notes/assumptions/46.md). -/
def Ctx.accTile (x : Ctx) (f : EFmt) (suits : Tile → Bool) (st : TileState) (k : AccKind) (take : State → State) (s : State) : State :=
  x.withAcc f.x.toNat (fun a => x.withTile f.a.toNat false (fun t s =>
    needState (t.st == st && a.room) (fun s =>
      if !suits t then x.raise (x.tileTrap f.a.toNat) s else x.queueAcc f.x.toNat k (take s)) s)) s

def execAccLd (h : Head) (f : EFmt) (s : State) : Out :=
  issueOp "ACC_LD" h false [] (waveOp fun x =>
    x.accTile f (formTile (f.bits 1 0)) .ready (.ld f.a.toNat (f.bits 1 0)) (fun s => s.addReaders x.b [f.a.toNat])) s

def execAccSt (h : Head) (f : EFmt) (s : State) : Out :=
  issueOp "ACC_ST" h false [] (waveOp fun x =>
    x.accTile f (formTile (f.bits 1 0)) .empty (.st f.a.toNat (f.bits 1 0)) (fun s => s.setTile x.b f.a.toNat .filling)) s

def execAccStq (h : Head) (f : EFmt) (s : State) : Out :=
  issueOp "ACC_STQ" h false [.s f.b.toNat 1] (waveOp fun x =>
    let w := x.scal f.b.toNat
    x.accTile f (stqTile w.toNat) .empty (.stq f.a.toNat w) (fun s => s.setTile x.b f.a.toNat .filling)) s

/-! ### ACC_COMMAND_PERFORM (R334) -/

/-- The 16-bit format of a form. -/
def formFmt (form : Nat) : Fmt := if form = 1 then h16 else bf16

/-- An element of a tile row as an accumulator takes it. -/
def Block.accElem (b : Block) (t : Tile) (form i j : Nat) : Word :=
  let row := t.base + 8 * t.pitch * i
  if form = 0 then BitVec.ofNat 32 (b.spadNat (row + 4 * j) 4)
  else BitVec.ofNat 32 (f32.round .rne false ((formFmt form).num (b.spadNat (row + 2 * j) 2)))

/-- An element as `acc.st` writes it, and whether a finite value became infinite. -/
def storeElem (form : Nat) (x : Word) : List Byte × Bool :=
  if form = 0 then (bytesOfNat x.toNat 4, false)
  else
    let v := f32.num x.toNat
    let r := (formFmt form).round .rne false v
    (bytesOfNat r 2, (match v with | .fin _ _ _ => true | _ => false) && r % 2 ^ 15 = (formFmt form).infBits)

/-- `acc.st`: the rows written, and OVF. -/
def Block.storeAcc (b : Block) (t : Tile) (form : Nat) (a : Acc) : Block × Bool :=
  (List.range 128).foldl (fun (acc : Block × Bool) i =>
    let es := (List.range 128).map (fun j => storeElem form (a.read i j))
    (acc.1.spadWrite (t.base + 8 * t.pitch * i) (es.flatMap (fun e => e.1)), acc.2 || es.any (fun e => e.2))) (b, false)

/-- `acc.stq`: the rows and headers written, SAT and INV. -/
def Block.quantAcc (b : Block) (t : Tile) (w : Nat) (a : Acc) : Block × Bool × Bool :=
  let eight : Bool := w / 65536 % 4 = 1
  let len := 16 * 2 ^ (w / 2 ^ 18 % 4)
  (List.range 128).foldl (fun (acc : Block × Bool × Bool) i =>
    let qs := (pieces len ((List.range 128).map (fun j => f32.num (a.read i j).toNat))).map (quantise eight (w / 4096 % 16))
    let hdrs := qs.flatMap (fun q => bytesOfNat q.header 2)
    ((acc.1.spadWrite (t.base + 8 * t.pitch * i) (qs.flatMap (fun q => packCodes eight q.codes))).spadWrite
       (t.hbase + 8 * t.hslots * i) (hdrs ++ List.replicate (8 * t.hslots - hdrs.length) 0),
     acc.2.1 || qs.any (fun q => q.sat), acc.2.2 || qs.any (fun q => q.inv))) (b, false, false)

/-- Whether a byte of the window lies in a tile's rows or headers. -/
def Tile.covers (t : Tile) (o : Nat) : Bool :=
  let row := fun (base pitch n : Nat) => base ≤ o && (o - base) % (8 * pitch) < 8 * n && (o - base) / (8 * pitch) < t.rows
  row t.base t.pitch t.len || row t.hbase t.hslots t.hslots

/-- A tile's window bytes as an accumulator's command leaves them in `w`. -/
def State.tileWritten (s : State) (b : Nat) (t : Tile) (w : Block) : State :=
  (s.updBlock b (fun x => { x with spad := w.spad, touched := w.touched })).dropShadow b t.covers

/-- A command other than an operation is performed. -/
def State.performAcc (s : State) (b n : Nat) (blk : Block) (a : Acc) (c : AccCmd) : State :=
  let tile := fun (k : Nat) => (blk.tiles[k]?).getD Tile.start
  match c.kind with
  | .mma _ _ _ _ _ _ _ _ _ => s
  | .zero => s.updAcc b n (fun x => { x with cells := [], fill := .zero })
  | .ld t form => (s.updAcc b n (fun x => x.setAll (blk.accElem (tile t) form))).dropReaders b [t]
  | .st t form =>
    let r := blk.storeAcc (tile t) form a
    ((s.tileWritten b (tile t) r.1).updAcc b n (fun x => { x with ovf := x.ovf || r.2 })).setTile b t .ready
  | .stq t w =>
    let r := blk.quantAcc (tile t) w.toNat a
    ((s.tileWritten b (tile t) r.1).updAcc b n (fun x => { x with satf := x.satf || r.2.1, inv := x.inv || r.2.2 })).setTile b t .ready
  | .flg w r cl =>
    s.commit b w (keepWrites (if cl then [skey r] else []) s.fresh
      [.s r (BitVec.ofNat 32 (b2n a.ovf + 2 * b2n a.inv + 4 * b2n a.satf))])
  | .fclr m =>
    s.updAcc b n (fun x => { x with ovf := x.ovf && !m.testBit 0, inv := x.inv && !m.testBit 1, satf := x.satf && !m.testBit 2 })

def execAccCommandPerform (blk acc : Nat) (s : State) : Out :=
  match s.block blk with
  | none => .refused (.notEnabled "ACC_COMMAND_PERFORM")
  | some b => match b.accs[acc]? with
    | none => .refused (.notEnabled "ACC_COMMAND_PERFORM")
    | some a => match a.queue with
      | c :: rest => match c.kind with
        | .mma _ _ _ _ _ _ _ _ _ => .refused (.notEnabled "ACC_COMMAND_PERFORM")
        | _ =>
          event "ACC_COMMAND_PERFORM" (b.accRuns a)
            (((s.updAcc blk acc (fun x => { x with queue := rest })).performAcc blk acc b a c).clearFlagAll blk c.id)
      | [] => .refused (.notEnabled "ACC_COMMAND_PERFORM")

/-! ### Retired encodings (R97, R101) -/

/-- A trapped encoding: routed to the emulation routine bound to its feature bit, else ILLEGAL_ENCODING. The running code object is the
kernel's, while code of another object runs too (DESIGN CHOICE, notes/assumptions/76.md). -/
def retiredOp (name : String) (feat : Nat) (s : State) : Out :=
  issueOp name { guard := none, chain := false } false [] (fun x s =>
    match s.binding x.blk.asn x.blk.kern.obj feat with
    | some _ => x.raise (x.decodeTrap 0x02 x.c.word feat) s
    | none => x.raise (x.decodeTrap 0x01 0 0) s) s

def execMma8 (_w : DWord) (s : State) : Out := retiredOp "MMA8" 11 s

def execWvote (_w : DWord) (s : State) : Out := retiredOp "WVOTE" 7 s

end Sys2Proof.Machine
end

