-- ==== Sys2Proof/Machine/Memory.lean ====
section
/-! DEFINITION. Machine/Memory.lean: loads, stores, atomics, reductions, scratchpad accesses, phase, fence and cache
instructions, `mprobe`, monitors and instruction-cache locks (R186 to R206, R382 to R384). -/

namespace Sys2Proof

/-! ### Fields of format M (Tables 3-11, 7-1, 7-2) -/

def MFmt.n (f : MFmt) : Nat := wdBytes f.wd
/-- The destination of a lane or scalar form. -/
def MFmt.dst (f : MFmt) : Machine.Dst := if f.ak then .scal f.d.toNat else .vec f.d.toNat
/-- The registers of an access: `d` of D, the base pair, `b` of B. -/
def MFmt.uses (f : MFmt) (d a b : Nat) : List Machine.RegUse :=
  (if d = 0 then [] else [Machine.mUse f.ak f.d d]) ++ [Machine.mUse f.ak f.a a] ++ (if b = 0 then [] else [Machine.mUse f.ak f.b b])
/-- DSIZE and OFFB of a block-atomic access (Table 7-2). -/
def MFmt.dsize (f : MFmt) : Nat := 8 * 2 ^ (f.off >>> 13).toNat
def MFmt.offb (f : MFmt) : Int := (f.off.setWidth 13).toInt
/-- U of an atomic (Table 7-1). -/
def MFmt.uns (f : MFmt) : Bool := f.ht.getLsbD 2
/-- OFF[11:0] of a `satom`, signed. -/
def MFmt.satomOff (f : MFmt) : Int := (f.off.setWidth 12).toInt
/-- The scope of an ordering field: 1 dev, 2 dom. -/
def MFmt.scope (f : MFmt) : Nat := f.sc.toNat

end Sys2Proof

namespace Sys2Proof.Machine

/-! ### Operands -/


/-- The bytes a lane stores, or an atomic's operands: `n` bytes from register `r` on. -/
def Ctx.dataOf (x : Ctx) (f : MFmt) (l r n : Nat) : List Byte := regBytes (fun q => x.dataReg f l q) r n

/-- The accesses of a lane or scalar form, with `data` bytes from register `r` on (R187, R188). -/
def Ctx.wants (x : Ctx) (f : MFmt) (n data r : Nat) : List Want :=
  (x.accessLanes f).map (fun l => { lane := l, va := x.address f l, n := n, align := n, data := x.dataOf f l r data })



/-- An operation of the wave with the effects of its kind. -/
def opInfo (id : Nat) (kind : ReqKind) (dst : Dst) (hint : Nat) (need : Need) : OpInfo :=
  { op := id, kind := kind, dst := dst, hint := hint, after := [], acqScope := 0, rel := 0, need := need }

/-- A scalar form stands for the active threads (R243). -/
def Ctx.info (x : Ctx) (f : MFmt) (o : OpInfo) : OpInfo := if f.ak then { o with thr := x.act } else o

/-! ### The checks and the issue of a global access (R188, R37, R39) -/

/-- Device registers of this module are read and written, each as one access in lane order, once the request has left the core and no
older access of the core to the line waits (R512). -/
def State.devServe (s : State) (id : Nat) (r : Req) : State :=
  let at_ := fun (a : LaneAcc) => localOf a.pa - Config.devBase
  if !(r.sent && !r.visible && r.cmd.isNone && s.ownDev r.line && !s.olderPending id r (fun k => k.isWrite || isRead k)) then s
  else match r.kind with
    | .load _ _ => { s with reqs := s.reqs.put id { r with visible := true, olds := r.accs.map (fun a => (a.lane, s.devLoad (at_ a) a.n)) } }
    | .store =>
      let s := r.accs.foldl (fun (t : State) a => t.devStore (at_ a) a.data) s
      ({ s with reqs := s.reqs.del id } : State).unparkReq r r.accs
    | _ => s

/-- A `mon.arm` that has left the core registers its monitor (R382). -/
def State.armServe (s : State) (id : Nat) (r : Req) : State :=
  match r.kind with
  | .arm sc =>
    if !r.sent then s
    else (({ s with reqs := s.reqs.del id } : State).armMonitor r.blk r.wave r.core ((r.accs.head?).elim (128 * r.line) (fun a => a.pa)) sc).endProbe r
  | _ => s

/-- What the requests that have left their cores do at once. -/
def State.portDue (s : State) : State :=
  s.reqs.foldl (fun (t : State) e => match t.reqs.get e.1 with
    | some r => (t.devServe e.1 r).armServe e.1 r
    | none => t) s

/-- An L1 hit: the value is taken now and written by LOAD_RESULT; writes it returns before they reach their home, or before they
are committed, are remembered for later closes (R158, R234). -/
def State.hitLoad (s : State) (x : Ctx) (o : OpInfo) (w : Want) (l : L1Line) : State :=
  let s := s.l1Touch x.blk.core l
  let seen := s.writesSeen x.blk.core l.pline
  let lag := s.lagging l.pline
  let s := s.updWave x.b x.w (fun v =>
    { v with seen := (v.seen ++ seen).eraseDups, seenLines := (if lag then addNew l.pline v.seenLines else v.seenLines),
             remote := if l.foreign then addNew (moduleOf (128 * l.pline)) v.remote else v.remote })
  s.present (x.readyReq o [w.at_ (128 * l.pline + w.va.toNat % 128)] [(w.lane, (l.data.drop (w.va.toNat % 128)).take w.n)])

/-- What remains of a global access once every check has passed: hits, requests, parked lanes, the
slot's flag and the acquire it begins. -/
def State.performGlobal (s : State) (x : Ctx) (scalar : Bool) (o : OpInfo) (hits : List (Want × L1Line)) (c : Checked)
    (parks : List (Int × List Want)) : State :=
  let s := s.fillAll x.blk c.got
  let s := s.storeIdem x.b x.w o.kind c.got
  let s := if o.kind.returns then x.setFlag o.op s else s
  let s := if o.acqScope = 0 then s else s.updWave x.b x.w (fun v => { v with acq := v.acq ++ [(o.op, o.acqScope)] })
  let s := hits.foldl (fun t h => t.hitLoad x o h.1 h.2) s
  let s := s.presentAll x.blk x.b x.w o false c.got
  let s := s.park x scalar o parks
  (s.finishOp x.b x.w o.op x.blk.core).sendDue x.b x.w

/-- The outcome of check 3 of R188: the end of the job, a denial, or `go`. -/
def State.checkedAccess (s : State) (x : Ctx) (scalar : Bool) (c : Checked) (go : State → State) : State :=
  match c.fatal, c.denied with
  | w :: _, _ => s.fatalAccess x.blk.core x.blk.asn x.blk.ten x.blk.job c.need.code w.va.toNat (s.recOf x.blk)
  | [], d :: ds => x.raise (x.accessTrap scalar 0x08 d.2 ((d :: ds).map Prod.fst)) s
  | [], [] => go s

/-- An earlier load of the wave from a line that has not returned: a later one of the line follows it home (R233 condition 3). -/
def State.loadOut (s : State) (b w vline : Nat) : Bool :=
  s.reqs.any (fun e => e.2.blk = b && e.2.wave = w && e.2.cmd.isNone && isRead e.2.kind && !e.2.visible && e.2.vline = vline) ||
  s.replays.any (fun r => r.blk = b && r.wave = w && isRead r.kind && r.accs.any (fun a => lineOf a.va = vline))

/-- A global access: checks 1 to 3 of R188 for every lane, then its effect; an access behind a held one of its lane to its line is held
with it. -/
def State.globalAccess (s : State) (x : Ctx) (scalar : Bool) (o : OpInfo) (dev : Want → Bool) (parks : List Want → List (Int × List Want))
    (ws : List Want) : State :=
  match x.addressTrap scalar ws with
  | some t => x.raise t s
  | none =>
    let (behind, ws) := ws.partition (fun w => s.lineParked x.b x.w scalar w.lane w.va.toNat)
    let hit := fun (w : Want) => match o.kind with
      | .load _ _ => if s.loadOut x.b x.w (lineOf w.va.toNat) then none else s.l1Hit x.blk w.va.toNat
      | _ => none
    let hits := ws.filterMap (fun w => (hit w).map (fun l => (w, l)))
    let c := s.checkAll x.blk o.need dev (ws.filter (fun w => (hit w).isNone))
    s.checkedAccess x scalar c (fun s => s.performGlobal x scalar o hits c (parks (behind ++ c.absent)))

/-- Each faulting lane is one replay entry. -/
def parkEach (ws : List Want) : List (Int × List Want) := ws.map (fun w => (w.va, [w]))

/-- A load or atomic, of global memory or of the window, waits for the wave's acquires and opens (R196, R235). -/
def Ctx.afterAcq (x : Ctx) (go : State → State) (s : State) : State := if x.wv.acq.isEmpty then go s else s.hold

/-! ### `ld` and `st` (R191 to R193) -/

/-- `ld` as it issues. -/
def Ctx.load (x : Ctx) (f : MFmt) (s : State) : State :=
  let (id, s) := s.newId
  s.globalAccess x f.ak (x.info f (opInfo id (.load (f.b = 1) f.ht.toNat) f.dst f.ht.toNat Need.load)) devWidth parkEach (x.wants f f.n 0 0)

def execLd (h : Head) (f : MFmt) (s : State) : Out :=
  issueOp "LD" h false (f.uses (wdRegs f.wd) 2 0) (waveOp fun x => x.afterAcq (x.load f)) s

/-- `st` as it issues. -/
def Ctx.store (x : Ctx) (f : MFmt) (s : State) : State :=
  let (id, s) := s.newId
  s.globalAccess x f.ak (x.info f (opInfo id .store .none f.ht.toNat Need.store)) devWidth parkEach (x.wants f f.n f.n f.b.toNat)

def execSt (h : Head) (f : MFmt) (s : State) : Out :=
  issueOp "ST" h false (f.uses 0 2 (wdRegs f.wd)) (waveOp fun x => x.store f) s


/-- The two accesses of a block: lane 0 is the data, lane 1 the header. -/
def blkWants (f : MFmt) (data hdr : DWord) (dbytes hbytes : List Byte) : List Want :=
  [{ lane := 0, va := (data.toNat : Int) + f.offb, n := f.dsize, align := f.dsize, data := dbytes },
   { lane := 1, va := (hdr.toNat : Int), n := 2, align := 2, data := hbytes }]

/-- A block is held as a whole, for the first of its addresses that faults. -/
def parkWhole (ws all : List Want) : List (Int × List Want) := (ws.take 1).map (fun w => (w.va, all))

/-- A block-atomic access: while either page is not present, neither part is performed (R190), but IDEM is decided for the one
that is known (R46). -/
def Ctx.blkAccess (x : Ctx) (o : OpInfo) (ws : List Want) (s : State) : State :=
  match x.addressTrap true ws with
  | some t => x.raise t s
  | none =>
    let (behind, ahead) := ws.partition (fun w => s.lineParked x.b x.w true w.lane w.va.toNat)
    let c := s.checkAll x.blk o.need (fun _ => false) ahead
    let c := { c with absent := behind ++ c.absent }
    let c' := if c.absent.isEmpty then c else { c with got := [] }
    s.checkedAccess x true c (fun s =>
      (s.storeIdem x.b x.w o.kind c.got).performGlobal x true { o with thr := x.act } [] c' (parkWhole c.absent ws))

def Ctx.loadBlk (x : Ctx) (f : MFmt) (s : State) : State :=
  let (id, s) := s.newId
  x.blkAccess (opInfo id .loadBlk (.blk f.d.toNat x.act) f.ht.toNat Need.load)
    (blkWants f (x.scalPair f.a.toNat) (x.scalPair f.b.toNat) [] []) s

def execLdBlk (h : Head) (f : MFmt) (s : State) : Out :=
  issueOp "LD_BLK" h false [.v f.d.toNat 2, .s f.a.toNat 2, .s f.b.toNat 2] (waveOp fun x => x.afterAcq (x.loadBlk f)) s

/-- The data of a block store: every lane that the size covers supplies v[B], active or not (R193). -/
def Ctx.blkData (x : Ctx) (f : MFmt) : List Byte :=
  (List.range (f.dsize / 4)).flatMap (fun l => bytesOfNat (x.vec f.b.toNat l).toNat 4)

/-- The header of a block store: v[B+1] of the lowest active lane. -/
def Ctx.blkHdr (x : Ctx) (f : MFmt) : List Byte :=
  bytesOfNat (x.vec (f.b.toNat + 1) (x.lanes.headD 0)).toNat 2

def Ctx.storeBlk (x : Ctx) (f : MFmt) (s : State) : State :=
  let (id, s) := s.newId
  x.blkAccess (opInfo id .storeBlk .none f.ht.toNat Need.store)
    (blkWants f (x.scalPair f.a.toNat) (x.scalPair (f.a.toNat + 2)) (x.blkData f) (x.blkHdr f)) s

def execStBlk (h : Head) (f : MFmt) (s : State) : Out :=
  issueOp "ST_BLK" h false [.s f.a.toNat 4, .v f.b.toNat 2] (waveOp fun x => x.storeBlk f) s

/-! ### Scratchpad accesses (R151, R153, R194) -/

/-- The window offset of a lane, formed exactly (R188). -/
def Ctx.spadAddr (x : Ctx) (f : MFmt) (off : Int) (l : Nat) : Int := ((x.dataReg f l f.a.toNat).toNat : Int) + off

def Ctx.spadWants (x : Ctx) (f : MFmt) (off : Int) (n data r : Nat) : List Want :=
  (x.accessLanes f).map (fun l => { lane := l, va := x.spadAddr f off l, n := n, align := n, data := x.dataOf f l r data })

/-- SCRATCH_BOUND for any access outside the window (R151), then MISALIGNED (DEDUCED, notes/assumptions/31.md). -/
def Ctx.spadTrap (x : Ctx) (scalar : Bool) (ws : List Want) : Option TrapInfo :=
  let odd := ws.filter (fun w => w.va % (w.align : Int) ≠ 0)
  let out := ws.filter (fun w => w.va < 0 || (x.blk.kern.spad : Int) < w.va + w.n)
  if !out.isEmpty then some (x.accessTrap scalar 0x09 0 out)
  else if !odd.isEmpty then some (x.accessTrap scalar 0x06 0 odd)
  else none

def Want.spadAcc (w : Want) : LaneAcc := { lane := w.lane, va := w.va.toNat, pa := 0, n := w.n, data := w.data }

/-- A scratchpad access: its checks, then its effect. -/
def Ctx.spadAccess (x : Ctx) (f : MFmt) (ws : List Want) (go : State → State) (s : State) : State :=
  match x.spadTrap f.ak ws with
  | some t => x.raise t s
  | none => go s

/-- Values taken now, written by LOAD_RESULT. -/
def Ctx.spadResult (x : Ctx) (f : MFmt) (sgn : Bool) (ws : List Want) (vals : List (Nat × List Byte)) (s : State) : State :=
  let (id, s) := s.newId
  let o := opInfo id (.load sgn 0) f.dst 0 Need.load
  if ws.isEmpty then s else (x.setFlag id s).present (x.readyReq o (ws.map Want.spadAcc) vals)

def execLds (h : Head) (f : MFmt) (s : State) : Out :=
  issueOp "LDS" h false (f.uses (wdRegs f.wd) 1 0) (waveOp fun x => x.afterAcq fun s =>
    let ws := x.spadWants f f.off.toInt f.n 0 0
    x.spadAccess f ws (fun s => x.spadResult f (f.b = 1) ws (ws.map (fun w => (w.lane, x.blk.spadRead w.va.toNat w.n))) s) s) s

/-- The window bytes that some accesses name. -/
def wantBytes (ws : List Want) : List Nat := ws.flatMap (fun w => (List.range w.n).map (fun i => w.va.toNat + i))

/-- Bytes stored in ascending lane order, so that the highest lane's remain (R153, R189). -/
def Block.spadStore (b : Block) (ws : List Want) : Block := ws.foldl (fun b w => b.spadWrite w.va.toNat w.data) b

def execSts (h : Head) (f : MFmt) (s : State) : Out :=
  issueOp "STS" h false (f.uses 0 1 (wdRegs f.wd)) (waveOp fun x =>
    let ws := x.spadWants f f.off.toInt f.n f.n f.b.toNat
    x.spadAccess f ws (fun s => (s.keepIndex x.b (wantBytes ws)).updBlock x.b (fun b => b.spadStore ws))) s

/-! ### Atomics (R195 to R198) -/

/-- The lanes of a `satom`, in ascending order: each takes the value before its own operation (R189). -/
def Block.spadAtomics (b : Block) (op : Nat) (uns : Bool) (ws : List Want) : List (Nat × List Byte) × Block :=
  ws.foldl (fun (acc : List (Nat × List Byte) × Block) w =>
    let old := acc.2.spadRead w.va.toNat w.n
    (acc.1 ++ [(w.lane, old)], acc.2.spadWrite w.va.toNat (atomicBytes op uns w.n old w.data))) ([], b)


/-- The bytes of an atomic's operands. -/
def opBytes (op n : Nat) : Nat := if op = 7 then 2 * n else n


/-- A store or reduction of the wave that a fault holds has not performed at blk scope (R236). -/
def State.writesParked (s : State) (b w : Nat) : Bool := s.replays.any (fun r => r.blk = b && r.wave = w && r.kind.isWrite)

/-- The effect of a `satom` whose checks have passed: a blk close before it waits for the wave's held writes, a blk open after
it for its earlier loads (Table 8-3). -/
def Ctx.satom (x : Ctx) (f : MFmt) (ws : List Want) (s : State) : State :=
  let op := (f.off >>> 12).toNat
  if !x.wv.acq.isEmpty || (f.ht.getLsbD 1 && s.writesParked x.b x.w) then s.hold
  else
    let s := x.spadResult f false ws (x.blk.spadAtomics op f.uns ws).1
      (((x.clearIdem s).keepIndex x.b (wantBytes ws)).updBlock x.b (fun b => (b.spadAtomics op f.uns ws).2))
    if f.ht.getLsbD 0 && x.any then s.beginOpen x.b x.w x.blk.core 0 else s

def execSatom (h : Head) (f : MFmt) (s : State) : Out :=
  let op := (f.off >>> 12).toNat
  issueOp "SATOM" h false (f.uses (wdRegs f.wd) 1 (opBytes op (wdRegs f.wd))) (fun x =>
    let ws := x.spadWants f f.satomOff f.n (opBytes op f.n) f.b.toNat
    x.spadAccess f ws (x.satom f ws)) s

/-- A global atomic or reduction: IDEM clears whatever the guard, a release waits for the wave's earlier writes, an acquire
opens when the old values return (R196). -/
def Ctx.atomic (x : Ctx) (f : MFmt) (op : Nat) (returns : Bool) (s : State) : State :=
  let (id, s) := s.newId
  let kind : ReqKind := if returns then .atomic op f.uns else .red op f.uns
  let o := { x.info f (opInfo id kind (if returns then f.dst else .none) 0 Need.rmw) with
    afterLines := (if f.ht.getLsbD 1 then x.wv.closeLines else []),
    after := (if f.ht.getLsbD 1 then s.writesOut x.b x.w else []),
    rel := (if f.ht.getLsbD 1 then f.scope else 0), acqScope := (if f.ht.getLsbD 0 then f.scope else 0) }
  (x.clearIdem s).globalAccess x f.ak o (fun _ => false) parkEach (x.wants f f.n (opBytes op f.n) f.b.toNat)

/-- One `atom` of Table 7-3. -/
def atomOp (name : String) (op : Nat) (h : Head) (f : MFmt) (s : State) : Out :=
  issueOp name h false (f.uses (wdRegs f.wd) 2 (opBytes op (wdRegs f.wd))) (fun x s =>
    if x.any then x.afterAcq (x.atomic f op true) s else x.clearIdem s) s

def execAtomAdd (h : Head) (f : MFmt) (s : State) : Out := atomOp "ATOM_ADD" 0 h f s
def execAtomMin (h : Head) (f : MFmt) (s : State) : Out := atomOp "ATOM_MIN" 1 h f s
def execAtomMax (h : Head) (f : MFmt) (s : State) : Out := atomOp "ATOM_MAX" 2 h f s
def execAtomAnd (h : Head) (f : MFmt) (s : State) : Out := atomOp "ATOM_AND" 3 h f s
def execAtomOr (h : Head) (f : MFmt) (s : State) : Out := atomOp "ATOM_OR" 4 h f s
def execAtomXor (h : Head) (f : MFmt) (s : State) : Out := atomOp "ATOM_XOR" 5 h f s
def execAtomXch (h : Head) (f : MFmt) (s : State) : Out := atomOp "ATOM_XCH" 6 h f s
def execAtomCas (h : Head) (f : MFmt) (s : State) : Out := atomOp "ATOM_CAS" 7 h f s
def execAtomFadd (h : Head) (f : MFmt) (s : State) : Out := atomOp "ATOM_FADD" 8 h f s

def execRed (h : Head) (f : MFmt) (s : State) : Out :=
  issueOp "RED" h false (f.uses 0 2 (wdRegs f.wd)) (fun x s =>
    if x.any then x.atomic f f.d.toNat false s else x.clearIdem s) s

/-! ### Phases and fences (R199 to R201, R234, R235) -/

/-- `phase.cl`: the wave issues nothing until every write it waits for has performed at its scope. -/
def execPhaseCl (h : Head) (f : MFmt) (s : State) : Out :=
  issueOp "PHASE_CL" h false [] (waveOp fun x s =>
    let c : Close := { scope := f.scope, ops := s.writesOut x.b x.w, lines := (if f.scope = 0 then [] else x.wv.closeLines), marks := [], sent := false }
    (s.updWave x.b x.w (fun v => { v with hold := .close c })).sendDue x.b x.w) s

/-- Whether a close is complete: the writes performed, none of the lines held, the markers sent and acknowledged. -/
def State.closeMet (s : State) (c : Close) : Bool :=
  s.writesDone c.scope c.ops && c.lines.all (fun l => !s.lineHeld l) &&
  (c.scope ≠ 2 || (c.sent && c.marks.all (fun t => !s.marks.any (fun m => m.1 = t))))

/-- Writes that have performed are forgotten. -/
def State.forgetDone (s : State) (b w : Nat) : State :=
  s.updWave b w (fun v => 
    { v with seen := v.seen.filter (fun o => !s.writesDone 2 [o]), seenLines := v.seenLines.filter s.lagging,
             wrote := v.wrote.filter s.lagging })

def execPhaseClComplete (blk wave : Nat) (s : State) : Out :=
  match s.wave blk wave with
  | none => .refused (.notEnabled "PHASE_CL_COMPLETE")
  | some v => match v.hold with
    | .close c => event "PHASE_CL_COMPLETE" (s.closeMet c) ((s.forgetDone blk wave).updWave blk wave (fun x => { x with hold := .none }))
    | _ => .refused (.notEnabled "PHASE_CL_COMPLETE")

/-- `phase.op`: once the wave's loads and atomics have returned, the non-stable lines of the core go. -/
def execPhaseOp (h : Head) (f : MFmt) (s : State) : Out :=
  issueOp "PHASE_OP" h false [] (waveOp fun x s =>
    if s.readsOut x.b x.w then s.hold else s.openAt x.blk.core f.scope) s

/-- The commands of a block on the queues of a mask. -/
def State.cmdsOn (s : State) (b core : Nat) (mask : BitVec 4) : List Nat :=
  (List.range 4).flatMap (fun q =>
    if mask.getLsbD q then ((s.queueOf core q).filter (fun c => c.blk = b)).map (fun c => c.id) else [])

def execFenceQ (h : Head) (f : MFmt) (s : State) : Out :=
  issueOp "FENCE_Q" h false [] (waveOp fun x s =>
    let mask := f.off.setWidth 4
    let fence : Fence := { mask := mask, cmds := s.cmdsOn x.b x.blk.core mask,
                           ops := (if f.off.getLsbD 4 then s.writesOut x.b x.w else []),
                           lines := if f.off.getLsbD 4 then x.wv.closeLines else [] }
    s.updBlock x.b (fun b => { b with fences := b.fences ++ [fence] })) s

/-! ### Cache instructions (R202, R203) -/

/-- The lines that the addresses of the form name; a non-canonical address names none. An invalidation acts as an open of its lines:
it waits for the wave's earlier loads (Table 8-3, R235 step 1). -/
def Ctx.linesNamed (x : Ctx) (f : MFmt) : List Nat :=
  (((x.accessLanes f).map (fun l => x.address f l)).filter canonicalInt).map (fun a => lineOf a.toNat) |>.eraseDups

def execCinv (h : Head) (f : MFmt) (s : State) : Out :=
  issueOp "CINV" h false (f.uses 0 2 0) (waveOp fun x s =>
    let ls := x.linesNamed f
    if s.readsOut x.b x.w then s.hold
    else s.l1Drop x.blk.core (fun l => l.asn = x.blk.asn && ls.contains l.vline)) s

def execCinvAll (h : Head) (_f : MFmt) (s : State) : Out :=
  issueOp "CINV_ALL" h false [] (waveOp fun x s =>
    if s.readsOut x.b x.w then s.hold else s.l1Drop x.blk.core (fun _ => true)) s

/-- One line of a `prefetch`. -/
def State.prefetchLine (s : State) (x : Ctx) (l1 : Bool) (hint v : Nat) : State :=
  let w : Want := { lane := 0, va := ((128 * v : Nat) : Int), n := 1, align := 1, data := [] }
  match s.xlateFor x.blk Need.load false (128 * v) with
  | .ok pa e st =>
    let g : Got := ⟨w.at_ pa, e, st⟩
    let o := opInfo s.nextId (.prefetch l1) .none hint Need.load
    (s.fillAll x.blk [g]).present (mkReq x.blk x.b x.w o [g])
  | .fatal => s.fatalAccess x.blk.core x.blk.asn x.blk.ten x.blk.job Need.load.code (128 * v) (s.recOf x.blk)
  | _ => s

def execPrefetch (h : Head) (f : MFmt) (s : State) : Out :=
  issueOp "PREFETCH" h false (f.uses 0 2 0) (waveOp fun x s =>
    (x.linesNamed f).foldl (fun t v => t.prefetchLine x (f.b = 0) f.ht.toNat v) s) s

/-! ### `mprobe` (R204) -/

/-- The accesses of an instruction that reads as one byte. -/
def Ctx.byteWants (x : Ctx) (f : MFmt) : List Want := x.wants f 1 0 0

/-- `mprobe` presents a request for each line (R444), and the wave issues nothing further until the results are written (R204, R243);
a lane whose page is not present parks. -/
def State.probeAll (s : State) (x : Ctx) (f : MFmt) (c : Checked) : State :=
  let (id, s) := s.newId
  let o := x.info f (opInfo id .probe f.dst 0 Need.load)
  let s := s.fillAll x.blk c.got
  let s := (byLine c.got).foldl (fun t gs => t.present (mkReq x.blk x.b x.w o gs)) s
  let s := if c.got.isEmpty then s else s.updWave x.b x.w (fun w => { w with hold := .probe id })
  s.park x f.ak o (parkEach c.absent)

def execMprobe (h : Head) (f : MFmt) (s : State) : Out :=
  issueOp "MPROBE" h false (f.uses 1 2 0) (waveOp fun x => x.afterAcq fun s =>
    let ws := x.byteWants f
    match x.addressTrap f.ak ws with
    | some t => x.raise t s
    | none =>
      let c := s.checkAll x.blk Need.load (fun _ => false) ws
      s.checkedAccess x f.ak c (fun s => s.probeAll x f c)) s

/-! ### Monitors (R382 to R384) -/

/-- `mon.arm` once its address has been checked and, as an open, the wave's earlier loads have returned: its request is presented, and
the wave issues nothing further until the monitor is registered (R382). -/
def State.armAll (s : State) (x : Ctx) (f : MFmt) (c : Checked) : State :=
  let (id, s) := s.newId
  let o := { opInfo id (.arm f.scope) .none 0 Need.load with thr := x.act }
  let s := s.fillAll x.blk c.got
  let s := c.got.foldl (fun t g => t.present (mkReq x.blk x.b x.w o [g])) s
  let s := if c.got.isEmpty then s else s.updWave x.b x.w (fun w => { w with hold := .probe id })
  s.park x true o (parkEach c.absent)

def execMonArm (h : Head) (f : MFmt) (s : State) : Out :=
  issueOp "MON_ARM" h false [.s f.a.toNat 2] (waveOp fun x s =>
    let ws := x.byteWants f
    match x.addressTrap true ws with
    | some t => x.raise t s
    | none =>
      let c := s.checkAll x.blk Need.load (fun _ => false) ws
      s.checkedAccess x true c (fun s => if s.readsOut x.b x.w then s.stall else s.armAll x f c)) s

/-- The reason with which a wait would end at once (Table 15-3). -/
def Wave.monReason (v : Wave) : Option Nat :=
  match v.mon with
  | none => some (if v.monLost then 4 else 5)
  | some m => match m.ended with
    | some r => some r
    | none => if m.hit then some 1 else none

/-- `mon.wait`: the active threads wait for the monitor's end, or go on at once when it has ended. -/
def Ctx.monWait (x : Ctx) (f : MFmt) (s : State) : State :=
  match x.wv.monReason with
  | some r => (x.commit [.s f.d.toNat (BitVec.ofNat 32 r)] s).updWave x.b x.w (fun v => { v with mon := none })
  | none =>
    let t := (x.scal f.b.toNat).toNat
    let mw : MonWaiting := { dst := f.d.toNat, until_ := if t = 0 then none else some (s.clock + t), lanes := x.act }
    (x.makeWait x.act .mon s).updWave x.b x.w (fun v => { v with monWait := v.monWait ++ [mw] })

def execMonWait (h : Head) (f : MFmt) (s : State) : Out :=
  issueOp "MON_WAIT" h false [.s f.d.toNat 1, .s f.b.toNat 1] (waveOp fun x => x.monWait f) s

/-- A write by another party has become visible: in this module the monitor saw it (R383); at another module's home it is an
outside input. -/
def State.monTriggered (s : State) (v : Wave) : Bool :=
  match v.mon with
  | some m => m.ended.isNone && (m.hit || s.away m.line)
  | none => false

def execMonitorTrigger (blk wave : Nat) (s : State) : Out :=
  match s.wave blk wave with
  | none => .refused (.notEnabled "MONITOR_TRIGGER")
  | some v =>
    event "MONITOR_TRIGGER" (s.monTriggered v)
      (if v.monWait.isEmpty then
         s.updWave blk wave (fun x => { x with mon := x.mon.map (fun m => { m with hit := true, ended := some 1 }) })
       else s.endMonitor blk wave (fun _ => 1))

/-- Whether a wait's timeout has passed. -/
def MonWaiting.due (m : MonWaiting) (clock : Nat) : Bool := m.until_.elim false (fun u => u ≤ clock)

/-- A timeout ends its own wait with reason 3; the monitor is disarmed, so another wait of the wave ends with 5. -/
def execMonitorTimeout (blk wave : Nat) (s : State) : Out :=
  match s.wave blk wave with
  | none => .refused (.notEnabled "MONITOR_TIMEOUT")
  | some v =>
    event "MONITOR_TIMEOUT" (v.monWait.any (fun m => m.due s.clock))
      (s.endMonitor blk wave (fun m => if m.due s.clock then 3 else 5))

def execMonitorSpuriousEnd (blk wave : Nat) (s : State) : Out :=
  match s.wave blk wave with
  | none => .refused (.notEnabled "MONITOR_SPURIOUS_END")
  | some v => event "MONITOR_SPURIOUS_END" (!v.monWait.isEmpty) (s.endMonitor blk wave (fun _ => 0))

/-! ### Instruction-cache locks (R205, R206) -/

/-- The lines of a range: the first, and the one after the last. -/
def Ctx.iclRange (x : Ctx) (f : MFmt) : Int × Int :=
  let a := x.address f 0
  let n := ((x.scal f.b.toNat).toNat : Int)
  if n = 0 then (0, 0) else (a / 128, (a + n - 1) / 128 + 1)

/-- The lines locked for a block that satisfy `p`. -/
def State.lockedFor (s : State) (core b : Nat) (p : LockedLine → Bool) : Nat :=
  ((s.core core).locked.filter (fun l => l.holders.contains b && p l)).length

def inRange (r : Int × Int) (l : LockedLine) : Bool := r.1 ≤ (l.vline : Int) && (l.vline : Int) < r.2

def execIclLock (h : Head) (f : MFmt) (s : State) : Out :=
  issueOp "ICL_LOCK" h false [.s f.d.toNat 1, .s f.a.toNat 2, .s f.b.toNat 1] (waveOp fun x s =>
    let r := x.iclRange f
    let (id, s) := s.newId
    let s := s.lockLines x.blk x.b x.w id r.1 r.2 (Config.icLinesPerCore + 1)
    let s := if s.reqs.any (fun e => e.2.op = id) then s.updWave x.b x.w (fun w => { w with hold := .probe id }) else s
    x.commit [.s f.d.toNat (BitVec.ofNat 32 (128 * s.lockedFor x.blk.core x.b (fun l => l.asn = x.blk.asn && inRange r l)))] s) s

/-- A block's locks on a range go; a line without a holder is no longer locked. -/
def freeLines (ls : List LockedLine) (b asn : Nat) (r : Int × Int) : List LockedLine :=
  (ls.map (fun l => if l.asn = asn && inRange r l then { l with holders := l.holders.filter (· ≠ b) } else l)).filter
    (fun l => !l.holders.isEmpty)

def execIclFree (h : Head) (f : MFmt) (s : State) : Out :=
  issueOp "ICL_FREE" h false [.s f.a.toNat 2, .s f.b.toNat 1] (waveOp fun x s =>
    s.updCore x.blk.core (fun c => { c with locked := freeLines c.locked x.b x.blk.asn (x.iclRange f) })) s

def execIclCount (h : Head) (f : MFmt) (s : State) : Out :=
  issueOp "ICL_COUNT" h false [.s f.d.toNat 1] (waveOp fun x s =>
    x.commit [.s f.d.toNat (BitVec.ofNat 32 (128 * s.lockedFor x.blk.core x.b (fun _ => true)))] s) s

end Sys2Proof.Machine
end

