-- ==== Sys2Proof/Machine/Sessions.lean ====
section
/-! DEFINITION. Machine/Sessions.lean: sessions and their messages (R453 to R457, R506, R507, R511), command frames (R354) and
attestation reports (R450, R451). Whether the tag of a host frame verifies is an operand (notes/assumptions/6.md). -/

namespace Sys2Proof.Machine

/-! ### Frames (R454, R455, R507) -/

/-- A frame that is dropped and counted. -/
def State.dropFrame (s : State) : State := s.countError 10

/-- A frame of another EtherType than the configuration's is none of the module's (R454; DESIGN CHOICE, notes/assumptions/6.md). -/
def State.foreign (s : State) (h : HostHead) : Bool := s.cfg.elim false (fun c => c.etherType ≠ h.etherType)

/-- Host sessions; those of fabric ports have their packets protected (R455). -/
def Session.host (x : Session) : Bool := x.port.isNone

/-- Whether a session takes a protected frame: its tag verifies, its header is the one that its content has, its counter is above the
last accepted one and not past 2^48. -/
def Session.takes (x : Session) (f : FrameHead) (header : List Byte) : Bool :=
  !x.host || (f.tagOk && f.head.header == header && f.counter ≤ 2 ^ 48 &&
    (if f.newKeys then x.phase == .rekeying && 0 < f.counter else x.lastIn < f.counter))

/-- The first frame under new keys ends a re-key. -/
def Session.took (x : Session) (f : FrameHead) : Session :=
  if !x.host then x else { (if f.newKeys then x.rekeyDone else x) with lastIn := f.counter }

/-- What a frame says of its payload: its kind, queue, ring offset and length (R454). -/
structure FrameForm where
  kind : Nat
  queue : Nat
  offset : Nat
  len : Nat
  deriving DecidableEq, Repr

def FrameForm.header (k : FrameForm) (version session : Nat) : List Byte := frameHeader version k.kind k.queue k.len k.offset session

/-- A protected frame of an open session that `ok` allows: performed, or dropped and counted. -/
def State.framed (s : State) (f : FrameHead) (k : FrameForm) (ok : Session → Bool) (go : Session → State → State) : State :=
  match s.session f.session with
  | none => if s.foreign f.head then s else s.dropFrame
  | some x =>
    if x.host && s.foreign f.head then s
    else if x.takes f (k.header x.hostV x.number) && k.queue < 1024 && k.len ≤ 8192 && ok x then go x (s.updSession x.number (fun y => y.took f))
    else s.dropFrame

/-- Frames and messages arrive while the ports are up (R21). -/
def State.up (s : State) : Bool := s.startup = 4

/-! ### COMMAND_FRAME (R354) -/

/-- Bytes written into a ring from a byte offset on, wrapping at its end; `fuel` bounds the turns. -/
def State.ringStore (s : State) (q : Queue) (off : Nat) (bs : List Byte) : Nat → State
  | 0 => s
  | fuel + 1 =>
    if bs.isEmpty then s
    else
      let o := off % q.size
      let n := q.size - o
      (s.store (localOf q.ring + o) (bs.take n) 0).ringStore q (off + n) (bs.drop n) fuel

/-- ENABLED of a queue's descriptor. -/
def State.queueEnabled (s : State) (n : Nat) : Bool := (s.rd64 (s.descOf n + 8)).getLsbD 17

/-- The payload enters the ring, WIDX moves past it, and reports about the queue go to this session (R459). -/
def State.commandPayload (s : State) (x : Session) (n offset : Nat) (payload : List DWord) : State :=
  match s.queues.get n with
  | none => s.dropFrame
  | some q =>
    if !s.queueEnabled n then s.dropFrame
    else
      let s := s.ringStore q offset (payload.flatMap (fun w => bytesOfNat w.toNat 8)) 4
      ({ s with qSess := s.qSess.put n x.number }.updQueue n (fun y => { y with widx := (offset + 8 * payload.length) % 2 ^ 32 })).settleQueue n

def execCommandFrame (f : FrameHead) (queue offset : Nat) (payload : List DWord) (s : State) : Out :=
  event "COMMAND_FRAME" s.up
    (s.framed f ⟨0, queue, offset, 8 * payload.length⟩ Session.host (fun x t => t.commandPayload x queue offset payload))

/-! ### Attestation (R450, R451) -/

/-- Bytes 0 to 511 of a report (Table 19-2). -/
def State.reportHead (s : State) (nonce : List Byte) : List Byte :=
  bytesOfNat 1 4 ++ bytesOfNat (b2n s.secure.handover) 4 ++ fit 64 nonce ++ fit 64 (Config.sha512 Config.identityKey) ++
  bytesOfNat s.secure.rollback 8 ++ bytesOfNat Config.romVersion.toNat 4 ++ List.replicate 4 0 ++ fit 64 s.secure.romm ++
  fit 64 s.secure.fw ++ fit 64 s.secure.fwNew ++ fit 64 s.secure.config ++ fit 64 s.secure.service ++ List.replicate 40 0

def State.report64 (s : State) (nonce : List Byte) : List Byte :=
  let head := s.reportHead nonce
  head ++ fit 512 (Config.identitySign s.fresh head)

/-- Certificate length, 4 reserved bytes, and the certificate padded to a multiple of 8. -/
def certBytes : List Byte :=
  let c := Config.certificate
  bytesOfNat c.length 4 ++ List.replicate 4 0 ++ fit ((c.length + 7) / 8 * 8) c

/-! ### Messages (Table 19-6) -/

/-- A message to a peer, of a session or of none: in a session frame, or in SESSION packets of its port. -/
def State.sendMessage (s : State) (x : Option Session) (prot : Bool) (port : Option Nat) (msg : Nat) (body : List Byte) : State :=
  let n := x.elim 0 (fun x => x.number)
  match port with
  | none => s.emit x prot (.message n msg body)
  | some p => s.sessionPackets p (msgWord msg n ++ body)

/-- A message under the session's keys: a host frame takes a counter, the packets of a port take theirs as they leave. -/
def State.sendProtected (s : State) (x : Session) (msg : Nat) (body : List Byte) : State :=
  (s.sendMessage (some x) true x.port msg body).updSession x.number (fun y => { y with nextOut := y.nextOut + b2n x.host })

/-- A message of a fabric port is what its fragments make; one of the host port came in one frame. -/
def State.messageIs (s : State) (port : Option Nat) (ok : List Byte → Bool) : Bool :=
  match port with
  | none => true
  | some p => (s.ports.get p).elim false (fun x => x.trained && !x.fenced && x.message.elim false ok)

def State.messageDone (s : State) (port : Option Nat) : State :=
  match port with
  | none => s
  | some p => s.updPort p (fun x => { x with msg := [], msgLen := 0 })

/-- The form of a session frame with a message of `len` bytes. -/
def msgForm (len : Nat) : FrameForm := ⟨2, 0, 0, len⟩

/-- The length of a message that a peer may send: HELLO, KEY, REKEY, CLOSE. -/
def msgLength (msg : Nat) : Option Nat :=
  match msg with
  | 1 => some 88
  | 3 => some 1552
  | 5 => some 584
  | 7 => some 8
  | _ => none

/-- Whether a message that a fabric port has put together is one for its session to take. -/
def State.messageKnown (s : State) (port : Nat) (bs : List Byte) : Bool :=
  let msg := (bs.headD 0).toNat
  msgLength msg = some bs.length &&
  (msg = 1 || msg = 3 || (s.portSession port).elim false (fun x => x.number % 2 ^ 32 = natOfBytes ((bs.drop 4).take 4)))

/-- Messages that no session takes are dropped and counted (R456). -/
def State.dropMessages (s : State) : State :=
  s.ports.foldl (fun (t : State) e => match e.2.message with
    | some bs => if s.messageKnown e.1 bs then t else t.dropFrame.messageDone (some e.1)
    | none => t) s

/-! ### HELLO and OFFER (R456, R506) -/

/-- The highest version common to two ranges. -/
def commonVersion (lo hi lo2 hi2 : Nat) : Option Nat := if max lo lo2 ≤ min hi hi2 then some (min hi hi2) else none

/-- The lowest priority set in both masks. -/
def commonPrio (a b : BitVec 8) : Option Nat := (List.range 8).find? (fun p => (a &&& b).getLsbD p)

/-- The versions of a session: host protocol 1 to 2, firmware services 1 to 2, fabric protocol 1 to 3 (R506). On a fabric
port only the fabric protocol must be common, on the host port the other two. -/
def chosenVersions (port : Option Nat) (m : HelloMsg) : Option (Nat × Nat × Nat) :=
  let h := commonVersion 1 2 m.hostLo m.hostHi
  let f := commonVersion 1 2 m.fwLo m.fwHi
  let b := commonVersion 1 3 m.fabLo m.fabHi
  match port with
  | none => h.bind (fun h => f.map (fun f => (h, f, 0)))
  | some _ => b.map (fun b => (h.getD 0, f.getD 0, b))

/-- The reason for refusing a HELLO, or the versions and the priority. -/
def State.offerFor (s : State) (port : Option Nat) (m : HelloMsg) : Nat ⊕ (Nat × Nat × Nat) × Nat :=
  match chosenVersions port m with
  | none => .inl 1
  | some v =>
    if port.isSome then .inr (v, 0)
    else if Config.hostSessions ≤ (s.sessions.filter (fun x => x.port.isNone)).length then .inl 5
    else match commonPrio m.prio (s.cfg.elim 0#8 (fun c => c.pfcMask)) with
      | none => .inl 6
      | some p => .inr (v, p)

/-- REFUSE names the reason; no session number has been assigned before OFFER. -/
def State.refuseSession (s : State) (x : Option Session) (port : Option Nat) (reason : Nat) : State :=
  s.sendMessage x false port 8 (bytesOfNat reason 4 ++ List.replicate 4 0)

/-- The body of HELLO, and its 88 bytes with the first word. -/
def helloBody (m : HelloMsg) : List Byte :=
  fit 64 m.nonce ++ [m.hostLo, m.hostHi, m.fwLo, m.fwHi, m.fabLo, m.fabHi].flatMap (fun v => bytesOfNat v 2) ++ [m.prio] ++
  bytesOfNat m.tail.toNat 3
def helloBytes (m : HelloMsg) : List Byte := bytesOfNat m.word.toNat 8 ++ helloBody m

/-- A HELLO without a reserved value, in a frame whose header says so; no version has been negotiated that its frame could carry. -/
def helloOk (port : Option Nat) (m : HelloMsg) : Bool :=
  m.word == 1 && m.tail == 0 &&
  (if port.isSome then m.prio == 0
   else m.fabLo = 0 && m.fabHi = 0 && m.head.header.length = 16 && m.head.header.drop 2 == ((msgForm 88).header 0 0).drop 2)

def State.offer (s : State) (port : Option Nat) (m : HelloMsg) : State :=
  match s.offerFor port m with
  | .inl r => s.refuseSession none port r
  | .inr ((h, f, b), p) =>
    let nonce := fit 64 (Config.freeNonce s.fresh)
    let x : Session :=
      { number := s.nextSession, port := port, phase := .offered, peerNonce := fit 64 m.nonce, ownNonce := nonce, hostV := h, fwV := f,
        fabV := b, prio := p, lastIn := 0, nextOut := 1, keys := [], newKeys := [] }
    let body := nonce ++ bytesOfNat h 2 ++ bytesOfNat f 2 ++ bytesOfNat b 2 ++ [BitVec.ofNat 8 p, 0] ++ s.report64 m.nonce ++ certBytes
    let x := { x with transcript := helloBody m ++ body }
    { s with sessions := s.sessions ++ [x], nextSession := s.nextSession + 1, fresh := s.fresh + 1 }.sendMessage (some x) false port 2 body

def execHello (port : Option Nat) (m : HelloMsg) (s : State) : Out :=
  event "HELLO" (s.up && s.messageIs port (fun bs => bs == helloBytes m))
    (let t := s.messageDone port
     if port.isNone && s.foreign m.head then s else if helloOk port m then t.offer port m else t.dropFrame)

/-! ### KEY and READY (R457) -/

/-- The ASCII bytes of "session keys". -/
def keysLabel : List Byte := [0x73, 0x65, 0x73, 0x73, 0x69, 0x6F, 0x6E, 0x20, 0x6B, 0x65, 0x79, 0x73]

def deriveKeys (secret peer own : List Byte) (session : Nat) : List Byte :=
  fit 64 (Config.hkdf (fit 32 secret) (peer ++ own) (bytesOfNat session 4 ++ keysLabel))

/-- The chosen versions and priority, 8 bytes. -/
def Session.choice (x : Session) : List Byte :=
  bytesOfNat x.hostV 2 ++ bytesOfNat x.fwV 2 ++ bytesOfNat x.fabV 2 ++ [BitVec.ofNat 8 x.prio, 0]

def State.endSession (s : State) (n : Nat) : State :=
  { s with sessions := s.sessions.filter (fun x => x.number ≠ n), services := s.services.filter (fun w => w.session ≠ n || w.begun) }

/-- The session is READY; a fabric port then carries every packet (R511), and an older session of that port is gone. -/
def State.ready (s : State) (x : Session) (secret : List Byte) : State :=
  let keys := deriveKeys secret x.peerNonce x.ownNonce x.number
  let y : Session := { x with phase := .ready, keys := keys, lastIn := 0, nextOut := 1 }
  let s := (s.updSession x.number (fun _ => y)).sendProtected y 4 x.choice
  match x.port with
  | none => s
  | some p =>
    let s := { s with sessions := s.sessions.filter (fun y => y.number = x.number || y.port ≠ some p) }
    s.updPort p (fun y => { y with ready := true, peerV := x.fabV })

/-- MODULUS followed by EXPONENT of a KEY, and its 1,552 bytes. -/
def peerKey (m : KeyMsg) : List Byte := fit 512 m.modulus ++ bytesOfNat m.exponent.toNat 4
def keyBytes (m : KeyMsg) : List Byte :=
  bytesOfNat m.word.toNat 8 ++ fit 512 m.cipher ++ peerKey m ++ bytesOfNat m.tail.toNat 4 ++ fit 512 m.signature

/-- What a KEY fails, in order: the peer's key is none of the configuration's (2), the signature (3), the decryption (4). -/
def State.keyReason (s : State) (x : Session) (m : KeyMsg) : Nat :=
  let digest := Config.sha512 (x.transcript ++ fit 512 m.cipher)
  if !(s.cfg.elim [] (fun c => c.peers)).contains (Config.sha512 (peerKey m)) then 2
  else if !Config.pssVerify (fit 512 m.modulus) (bytesOfNat m.exponent.toNat 4) digest (fit 512 m.signature) then 3
  else if (Config.identityDecrypt (fit 512 m.cipher)).isNone then 4
  else 0

/-- The checks of KEY: a failure sends REFUSE and ends the exchange. -/
def State.keyed (s : State) (x : Session) (m : KeyMsg) : State :=
  let reason := s.keyReason x m
  if reason ≠ 0 then (s.refuseSession (some x) x.port reason).endSession x.number
  else s.ready x ((Config.identityDecrypt (fit 512 m.cipher)).getD [])

/-- A KEY without a reserved value, for its session and of its version (R507). -/
def keyOk (x : Session) (m : KeyMsg) : Bool :=
  m.word.toNat = natOfBytes (msgWord 3 x.number) && m.tail == 0 && (!x.host || m.head.header == (msgForm 1552).header x.hostV x.number)

def execKey (port : Option Nat) (m : KeyMsg) (s : State) : Out :=
  event "KEY" (s.up && s.messageIs port (fun bs => bs == keyBytes m))
    (let t := s.messageDone port
     if port.isNone && s.foreign m.head then s
     else match t.sessions.find? (fun x => x.number = m.session && x.port = port && x.phase == .offered) with
     | none => t.dropFrame
     | some x => if keyOk x m then t.keyed x m else t.dropFrame)

/-! ### REKEY (R457) and CLOSE (R456) -/

/-- REKEYED goes out under the current keys; frames after it go under the new ones, counted from 1. A REKEY whose ciphertext does not
decrypt is dropped and counted as one that comes during a re-key is (DESIGN CHOICE, notes/assumptions/6.md). -/
def State.rekeyed (s : State) (x : Session) (nonce cipher : List Byte) : State :=
  match Config.identityDecrypt (fit 512 cipher) with
  | none => s.dropFrame
  | some secret =>
    if x.phase == .rekeying then s.dropFrame
    else
      let own := fit 64 (Config.freeNonce s.fresh)
      let peer := fit 64 nonce
      let t := { s with fresh := s.fresh + 1 }.sendProtected x 6 own
      let t := match x.port with
        | none => t
        | some p => t.sendSession p ((t.ports.get p).elim [] (fun y => y.sessOut))
      t.updSession x.number (fun y =>
        { y with phase := .rekeying, newKeys := deriveKeys secret peer own x.number, peerNonce := peer, ownNonce := own, nextOut := 1 })

/-- The port over which a session's messages come, and whether it can send one packet of an answer at once. -/
def State.portOf (s : State) (n : Nat) : Option Nat := (s.session n).bind (fun x => x.port)
def State.portFree (s : State) (port : Option Nat) : Bool :=
  match port with
  | none => true
  | some p => (s.ports.get p).elim false (fun x => x.sessOut.isEmpty && x.unacked.length < 256 && 0 < x.credRep)

/-- The first word of a message is its own. -/
def frameSays (f : FrameHead) (msg : Nat) : Bool := f.word.toNat = natOfBytes (msgWord msg f.session)

def execRekey (f : FrameHead) (nonce cipher : List Byte) (s : State) : Out :=
  let port := s.portOf f.session
  event "REKEY" (s.up && s.portFree port && s.messageIs port (fun bs => bs == bytesOfNat f.word.toNat 8 ++ fit 64 nonce ++ fit 512 cipher))
    ((s.messageDone port).framed f (msgForm 584) (fun _ => frameSays f 5)
      (fun x t => ((t.session x.number).elim t (fun y => t.rekeyed y nonce cipher))))

/-- The session ends; a fabric port is no longer READY. -/
def State.sessionEnds (s : State) (x : Session) : State :=
  let s := s.endSession x.number
  match x.port with
  | none => s
  | some p => s.updPort p (fun y => { y with ready := false })

def execSessionClose (f : FrameHead) (s : State) : Out :=
  let port := s.portOf f.session
  event "SESSION_CLOSE" (s.up && s.messageIs port (fun bs => bs == bytesOfNat f.word.toNat 8))
    ((s.messageDone port).framed f (msgForm 8) (fun _ => frameSays f 7) (fun x t => t.sessionEnds x))

end Sys2Proof.Machine
end

