-- ==== Sys2Proof/Machine/Services.lean ====
section
/-! DEFINITION. Machine/Services.lean: the firmware services (R458, Table 19-7): queues (R353), the loader (R460 to R464), hand-over
(R452), flash, device registers and memory. -/

namespace Sys2Proof.Machine

/-! ### Requests and answers (R458) -/

def Service.number : Service → Nat
  | .attest _ => 1
  | .mapQueue _ => 2
  | .unmapQueue _ => 3
  | .load _ _ _ => 4
  | .unload _ _ => 5
  | .registerEmulation _ _ _ _ _ _ => 6
  | .handover _ => 7
  | .flashWrite _ _ _ => 8
  | .regRead _ => 9
  | .regWrite _ _ => 10
  | .memWrite _ _ => 11
  | .memRead _ _ => 12
  | .notOffered n => n

/-- The length of a request's payload (Table 19-7); that of a service which is not offered is what its frame says. -/
def Service.length (f : FrameHead) : Service → Nat
  | .attest _ => 72
  | .mapQueue _ => 16
  | .unmapQueue _ => 16
  | .load _ _ _ => 32
  | .unload _ _ => 24
  | .registerEmulation _ _ _ _ _ _ => 56
  | .handover _ => 16
  | .flashWrite _ _ data => 32 + (data.length + 7) / 8 * 8
  | .regRead _ => 16
  | .regWrite _ _ => 24
  | .memWrite _ data => 16 + data.length
  | .memRead _ _ => 24
  | .notOffered _ => natOfBytes ((f.head.header.drop 6).take 2)

/-- The services of a version. -/
def offered (version n : Nat) : Bool := 1 ≤ n && n ≤ (if version = 1 then 10 else 12)

/-- How an attempt at a request ends: answered, or it waits: whether it has begun, and the flush markers it waits for. -/
inductive SvcEnd where
  | done (s : State) (status : Nat) (body : List Byte)
  | waits (s : State) (begun : Bool) (tags : List Nat)
  deriving DecidableEq, Repr

/-! ### MAP_QUEUE and UNMAP_QUEUE (R351 to R353) -/

/-- The queue that a descriptor describes (Table 14-2), or none where R353 refuses it. Until a queue is mapped its descriptor is
plain memory, which reset leaves undefined (R22), so nothing gives its fields their reset values (DESIGN CHOICE,
notes/assumptions/62.md). -/
def State.queueFrom (s : State) (n thread : Nat) : Option Queue :=
  let w := fun (i : Nat) => s.rd64 (s.descOf n + 8 * i)
  let f := fun (i lo m : Nat) => (fld (w i) lo m).toNat
  let ok := n < 1024 && f 1 17 1 = 1 && 12 ≤ f 1 0 5 && f 1 0 5 ≤ 24 && (w 0).toNat % 4096 = 0 && f 1 18 46 = 0 && f 1 5 3 = 0 &&
    w 5 == 0 && w 6 == 0 && w 7 == 0 && f 4 17 31 = 0
  if ok then
    some { thread := thread, ring := (w 0).toNat, rsize := f 1 0 5, priv := f 1 16 1 = 1, prio := f 1 12 4, ten := f 1 8 4,
           rankprog := (w 3).toNat, ridx := 0, widx := 0, status := 1, lasterr := f 4 8 8, lasttag := f 4 48 16,
           rankfault := f 4 16 1 = 1, binding := none, pending := none }
  else none

/-- The lowest-numbered free queue thread. -/
def State.freeThread (s : State) : Option Nat := (List.range 32).find? (fun t => !s.queues.any (fun e => e.2.thread = t))

/-- Eight bytes that an answer leaves open. -/
def State.openBytes (s : State) : List Byte := (List.range 8).map (fun i => Config.freeByte s.fresh i)

def State.mapQueue (s : State) (n : Nat) : SvcEnd :=
  let refused := fun (st : Nat) => SvcEnd.done { s with fresh := s.fresh + 1 } st s.openBytes
  if (s.queues.get n).isSome then refused 3
  else match s.queueFrom n (s.freeThread.getD 0) with
    | none => refused 2
    | some q => match s.freeThread with
      | none => refused 1
      | some t => .done ({ s with queues := s.queues.put n q }.showQueue n) 0 (bytesOfNat t 8)

/-- A queue between packets: nothing is being performed but a WAIT or TICKALIGN, which is abandoned; the refusal that still waits for a
record's page is not complete. -/
def Queue.atBoundary (q : Queue) : Bool :=
  match q.pending with
  | none => true
  | some .wait => true
  | some (.tickalign _) => true
  | some _ => false

/-- A WAIT that waits for the page of its address. -/
def State.waitFaulted (s : State) (q : Queue) : Bool :=
  match q.pending, s.atHead q with
  | some (.fault _), .packet p => p.typ = 2
  | some .retry, .packet p => p.typ = 2
  | _, _ => false

def State.unmapQueue (s : State) (n : Nat) : SvcEnd :=
  match s.queues.get n with
  | none => .done s 1 []
  | some q =>
    if q.atBoundary || s.waitFaulted q then
      let s := (s.updQueue n (fun x => { x with status := 3, pending := none })).showQueue n
      .done { s with queues := s.queues.del n } 0 []
    else .waits s true []

/-! ### The loader (R460 to R463, R513) -/

/-- A byte of an address space with service privilege; device registers are no memory (R512). -/
def State.svcXl (s : State) (asn root : Nat) (need : Need) (va : Nat) : Option Nat :=
  if !canonicalNat va then none
  else match s.xlate none asn root false need va with
    | .ok pa _ _ => if s.region pa = .dev then none else some pa
    | _ => none

/-- Whether every page of a range allows an access; `fuel` bounds the pages. -/
def State.svcRange (s : State) (asn root : Nat) (need : Need) (va n : Nat) : Nat → Bool
  | 0 => n = 0
  | fuel + 1 =>
    if n = 0 then true
    else
      let k := min n (65536 - va % 65536)
      (s.svcXl asn root need va).isSome && s.svcRange asn root need (va + k) (n - k) fuel

def State.svcRangeOk (s : State) (asn root : Nat) (need : Need) (va n : Nat) : Bool := s.svcRange asn root need va n (n / 65536 + 2)

/-- An object being looked at: its address space, root and address. -/
structure ObjAt where
  asn : Nat
  root : Nat
  va : Nat
  deriving DecidableEq, Repr

def State.objRd (s : State) (o : ObjAt) (off : Nat) : Byte :=
  match s.svcXl o.asn o.root Need.load (o.va + off) with
  | some pa => if s.isOwn pa then memGet s.mem (localOf pa) else Config.freeByte s.fresh off
  | none => Config.freeByte s.fresh off

/-- `n` bytes of an object, little-endian. -/
def State.objNat (s : State) (o : ObjAt) (off n : Nat) : Nat := natOfBytes ((List.range n).map (fun i => s.objRd o (off + i)))
def State.obj32 (s : State) (o : ObjAt) (off : Nat) : Nat := s.objNat o off 4

/-- The sections of an object: offset, size, alignment (Table 19-3). -/
def State.objSections (s : State) (o : ObjAt) : List (Nat × Nat × Nat) :=
  [(s.obj32 o 80, 64 * s.obj32 o 4, 8), (s.obj32 o 72, 32 * s.objNat o 76 2, 8), (s.obj32 o 88, s.obj32 o 92, 32),
   (s.obj32 o 96, s.obj32 o 100, 8), (s.obj32 o 104, s.obj32 o 108, 8)]

def State.objReq (s : State) (o : ObjAt) : Nat := s.objNat o 8 64

/-- The feature bits of a mask that can ever be bound. -/
def bindBits (req : Nat) : List Nat := (List.range 27).filter (fun n => n ≠ 0 && n ≠ 12 && req.testBit n)

/-- The binding table of R513: offset and size. -/
def State.objTable (s : State) (o : ObjAt) : Nat × Nat := (s.obj32 o 112, 16 * (bindBits (s.objReq o)).length)

def rangesMeet (a n b m : Nat) : Bool := a < b + m && b < a + n

def State.tableOk (s : State) (o : ObjAt) (size : Nat) : Bool :=
  let (off, n) := s.objTable o
  n = 0 || (off % 8 = 0 && off + n ≤ size && 128 ≤ off && (s.objSections o).all (fun e => !rangesMeet off n e.1 e.2.1) &&
    (List.range n).all (fun i => s.objRd o (off + i) == 0))

/-- The object a header describes. -/
def State.objectOf (s : State) (o : ObjAt) : Object :=
  { asn := o.asn, va := o.va, size := s.objNat o 120 8, kdesc := o.va + s.obj32 o 80, kcount := s.obj32 o 4, code := o.va + s.obj32 o 88,
    binds := [], measured := false }

def State.kernAt (s : State) (o : ObjAt) (i : Nat) : Option Kern :=
  let ob := s.objectOf o
  let off := s.obj32 o 80 + 64 * i
  kernOf (o.va + off) ob (fun j => BitVec.ofNat 64 (s.objNat o (off + 8 * j) 8))

/-- A kernel within the limits of Table 19-4 whose entry and handler are packets of the code section (R54, R90). -/
def Kern.inCode (k : Kern) (code n : Nat) : Bool := k.entry + 32 ≤ code + n && k.handler.elim true (fun h => h + 32 ≤ code + n)

/-- Step 1 of R463, but for the accesses: what makes an object MALFORMED. The boundary on which a section lies (R460) is one of
addresses, as packets have (R54; DEDUCED, notes/assumptions/64.md). -/
def State.objOk (s : State) (o : ObjAt) (size : Nat) : Bool :=
  let sz := s.objNat o 120 8
  128 ≤ size && s.obj32 o 0 = 0x52474D41 && 1 ≤ s.obj32 o 4 && s.obj32 o 4 ≤ 65535 && 128 ≤ sz && sz ≤ size &&
  s.objNat o 78 2 = 0 && s.obj32 o 84 = 0 && s.objNat o 117 3 = 0 &&
  (s.objSections o).all (fun e => (o.va + e.1) % e.2.2 = 0 && e.1 + e.2.1 ≤ sz) && s.tableOk o sz &&
  (List.range (s.obj32 o 4)).all (fun i => (s.kernAt o i).elim false (fun k => k.inCode (o.va + s.obj32 o 88) (s.obj32 o 92)))

/-- A feature bit that the Z8 has (R105). -/
def hasFeature (n : Nat) : Bool := n < 32 && Config.featureMask0.testBit n

/-- Step 2: the first bit that nothing provides, or the bindings. -/
def State.objBinds (s : State) (asn req : Nat) : Nat ⊕ List Routine :=
  (List.range 512).foldl (fun (acc : Nat ⊕ List Routine) n =>
    match acc with
    | .inl b => .inl b
    | .inr rs =>
      if !req.testBit n || hasFeature n then .inr rs
      else if n = 12 || 27 ≤ n then .inl n
      else match s.routines.find? (fun r => r.asn = asn && r.bit = n) with
        | some r => .inr (rs ++ [r])
        | none => .inl n) (.inr [])

/-- Step 3: a routine that declares more registers than some kernel of the object. -/
def State.unfit (s : State) (o : ObjAt) (rs : List Routine) : Option Nat :=
  (rs.find? (fun r => (List.range (s.obj32 o 4)).any (fun i =>
    (s.kernAt o i).elim false (fun k => k.vregs < r.vregs || k.sregs < r.sregs)))).map (fun r => r.bit)

/-- A byte of an address space written at its home; one of another module leaves as a packet. -/
def State.svcPut (s : State) (o : ObjAt) (off : Nat) (b : Byte) : State :=
  match s.svcXl o.asn o.root Need.store (o.va + off) with
  | none => s
  | some pa =>
    if s.isOwn pa then s.homeWrite (localOf pa) [b] .all none (s.chargedJob pa 0)
    else
      let (tag, s) := s.newTag
      s.fabSend noCore 2 (moduleOf pa) tag 0 pa [b]

def State.svcPutAll (s : State) (o : ObjAt) (off : Nat) (bs : List Byte) : State :=
  (bs.mapIdx (fun i b => (off + i, b))).foldl (fun (t : State) e => t.svcPut o e.1 e.2) s

/-- An entry of the binding table (R513). -/
def Routine.entry (r : Routine) : List Byte := bytesOfNat r.bit 2 ++ List.replicate 6 0 ++ bytesOfNat r.va 8

/-- Step 4: the entries, then the count; the object is loaded. -/
def State.loadCommit (s : State) (o : ObjAt) (rs : List Routine) : State :=
  let ob := { s.objectOf o with binds := rs.map (fun r => (r.bit, r.va)) }
  let off := (s.objTable o).1
  let s := s.svcPutAll o off (rs.flatMap Routine.entry)
  let s := s.svcPutAll o 116 [BitVec.ofNat 8 rs.length]
  { s with objects := s.objects.filter (fun x => !(x.asn = ob.asn && x.va = ob.va)) ++ [ob] }

/-- The enabled tenancy that holds an address-space number (R441). -/
def State.holderOf (s : State) (asn : Nat) : Option Nat :=
  (List.range 16).find? (fun n => tenEnabled (s.tenCfg n) && tenAsn (s.tenCfg n) = asn)

/-- The steps of R463. -/
def State.loadObject (s : State) (asn va size : Nat) : SvcEnd :=
  match s.holderOf asn with
  | none => .done s 5 []
  | some n =>
    let o : ObjAt := { asn := asn, root := (s.dev.tenRoot.getD n 0).toNat, va := va }
    let t := s.objTable o
    let readable := s.svcRangeOk asn o.root Need.load va size
    let writable := size < 128 || size < t.1 + t.2 || s.svcRangeOk asn o.root Need.store (va + t.1) t.2
    let s1 := { s with fresh := s.fresh + 1 }
    if !readable || !writable then .done s 4 []
    else if !s.objOk o size then .done s1 1 []
    else match s.objBinds asn (s.objReq o) with
      | .inl b => .done s1 2 (bytesOfNat b 8)
      | .inr rs => match s.unfit o rs with
        | some b => .done s1 3 (bytesOfNat b 8)
        | none => .done { s.loadCommit o rs with fresh := s.fresh + 1 } 0 []

/-! ### UNLOAD and REGISTER_EMULATION (R464) -/

def State.loaded (s : State) (asn va : Nat) : Option Object := s.objects.find? (fun o => o.asn = asn && o.va = va)

/-- Whether a grid runs code of an object: its kernel's, or that of a routine which its object binds. -/
def State.usesObject (s : State) (g : Grid) (o : Object) : Bool :=
  g.asn = o.asn && (g.kern.obj = o.va ||
    (s.loaded g.asn g.kern.obj).elim false (fun x => x.binds.any (fun b => o.va ≤ b.2 && b.2 < o.va + o.size)))

def State.unload (s : State) (asn va : Nat) : SvcEnd :=
  match s.loaded asn va with
  | none => .done s 1 []
  | some o =>
    if s.grids.any (fun e => !e.2.ended && s.usesObject e.2 o) then .waits s true []
    else .done { s with objects := s.objects.filter (fun x => !(x.asn = asn && x.va = va)) } 0 []

/-- A feature on the native rung: every one the Z8 has but bit 9, which is microcoded (Table 4-11). -/
def isNative (n : Nat) : Bool := hasFeature n && n ≠ 9

def State.register (s : State) (asn bit va offset vregs sregs : Nat) : SvcEnd :=
  match s.loaded asn va with
  | none => .done s 1 []
  | some o =>
    if !o.binds.isEmpty then .done s 1 []
    else if bit = 0 || bit = 12 || isNative bit || 27 ≤ bit then .done s 2 []
    else if vregs < 1 || 256 < vregs || sregs < 1 || 64 < sregs then .done s 3 []
    else
      let r : Routine := { asn := asn, bit := bit, va := o.code + offset, vregs := vregs, sregs := sregs }
      .done { s with routines := s.routines.filter (fun x => !(x.asn = asn && x.bit = bit)) ++ [r] } 0 []

/-! ### HANDOVER and FLASH_WRITE (R447, R452) -/

/-- Steps 2 and 3 of a hand-over, of which no step sees the middle; its commit is an event of its own. A second hand-over waits for the
first. -/
def State.handoverStart (s : State) (slot : Nat) (begun : Bool) : SvcEnd :=
  if begun || s.secure.handover then .waits s begun []
  else if slot = s.secure.slot then .done s 2 []
  else if 2 ≤ slot || !s.fwOk slot then .done s 1 []
  else .waits { s with secure := { s.secure with handover := true, fwNew := fit 64 (s.measure slot) } } true []

/-- The slot of the hand-over in progress, with its request. -/
def State.handoverReq (s : State) : Option (ServiceReq × Nat) :=
  (s.services.filterMap (fun w => match w.req with
    | .handover slot => if w.begun then some (w, slot) else none
    | _ => none)).head?

/-- Flash bytes written. -/
def State.flashPut (s : State) (slot offset : Nat) (data : List Byte) : State :=
  { s with flash := updAt s.flash slot (fun t => (data.mapIdx (fun i b => (offset + i, b))).foldl (fun u e => u.put e.1 e.2) t) }

/-- The running slot and one that a hand-over is verifying are refused. -/
def State.flashWrite (s : State) (slot offset : Nat) (data : List Byte) : SvcEnd :=
  let busy := s.secure.handover && s.handoverReq.elim false (fun e => e.2 = slot)
  if 3 ≤ slot || slot = s.secure.slot || busy || 8144 < data.length || 33554432 < offset + data.length then .done s 1 []
  else .done (s.flashPut slot offset data) 0 []

/-! ### REG_READ, REG_WRITE, MEM_WRITE, MEM_READ -/

def State.regWrite (s : State) (offset : Nat) (v : DWord) : SvcEnd :=
  let bad := (regAt (offset / 8 * 8)).elim false (fun r => s.devRefuses r v)
  .done (s.devWrite offset v) (b2n bad) []

/-- A range of 8 to 8,160 bytes that lies wholly in presented HBM space, or wholly in tier-2 memory, of one module. -/
def State.svcMem (s : State) (addr n : Nat) : Bool :=
  addr % 8 = 0 && 8 ≤ n && n ≤ 8160 && n % 8 = 0 &&
  (if moduleOf addr = s.dev.moduleNum then s.backed addr && s.region (addr + n - 1) = s.region addr
   else s.region addr = .remote && s.region (addr + n - 1) = .remote && moduleOf (addr + n - 1) = moduleOf addr &&
     decide (localOf addr < Config.t2Base) == decide (localOf (addr + n - 1) < Config.t2Base))

/-- The packets of a write of another module's memory, one for each line. -/
def State.memSend (s : State) (addr : Nat) (data : List Byte) : State :=
  (piecesOf (addr : Int) data.length 0 (linesFor data.length)).foldl (fun (t : State) p =>
    let (tag, t) := t.newTag
    t.fabSend noCore 2 (moduleOf addr) tag 0 p.va.toNat ((data.drop p.off).take p.n)) s

/-- The lines of `n` bytes from an address. -/
def linesFrom (addr n : Nat) : List Nat := (List.range (linesFor n)).map (fun i => addr / 128 + i) |>.filter (fun l => 128 * l < addr + n)

/-- MEM_WRITE: at dom scope, so it is answered once no line it wrote is held (Table 8-2), and one of another module once its markers
are acknowledged; one of a page that is MOVING waits, and one without room for its lines (R177, R179). -/
def State.svcWrite (s : State) (w : ServiceReq) (addr : Nat) (data : List Byte) : SvcEnd :=
  if !s.svcMem addr data.length then .done s 1 []
  else if moduleOf addr = s.dev.moduleNum then
    let lines := linesFrom addr data.length
    let t := if w.begun then s else s.store (localOf addr) data (s.chargedJob addr 0)
    if !w.begun && lines.any (fun l => s.writeWaits (128 * l)) then .waits s false []
    else if lines.any t.lineHeld then .waits t true []
    else .done t 0 []
  else if !w.begun then
    let (tags, s) := (s.memSend addr data).markersTo [moduleOf addr]
    .waits s true tags
  else if w.tags.any (fun t => s.marks.any (fun m => m.1 = t)) then .waits s true w.tags
  else .done s 0 []

/-- MEM_READ: at the homes; bytes of another module are not this module's to state (notes/assumptions/16.md). -/
def State.svcRead (s : State) (addr n : Nat) : SvcEnd :=
  if !s.svcMem addr n then .done s 1 []
  else if moduleOf addr = s.dev.moduleNum then .done s 0 (s.rd (localOf addr) n)
  else .done { s with fresh := s.fresh + 1 } 0 ((List.range n).map (fun i => Config.freeByte s.fresh i))

/-! ### Performing requests -/

def State.attempt (s : State) (w : ServiceReq) : SvcEnd :=
  match w.req with
  | .attest nonce => .done { s with fresh := s.fresh + 1 } 0 (s.report64 nonce ++ certBytes)
  | .mapQueue q => s.mapQueue q
  | .unmapQueue q => s.unmapQueue q
  | .load asn va size => s.loadObject asn va size
  | .unload asn va => s.unload asn va
  | .registerEmulation asn bit va offset vregs sregs => s.register asn bit va offset vregs sregs
  | .handover slot => s.handoverStart slot w.begun
  | .flashWrite slot offset data => s.flashWrite slot offset data
  | .regRead offset => .done s 0 (bytesOfNat (s.devRead offset).toNat 8)
  | .regWrite offset v => s.regWrite offset v
  | .memWrite addr data => s.svcWrite w addr data
  | .memRead addr n => s.svcRead addr n
  | .notOffered _ => .done s 0xFFFFFFFF []


/-- The requests of a session, one at a time in arrival order; `fuel` bounds them. -/
def State.serve (s : State) (session : Nat) : Nat → State
  | 0 => s
  | fuel + 1 =>
    match s.services.find? (fun w => w.session = session) with
    | none => s
    | some w => match s.attempt w with
      | .waits t begun tags => { t with services := t.services.replace w { w with begun := begun, tags := tags } }
      | .done t status body =>
        let t := { t with services := t.services.erase w }
        (t.sendFrame session (.answer session w.id w.req.number status body)).serve session fuel

/-- Requests that wait are tried again, session by session. -/
def State.serveAll (s : State) : State :=
  ((s.services.map (fun w => w.session)).eraseDups).foldl (fun (t : State) n => t.serve n (t.services.length + 1)) s

/-- The first word of a request (R458). -/
def requestWord (id service : Nat) : Nat := service % 65536 + id % 2 ^ 32 * 2 ^ 32

/-- A request arrives in a service frame; one that the session's version does not offer is answered so. -/
def State.request (s : State) (f : FrameHead) (id : Nat) (r : Service) : State :=
  s.framed f ⟨3, 0, 0, r.length f⟩ (fun x => x.host && f.word.toNat = requestWord id r.number) (fun x t =>
    let r := if offered x.fwV r.number then r else .notOffered r.number
    let w : ServiceReq := { session := x.number, id := id, req := r, begun := false, tags := [] }
    { t with services := t.services ++ [w] }.serve x.number (t.services.length + 1))

def execAttest (f : FrameHead) (id : Nat) (nonce : List Byte) (s : State) : Out := event "ATTEST" s.up (s.request f id (.attest nonce))
def execMapQueue (f : FrameHead) (id queue : Nat) (s : State) : Out := event "MAP_QUEUE" s.up (s.request f id (.mapQueue queue))
def execUnmapQueue (f : FrameHead) (id queue : Nat) (s : State) : Out := event "UNMAP_QUEUE" s.up (s.request f id (.unmapQueue queue))
def execLoad (f : FrameHead) (id asn va size : Nat) (s : State) : Out := event "LOAD" s.up (s.request f id (.load asn va size))
def execUnload (f : FrameHead) (id asn va : Nat) (s : State) : Out := event "UNLOAD" s.up (s.request f id (.unload asn va))

def execRegisterEmulation (f : FrameHead) (id asn bit va offset vregs sregs : Nat) (s : State) : Out :=
  event "REGISTER_EMULATION" s.up (s.request f id (.registerEmulation asn bit va offset vregs sregs))

/-- The number that the eight bytes of a slot give (Table 19-7). -/
def slotNumber (slot rest : Word) : Nat := slot.toNat + rest.toNat * 2 ^ 32

def execHandover (f : FrameHead) (id : Nat) (slot rest : Word) (s : State) : Out :=
  event "HANDOVER" s.up (s.request f id (.handover (slotNumber slot rest)))

def execFlashWrite (f : FrameHead) (id slot offset : Nat) (data : List Byte) (s : State) : Out :=
  event "FLASH_WRITE" s.up (s.request f id (.flashWrite slot offset data))

def execRegRead (f : FrameHead) (id offset : Nat) (s : State) : Out := event "REG_READ" s.up (s.request f id (.regRead offset))

def execRegWrite (f : FrameHead) (id offset : Nat) (value : DWord) (s : State) : Out :=
  event "REG_WRITE" s.up (s.request f id (.regWrite offset value))

def execMemWrite (f : FrameHead) (id address : Nat) (data : List Byte) (s : State) : Out :=
  event "MEM_WRITE" s.up (s.request f id (.memWrite address data))

def execMemRead (f : FrameHead) (id address length : Nat) (s : State) : Out :=
  event "MEM_READ" s.up (s.request f id (.memRead address length))

/-- A service number that the session's version does not offer. -/
def execServiceNotOffered (f : FrameHead) (id service : Nat) (s : State) : Out :=
  event "SERVICE_NOT_OFFERED" (s.up && (s.session f.session).elim true (fun x => !offered x.fwV service))
    (s.request f id (.notOffered service))

/-! ### HANDOVER_COMMIT (R452) -/

/-- The first step of the commit: the rollback counter rises. -/
def State.raiseCounter (s : State) (slot : Nat) : State :=
  { s with secure := { s.secure with rollback := max s.secure.rollback (s.slotSvn slot) } }

/-- No packet is in progress: the incoming firmware runs. -/
def State.commitHandover (s : State) (w : ServiceReq) (slot : Nat) : State :=
  let svn := s.slotSvn slot
  let s := s.raiseCounter slot
  let sec := { s.secure with fw := s.secure.fwNew, fwNew := [], handover := false, slot := slot,
                             svn := svn }
  { s with secure := sec, services := s.services.erase w }.sendFrame w.session (.answer w.session w.id 7 0 [])

/-- A hand-over can commit once no packet is in progress. -/
def State.commitDue (s : State) : Bool := s.secure.handover && s.queues.all (fun e => e.2.pending.isNone)

def execHandoverCommit (s : State) : Out :=
  match s.handoverReq with
  | none => .refused (.notEnabled "HANDOVER_COMMIT")
  | some (w, slot) =>
    event "HANDOVER_COMMIT" s.commitDue ((s.commitHandover w slot).serveAll)

/-- Power is lost after the counter has advanced and before the switch: the next boot finds the outgoing image below it (R452). -/
def State.powerCut (s : State) : Out :=
  match s.handoverReq with
  | none => .refused (.notEnabled "POWER_CUT")
  | some (_, slot) => event "POWER_CUT" s.commitDue (s.raiseCounter slot).toReset

end Sys2Proof.Machine
end

