-- ==== Sys2Proof/Machine/Sync.lean ====
section
/-! DEFINITION. Machine/Sync.lean: barriers (R372 to R375), progress, idempotence, cancellation and time (R376 to R380), Sheaf
and Stillwater (R386 to R390). -/

namespace Sys2Proof.Machine

/-! ### Barriers -/

def Block.barrier (b : Block) : BarName → Option Barrier
  | .block => some b.bar
  | .counted i => b.bars[i]?

def Block.updBarrier (b : Block) (n : BarName) (f : Barrier → Barrier) : Block :=
  match n with
  | .block => { b with bar := f b.bar }
  | .counted i => { b with bars := updAt b.bars i f }

/-- The phase in which a thread last arrived, if its pending bit is set. -/
def Thread.pendingAt (t : Thread) (n : BarName) : Option Nat := (t.arrived.find? (fun e => e.1 = n)).map (fun e => e.2)

def Thread.clearPending (t : Thread) (n : BarName) : Thread := { t with arrived := t.arrived.filter (fun e => e.1 ≠ n) }

/-- The target of a barrier's phase (R373). -/
def Block.barTarget (b : Block) (n : BarName) (r : Barrier) : Option Nat :=
  match n with
  | .block => some (b.waves.filter (fun w => !w.finished)).length
  | .counted _ => r.expected

/-- Whether the arrived count has reached the target. -/
def Block.phaseFull (b : Block) (n : BarName) : Bool :=
  match b.barrier n with
  | some r => !r.arrived.isEmpty && (b.barTarget n r).elim false (fun t => t ≤ r.arrived.length)
  | none => false

/-- A phase completes: the phase number rises, the count returns to 0, and the threads waiting on it go on; leaving is an open at
block scope (R374). -/
def State.completePhase (s : State) (b : Nat) (n : BarName) : State :=
  match s.block b with
  | none => s
  | some blk =>
    let s := s.updBlock b (fun x => x.updBarrier n (fun r => { phase := r.phase + 1, arrived := [], expected := none }))
    (List.range blk.waves.length).foldl (fun t w =>
      match t.wave b w with
      | none => t
      | some v =>
        let m := v.lanesWith (fun y => y.st == .waiting (.bar n))
        if m = 0 then t
        else ((t.updWave b w (fun x => x.updLanes m (fun y => y.clearPending n))).resumeLanes b w m).beginOpen b w blk.core 0) s

def execBarrierPhaseComplete (blk : Nat) (bar : BarName) (s : State) : Out :=
  match s.block blk with
  | none => .refused (.notEnabled "BARRIER_PHASE_COMPLETE")
  | some b => event "BARRIER_PHASE_COMPLETE" (b.phaseFull bar) (s.completePhase blk bar)

/-- BARRIER_MISUSE of some threads; the others of the group go on (R375, Table 21-4). -/
def Ctx.misuse (x : Ctx) (m : Lanes) (s : State) : State := { s with note := .split { x.trap 0x10 0 0 m true with set := m } }

/-- The active lanes whose pending bit for a barrier is set. -/
def Ctx.pendingLanes (x : Ctx) (n : BarName) : Lanes :=
  x.act &&& x.wv.lanesWith (fun t => (t.pendingAt n).isSome)

/-- The active threads arrive. -/
def Ctx.arrive (x : Ctx) (n : BarName) (phase : Nat) (count : Option Nat) (s : State) : State :=
  (s.updBlock x.b (fun b => (b.updBarrier n (fun r => { r with expected := count })).updWave x.w (fun w =>
    w.updLanes x.act (fun t => { t with arrived := t.arrived ++ [(n, phase)] })))).updBlock x.b Block.noteBarriers

/-- An arrival: a phase that is already full completes first, then R375's checks, then the arrival, with or without a wait. -/
def Ctx.barrierArrive (x : Ctx) (n : BarName) (count : Option Nat) (wait : Bool) (s : State) : State :=
  let s := if x.blk.phaseFull n then s.completePhase x.b n else s
  match (s.block x.b).bind (fun b => b.barrier n) with
  | none => x.misuse x.act s
  | some r =>
    let bad := match count with
      | some c => c = 0 || x.blk.waves.length < c || r.expected.elim false (fun e => e ≠ c)
      | none => false
    if bad then x.misuse x.act s
    else if x.pendingLanes n != 0 then x.misuse (x.pendingLanes n) s
    else
      let s := x.arrive n r.phase count s
      if wait then x.makeWait x.act (.bar n) s else s

def execBar (h : Head) (_f : YFmt) (s : State) : Out :=
  issueOp "BAR" h false [] (waveOp fun x => x.barrierArrive .block none true) s

/-- The counted barrier of a word, and s[A]. -/
def YFmt.barId (f : YFmt) : BarName := .counted (f.sysno.toNat % 16)
def Ctx.barCount (x : Ctx) (f : YFmt) : Option Nat := some (x.scal f.a.toNat).toNat

def execBarn (h : Head) (f : YFmt) (s : State) : Out :=
  issueOp "BARN" h false [.s f.a.toNat 1] (waveOp fun x => x.barrierArrive (YFmt.barId f) (x.barCount f) true) s

def execBara (h : Head) (f : YFmt) (s : State) : Out :=
  issueOp "BARA" h false [.s f.a.toNat 1] (waveOp fun x => x.barrierArrive (YFmt.barId f) (x.barCount f) false) s

/-- `barw`: threads whose phase has passed go on at once, with an open at block scope (R374), the others wait. -/
def Ctx.barrierWait (x : Ctx) (n : BarName) (s : State) : State :=
  let s := if x.blk.phaseFull n then s.completePhase x.b n else s
  match (s.block x.b).bind (fun b => b.barrier n) with
  | none => x.misuse x.act s
  | some r =>
    let pend := x.pendingLanes n
    if pend != x.act then x.misuse (x.act &&& ~~~pend) s
    else
      let past := pend &&& x.wv.lanesWith (fun t => (t.pendingAt n).elim false (fun p => p < r.phase))
      let s := s.updWave x.b x.w (fun w => w.updLanes past (fun t => t.clearPending n))
      let s := if past = 0 then s else s.beginOpen x.b x.w x.blk.core 0
      if pend &&& ~~~past = 0 then s else x.makeWait (pend &&& ~~~past) (.bar n) s

def execBarw (h : Head) (f : YFmt) (s : State) : Out :=
  issueOp "BARW" h false [] (waveOp fun x => x.barrierWait (YFmt.barId f)) s

/-! ### Progress, idempotence, cancellation (R376 to R378) -/

def execProgAdd (h : Head) (f : AI) (s : State) : Out :=
  issueOp "PROG_ADD" h false [] (waveOp fun x s =>
    s.updBlock x.b (fun b => { b with prog := min (b.prog + f.imm.toNat) (2 ^ 32 - 1) })) s

def execIdemEnd (h : Head) (_f : YFmt) (s : State) : Out :=
  issueOp "IDEM_END" h false [] (fun x => x.clearIdem) s

/-- `cancel` takes effect when every thread that issues the packet has left it; IDEM clears whatever the guard. -/
def cancelOp (name : String) (level : Nat) (h : Head) (s : State) : Out :=
  issueOp name h false [] (fun x s =>
    let s := x.clearIdem s
    if x.any then s.updWave x.b x.w (fun w => { w with cancels := w.cancels ++ [(level, x.c.lanes)] }) else s) s

def execCancelBlk (h : Head) (_f : YFmt) (s : State) : Out := cancelOp "CANCEL_BLK" 0 h s
def execCancelGrid (h : Head) (_f : YFmt) (s : State) : Out := cancelOp "CANCEL_GRID" 1 h s
def execCancelGraph (h : Head) (_f : YFmt) (s : State) : Out := cancelOp "CANCEL_GRAPH" 2 h s
def execCancelJob (h : Head) (_f : YFmt) (s : State) : Out := cancelOp "CANCEL_JOB" 3 h s

/-! ### Time (R379, R380) -/

/-- A result of several registers, in every active lane or once in scalar registers (A selects). -/
def Ctx.manyResult (x : Ctx) (f : YFmt) (ws : List Word) (s : State) : State :=
  if f.a = 0 then x.commit (x.lanes.flatMap (fun l => ws.mapIdx (fun i v => .v (f.d.toNat + i) l v))) s
  else x.commit (ws.mapIdx (fun i v => .s (f.d.toNat + i) v)) s

def YFmt.manyUses (f : YFmt) (n : Nat) : List RegUse := if f.a = 0 then [.v f.d.toNat n] else [.s f.d.toNat n]

def execTickRd (h : Head) (f : YFmt) (s : State) : Out :=
  issueOp "TICK_RD" h false (YFmt.manyUses f 4) (waveOp fun x s =>
    let n : DWord := BitVec.ofNat 64 (s.clock - s.lastTick)
    x.manyResult f [BitVec.ofNat 32 s.tick, 0, loOf n, hiOf n] s) s

/-- `clk` waits for every earlier operation of the wave that sets a flag, and no later group of the wave issues before it. -/
def execClk (h : Head) (f : YFmt) (s : State) : Out :=
  issueOp "CLK" h false (YFmt.manyUses f 2) (waveOp fun x s =>
    if x.wv.busy.any (fun e => e.2 < x.c.opBase) then s.stall
    else
      let n : DWord := BitVec.ofNat 64 s.clock
      x.manyResult f [loOf n, hiOf n] s) s

/-! ### Sheaf (R386 to R389) -/

def EFmt.group (f : EFmt) : Nat := f.n % 64

/-- Whether a block may use a group: enabled for its tenancy. -/
def Sheaf.open_ (g : Sheaf) (ten : Nat) : Bool := g.state ≠ 3 && (fld g.cfg 8 4).toNat = ten

/-- Lists of a group, and items per list (Table 15-4). -/
def Sheaf.nlists (g : Sheaf) : Nat := (fld g.cfg 0 8).toNat + 1
def Sheaf.cap (g : Sheaf) : Nat := 2 ^ ((fld g.cfg 52 4).toNat + 6)
def Sheaf.list (g : Sheaf) (k : Nat) : List DWord := (g.lists.get k).getD []

/-- A Sheaf instruction's own check (R386). -/
def Ctx.sheafOp (x : Ctx) (g : Nat) (go : Sheaf → State → State) (s : State) : State :=
  let h := s.sheaf g
  if h.open_ x.blk.ten then go h s else x.raise (x.trap 0x08 4 0 x.act true) s

/-- A Sheaf instruction that clears IDEM whatever the guard. -/
def sheafIdem (name : String) (h : Head) (uses : List RegUse) (body : Ctx → State → State) (s : State) : Out :=
  issueOp name h false uses (fun x s => let s := x.clearIdem s; if x.any then body x s else s) s

def execShfOpen (h : Head) (f : EFmt) (s : State) : Out :=
  let g := EFmt.group f
  sheafIdem "SHF_OPEN" h [] (fun x => x.sheafOp g (fun _ s =>
    let set := x.wv.producer.getLsbD g
    (s.updWave x.b x.w (fun w => { w with producer := w.producer ||| (1#64 <<< g) })).updSheaf g (fun y =>
      { y with producers := y.producers + b2n (!set), state := if y.state = 0 || y.state = 2 then 1 else y.state }))) s

/-- The wave's taker bit clears. -/
def State.dropTaker (s : State) (x : Ctx) (g : Nat) : State :=
  if x.wv.taker.getLsbD g then
    (s.updWave x.b x.w (fun w => { w with taker := w.taker &&& ~~~(1#64 <<< g) })).updSheaf g (fun y => { y with takers := y.takers - 1 })
  else s

/-- The wave's producer bit clears; one already clear is an error of the group. -/
def State.dropProducer (s : State) (x : Ctx) (g : Nat) : State :=
  if x.wv.producer.getLsbD g then
    (s.updWave x.b x.w (fun w => { w with producer := w.producer &&& ~~~(1#64 <<< g) })).updSheaf g (fun y =>
      { y with producers := y.producers - 1 })
  else s.updSheaf g (fun y => { y with regerr := true })

def execShfDone (h : Head) (f : EFmt) (s : State) : Out :=
  let g := EFmt.group f
  sheafIdem "SHF_DONE" h [] (fun x => x.sheafOp g (fun _ s =>
    let s := s.dropTaker x g
    if f.eng.getLsbD 6 then s.dropProducer x g else s)) s

/-- A put leaves for its group's home; the wave issues nothing until its statuses are written (R95, R388). -/
def execShfPut (h : Head) (f : EFmt) (s : State) : Out :=
  sheafIdem "SHF_PUT" h [.v f.x.toNat 1, .v f.a.toNat 2, .v f.b.toNat 1] (fun x => x.sheafOp (EFmt.group f) (fun _ s =>
    let (id, s) := s.newId
    let items := x.lanes.map (fun l => (l, (x.vec f.b.toNat l).toNat, x.vecPair f.a.toNat l))
    let put : Put := { id := id, group := EFmt.group f, ten := x.blk.ten, blk := x.b, wave := x.w, dst := f.x.toNat, items := items }
    { s with puts := s.puts ++ [put] })) s

/-- The address of slot `n` of list `k`: the lists follow one another from BASE (R385), and the slots of a list are used in turn
(DESIGN CHOICE, notes/assumptions/61.md). -/
def Sheaf.slotAddr (g : Sheaf) (k n : Nat) : Nat := (fld g.cfg 12 40).toNat * 4096 + k * (8 * g.cap) + 8 * (n % g.cap)

/-- The items that a list has taken in since the group was enabled. -/
def Sheaf.count (g : Sheaf) (k : Nat) : Nat := (g.used.get k).getD 0

/-- One item of a put: the group, the status (R388), and the word of list memory that is written. -/
def Sheaf.append (g : Sheaf) (k : Nat) (v : DWord) : Sheaf × Nat × List (Nat × DWord) :=
  if g.nlists ≤ k then (g, 2, [])
  else if g.cap ≤ (g.list k).length then ({ g with fullerr := true }, 1, [])
  else ({ g with lists := g.lists.put k (g.list k ++ [v]), used := g.used.put k (g.count k + 1) }, 0, [(g.slotAddr k (g.count k), v)])

/-- Whether the group accepts a put at arrival. -/
def Sheaf.accepts (g : Sheaf) (ten : Nat) : Bool := g.open_ ten && g.state ≠ 2

/-- The items of a put in ascending lane order: the group, each lane's status, and what is written to list memory. -/
def Sheaf.appendAll (g : Sheaf) (ten : Nat) (items : List (Nat × Nat × DWord)) : Sheaf × List (Nat × Nat) × List (Nat × DWord) :=
  if !g.accepts ten then (g, items.map (fun i => (i.1, 3)), [])
  else items.foldl (fun (acc : Sheaf × List (Nat × Nat) × List (Nat × DWord)) i =>
    let r := acc.1.append i.2.1 i.2.2
    (r.1, acc.2.1 ++ [(i.1, r.2.1)], acc.2.2 ++ r.2.2)) (g, [], [])

/-- Items written to the list memory of this module. -/
def State.putItems (s : State) (ws : List (Nat × DWord)) : State :=
  ws.foldl (fun (t : State) e => if t.isOwn e.1 && t.backed e.1 then t.store (localOf e.1) (bytesOfNat e.2.toNat 8) 0 else t) s

def execShfPutArrive (put : Nat) (s : State) : Out :=
  match s.puts.find? (fun p => p.id = put) with
  | none => .refused (.notEnabled "SHF_PUT_ARRIVE")
  | some p =>
    let r := (s.sheaf p.group).appendAll p.ten p.items
    let s := ({ s with puts := s.puts.filter (fun q => q.id ≠ put) }.updSheaf p.group (fun _ => r.1)).putItems r.2.2
    .next (s.commit p.blk p.wave (r.2.1.map (fun e => .v p.dst e.1 (BitVec.ofNat 32 e.2))))

/-- `shf.take`: the active threads wait; SHF_TAKE_RETURN ends the wait. -/
def execShfTake (h : Head) (f : EFmt) (s : State) : Out :=
  let g := EFmt.group f
  sheafIdem "SHF_TAKE" h [.v f.x.toNat 2, .s f.a.toNat 1, .s f.c.toNat 1] (fun x => x.sheafOp g (fun _ s =>
    let t : Taking := { group := g, list := (x.scal f.a.toNat).toNat, dstV := f.x.toNat, dstS := f.c.toNat, lanes := x.act }
    ((x.makeWait x.act .take s).dropTaker x g).updWave x.b x.w (fun w => { w with take := w.take ++ [t] }))) s

/-- Whether a take can return: no such list, an item in it, or a QUIET group. -/
def Sheaf.takeReady (g : Sheaf) (t : Taking) : Bool := g.nlists ≤ t.list || !(g.list t.list).isEmpty || g.state = 2

/-- The register writes of a take, the count it writes and the group it leaves. -/
def Sheaf.takeFrom (g : Sheaf) (t : Taking) : List Wr × Nat × Sheaf :=
  let items := g.list t.list
  let n := min items.length (lanesIn t.lanes).length
  ((List.zip (lanesIn t.lanes) (items.take n)).flatMap (fun e => [.v t.dstV e.1 (loOf e.2), .v (t.dstV + 1) e.1 (hiOf e.2)]), n,
   { g with lists := g.lists.put t.list (items.drop n), takers := g.takers + (if n = 0 then 0 else 1) })

/-- A take returns. -/
def State.returnTake (s : State) (b w : Nat) (t : Taking) : State :=
  let s := s.updWave b w (fun v => ({ v with take := v.take.erase t }).keepLate t.lanes)
  let g := s.sheaf t.group
  if g.nlists ≤ t.list then (s.commit b w [.s t.dstS 0xFFFFFFFF]).resumeLanes b w t.lanes
  else
    let r := g.takeFrom t
    let s := (s.updSheaf t.group (fun _ => r.2.2)).commit b w (r.1 ++ [.s t.dstS (BitVec.ofNat 32 r.2.1)])
    let s := if r.2.1 = 0 then s else s.updWave b w (fun v => { v with taker := v.taker ||| (1#64 <<< t.group) })
    s.resumeLanes b w t.lanes

def execShfTakeReturn (blk wave : Nat) (s : State) : Out :=
  match (s.wave blk wave).bind (fun v => v.take.find? (fun t => (s.sheaf t.group).takeReady t)) with
  | none => .refused (.notEnabled "SHF_TAKE_RETURN")
  | some t => .next (s.returnTake blk wave t)

/-- `shf.wait`: at once when the group is QUIET. -/
def execShfWait (h : Head) (f : EFmt) (s : State) : Out :=
  let g := EFmt.group f
  issueOp "SHF_WAIT" h false [] (waveOp fun x => x.sheafOp g (fun y s =>
    if y.state = 2 then s else x.makeWait x.act (.shfWait g) s)) s

/-! ### Stillwater (R390) -/

/-- The conditions of R390. -/
def State.quiet (s : State) (g : Nat) : Bool :=
  let y := s.sheaf g
  y.state = 1 && y.producers = 0 && y.takers = 0 && y.lists.all (fun e => e.2.isEmpty) && !s.puts.any (fun p => p.group = g)

/-- What a group that becomes QUIET ends in one wave: its takes, with no item, and its waits. -/
def State.quietWave (s : State) (g b w : Nat) : State :=
  match s.wave b w with
  | none => s
  | some v =>
    let s := (v.take.filter (fun t => t.group = g)).foldl (fun t k => t.returnTake b w k) s
    let m := v.lanesWith (fun t => t.st == .waiting (.shfWait g))
    if m = 0 then s else s.resumeLanes b w m

def execStillwaterQuiet (group : Nat) (s : State) : Out :=
  event "STILLWATER_QUIET" (s.quiet group)
    (s.blocks.foldl (fun t e => (List.range e.2.waves.length).foldl (fun u w => u.quietWave group e.1 w) t)
      (s.updSheaf group (fun y => { y with state := 2 })))

end Sys2Proof.Machine
end

