-- ==== Sys2Proof/Machine/Traps.lean ====
section
/-! DEFINITION. Machine/Traps.lean: `trap`, `brk` and `rte` (R480, R481), the system registers (R487) and the service
instructions `tlb.inv` and `err.rd` (R488 to R490). -/

namespace Sys2Proof.Machine

/-! ### `trap` and `brk` (R481) -/

/-- TRAP_ADDR of `trap` and `brk`: the pair s[A] when U = 1. -/
def Ctx.trapOperand (x : Ctx) (f : YFmt) : DWord := if f.sysno.getLsbD 8 then x.scalPair f.a.toNat else 0

def trapUses (f : YFmt) : List RegUse := if f.sysno.getLsbD 8 then [.s f.a.toNat 2] else []

/-- SOFTWARE or BREAK with SUB = n, for every active thread. -/
def softTrap (name : String) (code : Nat) (h : Head) (f : YFmt) (s : State) : Out :=
  issueOp name h false (trapUses f) (waveOp fun x =>
    x.raise (x.trap code (f.sysno.toNat % 256) (x.trapOperand f) x.act true)) s

def execTrap (h : Head) (f : YFmt) (s : State) : Out := softTrap "TRAP" 0x0D h f s
def execBrk (h : Head) (f : YFmt) (s : State) : Out := softTrap "BRK" 0x0E h f s

/-! ### `rte` (R480) -/

/-- Where a return resumes: the packet, and its slot; for `rte.next` the place after the group of slot k - 1, which the
packet's chain bits give once it is fetched. -/
def returnPoint (p : DWord) (next : Bool) : DWord × Nat :=
  let pk := p &&& ~~~31#64
  let k := p.toNat / 8 % 4
  if k = 0 then (pk, 0)
  else if next then (pk, unreadSlot + (k - 1))
  else (pk, k - 1)

/-- The active threads outside a handler. -/
def Ctx.outside (x : Ctx) : Lanes := x.act &&& x.wv.lanesWith (fun t => !t.inHandler)

/-- `rte` for the active threads: those outside a handler take SOFTWARE, without the others if there are some. -/
def Ctx.return_ (x : Ctx) (next : Bool) (s : State) : State :=
  let out := x.outside
  let soft := { x.trap 0x0D 0xFF 0 out true with set := out }
  if out = x.act then x.raise soft s
  else if out != 0 then { s with note := .split soft }
  else
    let p := x.wv.tpc
    if !canonicalNat p.toNat then x.raise (x.trap 0x07 1 p x.act true) s
    else if p.toNat % 8 ≠ 0 then x.raise (x.trap 0x06 1 p x.act true) s
    else
      let r := returnPoint p next
      s.updWave x.b x.w (fun w => w.updLanes x.act (fun t => { t with ret := some r }))

def execRte (h : Head) (_f : YFmt) (s : State) : Out := issueOp "RTE" h false [] (waveOp fun x => x.return_ false) s
def execRteNext (h : Head) (_f : YFmt) (s : State) : Out := issueOp "RTE_NEXT" h false [] (waveOp fun x => x.return_ true) s

/-! ### System registers (Table 21-7) -/

/-- PROG_TOTAL of a block's grid (Table 14-5). -/
def State.progTotal (s : State) (b : Block) : Nat := (s.grids.get b.grid).elim 0 (fun g => g.ptotal)

/-- The features whose use is counted: those on the microcoded or trapped rung (Table 4-11); the other counters read 0 (R465). -/
def countedFeature (n : Nat) : Bool := n = 7 || n = 9 || n = 11

/-- The value of a system register. -/
def State.sysRead (s : State) (b : Block) (w : Wave) (n : Nat) : DWord :=
  if n = 0 then w.cause.setWidth 64
  else if n = 1 then w.tpc
  else if n = 2 then w.taddr
  else if n = 3 then w.kstep.setWidth 64
  else if n = 4 then w.tlanes.setWidth 64
  else if n = 0x10 then BitVec.ofNat 64 Config.featureMask0
  else if n < 0x20 then 0
  else if n < 0x30 then (if countedFeature (n - 0x20) then BitVec.ofNat 64 (s.dev.retireUse.getD (n - 0x20) 0) else 0)
  else if n = 0x30 then BitVec.ofNat 64 b.prog
  else if n = 0x31 then BitVec.ofNat 64 (s.progTotal b)
  else BitVec.ofNat 64 s.tickPeriod

/-- A write of a system register; one it refuses leaves its value (R364). -/
def State.sysWrite (s : State) (b w n : Nat) (v : DWord) : State :=
  if n = 1 then s.updWave b w (fun x => { x with tpc := v })
  else if n = 2 then s.updWave b w (fun x => { x with taddr := v })
  else if 0x20 ≤ n && n < 0x30 && countedFeature (n - 0x20) then { s with dev := { s.dev with retireUse := updAt s.dev.retireUse (n - 0x20) (fun _ => v.toNat) } }
  else if n = 0x32 then s.tickPeriodSet v
  else s

def sysWide (n : Nat) : Bool := sysWidth n == some 64

def execSysRd (h : Head) (f : YFmt) (s : State) : Out :=
  let n := f.sysno.toNat
  issueOp "SYS_RD" h false [.s f.d.toNat (if sysWide n then 2 else 1)] (waveOp fun x s =>
    x.scalResult (sysWide n) f.d.toNat (s.sysRead x.blk x.wv n) s) s

def execSysWr (h : Head) (f : YFmt) (s : State) : Out :=
  let n := f.sysno.toNat
  issueOp "SYS_WR" h (sysService n) [.s f.a.toNat (if sysWide n then 2 else 1)] (fun x s =>
    let s := x.clearIdem s
    if x.any then s.sysWrite x.b x.w n (x.scalN (sysWide n) f.a.toNat) else s) s

/-! ### `tlb.inv` (R489) -/

/-- Translations that satisfy `p` go from every TLB, and the L1 lines that satisfy `q` from every core. -/
def State.invalidate (s : State) (p : TlbEntry → Bool) (q : L1Line → Bool) : State :=
  { s with tlb := s.tlb.filter (fun t => !p t) }.l1DropAll q

/-- Whether a translation is one of the `size` bytes that hold `va`. -/
def TlbEntry.within (t : TlbEntry) (asn va size : Nat) : Bool :=
  let page := if t.large then 67108864 else 65536
  t.asn = asn && (if page ≤ size then t.vpage * page / size = va / size else va / page = t.vpage)

def L1Line.within (l : L1Line) (asn va size : Nat) : Bool := l.asn = asn && 128 * l.vline / size = va / size

def Ctx.asnOperand (x : Ctx) (f : YFmt) : Nat := (x.scal f.d.toNat).toNat % 65536

/-- `tlb.inv` of a page or of a 64 MiB range. -/
def invRange (name : String) (size : Nat) (h : Head) (f : YFmt) (s : State) : Out :=
  issueOp name h true [.s f.d.toNat 1, .s f.a.toNat 2] (waveOp fun x s =>
    let va := (x.scalPair f.a.toNat).toNat
    s.invalidate (fun t => t.within (x.asnOperand f) va size) (fun l => l.within (x.asnOperand f) va size)) s

def execTlbInvPage (h : Head) (f : YFmt) (s : State) : Out := invRange "TLB_INV_PAGE" 65536 h f s
def execTlbInvLarge (h : Head) (f : YFmt) (s : State) : Out := invRange "TLB_INV_LARGE" 67108864 h f s

def execTlbInvAsn (h : Head) (f : YFmt) (s : State) : Out :=
  issueOp "TLB_INV_ASN" h true [.s f.d.toNat 1] (waveOp fun x s =>
    s.invalidate (fun t => t.asn = x.asnOperand f) (fun l => l.asn = x.asnOperand f)) s

def execTlbInvAll (h : Head) (_f : YFmt) (s : State) : Out :=
  issueOp "TLB_INV_ALL" h true [] (waveOp fun _ s => s.invalidate (fun _ => true) (fun _ => true)) s

/-! ### `err.rd` (R490, R495, R496) -/

/-- The four words of a log record (Table 22-2). -/
def LogRec.words (r : LogRec) : List DWord :=
  [BitVec.ofNat 64 (r.seq * 2 ^ 32 + r.cls * 2 ^ 24 + r.unit * 65536 + r.num), BitVec.ofNat 64 r.addr,
   BitVec.ofNat 64 (r.job % 65536 * 2 ^ 48 + r.synd.toNat), BitVec.ofNat 64 r.clock]

/-- One `err.rd`: the value for s[A], and the health after it. -/
def errRd (name : String) (h : Head) (f : YFmt) (read : Health → Nat → DWord × Health) (s : State) : Out :=
  issueOp name h true [.s f.d.toNat 2, .s f.a.toNat 1] (waveOp fun x s =>
    let r := read s.health (x.scal f.a.toNat).toNat
    x.scalResult true f.d.toNat r.1 { s with health := r.2 }) s

def execErrRdCounter (h : Head) (f : YFmt) (s : State) : Out :=
  errRd "ERR_RD_COUNTER" h f (fun k n => (BitVec.ofNat 64 (k.counters.getD n 0), k)) s

def execErrRdLog (h : Head) (f : YFmt) (s : State) : Out :=
  errRd "ERR_RD_LOG" h f (fun k n => ((k.log.head?).elim 0 (fun r => r.words.getD (n % 4) 0), k)) s

def execErrRdRetire (h : Head) (f : YFmt) (s : State) : Out :=
  errRd "ERR_RD_RETIRE" h f (fun k _ => (BitVec.ofNat 64 (k.log.drop 1).length, { k with log := k.log.drop 1 })) s

end Sys2Proof.Machine
end

