-- ==== Sys2Proof/Machine/Dispatch.lean ====
section
/-! DEFINITION. Machine/Dispatch.lean: one arm per constructor of Instr, each a direct call of its meaning. -/

namespace Sys2Proof.Machine

def exec (i : Instr) (s : State) : Host.Outcome State Fault Refusal :=
  match i with
  | .nop chain => Sys2Proof.Machine.execNop chain s
  | .br h f => Sys2Proof.Machine.execBr h f s
  | .brx h f => Sys2Proof.Machine.execBrx h f s
  | .call h f => Sys2Proof.Machine.execCall h f s
  | .callx h f => Sys2Proof.Machine.execCallx h f s
  | .ret h f => Sys2Proof.Machine.execRet h f s
  | .exit h f => Sys2Proof.Machine.execExit h f s
  | .rcv h f => Sys2Proof.Machine.execRcv h f s
  | .rcvRelease blk v1 => Sys2Proof.Machine.execRcvRelease blk v1 s
  | .loop h f => Sys2Proof.Machine.execLoop h f s
  | .brany h f => Sys2Proof.Machine.execBrany h f s
  | .brall h f => Sys2Proof.Machine.execBrall h f s
  | .yield h f => Sys2Proof.Machine.execYield h f s
  | .sleep h f => Sys2Proof.Machine.execSleep h f s
  | .sleepEnd blk v1 => Sys2Proof.Machine.execSleepEnd blk v1 s
  | .trap h f => Sys2Proof.Machine.execTrap h f s
  | .brk h f => Sys2Proof.Machine.execBrk h f s
  | .rte h f => Sys2Proof.Machine.execRte h f s
  | .rteNext h f => Sys2Proof.Machine.execRteNext h f s
  | .sysRd h f => Sys2Proof.Machine.execSysRd h f s
  | .sysWr h f => Sys2Proof.Machine.execSysWr h f s
  | .tlbInvPage h f => Sys2Proof.Machine.execTlbInvPage h f s
  | .tlbInvLarge h f => Sys2Proof.Machine.execTlbInvLarge h f s
  | .tlbInvAsn h f => Sys2Proof.Machine.execTlbInvAsn h f s
  | .tlbInvAll h f => Sys2Proof.Machine.execTlbInvAll h f s
  | .errRdCounter h f => Sys2Proof.Machine.execErrRdCounter h f s
  | .errRdLog h f => Sys2Proof.Machine.execErrRdLog h f s
  | .errRdRetire h f => Sys2Proof.Machine.execErrRdRetire h f s
  | .iclLock h f => Sys2Proof.Machine.execIclLock h f s
  | .iclFree h f => Sys2Proof.Machine.execIclFree h f s
  | .iclCount h f => Sys2Proof.Machine.execIclCount h f s
  | .halt h f => Sys2Proof.Machine.execHalt h f s
  | .wvote w => Sys2Proof.Machine.execWvote w s
  | .iadd h f => Sys2Proof.Machine.execIadd h f s
  | .isub h f => Sys2Proof.Machine.execIsub h f s
  | .iadd64 h f => Sys2Proof.Machine.execIadd64 h f s
  | .imul h f => Sys2Proof.Machine.execImul h f s
  | .imulh h f => Sys2Proof.Machine.execImulh h f s
  | .imad h f => Sys2Proof.Machine.execImad h f s
  | .imadw h f => Sys2Proof.Machine.execImadw h f s
  | .iaddc h f => Sys2Proof.Machine.execIaddc h f s
  | .isubb h f => Sys2Proof.Machine.execIsubb h f s
  | .idiv h f => Sys2Proof.Machine.execIdiv h f s
  | .irem h f => Sys2Proof.Machine.execIrem h f s
  | .imin h f => Sys2Proof.Machine.execImin h f s
  | .imax h f => Sys2Proof.Machine.execImax h f s
  | .iabs h f => Sys2Proof.Machine.execIabs h f s
  | .isad h f => Sys2Proof.Machine.execIsad h f s
  | .idot4 h f => Sys2Proof.Machine.execIdot4 h f s
  | .and h f => Sys2Proof.Machine.execAnd h f s
  | .or h f => Sys2Proof.Machine.execOr h f s
  | .xor h f => Sys2Proof.Machine.execXor h f s
  | .andn h f => Sys2Proof.Machine.execAndn h f s
  | .ltab h f => Sys2Proof.Machine.execLtab h f s
  | .shl h f => Sys2Proof.Machine.execShl h f s
  | .shr h f => Sys2Proof.Machine.execShr h f s
  | .sar h f => Sys2Proof.Machine.execSar h f s
  | .rot h f => Sys2Proof.Machine.execRot h f s
  | .bfe h f => Sys2Proof.Machine.execBfe h f s
  | .bfi h f => Sys2Proof.Machine.execBfi h f s
  | .popc h f => Sys2Proof.Machine.execPopc h f s
  | .clz h f => Sys2Proof.Machine.execClz h f s
  | .brev h f => Sys2Proof.Machine.execBrev h f s
  | .lea h f => Sys2Proof.Machine.execLea h f s
  | .movi h f => Sys2Proof.Machine.execMovi h f s
  | .icmp h f => Sys2Proof.Machine.execIcmp h f s
  | .fcmp h f => Sys2Proof.Machine.execFcmp h f s
  | .pand h f => Sys2Proof.Machine.execPand h f s
  | .por h f => Sys2Proof.Machine.execPor h f s
  | .pxor h f => Sys2Proof.Machine.execPxor h f s
  | .pmov h f => Sys2Proof.Machine.execPmov h f s
  | .sel h f => Sys2Proof.Machine.execSel h f s
  | .ballot h f => Sys2Proof.Machine.execBallot h f s
  | .vany h f => Sys2Proof.Machine.execVany h f s
  | .vall h f => Sys2Proof.Machine.execVall h f s
  | .vmatch h f => Sys2Proof.Machine.execVmatch h f s
  | .lanes h f => Sys2Proof.Machine.execLanes h f s
  | .mov h f => Sys2Proof.Machine.execMov h f s
  | .movs h f => Sys2Proof.Machine.execMovs h f s
  | .smov h f => Sys2Proof.Machine.execSmov h f s
  | .sltab h f => Sys2Proof.Machine.execSltab h f s
  | .sadd h f => Sys2Proof.Machine.execSadd h f s
  | .ssub h f => Sys2Proof.Machine.execSsub h f s
  | .smul h f => Sys2Proof.Machine.execSmul h f s
  | .sand h f => Sys2Proof.Machine.execSand h f s
  | .sor h f => Sys2Proof.Machine.execSor h f s
  | .sxor h f => Sys2Proof.Machine.execSxor h f s
  | .sshl h f => Sys2Proof.Machine.execSshl h f s
  | .sshr h f => Sys2Proof.Machine.execSshr h f s
  | .scmp h f => Sys2Proof.Machine.execScmp h f s
  | .smovi h f => Sys2Proof.Machine.execSmovi h f s
  | .smin h f => Sys2Proof.Machine.execSmin h f s
  | .smax h f => Sys2Proof.Machine.execSmax h f s
  | .movri h f => Sys2Proof.Machine.execMovri h f s
  | .movwi h f => Sys2Proof.Machine.execMovwi h f s
  | .xperm h f => Sys2Proof.Machine.execXperm h f s
  | .spec h f => Sys2Proof.Machine.execSpec h f s
  | .fadd h f => Sys2Proof.Machine.execFadd h f s
  | .fsub h f => Sys2Proof.Machine.execFsub h f s
  | .fmul h f => Sys2Proof.Machine.execFmul h f s
  | .ffma h f => Sys2Proof.Machine.execFfma h f s
  | .fmin h f => Sys2Proof.Machine.execFmin h f s
  | .fmax h f => Sys2Proof.Machine.execFmax h f s
  | .fabs h f => Sys2Proof.Machine.execFabs h f s
  | .fneg h f => Sys2Proof.Machine.execFneg h f s
  | .frcp h f => Sys2Proof.Machine.execFrcp h f s
  | .fsqrt h f => Sys2Proof.Machine.execFsqrt h f s
  | .frsq h f => Sys2Proof.Machine.execFrsq h f s
  | .fexp2 h f => Sys2Proof.Machine.execFexp2 h f s
  | .flog2 h f => Sys2Proof.Machine.execFlog2 h f s
  | .fsinp h f => Sys2Proof.Machine.execFsinp h f s
  | .fcosp h f => Sys2Proof.Machine.execFcosp h f s
  | .sfuResult blk v1 op => Sys2Proof.Machine.execSfuResult blk v1 op s
  | .fdiv h f => Sys2Proof.Machine.execFdiv h f s
  | .frnd h f => Sys2Proof.Machine.execFrnd h f s
  | .fclass h f => Sys2Proof.Machine.execFclass h f s
  | .fscale h f => Sys2Proof.Machine.execFscale h f s
  | .fdot2 h f => Sys2Proof.Machine.execFdot2 h f s
  | .ftwosum h f => Sys2Proof.Machine.execFtwosum h f s
  | .fcpysgn h f => Sys2Proof.Machine.execFcpysgn h f s
  | .fmadFtz h f => Sys2Proof.Machine.execFmadFtz h f s
  | .cvtFf h f => Sys2Proof.Machine.execCvtFf h f s
  | .cvtFi h f => Sys2Proof.Machine.execCvtFi h f s
  | .cvtIf h f => Sys2Proof.Machine.execCvtIf h f s
  | .cvtIi h f => Sys2Proof.Machine.execCvtIi h f s
  | .cvtE8 h f => Sys2Proof.Machine.execCvtE8 h f s
  | .cvtE4 h f => Sys2Proof.Machine.execCvtE4 h f s
  | .dcvtE8 h f => Sys2Proof.Machine.execDcvtE8 h f s
  | .dcvtE4 h f => Sys2Proof.Machine.execDcvtE4 h f s
  | .qblk h f => Sys2Proof.Machine.execQblk h f s
  | .dqblk h f => Sys2Proof.Machine.execDqblk h f s
  | .qhdr h f => Sys2Proof.Machine.execQhdr h f s
  | .hchk h f => Sys2Proof.Machine.execHchk h f s
  | .pack4 h f => Sys2Proof.Machine.execPack4 h f s
  | .pack8 h f => Sys2Proof.Machine.execPack8 h f s
  | .unpk4 h f => Sys2Proof.Machine.execUnpk4 h f s
  | .unpk8 h f => Sys2Proof.Machine.execUnpk8 h f s
  | .fpk2 h f => Sys2Proof.Machine.execFpk2 h f s
  | .fupk2 h f => Sys2Proof.Machine.execFupk2 h f s
  | .ld h f => Sys2Proof.Machine.execLd h f s
  | .ldBlk h f => Sys2Proof.Machine.execLdBlk h f s
  | .st h f => Sys2Proof.Machine.execSt h f s
  | .stBlk h f => Sys2Proof.Machine.execStBlk h f s
  | .lds h f => Sys2Proof.Machine.execLds h f s
  | .sts h f => Sys2Proof.Machine.execSts h f s
  | .atomAdd h f => Sys2Proof.Machine.execAtomAdd h f s
  | .atomMin h f => Sys2Proof.Machine.execAtomMin h f s
  | .atomMax h f => Sys2Proof.Machine.execAtomMax h f s
  | .atomAnd h f => Sys2Proof.Machine.execAtomAnd h f s
  | .atomOr h f => Sys2Proof.Machine.execAtomOr h f s
  | .atomXor h f => Sys2Proof.Machine.execAtomXor h f s
  | .atomXch h f => Sys2Proof.Machine.execAtomXch h f s
  | .atomCas h f => Sys2Proof.Machine.execAtomCas h f s
  | .atomFadd h f => Sys2Proof.Machine.execAtomFadd h f s
  | .red h f => Sys2Proof.Machine.execRed h f s
  | .satom h f => Sys2Proof.Machine.execSatom h f s
  | .phaseCl h f => Sys2Proof.Machine.execPhaseCl h f s
  | .phaseClComplete blk v1 => Sys2Proof.Machine.execPhaseClComplete blk v1 s
  | .phaseOp h f => Sys2Proof.Machine.execPhaseOp h f s
  | .fenceQ h f => Sys2Proof.Machine.execFenceQ h f s
  | .cinv h f => Sys2Proof.Machine.execCinv h f s
  | .cinvAll h f => Sys2Proof.Machine.execCinvAll h f s
  | .prefetch h f => Sys2Proof.Machine.execPrefetch h f s
  | .mprobe h f => Sys2Proof.Machine.execMprobe h f s
  | .monArm h f => Sys2Proof.Machine.execMonArm h f s
  | .monWait h f => Sys2Proof.Machine.execMonWait h f s
  | .monitorTrigger blk v1 => Sys2Proof.Machine.execMonitorTrigger blk v1 s
  | .monitorTimeout blk v1 => Sys2Proof.Machine.execMonitorTimeout blk v1 s
  | .tileDef h f => Sys2Proof.Machine.execTileDef h f s
  | .tileRel h f => Sys2Proof.Machine.execTileRel h f s
  | .tileWait h f => Sys2Proof.Machine.execTileWait h f s
  | .tileQ h f => Sys2Proof.Machine.execTileQ h f s
  | .cpLd h f => Sys2Proof.Machine.execCpLd h f s
  | .cpSt h f => Sys2Proof.Machine.execCpSt h f s
  | .cpGth h f => Sys2Proof.Machine.execCpGth h f s
  | .cpSct h f => Sys2Proof.Machine.execCpSct h f s
  | .cpHint h f => Sys2Proof.Machine.execCpHint h f s
  | .cpSet h f => Sys2Proof.Machine.execCpSet h f s
  | .copyBegin core queue => Sys2Proof.Machine.execCopyBegin core queue s
  | .copyComplete core queue ecc => Sys2Proof.Machine.execCopyComplete core queue ecc s
  | .collAr h f => Sys2Proof.Machine.execCollAr h f s
  | .collBc h f => Sys2Proof.Machine.execCollBc h f s
  | .collWait h f => Sys2Proof.Machine.execCollWait h f s
  | .collBegin core queue => Sys2Proof.Machine.execCollBegin core queue s
  | .collComplete core queue mismatch lost => Sys2Proof.Machine.execCollComplete core queue mismatch lost s
  | .convDecl h f => Sys2Proof.Machine.execConvDecl h f s
  | .mma h f => Sys2Proof.Machine.execMma h f s
  | .mmaG h f => Sys2Proof.Machine.execMmaG h f s
  | .signingRoundComplete blk conv => Sys2Proof.Machine.execSigningRoundComplete blk conv s
  | .mmaKstep blk acc => Sys2Proof.Machine.execMmaKstep blk acc s
  | .mmaWait h f => Sys2Proof.Machine.execMmaWait h f s
  | .accZero h f => Sys2Proof.Machine.execAccZero h f s
  | .accLd h f => Sys2Proof.Machine.execAccLd h f s
  | .accSt h f => Sys2Proof.Machine.execAccSt h f s
  | .accStq h f => Sys2Proof.Machine.execAccStq h f s
  | .accFlg h f => Sys2Proof.Machine.execAccFlg h f s
  | .accFclr h f => Sys2Proof.Machine.execAccFclr h f s
  | .accCommandPerform blk acc => Sys2Proof.Machine.execAccCommandPerform blk acc s
  | .mma8 w => Sys2Proof.Machine.execMma8 w s
  | .bar h f => Sys2Proof.Machine.execBar h f s
  | .barn h f => Sys2Proof.Machine.execBarn h f s
  | .bara h f => Sys2Proof.Machine.execBara h f s
  | .barw h f => Sys2Proof.Machine.execBarw h f s
  | .barrierPhaseComplete blk v1 => Sys2Proof.Machine.execBarrierPhaseComplete blk v1 s
  | .progAdd h f => Sys2Proof.Machine.execProgAdd h f s
  | .idemEnd h f => Sys2Proof.Machine.execIdemEnd h f s
  | .shfPut h f => Sys2Proof.Machine.execShfPut h f s
  | .shfPutArrive put => Sys2Proof.Machine.execShfPutArrive put s
  | .shfTake h f => Sys2Proof.Machine.execShfTake h f s
  | .shfTakeReturn blk v1 => Sys2Proof.Machine.execShfTakeReturn blk v1 s
  | .shfWait h f => Sys2Proof.Machine.execShfWait h f s
  | .shfOpen h f => Sys2Proof.Machine.execShfOpen h f s
  | .shfDone h f => Sys2Proof.Machine.execShfDone h f s
  | .stillwaterQuiet group => Sys2Proof.Machine.execStillwaterQuiet group s
  | .cancelBlk h f => Sys2Proof.Machine.execCancelBlk h f s
  | .cancelGrid h f => Sys2Proof.Machine.execCancelGrid h f s
  | .cancelGraph h f => Sys2Proof.Machine.execCancelGraph h f s
  | .cancelJob h f => Sys2Proof.Machine.execCancelJob h f s
  | .tickRd h f => Sys2Proof.Machine.execTickRd h f s
  | .clk h f => Sys2Proof.Machine.execClk h f s
  | .loadResult req ecc => Sys2Proof.Machine.execLoadResult req ecc s
  | .writePerform req ecc => Sys2Proof.Machine.execWritePerform req ecc s
  | .fetchFault blk v1 => Sys2Proof.Machine.execFetchFault blk v1 s
  | .blockRetire blk => Sys2Proof.Machine.execBlockRetire blk s
  | .gridComplete grid => Sys2Proof.Machine.execGridComplete grid s
  | .commandFrame f queue offset payload => Sys2Proof.Machine.execCommandFrame f queue offset payload s
  | .launch queue => Sys2Proof.Machine.execLaunch queue s
  | .wait queue => Sys2Proof.Machine.execWait queue s
  | .waitSatisfied queue => Sys2Proof.Machine.execWaitSatisfied queue s
  | .signal queue => Sys2Proof.Machine.execSignal queue s
  | .cancel queue => Sys2Proof.Machine.execCancel queue s
  | .bind queue => Sys2Proof.Machine.execBind queue s
  | .tickalign queue => Sys2Proof.Machine.execTickalign queue s
  | .close queue => Sys2Proof.Machine.execClose queue s
  | .tickBoundary => Sys2Proof.Machine.execTickBoundary s
  | .dispatchTakeGrid => Sys2Proof.Machine.execDispatchTakeGrid s
  | .blockPlace => Sys2Proof.Machine.execBlockPlace s
  | .backfill behind => Sys2Proof.Machine.execBackfill behind s
  | .weirRun => Sys2Proof.Machine.execWeirRun s
  | .saveImageWrite blk => Sys2Proof.Machine.execSaveImageWrite blk s
  | .resumeIssue blk => Sys2Proof.Machine.execResumeIssue blk s
  | .portRefill => Sys2Proof.Machine.execPortRefill s
  | .portSend core ecc => Sys2Proof.Machine.execPortSend core ecc s
  | .reedDemote stack frame leaf => Sys2Proof.Machine.execReedDemote stack frame leaf s
  | .heldWriteCommit line => Sys2Proof.Machine.execHeldWriteCommit line s
  | .pageMoveComplete frame => Sys2Proof.Machine.execPageMoveComplete frame s
  | .moveStart value => Sys2Proof.Machine.execMoveStart value s
  | .l2FlushStart value => Sys2Proof.Machine.execL2FlushStart value s
  | .l2FlushDone => Sys2Proof.Machine.execL2FlushDone s
  | .t2FreePush value => Sys2Proof.Machine.execT2FreePush value s
  | .t2FreeCountWrite value => Sys2Proof.Machine.execT2FreeCountWrite value s
  | .poolThresholdWrite high stack value => Sys2Proof.Machine.execPoolThresholdWrite high stack value s
  | .faultAckRetry fault => Sys2Proof.Machine.execFaultAckRetry fault s
  | .faultAckFatal fault => Sys2Proof.Machine.execFaultAckFatal fault s
  | .faultqBaseWrite value => Sys2Proof.Machine.execFaultqBaseWrite value s
  | .faultqSizeWrite value => Sys2Proof.Machine.execFaultqSizeWrite value s
  | .shfCfgWrite group value => Sys2Proof.Machine.execShfCfgWrite group value s
  | .tenCfgWrite tenancy value => Sys2Proof.Machine.execTenCfgWrite tenancy value s
  | .collCfgWrite group map value => Sys2Proof.Machine.execCollCfgWrite group map value s
  | .granaryChunksWrite value => Sys2Proof.Machine.execGranaryChunksWrite value s
  | .moduleNumWrite value => Sys2Proof.Machine.execModuleNumWrite value s
  | .qdescBaseWrite value => Sys2Proof.Machine.execQdescBaseWrite value s
  | .fabRouteWrite module path value => Sys2Proof.Machine.execFabRouteWrite module path value s
  | .powerLimitWrite value => Sys2Proof.Machine.execPowerLimitWrite value s
  | .tickPeriodWrite value => Sys2Proof.Machine.execTickPeriodWrite value s
  | .dumpRelease => Sys2Proof.Machine.execDumpRelease s
  | .registerWrite offset value => Sys2Proof.Machine.execRegisterWrite offset value s
  | .powerSample watts => Sys2Proof.Machine.execPowerSample watts s
  | .powerOverlimitFault => Sys2Proof.Machine.execPowerOverlimitFault s
  | .temperatureSample hottest => Sys2Proof.Machine.execTemperatureSample hottest s
  | .railOutOfWindow rail => Sys2Proof.Machine.execRailOutOfWindow rail s
  | .resetAssert => Sys2Proof.Machine.execResetAssert s
  | .resetRelease cfg presented => Sys2Proof.Machine.execResetRelease cfg presented s
  | .fatalError reason arg => Sys2Proof.Machine.execFatalError reason arg s
  | .scrubRead r => Sys2Proof.Machine.execScrubRead r s
  | .unitFence unit number => Sys2Proof.Machine.execUnitFence unit number s
  | .fabricSequence port bytes => Sys2Proof.Machine.execFabricSequence port bytes s
  | .portRetrain port v1 => Sys2Proof.Machine.execPortRetrain port v1 s
  | .fabricRead p ecc => Sys2Proof.Machine.execFabricRead p ecc s
  | .fabricWrite p ecc => Sys2Proof.Machine.execFabricWrite p ecc s
  | .fabricAtomic p ecc => Sys2Proof.Machine.execFabricAtomic p ecc s
  | .fabricReply p => Sys2Proof.Machine.execFabricReply p s
  | .marker p => Sys2Proof.Machine.execMarker p s
  | .markerAck p => Sys2Proof.Machine.execMarkerAck p s
  | .fabricSession port p => Sys2Proof.Machine.execFabricSession port p s
  | .fabricColl p => Sys2Proof.Machine.execFabricColl p s
  | .hello port m => Sys2Proof.Machine.execHello port m s
  | .key port m => Sys2Proof.Machine.execKey port m s
  | .rekey f nonce cipher => Sys2Proof.Machine.execRekey f nonce cipher s
  | .sessionClose f => Sys2Proof.Machine.execSessionClose f s
  | .attest f id nonce => Sys2Proof.Machine.execAttest f id nonce s
  | .mapQueue f id queue => Sys2Proof.Machine.execMapQueue f id queue s
  | .unmapQueue f id queue => Sys2Proof.Machine.execUnmapQueue f id queue s
  | .load f id asn va size => Sys2Proof.Machine.execLoad f id asn va size s
  | .unload f id asn va => Sys2Proof.Machine.execUnload f id asn va s
  | .registerEmulation f id asn bit va offset vregs sregs => Sys2Proof.Machine.execRegisterEmulation f id asn bit va offset vregs sregs s
  | .handover f id slot rest => Sys2Proof.Machine.execHandover f id slot rest s
  | .handoverCommit => Sys2Proof.Machine.execHandoverCommit s
  | .flashWrite f id slot offset data => Sys2Proof.Machine.execFlashWrite f id slot offset data s
  | .regRead f id offset => Sys2Proof.Machine.execRegRead f id offset s
  | .regWrite f id offset value => Sys2Proof.Machine.execRegWrite f id offset value s
  | .memWrite f id address data => Sys2Proof.Machine.execMemWrite f id address data s
  | .memRead f id address length => Sys2Proof.Machine.execMemRead f id address length s
  | .railRegulationChange rail inWindow => Sys2Proof.Machine.execRailRegulationChange rail inWindow s
  | .faultqRidxWrite value => Sys2Proof.Machine.execFaultqRidxWrite value s
  | .pfcPauseFrame priorities quanta => Sys2Proof.Machine.execPfcPauseFrame priorities quanta s
  | .serviceNotOffered f id service => Sys2Proof.Machine.execServiceNotOffered f id service s
  | .monitorSpuriousEnd blk v1 => Sys2Proof.Machine.execMonitorSpuriousEnd blk v1 s

end Sys2Proof.Machine
end

