-- ==== Sys2Proof/Machine/Run.lean ====
section
/-! DEFINITION. Machine/Run.lean: the issue of a wave's packets, one chain group at a time (R33 to R35, R59, R64 to R68,
R210, R473, R476), and the actions a step performs. -/

namespace Sys2Proof.Machine

/-! ### One chain group -/

/-- The key and value of a register write. -/
def Wr.result : Wr → List (Nat × Option Word)
  | .v r l x => [(vkey r l, some x)]
  | .s r x => [(skey r, some x)]
  | .p _ _ _ => []

/-- The long-latency results of a wave that are fixed and not yet written (R58, R60). -/
def State.pending (s : State) (b w : Nat) : List (Nat × Option Word) :=
  (s.wave b w).elim [] Wave.sfuPending ++
  (s.reqs.vals.filter (fun r => r.blk = b && r.wave = w && r.visible)).flatMap (fun r => r.writes.flatMap Wr.result)

/-- The slot being issued: sources and pending results as the group began (R66). -/
def Wave.curFor (w : Wave) (b i : Nat) (p : Issue) (k : Nat) (lanes : Lanes) (base : Nat) (pend : List (Nat × Option Word)) : Cur :=
  { blk := b, wave := i, pc := p.pc, slot := k, word := p.words.getD k 0, flag := Control.flagOf (controlOf p.ctl) k, lanes := lanes,
    v := w.v, s := w.s, preds := w.threads.map (fun t => t.preds), opBase := base, pend := pend }

/-- Rows 1 to 4 of Table 4-10 raise ILLEGAL_ENCODING for the word of slot `k`. -/
def illegalWord (p : Issue) (k : Nat) (lanes : Lanes) : TrapInfo :=
  { code := 0x01, sub := 0, pc := p.pc + BitVec.ofNat 64 (8 * (k + 1)), addr := 0, kstep := 0, lanes := lanes, set := lanes,
    whole := true, feat := 0, defer := false }

/-- The wave issues nothing further for now: an access is retried in place (R39), a close is under way (R199), or the statuses of a
put are not yet written (R95). -/
def State.stays (s : State) (b w : Nat) : Bool :=
  (s.wave b w).elim false (fun x => x.hold != .none) || s.puts.any (fun p => p.blk = b && p.wave = w)

/-- Performs the slots `ks` of a group in order, all in one clock (R64), until one traps or is held; gives the next slot too.
`pre` is the wave as the group began, `pend` what was pending then, `base` numbers its first operation. What a slot did that made its
threads wait stands when a word chained to it traps at its later issue (DESIGN CHOICE, notes/assumptions/76.md). -/
def State.runSlots (s : State) (b w : Nat) (pre : Wave) (p : Issue) (base : Nat) (pend : List (Nat × Option Word)) :
    List Nat → Nat → State × Nat
  | [], n => (s, n)
  | k :: ks, n =>
    let lanes : Lanes := match (s.wave b w).bind (fun x => x.issue) with
      | some i => i.lanes
      | none => 0
    if lanes = 0 then (s, n)
    else
      let s := { s with cur := some (pre.curFor b w p k lanes base pend), note := .fine }
      let t := match decode (p.words.getD k 0) with
        | none => s.takeTrap b w (illegalWord p k lanes)
        | some i => match exec i s with
          | .next t => t
          | _ => { s with note := .held }
      match t.note with
      | .fine => t.runSlots b w pre p base pend ks (k + 1)
      | _ => (t, k + 1)

/-- What became of a group: it issued; it is held and its threads wait before it; or the whole wave waits for it (R380). -/
inductive GroupEnd where
  | issued (s : State)
  | held
  | stalled
  deriving DecidableEq, Repr

/-- The wave with the sources that a group reads which is chained to a slot already completed: those of that slot's clock (R35, R66). -/
def Wave.sources (w : Wave) (p : Issue) : Wave :=
  match w.late.find? (fun e => p.slot ≠ 0 && chained p.words (p.slot - 1) && e.pc = p.pc && e.slot = p.slot && (e.lanes &&& p.lanes) != 0) with
  | none => w
  | some e => { w with v := e.v, s := e.s, threads := w.threads.mapIdx (fun l t => { t with preds := e.preds.getD l 0 }) }

/-- The group at slot `k` has issued for the threads `m`: no sources are kept for it. -/
def State.issuedAt (s : State) (b w : Nat) (p : Issue) : State :=
  s.updWave b w (fun x => x.dropLate (fun e => e.pc = p.pc && e.slot = p.slot) p.lanes)

/-- The end of a group whose slots up to `after` have issued: the threads leave the packet after its last one, unless the wave is held
in it; a group cut short keeps its sources for the slots that are chained to it (R39, R66, R484). -/
def State.endGroup (s : State) (b w : Nat) (pre : Wave) (p : Issue) (after : Nat) (cutOff : Bool) : State :=
  let s := s.issuedAt b w p
  let s := match (s.wave b w).bind (fun x => x.issue) with
    | none => s
    | some i =>
      if i.lanes = 0 then s.updWave b w (fun x => { x with issue := none })
      else if 3 ≤ after && !s.stays b w then
        (s.updWave b w (fun x => { x.updLanes i.lanes Thread.leave with issue := none })).settle b w i.lanes
      else
        let keep := fun (x : Wave) => if cutOff && after < 3 then
            { x with late := x.late ++ [⟨p.pc, after, i.lanes, pre.v, pre.s, pre.threads.map (fun t => t.preds)⟩] } else x
        s.updWave b w (fun x => { keep x with issue := some { i with slot := after } })
  if 3 ≤ after then s.issuedLast b w p.lanes else s

/-- Runs the group at the next slot of the packet. A trap undoes the whole group and is taken on the state before it
(R68, R473); parked threads take no part in it and stand before the group (R475); a trap of some threads only leaves the
others to issue (R375); a fatal `halt` leaves its group unperformed (R491); `fuel` bounds those repetitions. -/
def State.runGroup (s : State) (b w : Nat) : Nat → GroupEnd
  | 0 => .held
  | fuel + 1 =>
    match s.wave b w with
    | none => .held
    | some pre =>
      match pre.issue with
      | none => .issued s
      | some p =>
        let ks := groupSlots p.words p.slot
        let start := { s with fresh := s.fresh + 1, note := .fine }
        let src := pre.sources p
        let (t, after) := start.runSlots b w src p s.nextId (s.pending b w) ks p.slot
        let parked := pre.lanesWith Thread.parked
        let without := fun (m : Lanes) =>
          if p.lanes &&& ~~~m = 0 then .held else (start.updWave b w (fun x => x.standAside m p.slot)).runGroup b w fuel
        match t.note with
        | .held => .held
        | .stalled => .stalled
        | .halted n => .issued { start.fatal 3 n with note := .fine, cur := none }
        | .raised info =>
          if parked &&& p.lanes != 0 then without (parked &&& p.lanes)
          else
            let set := info.set ||| (src.curFor b w p p.slot p.lanes 0 []).activeOf p.words ks
            let u := { start with cur := none }.takeTrap b w { info with set := set }
            (match u.note with
             | .held => .held
             | _ => .issued { u with note := .fine, cur := none })
        | .split info =>
          if parked &&& info.set != 0 then without (parked &&& info.set)
          else
            let u := { start with cur := none }.takeTrap b w info
            (match u.note with
             | .raised _ => { u with note := .fine }.runGroup b w fuel
             | _ => without info.set)
        | .cut => .issued ({ t with cur := none, note := .fine }.endGroup b w src p after true)
        | .fine => .issued ({ t with cur := none }.endGroup b w src p after false)

/-! ### Beginning a packet (R33, R34, R59) -/

/-- The packet-level trap of R68, reported against slot 0. -/
def packetTrap (pc : DWord) (lanes : Lanes) : TrapInfo :=
  { code := 0x01, sub := 1, pc := pc + 8, addr := 0, kstep := 0, lanes := lanes, set := lanes, whole := true, feat := 0,
    defer := false }

/-- Issues the packet at a position for the lanes `m`: its checks, where the threads check the control word, and its
first group. -/
def State.beginAt (s : State) (b w : Nat) (p : Pos) (pk : Packet) (m : Lanes) : GroupEnd :=
  match s.wave b w with
  | none => .held
  | some wv =>
    let checks := p.slot = 0 || (wv.lanesWith (fun t => t.recheck) &&& m) != 0
    let s1 := s.updWave b w (fun x => x.updLanes m (fun t => { t with recheck := false, starve := 0 }))
    if checks && !packetOk pk then
      let t := s1.takeTrap b w (packetTrap p.pc m)
      match t.note with
      | .held => .held
      | _ => .issued { t with note := .fine }
    else
      (s1.updWave b w (fun x =>
        { x with issue := some { pc := p.pc, ctl := pk.ctl, words := pk.words, slot := p.slot, lanes := m } })).runGroup b w 40

/-- A position that may be chosen, with its packet, its eligible lanes, and what its group would do. -/
structure Candidate where
  pos : Pos
  pk : Packet
  lanes : Lanes
  fate : GroupEnd

/-- During a sleep only the packet that holds the `sleep` goes on, to its end (R122). -/
def Wave.awake (w : Wave) (p : Pos) : Bool := w.sleep.isNone || (w.napPc == some p.pc && p.slot ≠ 0)

/-- The eligible positions, each with its packet and lanes (R32, R59, R210, R476). -/
def State.candidates (s : State) (b w : Nat) : List Candidate :=
  match s.block b, s.wave b w with
  | some blk, some wv => (wv.positions.filter wv.awake).filterMap (fun p =>
      match s.fetch blk p.pc with
      | .packet pk =>
        let m := wv.eligible p (controlOf pk.ctl)
        if m = 0 then none
        else match s.beginAt b w p pk m with
          | .held => none
          | f => some ⟨p, pk, m, f⟩
      | _ => none)
  | _, _ => []

/-- The packets after which a run of one wave ends (R368). -/
def runLength : Nat := 8

/-- The bookkeeping of an issue (R368): the run of the wave goes on, or begins anew after another wave or at its limit; the runs
of the other waves of its sub-core end, and the sub-core has issued in this clock. `packet` says that a packet begins. -/
def Wave.ranOn (y : Wave) (packet : Bool) (now : Nat) : Wave :=
  { y with run := (if y.run = 0 || (packet && runLength ≤ y.run) then 1 else if packet then y.run + 1 else y.run),
           lastIssue := now, waited := 0, stall := 0 }

def State.countRun (s : State) (b w : Nat) (packet : Bool) : State :=
  match s.block b with
  | none => s
  | some blk =>
    { s with blocks := s.blocks.mapAll (fun (c : Nat) (x : Block) =>
        if x.core = blk.core then
          { x with waves := x.waves.mapIdx (fun (i : Nat) (y : Wave) =>
              if c = b && i = w then y.ranOn packet (s.fresh + 1) else if i % 4 = w % 4 then { y with run := 0 } else y) }
        else x) }.updCore blk.core (fun c => { c with issued := (b, w) :: c.issued })

/-- A position of the wave whose packet must still be fetched, or whose fetch fails: until then the lowest position is not known
to be eligible, and the wave issues nothing (R33, R479). -/
def State.fetching (s : State) (b w : Nat) : Bool :=
  match s.block b, s.wave b w with
  | some blk, some wv => (s.fetchTrouble b w).isSome || wv.positions.any (fun p => match s.fetch blk p.pc with
      | .away _ _ => true
      | _ => false)
  | _, _ => true

/-- One issue slot of a wave: the lowest position, or the lowest among starved ones; every other eligible position is passed
over (R33, R34). -/
def State.beginPacket (s : State) (b w : Nat) : Option State :=
  match s.wave b w with
  | none => none
  | some wv =>
    let s := s.countRun b w true
    let cs := s.candidates b w
    let starved := cs.filter (fun c => wv.starved c.lanes)
    match (if starved.isEmpty then cs else starved).head? with
    | none => none
    | some c =>
      let passed := cs.foldl (fun acc d => if d.pos = c.pos then acc else acc ||| d.lanes) (0 : Lanes)
      let s1 := s.updWave b w (fun x => x.updLanes passed (fun t => { t with starve := t.starve + 1 }))
      match s1.beginAt b w c.pos c.pk c.lanes with
      | .issued t => some t
      | _ => none

/-- The lower of two positions. -/
def Thread.below (t u : Thread) : Bool := t.pc.toNat < u.pc.toNat || (t.pc = u.pc && t.slot < u.slot)

/-- The thread of a wave, among those that may take a recorded trap now, that stands at the lowest position (R476). -/
def Wave.heldThread (w : Wave) : Option Thread :=
  (w.threads.filter (fun t => t.st == .running && t.heldTrap.isSome && (w.trapSet.isNone || t.inHandler))).foldl (fun acc t =>
    match acc with
    | none => some t
    | some u => if t.below u then some t else acc) none

/-- Traps recorded at a signing, a barrier or a denied replay are taken once the wave holds none, by the threads at one packet (R476);
for a denied replay TRAP_PC is that packet (R484). -/
def State.deliverHeld (s : State) (b w : Nat) : Option State :=
  match s.wave b w with
  | none => none
  | some wv =>
    match wv.heldThread with
    | none => none
    | some u =>
      match u.heldTrap with
      | none => none
      | some info =>
        let m := wv.lanesWith (fun t => t.st == .running && t.heldTrap == some info && t.pc = u.pc)
        let pc := if info.defer && info.code = 0x08 && info.sub = 0 then u.pc else info.pc
        let s := s.updWave b w (fun x => x.updLanes m (fun t => { t with heldTrap := none }))
        some { s.takeTrap b w { info with set := m, pc := pc } with note := .fine }

/-- A packet whose line the instruction cache does not hold: a request for the line is presented at the core port (R444, R479). -/
def State.fetchAway (s : State) (b w : Nat) : Option State :=
  match s.block b, s.wave b w with
  | some blk, some wv => wv.positions.findSome? (fun p =>
      match s.fetch blk p.pc with
      | .away pa e =>
        if s.reqs.any (fun e => e.2.kind == .fetch && e.2.core = blk.core && e.2.line = lineOf pa) then none
        else
          let s := s.tlbFill (clusterOf blk.core) blk.asn (s.rootOf blk) p.pc.toNat
          some (s.present (fetchReq blk b w s.nextId p.pc.toNat pa e))
      | _ => none)
  | _, _ => none

/-- Threads that `rte.next` returned take their place as soon as the packet is fetched (R480). -/
def State.readChains (s : State) (b w : Nat) : State :=
  match s.block b, s.wave b w with
  | some blk, some wv =>
    if wv.positions.any (fun p => unreadSlot ≤ p.slot) then
      s.updWave b w (fun x => { x with threads := x.threads.map (fun t =>
        if t.ready && unreadSlot ≤ t.slot then match s.fetch blk t.pc with
          | .packet q => t.place q.words
          | _ => t
        else t) })
    else s
  | _, _ => s

/-- A new packet of a wave, or a trap recorded for it. -/
def State.issueFresh (s : State) (b w : Nat) : Option State :=
  match s.deliverHeld b w with
  | some u => some u
  | none =>
    let t := s.readChains b w
    if t.fetching b w then t.fetchAway b w else t.beginPacket b w

/-- The next chain group of a wave: the rest of its packet, a recorded trap, or a new packet. -/
def State.issueWave (s : State) (b w : Nat) : Option State :=
  match s.block b, s.wave b w with
  | some blk, some wv =>
    if !blk.live || (s.core blk.core).fenced || s.stays b w then none
    else
      match wv.issue with
      | none => s.issueFresh b w
      | some i =>
        match (s.countRun b w false).runGroup b w 40 with
        | .issued t => some t
        | .held => (s.updWave b w (fun x => x.standAside i.lanes i.slot)).issueFresh b w
        | .stalled => none
  | _, _ => none

/-- Whether a wave can issue nothing more in this clock: its sub-core has issued a group already (R368), or a wave of its block with a
higher number has, whose commands of this clock come after its own (R320, R334). -/
def State.subBusy (s : State) (b w : Nat) : Bool :=
  (s.block b).elim true (fun x => (s.core x.core).issued.any (fun e => e.2 % 4 = w % 4 || (e.1 = b && w < e.2)))

/-- A wave issues, if it still can in this clock. -/
def State.issueNow (s : State) (b w : Nat) : Option State := if s.subBusy b w then none else s.issueWave b w

/-! ### The choice of a wave (R368, R369) -/

/-- Whether a wave goes before another one of its sub-core in R368: a run that goes on, then the least recently issued, then the
lowest wave slot. -/
def Wave.goesOn (w : Wave) : Bool := w.run ≠ 0 && (w.run < runLength || w.issue.isSome)

def Wave.before (v w : Wave) : Bool :=
  if v.goesOn != w.goesOn then v.goesOn
  else v.lastIssue < w.lastIssue || (v.lastIssue = w.lastIssue && v.wslot < w.wslot)

/-- A wave in the list of waves of its sub-core. -/
def insertWave (e : Nat × Nat × Wave) : List (Nat × Nat × Wave) → List (Nat × Nat × Wave)
  | [] => [e]
  | f :: fs => if e.2.2.before f.2.2 then e :: f :: fs else f :: insertWave e fs

/-- The waves of a sub-core in the order in which R368 considers them. -/
def State.waveOrder (s : State) (core sub : Nat) : List (Nat × Nat) :=
  let all := (s.blocks.filter (fun e => e.2.core = core)).flatMap (fun e =>
    (e.2.waves.mapIdx (fun i w => (e.1, i, w))).filter (fun x => x.2.1 % 4 = sub))
  (all.foldr insertWave []).map (fun e => (e.1, e.2.1))

/-- The clocks that may pass before a wave that stays ready must issue (R369). -/
def State.issueBound (s : State) : Nat := if s.power.pacing then 2048 else 1024

/-- How long a wave has been ready without issuing, and for how long a pipe has kept its next group. -/
def State.waited (s : State) (e : Nat × Nat) : Nat := (s.wave e.1 e.2).elim 0 (fun x => x.waited)
def State.stalled (s : State) (e : Nat × Nat) : Nat := (s.wave e.1 e.2).elim 0 (fun x => x.stall)

/-- The clocks for which a group before it can occupy the pipe of a wave's next group; how long it does is left open
(notes/assumptions/4.md). -/
def pipeClocks : Nat := 40

/-- A wave that R369 lets wait no longer for the others of its sub-core. -/
def State.pressed (s : State) (e : Nat × Nat) : Bool := s.issueBound ≤ s.waited e + 64

/-- The waves of a sub-core that could issue now. -/
def State.readyOn (s : State) (core sub : Nat) : List (Nat × Nat) := (s.waveOrder core sub).filter (fun e => (s.issueNow e.1 e.2).isSome)

/-- The waves that R368 puts before a wave, if it may go ahead of them: their pipes must be occupied, unless R369 presses it. -/
def State.yielding (s : State) (b w : Nat) : Option (List (Nat × Nat)) :=
  (s.block b).bind (fun x =>
    let ready := s.readyOn x.core (w % 4)
    let first := ready.takeWhile (fun e => e != (b, w))
    match ready.filter s.pressed with
    | e :: _ => if e = (b, w) then some [] else none
    | [] => if first.all (fun e => s.stalled e < pipeClocks) then some first else none)

/-- A pipe keeps the next groups of some waves for a clock. -/
def State.keepBack (s : State) (es : List (Nat × Nat)) (k : Nat) : State :=
  es.foldl (fun (t : State) e => t.updWave e.1 e.2 (fun x => { x with stall := x.stall + k })) s

/-- A wave issues where R368 and R369 let it. -/
def State.issueChosen (s : State) (b w : Nat) : Option State :=
  (s.yielding b w).bind (fun es => (s.keepBack es 1).issueNow b w)

/-- The waves in the order in which they issue in one clock: those of a block by number (R320, R334). -/
def insertIssue (e : Nat × Nat) : List (Nat × Nat) → List (Nat × Nat)
  | [] => [e]
  | f :: fs => if e.2 < f.2 then e :: f :: fs else f :: insertIssue e fs

/-- Every sub-core issues at most one group (R368). -/
def State.issueAll (s : State) : State :=
  let subs := ((s.blocks.map (fun e => e.2.core)).eraseDups).flatMap (fun c => (List.range 4).map (fun k => (c, k)))
  let first := subs.filterMap (fun e => let ready := s.readyOn e.1 e.2; ((ready.filter s.pressed) ++ ready).head?)
  (first.foldr insertIssue []).foldl (fun (t : State) e => (t.issueNow e.1 e.2).getD t) s

/-! ### Time -/

/-- Clocks until the next moment at which something is due: a tick boundary, a refill of the ports, a fatal error of the rails or the
package power (R16, R17, R364, R446), a port that a waiting request may leave by (R445). -/
def State.untilDue (s : State) : Nat :=
  let refill := 1024 - s.clock % 1024
  let tick := if s.up then min (s.lastTick + s.tickSpacing * Config.clocksPerUs - s.clock) refill else refill
  let ports := s.cores.foldl (fun k e =>
    if s.clock < e.2.busyUntil && ({ s with clock := e.2.busyUntil }.portChoice e.1).isSome then min k (e.2.busyUntil - s.clock) else k) tick
  s.untilFatal.elim ports (min ports)

/-- The waves that could issue a group, those apart that can issue nothing more in this clock. -/
def State.readyWaves (s : State) (busy : Bool) : List (Nat × Nat) :=
  (s.blocks.flatMap (fun e => (List.range e.2.waves.length).map (fun i => (e.1, i)))).filter (fun e =>
    s.subBusy e.1 e.2 = busy && (s.issueWave e.1 e.2).isSome)

/-- A ready wave that no pipe can keep any longer. -/
def State.overdue (s : State) : Option (Nat × Nat) :=
  (s.readyWaves false).find? (fun e => pipeClocks ≤ s.stalled e || s.issueBound ≤ s.waited e)

/-- The end of `k` clocks for the waves: ready ones have waited, the run of one that is not ready ends (R368), and every
sub-core may issue again. -/
def State.waitWaves (s : State) (ready : List (Nat × Nat)) (k : Nat) : State :=
  { s with blocks := s.blocks.mapAll (fun b x => { x with waves := x.waves.mapIdx (fun i y =>
             if ready.contains (b, i) then { y with waited := y.waited + k }
             else if !(s.core x.core).issued.any (fun e => e.2 % 4 = i % 4) then { y with run := 0, waited := 0, stall := 0 }
             else { y with waited := 0, stall := 0 }) }),
           cores := s.cores.mapAll (fun _ c => { c with issued := [] }) }

/-- `n` clocks pass, at most until something is due or a ready wave must issue, whose pipe is occupied meanwhile; PACE_CLOCKS counts
those while the module is paced (R16). -/
def State.passClocks (s : State) (n : Nat) : State :=
  let s := s.refill
  let free := s.readyWaves false
  let busy := s.readyWaves true
  let k := free.foldl (fun k e => min k (min (pipeClocks - s.stalled e) (s.issueBound - s.waited e))) (min n s.untilDue)
  let k := busy.foldl (fun k e => min k (1 + (pipeClocks - s.stalled e))) k
  let p := if s.power.pacing then { s.power with paceClocks := s.power.paceClocks + k } else s.power
  let s := (s.keepBack free k).keepBack busy (k - 1)
  let s := { s with clock := s.clock + k, refillDue := k != 0 && (s.clock + k) % 1024 = 0, power := p }
  if k = 0 then s else s.waitWaves (free ++ busy) k

/-! ### Actions (notes/assumptions/4.md) -/

/-- What the units of a block may do. -/
def blockEvents (b : Nat) (x : Block) : List (State → Out) :=
  (List.range x.waves.length).flatMap (fun w =>
    [execRcvRelease b w, execSleepEnd b w, execPhaseClComplete b w, execMonitorTrigger b w, execMonitorTimeout b w,
     execShfTakeReturn b w, execFetchFault b w]) ++
  (x.waves.mapIdx (fun w v => v.sfu.map (fun o => execSfuResult b w o.id))).flatten ++
  (List.range x.convs.length).map (fun c => execSigningRoundComplete b c) ++
  (List.range x.accs.length).flatMap (fun a => [execMmaKstep b a, execAccCommandPerform b a]) ++
  execBarrierPhaseComplete b .block :: (List.range x.bars.length).map (fun i => execBarrierPhaseComplete b (.counted i)) ++
  [execSaveImageWrite b, execResumeIssue b, execBlockRetire b]

/-- What a core's port and copy queues may do. -/
def coreEvents (c : Nat) : List (State → Out) :=
  execPortSend c .clean :: (List.range 4).flatMap (fun q =>
    [execCopyComplete c q .clean, execCopyBegin c q, execCollComplete c q false false, execCollBegin c q])

/-- What a queue thread may do. -/
def queueEvents (q : Nat) : List (State → Out) :=
  [execLaunch q, execWait q, execWaitSatisfied q, execSignal q, execCancel q, execBind q, execTickalign q, execClose q]

/-- What is done with a packet that arrived over the fabric. -/
def packetEvents (p : FabPacket) : List (State → Out) :=
  [execFabricRead p .clean, execFabricWrite p .clean, execFabricAtomic p .clean, execFabricReply p, execMarker p, execMarkerAck p,
   execFabricColl p]

/-- A queue in the list of mapped queues, by queue thread. -/
def insertQueue (e : Nat × Queue) : List (Nat × Queue) → List (Nat × Queue)
  | [] => [e]
  | f :: fs => if e.2.thread < f.2.thread then e :: f :: fs else f :: insertQueue e fs

/-- The mapped queues in the order of their threads (R362). -/
def State.queueOrder (s : State) : List Nat := (s.queues.foldr insertQueue []).map Prod.fst

/-- The fences of the unit under a key of State.unitErrors, and of a core's cluster: each happens once it is due (R499). -/
def fenceEvents (key : Nat) : List (State → Out) :=
  let n := key % 65536
  match key / 65536 with
  | 0 => [execUnitFence .core n, execUnitFence .cluster (n / 4)]
  | 1 => [execUnitFence .cluster n]
  | 2 => [execUnitFence .hbmStack n]
  | _ => [execUnitFence .fabricPort n]

/-- The events of the module's own units, in the order in which they are tried when nothing is on the agenda. -/
def State.internalEvents (s : State) : List (State → Out) :=
  s.reqs.flatMap (fun e => [execLoadResult e.1 .clean, execWritePerform e.1 .clean]) ++
  s.cores.flatMap (fun e => coreEvents e.1) ++ s.blocks.flatMap (fun e => blockEvents e.1 e.2) ++
  s.ports.flatMap (fun e => (e.2.sessIn.head?).elim [] (fun p => [execFabricSession e.1 p])) ++
  s.puts.map (fun p => execShfPutArrive p.id) ++ s.sheafs.map (fun e => execStillwaterQuiet e.1) ++ s.fabIn.flatMap packetEvents ++
  (s.lag.filter (fun e => e.2.held)).map (fun e => execHeldWriteCommit e.1) ++
  s.reed.moves.map (fun m => execPageMoveComplete (m.src / 65536)) ++
  [execL2FlushDone] ++ s.grids.map (fun e => execGridComplete e.1) ++
  [execWeirRun, execBlockPlace, execDispatchTakeGrid, execBackfill 1, execBackfill 2, execBackfill 3] ++
  s.queueOrder.flatMap queueEvents ++ [execHandoverCommit] ++ s.health.unitErrs.flatMap (fun e => fenceEvents e.1)

def State.fireSome (s : State) : List (State → Out) → Option State
  | [] => none
  | f :: rest => match f s with
    | .next t => some t
    | _ => s.fireSome rest

/-- What happens in any clock in which it can, before the clock ends: a core port sends (R445), the dispatcher takes a grid and places a
block (R366). -/
def State.promptEvents (s : State) : List (State → Out) :=
  s.cores.map (fun e => execPortSend e.1 .clean) ++ [execDispatchTakeGrid, execBlockPlace]

/-- The end of an idle step: a refill that is due, before the sends of its clock (R446), else a clock passes. -/
def State.idleEnd (s : State) : State := if s.refillDue then s.refill else s.passClocks 1

/-- What happens with an empty agenda: a unit of the module acts, else every sub-core issues and a clock passes
(DESIGN CHOICE, notes/assumptions/4.md). -/
def State.idleStep (s : State) : State :=
  match s.fireSome s.internalEvents with
  | some t => t
  | none => s.issueAll.idleEnd

/-- An L1 line leaves the cache: the choice of victim is open (R165; notes/assumptions/10.md). -/
def State.evict (s : State) (core asn vline : Nat) : State :=
  s.updCore core (fun c => { c with l1 := c.l1.filter (fun l => !(l.asn = asn && l.vline = vline)) })

/-- Waves with an unsent close or a waiting release send their markers once they may (R234, R249). -/
def State.sendAllDue (s : State) : State :=
  s.blocks.foldl (fun (t : State) e => (List.range e.2.waves.length).foldl (fun (t : State) w => t.sendDue e.1 w) t) s

/-- A HEALTH report to every open host session when a field of DEV_HEALTH changed (Table 19-8). -/
def State.healthReports (s : State) (before : DWord) : State :=
  if s.devHealth = before then s
  else (s.sessions.filter (fun x => x.host && x.live)).foldl (fun (t : State) x =>
    t.sendFrame x.number (.report x.number 4 0xFFFF 0 s.devHealth 0)) s

/-- What the module does of itself after every action; the issue context never outlives a step. -/
def State.rest (s : State) (health : DWord) : State :=
  let s := s.portDue.advanceAll.hostGo.flushWaiting.exhaustCheck.departReads.refuseReserved.blockMarkers.gridMarkers.sendAllDue.serveAll.noteHead.dropMessages.pump
  { s.healthReports health with cur := none, note := .fine }

/-- A line of code leaves the instruction cache, unless it is locked (R206). -/
def State.evictCode (s : State) (core asn vline : Nat) : State :=
  s.updCore core (fun c => { c with icache := c.icache.filter (fun l =>
    !(l.asn = asn && l.vline = vline) || c.locked.any (fun x => x.asn = asn && x.vline = vline)) })

def State.act (s : State) (a : Action) : Out :=
  let h := s.devHealth
  match a with
  | .event i => match exec i s with
    | .next t => .next (t.rest h)
    | r => r
  | .issue b w => match s.issueChosen b w with
    | some t => .next (t.rest h)
    | none => .refused (.notEnabled "ISSUE")
  | .evict c asn v => .next (s.evict c asn v)
  | .evictCode c asn v => .next (s.evictCode c asn v)
  | .writeback line => .next ((s.writeback line).rest h)
  | .part id m => match s.setPart id m with
    | some t => .next t
    | none => .refused (.notEnabled "PART")
  | .decay c corrected => .next ((s.decay c corrected).rest h)
  | .powerCut => s.powerCut
  | .clocks n => .next ((match s.fireSome s.promptEvents with
      | some t => t
      | none => match s.overdue with
        | some e => (s.issueNow e.1 e.2).getD s
        | none => s.passClocks n).rest h)

/-- One step: a fatal error or a tick boundary that is due, else the head of the agenda, else what the module does by itself. -/
def State.stepOf (s : State) : Out :=
  if s.fatalDue then .next ((s.fatal 2 0).rest s.devHealth)
  else if s.tickDue then s.act (.event .tickBoundary)
  else match s.agenda with
    | [] => .next (s.idleStep.rest s.devHealth)
    | a :: rest => { s with agenda := rest }.act a

end Sys2Proof.Machine
end

