-- ==== Sys2Proof/Machine/Step.lean ====
section
/-! DEFINITION. Machine/Step.lean: one step of the module, and the placing of one instruction where the next step fetches it. -/

namespace Sys2Proof.Machine

/-- One step: what is due, else the next action of the agenda, else what the module does by itself. -/
def step (s : State) : Host.Outcome State Fault Refusal := s.stepOf

/-- `s` with the instruction whose bits are `w` stored where `step` fetches its next instruction. -/
def State.withFetchWord (s : State) (nbits w : Nat) : State := s.putWord (w % 2 ^ nbits)

end Sys2Proof.Machine
end

