-- ==== Sys2Proof/Safety.lean ====
section
/-! DEFINITION. Safety.lean: the terms in which claims about runs are made: a state whose memory is in canonical form, a state
between steps, and a run that goes on. -/

namespace Sys2Proof

/-- Between steps no instruction is being issued. -/
def Machine.State.atRest (s : Machine.State) : Bool := s.cur.isNone && s.note == .fine

/-- The memory is in canonical form (addresses strictly rising, no listed byte equal to an unlisted one). -/
def Machine.State.memOk (s : Machine.State) : Bool := Machine.Memory.wf s.mem

/-- The step neither faults nor is refused. -/
def Safe (s : Machine.State) : Prop := ∃ t, Machine.step s = .next t

end Sys2Proof
end

