-- ==== Sys2Proof/Certificates/Slice0/Obligations.lean ====
section
/-! DEFINITION. Certificates/Slice0/Obligations.lean: the statements for the provers, each a `def Obligations.<Name> : Prop`, after
the terms they are made in (namespace Sys2Proof.Claims). -/

namespace Sys2Proof.Claims

open Sys2Proof.Machine

/-! ### Terms: what an instruction reads and leaves unchanged -/

/-- The instruction with the common fields `h` is being issued with the context `x`, and every register its fields name lies
below the declared counts (R43). -/
abbrev Issues (s : State) (h : Head) (us : List RegUse) (x : Ctx) : Prop :=
  s.ctx h = some x ∧ firstBeyond x.blk.kern us = none

/-- Vector register `r` of lane `l`, scalar register `r`, predicate `k` of lane `l` of wave `w` of block `b`. -/
def vreg (s : State) (b w r l : Nat) : Option Word := (s.wave b w).map (fun v => v.v.vec r l)
def sreg (s : State) (b w r : Nat) : Option Word := (s.wave b w).map (fun v => v.s.scal r)
def pbit (s : State) (b w l k : Nat) : Option Bool :=
  ((s.wave b w).bind (fun v => v.threads[l]?)).map (fun t => t.preds.getLsbD k)

/-- The byte of this module's memory at a local address. -/
def byteAt (s : State) (a : Nat) : Byte := memGet s.mem a

/-- An accumulator command, a request, an SFU operation and a `coll.wait` without the mark that its destination was written by
another instruction (R60), which is the model's own. -/
def bareCmd (c : AccCmd) : AccCmd :=
  match c.kind with
  | .flg w r _ => { c with kind := .flg w r false }
  | _ => c
def bareAcc (a : Acc) : Acc := { a with queue := a.queue.map bareCmd }
def bareReq (e : Nat × Req) : Nat × Req := (e.1, { e.2 with clobbered := [] })
def bareSfu (o : SfuOp) : SfuOp := { o with clobbered := [] }
def bareWait (c : CollWait) : CollWait := { c with clobbered := [] }

/-- A wave that keeps everything but the registers of `V` (register, lane), `S` and the predicates of `P` (lane, predicate). -/
def WaveKeeps (u v : Wave) (V : Nat → Nat → Prop) (S : Nat → Prop) (P : Nat → Nat → Prop) : Prop :=
  { v with threads := u.threads, v := u.v, s := u.s, sfu := u.sfu } = u ∧
  v.sfu.map bareSfu = u.sfu.map bareSfu ∧
  v.threads.map (fun t => { t with preds := 0 }) = u.threads.map (fun t => { t with preds := 0 }) ∧
  (∀ r l, l < 32 → ¬ V r l → v.v.vec r l = u.v.vec r l) ∧
  (∀ r, ¬ S r → v.s.scal r = u.s.scal r) ∧
  (∀ l k, ¬ P l k → (v.threads[l]?).map (fun t => t.preds.getLsbD k) = (u.threads[l]?).map (fun t => t.preds.getLsbD k))

/-- A block that keeps everything but registers of its wave `w`. -/
def BlockKeeps (p q : Block) (w : Nat) (V : Nat → Nat → Prop) (S : Nat → Prop) (P : Nat → Nat → Prop) : Prop :=
  { q with waves := p.waves, accs := p.accs, collWaits := p.collWaits } = p ∧
  q.accs.map bareAcc = p.accs.map bareAcc ∧ q.collWaits.map bareWait = p.collWaits.map bareWait ∧
  q.waves.length = p.waves.length ∧
  (∀ i, i ≠ w → q.waves[i]? = p.waves[i]?) ∧
  (∀ u v, p.waves[w]? = some u → q.waves[w]? = some v → WaveKeeps u v V S P)

/-- THE FRAME OF AN INSTRUCTION THAT ONLY WRITES REGISTERS: every byte of memory, every other block and wave, every special,
accumulator, trap and device register, and every register of the wave outside `V`, `S` and `P` is as before. -/
def RegFrame (s t : State) (b w : Nat) (V : Nat → Nat → Prop) (S : Nat → Prop) (P : Nat → Nat → Prop) : Prop :=
  { t with blocks := s.blocks, reqs := s.reqs } = s ∧
  t.reqs.map bareReq = s.reqs.map bareReq ∧
  (∀ c, c ≠ b → t.block c = s.block c) ∧
  (∀ p q, s.block b = some p → t.block b = some q → BlockKeeps p q w V S P)

def noV : Nat → Nat → Prop := fun _ _ => False
def noS : Nat → Prop := fun _ => False
def noP : Nat → Nat → Prop := fun _ _ => False

/-- Registers `d` (and `d + 1` when `wide`) of the active lanes. -/
def lanesOfV (x : Ctx) (wide : Bool) (d : Nat) : Nat → Nat → Prop :=
  fun r l => hasLane x.act l = true ∧ (r = d ∨ (wide = true ∧ r = d + 1))

/-- A VECTOR RESULT: the instruction answers a next state in which each active lane's destination (a pair when `wide`) holds
`val`, and nothing else has changed. -/
def VecDone (s : State) (i : Instr) (h : Head) (us : List RegUse) (wide : Bool) (d : BitVec 8) (val : Ctx → Nat → DWord) : Prop :=
  ∀ x, Issues s h us x → ∃ t, exec i s = .next t ∧
    (∀ l, hasLane x.act l = true → vreg t x.b x.w d.toNat l = some (loOf (val x l)) ∧
      (wide = true → vreg t x.b x.w (d.toNat + 1) l = some (hiOf (val x l)))) ∧
    RegFrame s t x.b x.w (lanesOfV x wide d.toNat) noS noP

/-- A SCALAR RESULT, written once per issue if a thread passes the guard (R70). -/
def ScalDone (s : State) (i : Instr) (h : Head) (us : List RegUse) (wide : Bool) (d : BitVec 8) (val : Ctx → DWord) : Prop :=
  ∀ x, Issues s h us x → ∃ t, exec i s = .next t ∧
    (x.act ≠ 0 → sreg t x.b x.w d.toNat = some (loOf (val x)) ∧
      (wide = true → sreg t x.b x.w (d.toNat + 1) = some (hiOf (val x)))) ∧
    RegFrame s t x.b x.w noV (fun r => x.act ≠ 0 ∧ (r = d.toNat ∨ (wide = true ∧ r = d.toNat + 1))) noP

/-- A PREDICATE RESULT in every active lane, for a predicate number below 16 (R71). -/
def PredDone (s : State) (i : Instr) (h : Head) (us : List RegUse) (d : BitVec 8) (val : Ctx → Nat → Bool) : Prop :=
  ∀ x, d.toNat < 16 → Issues s h us x → ∃ t, exec i s = .next t ∧
    (∀ l, hasLane x.act l = true → (pbit s x.b x.w l d.toNat).isSome → pbit t x.b x.w l d.toNat = some (val x l)) ∧
    RegFrame s t x.b x.w noV noS (fun l k => hasLane x.act l = true ∧ k = d.toNat)

/-! ### Operands -/

/-- Sources A, B and C of a lane as integers of the type (R108); `fill` is what a down-shift brings in (Table 3-9). -/
def intA (f : A3) (x : Ctx) (l : Nat) : Int := typed f.ty (x.vecN (wideTy f.ty) f.a.toNat l)
def intB (f : A3) (fill : DWord) (x : Ctx) (l : Nat) : Int := typed f.ty (x.srcB (wideTy f.ty) f.b fill l)
def intC (f : A3) (x : Ctx) (l : Nat) : Int := typed f.ty (x.vecN (wideTy f.ty) f.c.toNat l)
/-- Scalar sources A and B (R140). -/
def sclA (f : A3) (x : Ctx) : Int := typed f.ty (x.scalN (wideTy f.ty) f.a.toNat)
def sclB (f : A3) (x : Ctx) : Int := typed f.ty (x.srcS (wideTy f.ty) f.b)
/-- Sources as bit strings: A and C of the type's width, B of 32 bits or of the type's width. -/
def bitA (f : A3) (x : Ctx) (l : Nat) : DWord := x.vecN (wideTy f.ty) f.a.toNat l
def bitB (f : A3) (fill : DWord) (x : Ctx) (l : Nat) : DWord := x.srcB (wideTy f.ty) f.b fill l
def bitB1 (f : A3) (x : Ctx) (l : Nat) : DWord := x.srcB false f.b 0 l
def bitC (f : A3) (x : Ctx) (l : Nat) : DWord := x.vecN (wideTy f.ty) f.c.toNat l

/-- A 32-bit source B read as the type's integer, for the widening forms (R125). -/
def int32 (ty : BitVec 3) (n : DWord) : Int := if ty.toNat = 0 then (n.setWidth 32).toInt else ((n.setWidth 32).toNat : Int)

/-- x mod 2^64 as a register pair. -/
def wrap64 (x : Int) : DWord := BitVec.ofInt 64 x

end Sys2Proof.Claims

open Sys2Proof Sys2Proof.Machine Sys2Proof.Claims

/-! ## Integer and address instructions (spec/05) -/

/-- R124, R108, R109, R76: `iadd`, `isub`, `imul`, `imad`, `imin`, `imax` and `iabs` write fit of the exact result to every
active lane, and change nothing else. -/
def Sys2Proof.Claims.IntegerArithmeticResults : Prop := ∀ (s : State) (h : Head) (f : A3),
  VecDone s (.iadd h f) h (intUses (rowInt allTys true) f) (wideTy f.ty) f.d
    (fun x l => fitInt f.sat f.ty (intA f x l + intB f 0 x l)) ∧
  VecDone s (.isub h f) h (intUses (rowInt allTys true) f) (wideTy f.ty) f.d
    (fun x l => fitInt f.sat f.ty (intA f x l - intB f 0 x l)) ∧
  VecDone s (.imul h f) h (intUses (rowInt allTys true) f) (wideTy f.ty) f.d
    (fun x l => fitInt f.sat f.ty (intA f x l * intB f 1 x l)) ∧
  VecDone s (.imad h f) h (intUses { rowInt allTys true with c := .vT } f) (wideTy f.ty) f.d
    (fun x l => fitInt f.sat f.ty (intA f x l * intB f 0 x l + intC f x l)) ∧
  VecDone s (.imin h f) h (intUses (rowInt allTys false) f) (wideTy f.ty) f.d
    (fun x l => fitInt f.sat f.ty (min (intA f x l) (intB f (fillMax f.ty) x l))) ∧
  VecDone s (.imax h f) h (intUses (rowInt allTys false) f) (wideTy f.ty) f.d
    (fun x l => fitInt f.sat f.ty (max (intA f x l) (intB f (fillMin f.ty) x l))) ∧
  VecDone s (.iabs h f) h (intUses (rowInt [0, 2, 4, 6] true).noB f) (wideTy f.ty) f.d
    (fun x l => fitInt f.sat f.ty ((intA f x l).natAbs : Int))

/-- R125: `imulh`, `imadw`, `iadd64` and `lea`, at the two types they accept. -/
def Sys2Proof.Claims.WideningResults : Prop := ∀ (s : State) (h : Head) (f : A3), f.ty.toNat ≤ 1 →
  VecDone s (.imulh h f) h (intUses (rowInt [0, 1] false) f) false f.d
    (fun x l => wrap64 ((int32 f.ty (bitA f x l) * int32 f.ty (bitB1 f x l)) / 2 ^ 32 % 2 ^ 32)) ∧
  VecDone s (.imadw h f) h (intUses { rowInt [0, 1] true with d := .v2, c := .v2 } f) true f.d
    (fun x l =>
      let c : Int := if f.ty.toNat = 0 then (x.vecPair f.c.toNat l).toInt else ((x.vecPair f.c.toNat l).toNat : Int)
      let v := int32 f.ty (bitA f x l) * int32 f.ty (bitB1 f x l) + c
      wrap64 (if f.sat then (if f.ty.toNat = 0 then max (-2 ^ 63) (min v (2 ^ 63 - 1)) else max 0 (min v (2 ^ 64 - 1))) else v)) ∧
  VecDone s (.iadd64 h f) h (intUses { (rowInt [0, 1] false).single with d := .v2, a := .v2 } f) true f.d
    (fun x l => x.vecPair f.a.toNat l + wrap64 (int32 f.ty (bitB1 f x l))) ∧
  VecDone s (.lea h f) h (intUses { (rowInt [0, 1] false).single with d := .v2, a := .v2, c := .n 63 } f) true f.d
    (fun x l => x.vecPair f.a.toNat l + wrap64 (int32 f.ty (bitB1 f x l) * 2 ^ f.c.toNat))

/-- R126: `iaddc` and `isubb` add or subtract with the carry or borrow of p[C], and write the carry or borrow out to p[C]. -/
def Sys2Proof.Claims.CarryResults : Prop := ∀ (s : State) (h : Head) (f : A3) (x : Ctx), f.c.toNat < 16 →
  Issues s h (intUses { rowInt [1] false with c := .p } f) x →
  (∃ t, exec (.iaddc h f) s = .next t ∧
    (∀ l, hasLane x.act l = true →
      let sum := (x.vec f.a.toNat l).toNat + ((bitB1 f x l).setWidth 32).toNat + (x.pred f.c.toNat l).toNat
      vreg t x.b x.w f.d.toNat l = some (BitVec.ofNat 32 sum) ∧
      ((pbit s x.b x.w l f.c.toNat).isSome → pbit t x.b x.w l f.c.toNat = some (decide (2 ^ 32 ≤ sum)))) ∧
    RegFrame s t x.b x.w (lanesOfV x false f.d.toNat) noS (fun l k => hasLane x.act l = true ∧ k = f.c.toNat)) ∧
  (∃ t, exec (.isubb h f) s = .next t ∧
    (∀ l, hasLane x.act l = true →
      let a := (x.vec f.a.toNat l).toNat
      let b := ((bitB1 f x l).setWidth 32).toNat + (x.pred f.c.toNat l).toNat
      vreg t x.b x.w f.d.toNat l = some (BitVec.ofNat 32 a - BitVec.ofNat 32 b) ∧
      ((pbit s x.b x.w l f.c.toNat).isSome → pbit t x.b x.w l f.c.toNat = some (decide (a < b)))) ∧
    RegFrame s t x.b x.w (lanesOfV x false f.d.toNat) noS (fun l k => hasLane x.act l = true ∧ k = f.c.toNat))

/-- R127, R128: `idiv` truncates toward zero and `irem` takes the sign of the dividend; a zero divisor gives all ones and the
dividend. `isad` adds |A − B| to C; `idot4` adds four byte products to C. -/
def Sys2Proof.Claims.DivisionAndSumResults : Prop := ∀ (s : State) (h : Head) (f : A3), (f.ty.toNat ≤ 3 →
  VecDone s (.idiv h f) h (intUses (rowInt [0, 1, 2, 3] true) f) (wideTy f.ty) f.d
    (fun x l => if intB f 0 x l = 0 then (if wideTy f.ty then BitVec.allOnes 64 else 0xFFFFFFFF#64)
      else fitInt f.sat f.ty ((intA f x l).tdiv (intB f 0 x l))) ∧
  VecDone s (.irem h f) h (intUses (rowInt [0, 1, 2, 3] false) f) (wideTy f.ty) f.d
    (fun x l => if intB f 0 x l = 0 then bitA f x l else fitInt false f.ty ((intA f x l).tmod (intB f 0 x l)))) ∧
  (wideTy f.ty = false →
  VecDone s (.isad h f) h (intUses { rowInt [0, 1, 4, 5, 6, 7] true with c := .v } f) false f.d
    (fun x l =>
      let v := (x.vec f.c.toNat l).toNat + (intA f x l - intB f 0 x l).natAbs
      BitVec.ofNat 64 (if f.sat then min v (2 ^ 32 - 1) else v % 2 ^ 32))) ∧
  (6 ≤ f.ty.toNat →
  VecDone s (.idot4 h f) h (intUses { rowInt [6, 7] true with c := .v } f) false f.d
    (fun x l =>
      let byte : DWord → Nat → Int := fun n k =>
        if f.ty.toNat = 6 then (n.extractLsb' (8 * k) 8).toInt else ((n.extractLsb' (8 * k) 8).toNat : Int)
      let c : Int := if f.ty.toNat = 6 then (x.vec f.c.toNat l).toInt else ((x.vec f.c.toNat l).toNat : Int)
      let term : Nat → Int := fun k => byte (bitA f x l) k * byte (bitB1 f x l) k
      let v := c + term 0 + term 1 + term 2 + term 3
      (BitVec.ofInt 32 (if f.sat then
        (if f.ty.toNat = 6 then max (-2 ^ 31) (min v (2 ^ 31 - 1)) else max 0 (min v (2 ^ 32 - 1))) else v)).setWidth 64))

/-- Integer instructions give the exact result at their width (Claims.IntegerArithmeticResults, Claims.WideningResults, Claims.CarryResults, Claims.DivisionAndSumResults). -/
def Obligations.IntegerResults : Prop :=
  Claims.IntegerArithmeticResults ∧ Claims.WideningResults ∧ Claims.CarryResults ∧ Claims.DivisionAndSumResults

/-- R129, R130: the bitwise instructions, `ltab` with its truth table, and the shifts, whose amount is one unsigned 32-bit
value; an amount of the width or more clears the result or fills it with the sign. -/
def Sys2Proof.Claims.LogicAndShiftResults : Prop := ∀ (s : State) (h : Head),
  (∀ f : A3,
    VecDone s (.and h f) h (intUses (rowInt [0, 2] false) f) (wideTy f.ty) f.d
      (fun x l => bitA f x l &&& bitB f (fillOnes (wideTy f.ty)) x l) ∧
    VecDone s (.or h f) h (intUses (rowInt [0, 2] false) f) (wideTy f.ty) f.d (fun x l => bitA f x l ||| bitB f 0 x l) ∧
    VecDone s (.xor h f) h (intUses (rowInt [0, 2] false) f) (wideTy f.ty) f.d (fun x l => bitA f x l ^^^ bitB f 0 x l) ∧
    VecDone s (.andn h f) h (intUses (rowInt [0, 2] false) f) (wideTy f.ty) f.d (fun x l => bitA f x l &&& ~~~ bitB f 0 x l)) ∧
  (∀ f : Tab3,
    VecDone s (.ltab h f) h (tabUses true f) (wideTy f.ty) f.d (fun x l =>
      let a := x.vecN (wideTy f.ty) f.a.toNat l
      let b := if f.scalB then x.scalN (wideTy f.ty) f.b.toNat else x.vecN (wideTy f.ty) f.b.toNat l
      let c := x.vecN (wideTy f.ty) f.c.toNat l
      BitVec.ofFnLE (n := 64) (fun i => f.tab.getLsbD ((a.getLsbD i).toNat + 2 * (b.getLsbD i).toNat + 4 * (c.getLsbD i).toNat)))) ∧
  (∀ f : A3, f.ty.toNat = 0 →
    VecDone s (.shl h f) h (intUses (rowInt [0, 2] false).single f) false f.d
      (fun x l => ((x.vec f.a.toNat l) <<< (loOf (bitB1 f x l)).toNat).setWidth 64) ∧
    VecDone s (.shr h f) h (intUses (rowInt [0, 2] false).single f) false f.d
      (fun x l => ((x.vec f.a.toNat l) >>> (loOf (bitB1 f x l)).toNat).setWidth 64) ∧
    VecDone s (.sar h f) h (intUses (rowInt [0, 2] false).single f) false f.d
      (fun x l => ((x.vec f.a.toNat l).sshiftRight (loOf (bitB1 f x l)).toNat).setWidth 64) ∧
    VecDone s (.rot h f) h (intUses (rowInt [0, 2] false).single f) false f.d
      (fun x l => ((x.vec f.a.toNat l).rotateLeft ((loOf (bitB1 f x l)).toNat % 32)).setWidth 64)) ∧
  (∀ f : A3, f.ty.toNat = 2 →
    VecDone s (.shl h f) h (intUses (rowInt [0, 2] false).single f) true f.d
      (fun x l => x.vecPair f.a.toNat l <<< (loOf (bitB1 f x l)).toNat) ∧
    VecDone s (.shr h f) h (intUses (rowInt [0, 2] false).single f) true f.d
      (fun x l => x.vecPair f.a.toNat l >>> (loOf (bitB1 f x l)).toNat) ∧
    VecDone s (.sar h f) h (intUses (rowInt [0, 2] false).single f) true f.d
      (fun x l => (x.vecPair f.a.toNat l).sshiftRight (loOf (bitB1 f x l)).toNat) ∧
    VecDone s (.rot h f) h (intUses (rowInt [0, 2] false).single f) true f.d
      (fun x l => (x.vecPair f.a.toNat l).rotateLeft ((loOf (bitB1 f x l)).toNat % 64)))

/-- R131, R132: `bfe` and `bfi` take position and length from B[7:0] and B[15:8], the field cut at bit 31; `popc`, `clz` and
`brev` count and reverse bits at the width of the type. -/
def Sys2Proof.Claims.BitFieldResults : Prop := ∀ (s : State) (h : Head) (f : A3),
  (f.ty.toNat ≤ 1 →
    VecDone s (.bfe h f) h (intUses (rowInt [0, 1] false) f) false f.d (fun x l =>
      let b := (bitB1 f x l).toNat
      let pos := min (b % 256) 32
      let len := min (b / 256 % 256) (32 - pos)
      let v := (x.vec f.a.toNat l).toNat / 2 ^ pos % 2 ^ len
      if len = 0 then 0
      else if f.ty.toNat = 0 && v.testBit (len - 1) then BitVec.ofNat 64 (v + 2 ^ 32 - 2 ^ len) else BitVec.ofNat 64 v)) ∧
  (f.ty.toNat = 0 →
    VecDone s (.bfi h f) h (intUses { (rowInt [0] false).noImm with c := .v } f) false f.d (fun x l =>
      let b := (bitB1 f x l).toNat
      let pos := min (b % 256) 32
      let len := min (b / 256 % 256) (32 - pos)
      let mask : Word := BitVec.ofNat 32 ((2 ^ len - 1) * 2 ^ pos)
      ((x.vec f.c.toNat l &&& ~~~mask) ||| (BitVec.ofNat 32 ((x.vec f.a.toNat l).toNat * 2 ^ pos) &&& mask)).setWidth 64)) ∧
  (f.ty.toNat = 0 ∨ f.ty.toNat = 2 →
    let w := if f.ty.toNat = 2 then 64 else 32
    VecDone s (.popc h f) h (intUses { (rowInt [0, 2] false).noB with d := .v } f) false f.d
      (fun x l => BitVec.ofNat 64 (((List.range w).filter (fun i => (bitA f x l).getLsbD i)).length)) ∧
    VecDone s (.clz h f) h (intUses { (rowInt [0, 2] false).noB with d := .v } f) false f.d
      (fun x l => BitVec.ofNat 64 (((List.range w).takeWhile (fun i => !(bitA f x l).getLsbD (w - 1 - i))).length)) ∧
    VecDone s (.brev h f) h (intUses (rowInt [0, 2] false).noB f) (wideTy f.ty) f.d
      (fun x l => if f.ty.toNat = 2 then (bitA f x l).reverse else ((x.vec f.a.toNat l).reverse).setWidth 64))

/-- Logic, shift, bit-field and counting instructions (Claims.LogicAndShiftResults, Claims.BitFieldResults). -/
def Obligations.LogicResults : Prop :=
  Claims.LogicAndShiftResults ∧ Claims.BitFieldResults

/-- R133, R139: `movi` and `smovi` write IMM32, or its extension to a pair; `mov` and `smov` write B; `movs` reads one lane,
whatever the state of its thread. -/
def Sys2Proof.Claims.MoveResults : Prop := ∀ (s : State) (h : Head),
  (∀ f : AI, f.a.toNat ≤ 1 →
    let wide := f.a == 1
    let v : DWord := if f.k then f.imm.setWidth 64 else f.imm.signExtend 64
    VecDone s (.movi h f) h [.v f.d.toNat (if wide then 2 else 1)] wide f.d (fun _ _ => v) ∧
    ScalDone s (.smovi h f) h [.s f.d.toNat (if wide then 2 else 1)] wide f.d (fun _ => v)) ∧
  (∀ f : A3,
    VecDone s (.mov h f) h (intUses { rowInt [0, 2] false with a := .zero } f) (wideTy f.ty) f.d (fun x l => bitB f 0 x l) ∧
    ScalDone s (.smov h f) h (intUses { rowScal [0, 2] false with a := .zero } f) (wideTy f.ty) f.d
      (fun x => x.srcS (wideTy f.ty) f.b) ∧
    (f.c.toNat < 32 →
      ScalDone s (.movs h f) h (intUses { (rowInt [0, 2] false).noB with d := .sT, c := .n 31 } f) (wideTy f.ty) f.d
        (fun x => x.vecN (wideTy f.ty) f.a.toNat f.c.toNat)))

/-- R135, R136, Table 5-7: `icmp`, `scmp` and `fcmp` write the condition of C[2:0], `fcmp` with its unordered conditions. -/
def Obligations.ComparisonResults : Prop := ∀ (s : State) (h : Head) (f : A3),
  let holds : Int → Int → Bool := fun a b =>
    decide ((f.c.toNat = 0 ∧ a = b) ∨ (f.c.toNat = 1 ∧ a ≠ b) ∨ (f.c.toNat = 2 ∧ a < b) ∨ (f.c.toNat = 3 ∧ a ≤ b) ∨
      (f.c.toNat = 4 ∧ a > b) ∨ (f.c.toNat = 5 ∧ a ≥ b))
  (f.c.toNat ≤ 5 →
    PredDone s (.icmp h f) h (intUses { rowInt [0, 1, 2, 3] false with d := .p, c := .n 5 } f) f.d
      (fun x l => holds (intA f x l) (intB f 0 x l)) ∧
    PredDone s (.scmp h f) h (intUses { rowScal [0, 1, 2, 3] false with d := .p, c := .n 5 } f) f.d
      (fun x _ => holds (sclA f x) (sclB f x))) ∧
  (f.c.toNat ≤ 7 →
    PredDone s (.fcmp h f) h (fltUses { (rowFlt [0, 1, 2] false).noImm with d := .p, c := .n 7 } f) f.d (fun x l =>
      let fm := fmtOf f.ty.toNat
      let o := Num.order (fm.num (x.vec f.a.toNat l).toNat) (fm.num (x.fltB f.ty.toNat f.b 0 l))
      let is : Ordering → Bool := fun r => o == some r
      (f.c.toNat == 0 && is .eq) || (f.c.toNat == 1 && (is .lt || is .gt)) || (f.c.toNat == 2 && is .lt) ||
      (f.c.toNat == 3 && (is .lt || is .eq)) || (f.c.toNat == 4 && is .gt) || (f.c.toNat == 5 && (is .gt || is .eq)) ||
      (f.c.toNat == 6 && o == none) || (f.c.toNat == 7 && !is .eq)))

/-- R137: `pand`, `por`, `pxor` and `pmov` combine predicates lane by lane, A inverted by C[0] and B by C[1]; `sel` selects A
or B by p[C]. -/
def Obligations.PredicateLogicResults : Prop := ∀ (s : State) (h : Head) (f : A3),
  let a : Ctx → Nat → Bool := fun x l => xor (x.pred f.a.toNat l) (f.c.getLsbD 0)
  let b : Ctx → Nat → Bool := fun x l => xor (x.pred (predB f.b) l) (f.c.getLsbD 1)
  PredDone s (.pand h f) h (intUses rowPred f) f.d (fun x l => a x l && b x l) ∧
  PredDone s (.por h f) h (intUses rowPred f) f.d (fun x l => a x l || b x l) ∧
  PredDone s (.pxor h f) h (intUses rowPred f) f.d (fun x l => xor (a x l) (b x l)) ∧
  PredDone s (.pmov h f) h (intUses { rowPred.noB with c := .n 1 } f) f.d (fun x l => a x l) ∧
  VecDone s (.sel h f) h (intUses { rowInt [0, 2] false with c := .p } f) (wideTy f.ty) f.d
    (fun x l => if x.pred f.c.toNat l then bitA f x l else bitB f 0 x l)

/-- R138: the votes read the active lanes: `ballot` and `lanes` write a mask to s[D], `vany` and `vall` one predicate to every
active lane, `vmatch` the mask of the lanes that hold the lane's value. -/
def Obligations.VoteResults : Prop := ∀ (s : State) (h : Head) (f : A3),
  let maskOf : (Nat → Bool) → DWord := fun p => BitVec.ofNat 64 (((List.range 32).map (fun l => if p l then 2 ^ l else 0)).sum)
  ScalDone s (.ballot h f) h [.s f.d.toNat 1] false f.d
    (fun x => maskOf (fun l => hasLane x.act l && x.pred f.a.toNat l)) ∧
  ScalDone s (.lanes h f) h [.s f.d.toNat 1] false f.d (fun x => maskOf (fun l => hasLane x.act l)) ∧
  PredDone s (.vany h f) h [] f.d (fun x _ => (List.range 32).any (fun l => hasLane x.act l && x.pred f.a.toNat l)) ∧
  PredDone s (.vall h f) h [] f.d (fun x _ => (List.range 32).all (fun l => !hasLane x.act l || x.pred f.a.toNat l)) ∧
  VecDone s (.vmatch h f) h (intUses { (rowInt [0, 2] false).noB with d := .v } f) false f.d
    (fun x l => maskOf (fun m => hasLane x.act m && decide (bitA f x m = bitA f x l)))

/-- R140: the scalar instructions compute as the vector ones do, on scalar operands, once per issue; `sshr` is arithmetic at
the signed types and logical at the others. -/
def Obligations.ScalarResults : Prop := ∀ (s : State) (h : Head),
  (∀ f : A3,
    let w := wideTy f.ty
    ScalDone s (.sadd h f) h (intUses (rowScal [0, 1, 2, 3] true) f) w f.d (fun x => fitInt f.sat f.ty (sclA f x + sclB f x)) ∧
    ScalDone s (.ssub h f) h (intUses (rowScal [0, 1, 2, 3] true) f) w f.d (fun x => fitInt f.sat f.ty (sclA f x - sclB f x)) ∧
    ScalDone s (.smul h f) h (intUses (rowScal [0, 1, 2, 3] true) f) w f.d (fun x => fitInt f.sat f.ty (sclA f x * sclB f x)) ∧
    ScalDone s (.smin h f) h (intUses (rowScal [0, 1, 2, 3] false) f) w f.d
      (fun x => fitInt f.sat f.ty (min (sclA f x) (sclB f x))) ∧
    ScalDone s (.smax h f) h (intUses (rowScal [0, 1, 2, 3] false) f) w f.d
      (fun x => fitInt f.sat f.ty (max (sclA f x) (sclB f x))) ∧
    ScalDone s (.sand h f) h (intUses (rowScal [0, 2] false) f) w f.d (fun x => x.scalN w f.a.toNat &&& x.srcS w f.b) ∧
    ScalDone s (.sor h f) h (intUses (rowScal [0, 2] false) f) w f.d (fun x => x.scalN w f.a.toNat ||| x.srcS w f.b) ∧
    ScalDone s (.sxor h f) h (intUses (rowScal [0, 2] false) f) w f.d (fun x => x.scalN w f.a.toNat ^^^ x.srcS w f.b) ∧
    (f.ty.toNat = 0 ∨ f.ty.toNat = 2 →
      ScalDone s (.sshl h f) h (intUses { rowScal [0, 2] false with bS := some .s } f) w f.d
        (fun x => x.scalN w f.a.toNat <<< (loOf (x.srcS false f.b)).toNat)) ∧
    (f.ty.toNat ≤ 3 →
      ScalDone s (.sshr h f) h (intUses { rowScal [0, 1, 2, 3] false with bS := some .s } f) w f.d (fun x =>
        let n := (loOf (x.srcS false f.b)).toNat
        if f.ty.toNat = 0 then ((x.scal f.a.toNat).sshiftRight n).setWidth 64
        else if f.ty.toNat = 1 then ((x.scal f.a.toNat) >>> n).setWidth 64
        else if f.ty.toNat = 2 then (x.scalPair f.a.toNat).sshiftRight n
        else x.scalPair f.a.toNat >>> n))) ∧
  (∀ f : Tab3,
    ScalDone s (.sltab h f) h (tabUses false f) (wideTy f.ty) f.d (fun x =>
      let a := x.scalN (wideTy f.ty) f.a.toNat
      let b := x.scalN (wideTy f.ty) f.b.toNat
      let c := x.scalN (wideTy f.ty) f.c.toNat
      BitVec.ofFnLE (n := 64) (fun i => f.tab.getLsbD ((a.getLsbD i).toNat + 2 * (b.getLsbD i).toNat + 4 * (c.getLsbD i).toNat))))

/-- R141: `movri` reads, and `movwi` writes, the register whose number is a base plus each lane's B. -/
def Sys2Proof.Claims.ComputedIndexResults : Prop := ∀ (s : State) (h : Head) (f : A3) (x : Ctx),
  (Issues s h (intUses (rowInt [0] false) f) x →
    (∀ l, hasLane x.act l = true → f.a.toNat + (loOf (bitB1 f x l)).toNat < x.blk.kern.vregs) →
    ∃ t, exec (.movri h f) s = .next t ∧
      (∀ l, hasLane x.act l = true →
        vreg t x.b x.w f.d.toNat l = some (x.vec (f.a.toNat + (loOf (bitB1 f x l)).toNat) l)) ∧
      RegFrame s t x.b x.w (lanesOfV x false f.d.toNat) noS noP) ∧
  (Issues s h (intUses { rowInt [0] false with a := .zero, c := .v } f) x →
    (∀ l, hasLane x.act l = true → f.d.toNat + (loOf (bitB1 f x l)).toNat < x.blk.kern.vregs) →
    ∃ t, exec (.movwi h f) s = .next t ∧
      (∀ l, hasLane x.act l = true →
        vreg t x.b x.w (f.d.toNat + (loOf (bitB1 f x l)).toNat) l = some (x.vec f.c.toNat l)) ∧
      RegFrame s t x.b x.w (fun r l => hasLane x.act l = true ∧ r = f.d.toNat + (loOf (bitB1 f x l)).toNat) noS noP)

/-- R53, R143, R379, R380: `spec` writes a special value to the active lanes or to a scalar register, `tick.rd` the tick number
and the clocks since it, `clk` the clock once no earlier operation of the wave holds a flag. -/
def Sys2Proof.Claims.SpecialValueResults : Prop := ∀ (s : State) (h : Head) (f : YFmt),
  let n := f.sysno.toNat
  let regs := if n = 0x11 then 2 else 1
  (f.a = 0 → VecDone s (.spec h f) h [.v f.d.toNat regs] (n == 0x11) f.d (fun x l => x.special s n l)) ∧
  (f.a ≠ 0 → ScalDone s (.spec h f) h [.s f.d.toNat regs] (n == 0x11) f.d (fun x => x.special s n 0)) ∧
  (∀ x, Issues s h (YFmt.manyUses f 4) x →
    let k : DWord := BitVec.ofNat 64 (s.clock - s.lastTick)
    let ws : List Word := [BitVec.ofNat 32 s.tick, 0, loOf k, hiOf k]
    ∃ t, exec (.tickRd h f) s = .next t ∧
      (∀ j w, ws[j]? = some w →
        (f.a = 0 → ∀ l, hasLane x.act l = true → vreg t x.b x.w (f.d.toNat + j) l = some w) ∧
        (f.a ≠ 0 → x.act ≠ 0 → sreg t x.b x.w (f.d.toNat + j) = some w)) ∧
      RegFrame s t x.b x.w (fun r l => f.a = 0 ∧ hasLane x.act l = true ∧ f.d.toNat ≤ r ∧ r < f.d.toNat + 4)
        (fun r => f.a ≠ 0 ∧ x.act ≠ 0 ∧ f.d.toNat ≤ r ∧ r < f.d.toNat + 4) noP) ∧
  (∀ x, Issues s h (YFmt.manyUses f 2) x → (∀ e ∈ x.wv.busy, x.c.opBase ≤ e.2) →
    let k : DWord := BitVec.ofNat 64 s.clock
    ∃ t, exec (.clk h f) s = .next t ∧
      (f.a = 0 → ∀ l, hasLane x.act l = true →
        vreg t x.b x.w f.d.toNat l = some (loOf k) ∧ vreg t x.b x.w (f.d.toNat + 1) l = some (hiOf k)) ∧
      (f.a ≠ 0 → x.act ≠ 0 →
        sreg t x.b x.w f.d.toNat = some (loOf k) ∧ sreg t x.b x.w (f.d.toNat + 1) = some (hiOf k)) ∧
      RegFrame s t x.b x.w (fun r l => f.a = 0 ∧ hasLane x.act l = true ∧ f.d.toNat ≤ r ∧ r < f.d.toNat + 2)
        (fun r => f.a ≠ 0 ∧ x.act ≠ 0 ∧ f.d.toNat ≤ r ∧ r < f.d.toNat + 2) noP)

/-- Moves, computed indices and special values (Claims.MoveResults, Claims.ComputedIndexResults, Claims.SpecialValueResults). -/
def Obligations.DataMoveResults : Prop :=
  Claims.MoveResults ∧ Claims.ComputedIndexResults ∧ Claims.SpecialValueResults

/-! ## Floating-point and conversion instructions (spec/11) -/

namespace Sys2Proof.Claims

/-- The element `e` of a register's bits at a floating-point type: the whole f32, the low half, or half `e` of a packed type. -/
def eltOf (ty n e : Nat) : Nat := if packedTy ty then n / 65536 ^ e % 65536 else if ty = 0 then n % 2 ^ 32 else n % 65536

/-- The register contents that the elements' results give: two halves of a packed type, else one value. -/
def packElts (ty : Nat) (g : Nat → Nat) : DWord :=
  if packedTy ty then BitVec.ofNat 64 (g 0 + 65536 * g 1) else BitVec.ofNat 64 (g 0)

/-- An element-wise instruction on A, B (with its fill under a down-shift) and C. -/
def FltDone (s : State) (i : Instr) (h : Head) (us : List RegUse) (f : A3) (fill : Nat) (op : Nat → Nat → Nat → Nat) : Prop :=
  VecDone s i h us false f.d (fun x l => packElts f.ty.toNat (fun e =>
    op (eltOf f.ty.toNat (x.vec f.a.toNat l).toNat e) (eltOf f.ty.toNat (x.fltB f.ty.toNat f.b fill l) e)
      (eltOf f.ty.toNat (x.vec f.c.toNat l).toNat e)))

/-- The smaller of two values that are not NaN, −0 below +0. -/
def fltBelow (a b : Machine.Num) : Bool :=
  Machine.Num.order a b == some .lt || (Machine.Num.order a b == some .eq && a.neg? && !b.neg?)

/-- R287. -/
def minMax (mx : Bool) (fm : Fmt) (a b : Nat) : Nat :=
  if (fm.num a).isNan && (fm.num b).isNan then fm.nanBits
  else if (fm.num a).isNan then b
  else if (fm.num b).isNan then a
  else if fltBelow (fm.num a) (fm.num b) then (if mx then b else a) else (if mx then a else b)

/-- A magnitude with a sign bit, or the canonical NaN (R288, R260). -/
def withSign (fm : Fmt) (a : Nat) (neg : Bool) : Nat :=
  if (fm.num a).isNan then fm.nanBits else a % fm.signBit + (if neg then fm.signBit else 0)

/-- R296. -/
def sumAndError (a b : Nat) : Nat × Nat :=
  let sum := f32.round .rne false (Machine.Num.add .rne (f32.num a) (f32.num b))
  match f32.num sum with
  | .fin n m g =>
    let e := f32.round .rne false (Machine.Num.sum .rne [f32.num a, f32.num b, .fin (!n) m g])
    (sum, if e = f32.signBit then 0 else e)
  | _ => (sum, 0)

/-- A subnormal f32 becomes a zero of its sign (R297). -/
def ftz (a : Nat) : Nat := if a / 2 ^ 23 % 256 = 0 then (if a / 2 ^ 31 % 2 = 1 then 2 ^ 31 else 0) else a

end Sys2Proof.Claims

/-- R285 to R288: `fadd`, `fsub`, `fmul` and `ffma` round the exact result once; `fmin` and `fmax` return an operand; `fabs`,
`fneg` and `fcpysgn` give a magnitude a sign. Every element of every active lane; nothing else changes. -/
def Sys2Proof.Claims.FloatArithmeticResults : Prop := ∀ (s : State) (h : Head) (f : A3), f.ty.toNat ≤ 4 →
  let fm := fmtOf f.ty.toNat
  let n : Nat → Machine.Num := fm.num
  FltDone s (.fadd h f) h (fltUses (rowFlt fltTys true) f) f fm.signBit
    (fun a b _ => fm.round f.rm false (Machine.Num.add f.rm (n a) (n b))) ∧
  FltDone s (.fsub h f) h (fltUses (rowFlt fltTys true) f) f 0
    (fun a b _ => fm.round f.rm false (Machine.Num.add f.rm (n a) (n b).negate)) ∧
  FltDone s (.fmul h f) h (fltUses (rowFlt fltTys true) f) f (fm.bias * 2 ^ fm.mb)
    (fun a b _ => fm.round f.rm false ((n a).mul (n b))) ∧
  FltDone s (.ffma h f) h (fltUses { rowFlt fltTys true with c := .v } f) f 0
    (fun a b c => fm.round f.rm false (Machine.Num.add f.rm ((n a).mul (n b)) (n c))) ∧
  FltDone s (.fmin h f) h (fltUses (rowFlt fltTys false) f) f fm.nanBits (fun a b _ => minMax false fm a b) ∧
  FltDone s (.fmax h f) h (fltUses (rowFlt fltTys false) f) f fm.nanBits (fun a b _ => minMax true fm a b) ∧
  FltDone s (.fabs h f) h (fltUses (rowFlt fltTys false).noB f) f 0 (fun a _ _ => withSign fm a false) ∧
  FltDone s (.fneg h f) h (fltUses (rowFlt fltTys false).noB f) f 0 (fun a _ _ => withSign fm a (a / fm.signBit % 2 == 0)) ∧
  FltDone s (.fcpysgn h f) h (fltUses (rowFlt fltTys false) f) f 0 (fun a b _ => withSign fm a (b / fm.signBit % 2 == 1))

/-- R291 to R297: `fdiv`, `frnd`, `fscale`, `fclass`, `fdot2`, `ftwosum` and the retired `fmad.ftz`, which counts its issue. -/
def Sys2Proof.Claims.FloatFunctionResults : Prop := ∀ (s : State) (h : Head) (f : A3),
  let ty := f.ty.toNat
  let fm := fmtOf ty
  (ty ≤ 2 →
    FltDone s (.fdiv h f) h (fltUses (rowFlt [0, 1, 2] true) f) f 0 (fun a b _ => divValue fm f.rm (fm.num a) (fm.num b)) ∧
    FltDone s (.frnd h f) h (fltUses (rowFlt [0, 1, 2] true).noB f) f 0 (fun a _ _ => fltIntegral f.rm fm a) ∧
    FltDone s (.fclass h f) h (fltUses (rowFlt [0, 1, 2] false).noB f) f 0 (fun a _ _ => classMask fm a) ∧
    VecDone s (.fscale h f) h (fltUses (rowFlt [0, 1, 2] true) f) false f.d (fun x l =>
      BitVec.ofNat 64 (fltScale f.rm fm (x.vec f.a.toNat l).toNat (loOf (bitB1 f x l)).toInt))) ∧
  (ty = 3 ∨ ty = 4 →
    VecDone s (.fdot2 h f) h (fltUses { (rowFlt [3, 4] true).noImm with c := .v } f) false f.d (fun x l =>
      let a := fun e => fm.num (eltOf ty (x.vec f.a.toNat l).toNat e)
      let b := fun e => fm.num (eltOf ty (x.fltB ty f.b 0 l) e)
      BitVec.ofNat 64 (f32.round f.rm false
        (Machine.Num.sum f.rm [(a 0).mul (b 0), (a 1).mul (b 1), f32.num (x.vec f.c.toNat l).toNat])))) ∧
  (ty = 0 →
    VecDone s (.ftwosum h f) h (fltUses { rowFlt [0] false with d := .v2 } f) true f.d (fun x l =>
      let r := sumAndError (x.vec f.a.toNat l).toNat (x.fltB 0 f.b 0 l)
      BitVec.ofNat 64 (r.1 + 2 ^ 32 * r.2)) ∧
    (∀ x, Issues s h (fltUses { rowFlt [0] false with c := .v } f) x → ∃ t, exec (.fmadFtz h f) s = .next (if x.act = 0 then t else t.retireUse 9) ∧
      (∀ l, hasLane x.act l = true →
        let m := fun (r : Nat) => ftz r
        let a := m (x.vec f.a.toNat l).toNat
        let b := m (x.fltB 0 f.b 0 l)
        let c := m (x.vec f.c.toNat l).toNat
        let p := m (f32.round .rne false ((f32.num a).mul (f32.num b)))
        vreg t x.b x.w f.d.toNat l =
          some (BitVec.ofNat 32 (m (f32.round .rne false (Machine.Num.add .rne (f32.num p) (f32.num c)))))) ∧
      RegFrame s t x.b x.w (lanesOfV x false f.d.toNat) noS noP))

/-- Float arithmetic and functions round once (Claims.FloatArithmeticResults, Claims.FloatFunctionResults). -/
def Obligations.FloatResults : Prop :=
  Claims.FloatArithmeticResults ∧ Claims.FloatFunctionResults

/-- R298 to R301, R310, R311: conversions between formats and integers, packing and unpacking. -/
def Sys2Proof.Claims.ConversionResults : Prop := ∀ (s : State) (h : Head) (f : A3),
  let ty := f.ty.toNat
  let fm := fmtOf ty
  let src := fmtOf f.c.toNat
  let ity : BitVec 3 := f.c.setWidth 3
  let widen : A3Row → A3Row := fun r => { r with a := if cvtSrcWide f then .v2 else .v }
  (ty ≤ 2 →
    (f.c.toNat ≤ 2 →
      VecDone s (.cvtFf h f) h (fltUses { (rowFlt [0, 1, 2] true).noB with sat := true, c := .n 2 } f) false f.d
        (fun x l => BitVec.ofNat 64 (fm.round f.rm f.sat (src.num (x.vec f.a.toNat l).toNat)))) ∧
    VecDone s (.cvtIf h f) h (fltUses (widen { (rowFlt [0, 1, 2] true).noB with sat := true, c := .n 7 }) f) false f.d
      (fun x l => BitVec.ofNat 64 (fm.round f.rm f.sat (Machine.Num.ofInt (typed ity (x.vecN (wideTy ity) f.a.toNat l)))))) ∧
  (f.c.toNat ≤ 2 →
    VecDone s (.cvtFi h f) h (intUses { (rowFlt allTys true).noB with d := .vT, c := .n 2 } f) (wideTy f.ty) f.d
      (fun x l => fitInt true f.ty (match src.num (x.vec f.a.toNat l).toNat with
        | .nan => 0
        | .inf n => if n then -(2 ^ 64) else 2 ^ 64
        | .fin n m e =>
          let k : Int := roundNat f.rm n (fracOf m e).1 (fracOf m e).2
          if n then -k else k))) ∧
  VecDone s (.cvtIi h f) h (intUses (widen { (rowInt allTys true).noB with c := .n 7 }) f) (wideTy f.ty) f.d
    (fun x l => fitInt f.sat f.ty (typed ity (x.vecN (wideTy ity) f.a.toNat l))) ∧
  (ty = 3 ∨ ty = 4 →
    VecDone s (.fpk2 h f) h (fltUses { rowFlt [3, 4] true with sat := true } f) false f.d (fun x l =>
      BitVec.ofNat 64 (fm.round f.rm f.sat (f32.num (x.vec f.a.toNat l).toNat) +
        65536 * fm.round f.rm f.sat (f32.num (x.fltB 0 f.b 0 l)))) ∧
    VecDone s (.fupk2 h f) h (fltUses { (rowFlt [3, 4] false).noB with c := .n 1 } f) false f.d (fun x l =>
      BitVec.ofNat 64 (f32.round .rne false (fm.num (eltOf ty (x.vec f.a.toNat l).toNat f.c.toNat))))) ∧
  (f.c.toNat ≤ 7 →
    VecDone s (.pack4 h f) h (fltUses { rowFlt [0] false with c := .n 7 } f) false f.d (fun x l =>
      let keep : Word := ~~~(15#32 <<< (4 * f.c.toNat))
      ((x.vec f.a.toNat l &&& keep) ||| (((loOf (bitB1 f x l)) &&& 15#32) <<< (4 * f.c.toNat))).setWidth 64) ∧
    VecDone s (.unpk4 h f) h (fltUses { (rowFlt [0] false).noB with c := .n 7 } f) false f.d (fun x l =>
      ((x.vec f.a.toNat l >>> (4 * f.c.toNat)) &&& 15#32).setWidth 64)) ∧
  (f.c.toNat ≤ 3 →
    VecDone s (.pack8 h f) h (fltUses { rowFlt [0] false with c := .n 3 } f) false f.d (fun x l =>
      let keep : Word := ~~~(255#32 <<< (8 * f.c.toNat))
      ((x.vec f.a.toNat l &&& keep) ||| (((loOf (bitB1 f x l)) &&& 255#32) <<< (8 * f.c.toNat))).setWidth 64) ∧
    VecDone s (.unpk8 h f) h (fltUses { (rowFlt [0] false).noB with c := .n 3 } f) false f.d (fun x l =>
      ((x.vec f.a.toNat l >>> (8 * f.c.toNat)) &&& 255#32).setWidth 64))

namespace Sys2Proof.Claims

/-- A conversion under the header in the low 16 bits of B: where every active lane's header passes its check, each lane's
result; where one fails, SELECTOR_CHECK of the lowest, for the active threads, and no register written. -/
def HeaderDone (s : State) (i : Instr) (h : Head) (us : List RegUse) (f : A3) (val : Nat → Nat → Nat) : Prop :=
  ∀ x, Issues s h us x →
    let hdr := fun l => (loOf (bitB1 f x l)).toNat % 65536
    ((∀ l, hasLane x.act l = true → hdrOk (hdr l) = true) → ∃ t, exec i s = .next t ∧
      (∀ l, hasLane x.act l = true →
        vreg t x.b x.w f.d.toNat l = some (BitVec.ofNat 32 (val (x.vec f.a.toNat l).toNat (hdr l)))) ∧
      RegFrame s t x.b x.w (lanesOfV x false f.d.toNat) noS noP) ∧
    (∀ l, hasLane x.act l = true → hdrOk (hdr l) = false → (∀ m, m < l → hasLane x.act m = true → hdrOk (hdr m) = true) →
      ∃ info, exec i s = .next (s.takeTrap x.b x.w info) ∧ info.code = 0x05 ∧ info.set = x.act ∧
        info.addr = BitVec.ofNat 64 (hdr l + 65536 * l))

end Sys2Proof.Claims

/-- R302 to R306: the conversions under a header and their SELECTOR_CHECK; `qhdr` makes a header and `hchk` checks one. -/
def Sys2Proof.Claims.HeaderConversionResults : Prop := ∀ (s : State) (h : Head) (f : A3),
  let fm := fmtOf f.ty.toNat
  HeaderDone s (.cvtE8 h f) h (fltUses (rowFlt [0, 1, 2] false).noImm f) f (fun a k => encodeUnder true (fm.num a) k) ∧
  HeaderDone s (.cvtE4 h f) h (fltUses (rowFlt [0, 1, 2] false).noImm f) f (fun a k => encodeUnder false (fm.num a) k) ∧
  HeaderDone s (.dcvtE8 h f) h (fltUses (rowFlt [0, 1, 2] true).noImm f) f
    (fun a k => fm.round f.rm false (decodeUnder k true (a % 256))) ∧
  HeaderDone s (.dcvtE4 h f) h (fltUses (rowFlt [0, 1, 2] true).noImm f) f
    (fun a k => fm.round f.rm false (decodeUnder k false (a % 16))) ∧
  VecDone s (.qhdr h f) h (fltUses { (rowFlt [0] false).noB with c := .n 7 } f) false f.d (fun x l =>
    BitVec.ofNat 64 (headerFor (f.c.getLsbD 2) (f.c.toNat % 4) (f32.num (x.vec f.a.toNat l).toNat))) ∧
  PredDone s (.hchk h f) h (fltUses { (rowFlt [0] false).noB with d := .p } f) f.d
    (fun x l => hdrOk ((x.vec f.a.toNat l).toNat % 65536))

/-- R307 to R309: `qblk` writes the codes of the wave's blocks and their headers to a pair; `dqblk`, once every header passes
its check, writes each lane's elements. -/
def Sys2Proof.Claims.BlockQuantiseResults : Prop := ∀ (s : State) (h : Head) (f : A3), blkLenOk f = true →
  let ty := f.ty.toNat
  let fm := fmtOf ty
  VecDone s (.qblk h f) h (fltUses { (rowFlt [0, 3, 4] false).noB with d := .v2, c := .n 127 } f) true f.d (fun x l =>
    let vals := (laneList.flatMap (fun m => elemsOf ty (x.vec f.a.toNat m).toNat)).map fm.num
    let qs := (pieces (blkLen f) vals).map (quantise (blkEight f) (f.c.toNat % 16))
    let codes := (qs.flatMap (fun q => packCodes (blkEight f) q.codes)).drop (4 * l)
    let hdr := (qs[l]?).elim 0 (fun q => q.header + 65536 * q.sat.toNat + 131072 * q.inv.toNat)
    BitVec.ofNat 64 (natOfBytes (codes.take 4) + 2 ^ 32 * hdr)) ∧
  (∀ x, Issues s h (fltUses { (rowFlt [0, 3, 4] true).noImm with bS := none, pp := false, c := .n 127 } f) x →
    let per := if ty = 0 then 1 else 2
    let hdr := fun i => (loOf (bitB1 f x i)).toNat % 65536
    (ty = 0 ∨ ty = 3 ∨ ty = 4) → (∀ i, i < 32 * per / blkLen f → hdrOk (hdr i) = true) →
    ∃ t, exec (.dqblk h f) s = .next t ∧
      (∀ l, hasLane x.act l = true →
        let bytes := laneList.flatMap (fun m => bytesOfNat (x.vec f.a.toNat m).toNat 4)
        let size := blkLen f * (if blkEight f then 2 else 1) / 2
        let value := fun (e : Nat) => fm.round f.rm false (decodeUnder (hdr (e / blkLen f)) (blkEight f)
          (codeAt (blkEight f) (bytes.drop (size * (e / blkLen f))) (e % blkLen f)))
        vreg t x.b x.w f.d.toNat l =
          some (loOf (if ty = 0 then BitVec.ofNat 64 (value l) else BitVec.ofNat 64 (value (2 * l) + 65536 * value (2 * l + 1))))) ∧
      RegFrame s t x.b x.w (lanesOfV x false f.d.toNat) noS noP)

/-- Conversions, headers and block quantisation (Claims.ConversionResults, Claims.HeaderConversionResults, Claims.BlockQuantiseResults). -/
def Obligations.FormatResults : Prop :=
  Claims.ConversionResults ∧ Claims.HeaderConversionResults ∧ Claims.BlockQuantiseResults

/-! ## Long-latency results -/

namespace Sys2Proof.Claims

/-- A long-latency instruction of the SFU pipe: an operation with the active lanes' values joins the wave's operations, and the
slot's flag becomes busy; no register changes yet. Without an active lane nothing changes. -/
def LongDone (s : State) (i : Instr) (h : Head) (us : List RegUse) (regs : Nat) (d : BitVec 8) (val : Ctx → Nat → DWord) : Prop :=
  ∀ x, Issues s h us x →
    (x.act = 0 → exec i s = .next s) ∧
    (x.act ≠ 0 → exec i s = .next (({ s with nextId := s.nextId + 1 } : State).updWave x.b x.w (fun v =>
      { v with
        sfu := v.sfu ++ [{ id := s.nextId, dst := d.toNat, regs := regs, lanes := x.act,
                           vals := (lanesIn x.act).map (fun l => (l, val x l)), clobbered := [] }],
        busy := if x.c.flag = 0 then v.busy else v.busy ++ [(x.c.flag, s.nextId)] })))

end Sys2Proof.Claims

/-- R58, R142, R289, R290: `xperm` and the SFU instructions queue their results and set the slot's flag; SFU_RESULT writes
every performing lane's result and clears the flag. -/
def Obligations.LongLatencyResults : Prop := ∀ (s : State),
  (∀ (h : Head) (f : A3),
    let us := fltUses (rowFlt [0, 1, 2] true).noB f
    let val : SfuFn → Ctx → Nat → DWord := fun fn x l =>
      BitVec.ofNat 64 (sfuValue (fmtOf f.ty.toNat) f.rm fn ((fmtOf f.ty.toNat).num (x.vec f.a.toNat l).toNat))
    LongDone s (.xperm h f) h (intUses (rowInt [0, 2] false).single f) (if wideTy f.ty then 2 else 1) f.d (fun x l =>
      if (loOf (bitB1 f x l)).toNat < 32 then bitA f x (loOf (bitB1 f x l)).toNat else 0) ∧
    LongDone s (.frcp h f) h us 1 f.d (val .rcp) ∧ LongDone s (.fsqrt h f) h us 1 f.d (val .sqrt) ∧
    LongDone s (.frsq h f) h us 1 f.d (val .rsq) ∧ LongDone s (.fexp2 h f) h us 1 f.d (val .exp2) ∧
    LongDone s (.flog2 h f) h us 1 f.d (val .log2) ∧ LongDone s (.fsinp h f) h us 1 f.d (val .sinp) ∧
    LongDone s (.fcosp h f) h us 1 f.d (val .cosp)) ∧
  (∀ b w op v o, s.wave b w = some v → v.sfu.find? (fun p => p.id = op) = some o → o.clobbered = [] →
    (o.regs = 1 ∨ o.regs = 2) → (o.vals.map Prod.fst).Nodup → (∀ e ∈ o.vals, e.1 < 32) →
    ∃ t v', exec (.sfuResult b w op) s = .next t ∧ t.wave b w = some v' ∧
      (∀ e ∈ o.vals, v'.v.vec o.dst e.1 = loOf e.2 ∧ (o.regs = 2 → v'.v.vec (o.dst + 1) e.1 = hiOf e.2)) ∧
      (∀ r l, l < 32 → (l ∉ o.vals.map Prod.fst ∨ (r ≠ o.dst ∧ (o.regs = 1 ∨ r ≠ o.dst + 1))) → v'.v.vec r l = v.v.vec r l) ∧
      v'.busy = v.busy.filter (fun e => e.2 ≠ op) ∧ v'.s = v.s ∧ { t with blocks := s.blocks, reqs := s.reqs } = s ∧
      (∀ c, c ≠ b → t.block c = s.block c))

/-! ## Control flow (spec/05, spec/02, spec/03) -/

namespace Sys2Proof.Claims

/-- The wave's lanes of `m` with their transfer to `tgt` pending until the packet ends (R67). -/
def willGo (m : Lanes) (tgt : Nat → Int) (v : Wave) : Wave :=
  { v with threads := v.threads.mapIdx (fun l t => if hasLane m l then { t with next := some (BitVec.ofInt 64 (tgt l)) } else t) }

/-- A target that passes both checks of R115: bits [63:55] all equal, bits [4:0] zero. -/
def goodTarget (a : Int) : Prop := 0 ≤ a ∧ (a < 2 ^ 55 ∨ (2 ^ 64 - 2 ^ 55 ≤ a ∧ a < 2 ^ 64)) ∧ a % 32 = 0

/-- The packet's address plus 32 × OFFP, formed exactly. -/
def relTarget (x : Ctx) (f : CFmt) : Int := (x.c.pc.toNat : Int) + 32 * f.offp.toInt

/-- The pair that an indirect transfer names: of the lane when OFFP is 0, scalar otherwise. -/
def pairTarget (x : Ctx) (f : CFmt) (l : Nat) : Int :=
  ((if f.offp = 0 then x.vecPair f.a.toNat l else x.scalPair f.a.toNat).toNat : Int)

/-- `u` is `s` with the address of the following packet in the link pair of every active lane (R117). -/
def Linked (s u : State) (x : Ctx) (d : BitVec 8) : Prop :=
  (∀ l, hasLane x.act l = true → vreg u x.b x.w d.toNat l = some (loOf (x.c.pc + 32)) ∧
    vreg u x.b x.w (d.toNat + 1) l = some (hiOf (x.c.pc + 32))) ∧
  RegFrame s u x.b x.w (lanesOfV x true d.toNat) noS noP

end Sys2Proof.Claims

/-- R94, R115 to R118: with good targets, `br`, `brx` and `ret` make every active lane's transfer pend, `call` and `callx`
also write the link pair, `brany` and `brall` by their vote, `exit` marks the lanes to exit; `nop` does nothing. -/
def Sys2Proof.Claims.TransferResults : Prop := ∀ (s : State) (h : Head) (f : CFmt) (x : Ctx), s.ctx h = some x →
  ((∀ l, hasLane x.act l = true → goodTarget (relTarget x f)) →
    exec (.br h f) s = .next (s.updWave x.b x.w (willGo x.act (fun _ => relTarget x f))) ∧
    exec (.brany h f) s = .next
      (if (List.range 32).any (fun l => hasLane x.act l && x.pred f.a.toNat l)
       then s.updWave x.b x.w (willGo x.act (fun _ => relTarget x f)) else s) ∧
    exec (.brall h f) s = .next
      (if (List.range 32).all (fun l => !hasLane x.act l || x.pred f.a.toNat l)
       then s.updWave x.b x.w (willGo x.act (fun _ => relTarget x f)) else s) ∧
    (firstBeyond x.blk.kern [.v f.d.toNat 2] = none →
      ∃ u, Linked s u x f.d ∧ exec (.call h f) s = .next (u.updWave x.b x.w (willGo x.act (fun _ => relTarget x f))))) ∧
  ((∀ l, hasLane x.act l = true → goodTarget (pairTarget x f l)) → firstBeyond x.blk.kern [targetUse f] = none →
    exec (.brx h f) s = .next (s.updWave x.b x.w (willGo x.act (pairTarget x f))) ∧
    exec (.ret h f) s = .next (s.updWave x.b x.w (willGo x.act (pairTarget x f))) ∧
    (firstBeyond x.blk.kern [.v f.d.toNat 2, targetUse f] = none →
      ∃ u, Linked s u x f.d ∧ exec (.callx h f) s = .next (u.updWave x.b x.w (willGo x.act (pairTarget x f))))) ∧
  exec (.exit h f) s = .next (s.updWave x.b x.w (fun v => v.updLanes x.act (fun t => { t with exiting := true }))) ∧
  (∀ c y, s.ctx ⟨none, c⟩ = some y → exec (.nop c) s = .next s)

/-- R120: `loop` lowers the count once per issue and branches while it is not zero; a count of 0 wraps. -/
def Sys2Proof.Claims.LoopResults : Prop := ∀ (s : State) (h : Head) (f : CFmt) (x : Ctx), Issues s h [.s f.a.toNat 1] x →
  (x.act = 0 → exec (.loop h f) s = .next s) ∧
  (x.act ≠ 0 → goodTarget (relTarget x f) →
    ∃ u, sreg u x.b x.w f.a.toNat = some (x.scal f.a.toNat - 1) ∧ RegFrame s u x.b x.w noV (fun r => r = f.a.toNat) noP ∧
      exec (.loop h f) s = .next
        (if x.scal f.a.toNat = 1 then u else u.updWave x.b x.w (willGo x.act (fun _ => relTarget x f))))

/-- Control transfers pend with their targets (Claims.TransferResults, Claims.LoopResults). -/
def Obligations.ControlTransferResults : Prop :=
  Claims.TransferResults ∧ Claims.LoopResults

/-- R115: a transfer to a target that fails a check takes NONCANONICAL, or MISALIGNED, with the target and the mask of the
failing lanes, for every active thread. -/
def Obligations.TransferTraps : Prop := ∀ (s : State) (h : Head) (f : CFmt) (x : Ctx), Issues s h [targetUse f] x → x.act ≠ 0 →
  let canon := fun l => 0 ≤ pairTarget x f l ∧ (pairTarget x f l < 2 ^ 55 ∨ 2 ^ 64 - 2 ^ 55 ≤ pairTarget x f l)
  (∀ l, hasLane x.act l = true → ¬ canon l → (∀ m, m < l → hasLane x.act m = true → canon m) →
    ∃ info, exec (.brx h f) s = .next (s.takeTrap x.b x.w info) ∧ exec (.ret h f) s = .next (s.takeTrap x.b x.w info) ∧
      info.code = 0x07 ∧ info.sub = 1 ∧ info.set = x.act ∧ info.addr = BitVec.ofInt 64 (pairTarget x f l) ∧
      (∀ m, m < 32 → (hasLane info.lanes m = true ↔ hasLane x.act m = true ∧ ¬ canon m))) ∧
  ((∀ m, hasLane x.act m = true → canon m) → ∀ l, hasLane x.act l = true → pairTarget x f l % 32 ≠ 0 →
    (∀ m, m < l → hasLane x.act m = true → pairTarget x f m % 32 = 0) →
    ∃ info, exec (.brx h f) s = .next (s.takeTrap x.b x.w info) ∧ exec (.ret h f) s = .next (s.takeTrap x.b x.w info) ∧
      info.code = 0x06 ∧ info.sub = 1 ∧ info.set = x.act ∧ info.addr = BitVec.ofInt 64 (pairTarget x f l))

/-- R67, R118, R480: a thread that leaves its packet takes its transfer, or the following packet; one marked to exit is EXITED
unless it is parked, or the trap of a denied access goes first, on whose return it exits (R484); one that returns from the handler stands
at the packet and slot of its return. -/
def Obligations.PacketEnd : Prop := ∀ (t : Thread),
  (t.ret = none →
    t.leave.pc = (match t.next with | some a => a | none => t.pc + 32) ∧ t.leave.slot = 0 ∧ t.leave.next = none ∧
    (t.exiting = true → t.st ≠ .parked → t.heldTrap = none → t.leave.st = .exited) ∧
    (t.exiting = true → t.st ≠ .parked → t.heldTrap ≠ none → t.leave.st = t.st ∧ t.leave.gone = some t.leave.pc) ∧
    (t.exiting = false → t.leave.st = t.st) ∧
    t.leave.preds = t.preds ∧ t.leave.inHandler = t.inHandler) ∧
  (∀ pk k, t.ret = some (pk, k) →
    t.leave.pc = pk ∧ t.leave.slot = k ∧ t.leave.inHandler = false ∧ t.leave.ret = none ∧ t.leave.recheck = true ∧
    t.leave.preds = t.preds ∧ (t.gone ≠ some pk → t.leave.st = t.st) ∧ (t.gone = some pk → t.leave.st = .exited))

/-- R35, R36, R121, R122: `rcv` makes the active threads wait there; `yield`, and `sleep 0`, end the wave's run; `sleep n`
sets the clock until which the wave issues no other packet, the latest of the packet's sleeps, and SLEEP_END ends it then. -/
def Sys2Proof.Claims.WaitAndSleepResults : Prop := ∀ (s : State) (h : Head) (f : CFmt) (x : Ctx), s.ctx h = some x →
  exec (.rcv h f) s = .next (s.updWave x.b x.w (fun v =>
    { v.updLanes x.act (fun t => { t with st := .waiting .rcv, slot := x.c.slot + 1, owed := t.st == .parked || t.owed }) with
      issue := v.issue.map (fun i => { i with lanes := i.lanes &&& ~~~x.act }) })) ∧
  (x.act = 0 → exec (.yield h f) s = .next s ∧ exec (.sleep h f) s = .next s) ∧
  (x.act ≠ 0 →
    exec (.yield h f) s = .next (s.updWave x.b x.w (fun v => { v with run := 0 })) ∧
    (f.offp = 0 → exec (.sleep h f) s = .next (s.updWave x.b x.w (fun v => { v with run := 0 }))) ∧
    (f.offp ≠ 0 → exec (.sleep h f) s = .next (s.updWave x.b x.w (fun v =>
      { v with sleep := some (max (s.clock + f.offp.toNat) (v.sleep.getD 0)), napPc := some x.c.pc })))) ∧
  (∀ b w v n, s.wave b w = some v → v.sleep = some n → n ≤ s.clock →
    exec (.sleepEnd b w) s = .next (s.updWave b w (fun v => { v with sleep := none, napPc := none })))

/-! ## Traps (spec/21) -/

/-- R474 to R477: TAKING A TRAP of a wave that holds none, for threads outside a handler, where the kernel has a handler: the
trap registers take the trap's values, every thread of the trapping set runs at the entry, slot 0, in the handler; the other
threads, the registers, the wait flags and memory are as before. -/
def Sys2Proof.Claims.TrapEntry : Prop := ∀ (s : State) (b w : Nat) (p : Block) (v : Wave) (i : TrapInfo) (entry : Nat),
  s.block b = some p → p.wave w = some v → v.trapSet = none → v.cancels = [] → v.monWait = [] →
  (∃ l, hasLane i.set l = true ∧ l < v.threads.length) →
  (∀ l t, hasLane i.set l = true → v.threads[l]? = some t → t.inHandler = false) → s.entryFor p i = some entry →
  ∃ v', (s.takeTrap b w i).wave b w = some v' ∧
    v'.cause = BitVec.ofNat 32 (i.feat * 2 ^ 23 + i.defer.toNat * 2 ^ 16 + i.sub * 2 ^ 8 + i.code) ∧
    v'.tpc = i.pc ∧ v'.taddr = i.addr ∧ v'.kstep = BitVec.ofNat 32 i.kstep ∧
    v'.tlanes = (if i.whole then i.set else i.lanes) ∧ v'.trapSet = some i.set ∧
    (∀ l t, v.threads[l]? = some t → ∃ t', v'.threads[l]? = some t' ∧
      (hasLane i.set l = true → t'.pc = BitVec.ofNat 64 entry ∧ t'.slot = 0 ∧ t'.st = .running ∧ t'.inHandler = true ∧
        t'.preds = t.preds) ∧
      (hasLane i.set l = false → t' = t)) ∧
    v'.v = v.v ∧ v'.s = v.s ∧ v'.busy = v.busy ∧ v'.idem = v.idem ∧
    (s.takeTrap b w i).mem = s.mem ∧ (s.takeTrap b w i).reqs = s.reqs ∧
    (∀ c, c ≠ b → (s.takeTrap b w i).block c = s.block c)

/-- R476, R478: a thread already in the handler that traps, or a trap without an entry that is not BREAK, aborts the block with
the trap's code; a wave that holds a trap holds the group, and nothing changes. -/
def Sys2Proof.Claims.TrapWithoutEntry : Prop := ∀ (s : State) (b w : Nat) (p : Block) (v : Wave) (i : TrapInfo),
  s.block b = some p → p.wave w = some v → p.cancelled = false → p.aborted = none → i.code ≠ 2 →
  let inside := ∃ l t, hasLane i.set l = true ∧ v.threads[l]? = some t ∧ t.inHandler = true ∧ l < 32
  ((inside ∨ (v.trapSet = none ∧ p.kern.handler = none ∧ i.code ≠ 0x0E)) →
    ∃ q, (s.takeTrap b w i).block b = some q ∧ q.aborted = some i.code) ∧
  (¬ inside → v.trapSet ≠ none → s.takeTrap b w i = { s with note := .held })

/-- Taking a trap, with a handler and without (Claims.TrapEntry, Claims.TrapWithoutEntry). -/
def Obligations.TrapsAreTaken : Prop :=
  Claims.TrapEntry ∧ Claims.TrapWithoutEntry

/-- R98, rows 5 and 6 of Table 4-10: an instruction that needs service privilege takes PRIVILEGE in a block without it, and one
that names a register at or beyond its declared count takes REG_BOUND with that register, for every thread at the packet. -/
def Sys2Proof.Claims.DecodeTraps : Prop := ∀ (s : State) (h : Head) (x : Ctx), s.ctx h = some x →
  let trap := fun (code : Nat) (addr : DWord) => s.takeTrap x.b x.w
    { code := code, sub := 0, pc := x.c.pc + BitVec.ofNat 64 (8 * (x.c.slot + 1)), addr := addr, kstep := 0, lanes := x.c.lanes,
      set := x.c.lanes, whole := true, feat := 0, defer := false }
  (x.blk.service = false → ∀ f : YFmt,
    exec (.tlbInvPage h f) s = .next (trap 0x0F 0) ∧ exec (.tlbInvLarge h f) s = .next (trap 0x0F 0) ∧
    exec (.tlbInvAsn h f) s = .next (trap 0x0F 0) ∧ exec (.tlbInvAll h f) s = .next (trap 0x0F 0) ∧
    exec (.errRdCounter h f) s = .next (trap 0x0F 0) ∧ exec (.errRdLog h f) s = .next (trap 0x0F 0) ∧
    exec (.errRdRetire h f) s = .next (trap 0x0F 0) ∧ exec (.halt h f) s = .next (trap 0x0F 0)) ∧
  (∀ f : YFmt, f.sysno.toNat = 0 → x.blk.kern.sregs ≤ f.d.toNat →
    exec (.sysRd h f) s = .next (trap 0x03 (BitVec.ofNat 64 f.d.toNat))) ∧
  (∀ f : A3, f.ty.toNat = 0 → x.blk.kern.vregs ≤ f.d.toNat →
    exec (.iadd h f) s = .next (trap 0x03 (BitVec.ofNat 64 f.d.toNat)) ∧
    exec (.fadd h f) s = .next (trap 0x03 (BitVec.ofNat 64 f.d.toNat)) ∧
    exec (.mov h f) s = .next (trap 0x03 (BitVec.ofNat 64 f.d.toNat))) ∧
  (∀ f : MFmt, f.ak = false → x.blk.kern.vregs ≤ f.a.toNat →
    exec (.cinv h f) s = .next (trap 0x03 (BitVec.ofNat 64 f.a.toNat)))

namespace Sys2Proof.Claims

/-- The threads `m` of the wave may take a trap now: the wave holds none and asks for no cancellation, no thread of it waits on its
monitor, and they are outside the handler. -/
def MayTrap (v : Wave) (m : Lanes) : Prop :=
  v.trapSet = none ∧ v.cancels = [] ∧ v.monWait = [] ∧ (∃ l y, hasLane m l = true ∧ v.threads[l]? = some y) ∧
  ∀ l y, hasLane m l = true → v.threads[l]? = some y → y.inHandler = false

/-- The instruction answers a next state in which the threads `m` of its wave stand at `entry` in the handler, with the trap
registers written (Tables 21-1, 21-2), a routed encoding counted; the other threads, the registers, the wait flags, memory and the other blocks are as before. -/
def Enters (s : State) (i : Instr) (x : Ctx) (m : Lanes) (code sub feat : Nat) (addr : DWord) (entry : Nat) : Prop :=
  ∃ t v', exec i s = .next t ∧ t.wave x.b x.w = some v' ∧
    v'.cause = BitVec.ofNat 32 (feat * 2 ^ 23 + sub * 2 ^ 8 + code) ∧ v'.tpc = x.c.pc + BitVec.ofNat 64 (8 * (x.c.slot + 1)) ∧
    v'.taddr = addr ∧ v'.kstep = 0 ∧ v'.tlanes = m ∧ v'.trapSet = some m ∧
    (∀ l y, x.wv.threads[l]? = some y → ∃ y', v'.threads[l]? = some y' ∧
      (hasLane m l = true → y'.pc = BitVec.ofNat 64 entry ∧ y'.slot = 0 ∧ y'.st = .running ∧ y'.inHandler = true ∧
        y'.preds = y.preds) ∧
      (hasLane m l = false → y' = y)) ∧
    v'.v = x.wv.v ∧ v'.s = x.wv.s ∧ v'.busy = x.wv.busy ∧ t.mem = s.mem ∧ t.reqs = s.reqs ∧
    t.dev = (if code = 0x02 then (s.retireUse feat).dev else s.dev) ∧ ∀ c, c ≠ x.b → t.block c = s.block c

end Sys2Proof.Claims

/-- R101, R477: the retired encodings `wvote` and `mma8` are routed to the routine that the running object binds to their feature
bit, with the word in TRAP_ADDR, and are illegal without one: that trap is their effect on the Z8, and the threads of the packet
enter the routine, or the kernel's handler, with it. -/
def Sys2Proof.Claims.RetiredEncodings : Prop := ∀ (s : State) (w : DWord) (x : Ctx), s.ctx ⟨none, false⟩ = some x →
  (MayTrap x.wv x.c.lanes →
    (∀ r, s.binding x.blk.asn x.blk.kern.obj 7 = some r → Enters s (.wvote w) x x.c.lanes 0x02 0 7 x.c.word r) ∧
    (∀ r, s.binding x.blk.asn x.blk.kern.obj 11 = some r → Enters s (.mma8 w) x x.c.lanes 0x02 0 11 x.c.word r) ∧
    (∀ r, x.blk.kern.handler = some r →
      (s.binding x.blk.asn x.blk.kern.obj 7 = none → Enters s (.wvote w) x x.c.lanes 0x01 0 0 0 r) ∧
      (s.binding x.blk.asn x.blk.kern.obj 11 = none → Enters s (.mma8 w) x x.c.lanes 0x01 0 0 0 r))) ∧
  let trap := fun (code : Nat) (addr : DWord) (feat : Nat) => s.takeTrap x.b x.w
    { code := code, sub := 0, pc := x.c.pc + BitVec.ofNat 64 (8 * (x.c.slot + 1)), addr := addr, kstep := 0, lanes := x.c.lanes,
      set := x.c.lanes, whole := true, feat := feat, defer := false }
  exec (.wvote w) s = .next (if (s.binding x.blk.asn x.blk.kern.obj 7).isSome then trap 0x02 x.c.word 7 else trap 0x01 0 0) ∧
  exec (.mma8 w) s = .next (if (s.binding x.blk.asn x.blk.kern.obj 11).isSome then trap 0x02 x.c.word 11 else trap 0x01 0 0)

/-- R477, R481: `trap n` raises SOFTWARE and `brk n` BREAK with SUB = n and TRAP_ADDR = pair s[A] when U = 1, for every active
thread, which enters the kernel's handler with it; without an active thread nothing happens. -/
def Sys2Proof.Claims.SoftwareTraps : Prop := ∀ (s : State) (h : Head) (f : YFmt) (x : Ctx), Issues s h (trapUses f) x →
  (∀ r, MayTrap x.wv x.act → x.blk.kern.handler = some r →
    let addr := if f.sysno.getLsbD 8 then x.scalPair f.a.toNat else 0
    Enters s (.trap h f) x x.act 0x0D (f.sysno.toNat % 256) 0 addr r ∧ Enters s (.brk h f) x x.act 0x0E (f.sysno.toNat % 256) 0 addr r) ∧
  let trap := fun (code : Nat) => s.takeTrap x.b x.w
    { code := code, sub := f.sysno.toNat % 256, pc := x.c.pc + BitVec.ofNat 64 (8 * (x.c.slot + 1)),
      addr := if f.sysno.getLsbD 8 then x.scalPair f.a.toNat else 0, kstep := 0, lanes := x.act, set := x.act, whole := true,
      feat := 0, defer := false }
  (x.act ≠ 0 → exec (.trap h f) s = .next (trap 0x0D) ∧ exec (.brk h f) s = .next (trap 0x0E)) ∧
  (x.act = 0 → exec (.trap h f) s = .next s ∧ exec (.brk h f) s = .next s)

/-- The traps that instructions take or raise (Claims.DecodeTraps, Claims.RetiredEncodings, Claims.SoftwareTraps). -/
def Obligations.InstructionTraps : Prop :=
  Claims.DecodeTraps ∧ Claims.RetiredEncodings ∧ Claims.SoftwareTraps

/-- R480: `rte` of threads in the handler, with a canonical TRAP_PC aligned to 8: each returns to its packet at slot k − 1 (slot
0 for k = 0); `rte.next` to the place after the chain group that holds slot k − 1, which the chain bits of the packet give:
slot n, or the next packet for n = 3. -/
def Obligations.ReturnFromTrap : Prop := ∀ (s : State) (h : Head) (f : YFmt) (x : Ctx), s.ctx h = some x → x.act ≠ 0 →
  (∀ l, hasLane x.act l = true → ∃ t, x.wv.threads[l]? = some t ∧ t.inHandler = true) →
  canonicalNat x.wv.tpc.toNat = true → x.wv.tpc.toNat % 8 = 0 →
  let pk := x.wv.tpc &&& ~~~31#64
  let k := x.wv.tpc.toNat / 8 % 4
  let back := fun (r : DWord × Nat) => s.updWave x.b x.w (fun v => v.updLanes x.act (fun t => { t with ret := some r }))
  exec (.rte h f) s = .next (back (pk, k - 1)) ∧
  (k = 0 → exec (.rteNext h f) s = .next (back (pk, 0))) ∧
  (k ≠ 0 → exec (.rteNext h f) s = .next (back (pk, unreadSlot + (k - 1)))) ∧
  (∀ (t : Thread) words g, g ≤ 2 → t.slot = unreadSlot + g → ∃ n, g < n ∧ n ≤ 3 ∧
    (t.place words).pc = (if n = 3 then t.pc + 32 else t.pc) ∧ (t.place words).slot = (if n = 3 then 0 else n) ∧
    (∀ j, g ≤ j → j + 1 < n → (words.getD j 0).getLsbD 49 = true) ∧ (n < 3 → (words.getD (n - 1) 0).getLsbD 49 = false))

/-! ## System registers, invalidation, errors, caches (spec/21, spec/22, spec/07) -/

namespace Sys2Proof.Claims

/-- The features on the microcoded and trapped rungs (Table 4-11), whose RETIRE_USE counters count (R465). -/
abbrev Counts (feature : Nat) : Prop := feature = 7 ∨ feature = 9 ∨ feature = 11

end Sys2Proof.Claims

/-- R465, R474, R487, Table 21-7: `sys.rd` reads the trap registers of its wave, FEATURE_MASK, RETIRE_USE, PROG and the tick period, the
counters of the other features as 0; `sys.wr` of TRAP_PC, TRAP_ADDR, the tick period or a RETIRE_USE register that counts writes it, and
clears IDEM whatever the guard (R46). -/
def Obligations.SystemRegisterResults : Prop := ∀ (s : State) (h : Head) (f : YFmt),
  let n := f.sysno.toNat
  (∀ k v, (k, v) ∈ ([(0, fun (_ : State) (w : Wave) (_ : Block) => w.cause.setWidth 64), (1, fun _ w _ => w.tpc), (2, fun _ w _ => w.taddr),
      (3, fun _ w _ => w.kstep.setWidth 64), (4, fun _ w _ => w.tlanes.setWidth 64),
      (0x30, fun _ _ b => BitVec.ofNat 64 b.prog), (0x32, fun u _ _ => BitVec.ofNat 64 u.tickPeriod)] :
        List (Nat × (State → Wave → Block → DWord))) → n = k →
    ScalDone s (.sysRd h f) h [.s f.d.toNat (if n = 1 ∨ n = 2 then 2 else 1)] (n == 1 || n == 2) f.d (fun x => v s x.wv x.blk)) ∧
  (0x20 ≤ n ∧ n ≤ 0x2F → Counts (n - 0x20) →
    ScalDone s (.sysRd h f) h [.s f.d.toNat 2] true f.d (fun _ => BitVec.ofNat 64 (s.dev.retireUse.getD (n - 0x20) 0))) ∧
  (0x20 ≤ n ∧ n ≤ 0x2F → ¬ Counts (n - 0x20) → ScalDone s (.sysRd h f) h [.s f.d.toNat 2] true f.d (fun _ => 0)) ∧
  (n = 0x10 → ScalDone s (.sysRd h f) h [.s f.d.toNat 1] false f.d (fun _ => BitVec.ofNat 64 Config.featureMask0)) ∧
  (n = 0x31 → ScalDone s (.sysRd h f) h [.s f.d.toNat 1] false f.d (fun x =>
    BitVec.ofNat 64 ((s.grids.get x.blk.grid).elim 0 (fun g => g.ptotal)))) ∧
  (0x10 < n ∧ n < 0x20 → ScalDone s (.sysRd h f) h [.s f.d.toNat 1] false f.d (fun _ => 0)) ∧
  (∀ x, s.ctx h = some x →
    let u := s.updWave x.b x.w (fun v => { v with idem := false })
    (n = 1 ∨ n = 2 → firstBeyond x.blk.kern [.s f.a.toNat 2] = none →
      exec (.sysWr h f) s = .next (if x.act = 0 then u else if n = 1
        then u.updWave x.b x.w (fun v => { v with tpc := x.scalPair f.a.toNat })
        else u.updWave x.b x.w (fun v => { v with taddr := x.scalPair f.a.toNat }))) ∧
    (0x20 ≤ n ∧ n ≤ 0x2F → x.blk.service = true → firstBeyond x.blk.kern [.s f.a.toNat 2] = none →
      ∃ t, exec (.sysWr h f) s = .next t ∧ { t with blocks := u.blocks, dev := u.dev } = u ∧
        t.blocks = u.blocks ∧ { t.dev with retireUse := u.dev.retireUse } = u.dev ∧
        (∀ j, t.dev.retireUse[j]? = if x.act ≠ 0 ∧ j = n - 0x20 ∧ Counts j then (s.dev.retireUse[j]?).map (fun _ => (x.scalPair f.a.toNat).toNat)
          else s.dev.retireUse[j]?)) ∧
    (n = 0x32 → x.blk.service = true → firstBeyond x.blk.kern [.s f.a.toNat 1] = none →
      let p := (x.scal f.a.toNat).toNat
      exec (.sysWr h f) s = .next (if x.act ≠ 0 ∧ 1000 ≤ p ∧ p ≤ 4000000 then { u with tickPeriod := p } else u)))

namespace Sys2Proof.Claims

/-- A request without the mark that its data, read before a line left the caches, fills no cache. -/
def bareFill (e : Nat × Req) : Nat × Req := (e.1, { e.2 with noFill := false })

/-- The TLB translations of `t`, and the lines of its L1 and instruction caches, are those of `s` that satisfy neither `p` nor
`q`; nothing else has changed, but that a request on its way may no longer fill a cache. -/
def Invalidated (s t : State) (p : TlbEntry → Prop) (q : L1Line → Prop) : Prop :=
  (∀ e, e ∈ t.tlb ↔ e ∈ s.tlb ∧ ¬ p e) ∧
  (∀ c k, s.cores.get c = some k → ∃ k', t.cores.get c = some k' ∧ (∀ l, l ∈ k'.l1 ↔ l ∈ k.l1 ∧ ¬ q l) ∧
    (∀ l, l ∈ k'.icache ↔ l ∈ k.icache ∧ ¬ q l) ∧ { k' with l1 := k.l1, icache := k.icache } = k) ∧
  t.reqs.map bareFill = s.reqs.map bareFill ∧ { t with tlb := s.tlb, cores := s.cores, reqs := s.reqs } = s

/-- A translation of a page of `asn` that shares an address with the `size` bytes around `va`. -/
def touches (t : TlbEntry) (asn va size : Nat) : Prop :=
  let page := if t.large then 67108864 else 65536
  t.asn = asn ∧ ∃ a, a / size = va / size ∧ a / page = t.vpage

end Sys2Proof.Claims

/-- R489: `tlb.inv`, in service privilege, removes the translations of a page, of a 64 MiB range, of an address space, or all of
them, from every TLB, with the L1 lines of the same addresses. -/
def Sys2Proof.Claims.TlbInvalidation : Prop := ∀ (s : State) (h : Head) (f : YFmt) (x : Ctx), s.ctx h = some x →
  x.blk.service = true →
  let asn := (x.scal f.d.toNat).toNat % 65536
  let va := (x.scalPair f.a.toNat).toNat
  (x.act ≠ 0 → firstBeyond x.blk.kern [.s f.d.toNat 1, .s f.a.toNat 2] = none →
    (∃ t, exec (.tlbInvPage h f) s = .next t ∧
      Invalidated s t (fun e => touches e asn va 65536) (fun l => l.asn = asn ∧ 128 * l.vline / 65536 = va / 65536)) ∧
    (∃ t, exec (.tlbInvLarge h f) s = .next t ∧
      Invalidated s t (fun e => touches e asn va 67108864) (fun l => l.asn = asn ∧ 128 * l.vline / 67108864 = va / 67108864))) ∧
  (x.act ≠ 0 → firstBeyond x.blk.kern [.s f.d.toNat 1] = none →
    ∃ t, exec (.tlbInvAsn h f) s = .next t ∧ Invalidated s t (fun e => e.asn = asn) (fun l => l.asn = asn)) ∧
  (x.act ≠ 0 → ∃ t, exec (.tlbInvAll h f) s = .next t ∧ Invalidated s t (fun _ => True) (fun _ => True)) ∧
  (x.act = 0 → exec (.tlbInvAll h f) s = .next s)

/-- R490, R495, R496: `err.rd` in service privilege reads a counter, a word of the oldest log record, or retires that record
and reads how many remain. -/
def Sys2Proof.Claims.ErrorReadResults : Prop := ∀ (s : State) (h : Head) (f : YFmt) (x : Ctx),
  Issues s h [.s f.d.toNat 2, .s f.a.toNat 1] x → x.blk.service = true → x.act ≠ 0 →
  let n := (x.scal f.a.toNat).toNat
  let wrote := fun (t : State) (v : DWord) =>
    sreg t x.b x.w f.d.toNat = some (loOf v) ∧ sreg t x.b x.w (f.d.toNat + 1) = some (hiOf v)
  let pair := fun (r : Nat) => r = f.d.toNat ∨ r = f.d.toNat + 1
  (∃ t, exec (.errRdCounter h f) s = .next t ∧ wrote t (BitVec.ofNat 64 (s.health.counters.getD n 0)) ∧
    RegFrame s t x.b x.w noV pair noP) ∧
  (∃ t, exec (.errRdLog h f) s = .next t ∧ RegFrame s t x.b x.w noV pair noP ∧
    (s.health.log = [] → wrote t 0) ∧
    (∀ r rest, s.health.log = r :: rest →
      (n % 4 = 0 → wrote t (BitVec.ofNat 64 (r.seq * 2 ^ 32 + r.cls * 2 ^ 24 + r.unit * 2 ^ 16 + r.num))) ∧
      (n % 4 = 1 → wrote t (BitVec.ofNat 64 r.addr)) ∧
      (n % 4 = 2 → wrote t (BitVec.ofNat 64 (r.job % 65536 * 2 ^ 48 + r.synd.toNat))) ∧
      (n % 4 = 3 → wrote t (BitVec.ofNat 64 r.clock)))) ∧
  (∃ t, exec (.errRdRetire h f) s = .next t ∧ wrote t (BitVec.ofNat 64 (s.health.log.length - 1)) ∧
    t.health = { s.health with log := s.health.log.tail } ∧
    RegFrame { s with health := { s.health with log := s.health.log.tail } } t x.b x.w noV pair noP)

/-- tlb.inv and err.rd in service privilege (Claims.TlbInvalidation, Claims.ErrorReadResults). -/
def Obligations.ServiceInstructionResults : Prop :=
  Claims.TlbInvalidation ∧ Claims.ErrorReadResults

namespace Sys2Proof.Claims

/-- Core `c` keeps everything but its L1 lines, of which those that satisfy `q` are gone; the rest of the module is as before, but
that a request on its way may no longer fill a cache. -/
def L1Dropped (s t : State) (c : Nat) (q : L1Line → Prop) : Prop :=
  (∀ l, l ∈ (t.core c).l1 ↔ l ∈ (s.core c).l1 ∧ ¬ q l) ∧ { t.core c with l1 := (s.core c).l1 } = s.core c ∧
  (∀ d, d ≠ c → t.core d = s.core d) ∧ t.reqs.map bareFill = s.reqs.map bareFill ∧ { t with cores := s.cores, reqs := s.reqs } = s

end Sys2Proof.Claims

/-- R200, R202, R206, R234, R235: once the wave's loads and atomics have returned, `cinv` drops the core's L1 lines that its
canonical addresses name, `cinv.all` every one, and `phase.op` at dev or dom scope the lines that are not stable. -/
def Sys2Proof.Claims.CacheDropResults : Prop := ∀ (s : State) (h : Head) (f : MFmt) (x : Ctx), s.ctx h = some x → x.act ≠ 0 →
  s.readsOut x.b x.w = false →
  (firstBeyond x.blk.kern (f.uses 0 2 0) = none →
    ∃ t, exec (.cinv h f) s = .next t ∧ L1Dropped s t x.blk.core (fun l => l.asn = x.blk.asn ∧
      ∃ m ∈ x.accessLanes f, canonicalInt (x.address f m) = true ∧ l.vline = (x.address f m).toNat / 128)) ∧
  (∃ t, exec (.cinvAll h f) s = .next t ∧ L1Dropped s t x.blk.core (fun _ => True)) ∧
  (f.scope ≠ 0 → ∃ t, exec (.phaseOp h f) s = .next t ∧ L1Dropped s t x.blk.core (fun l => l.stable = false)) ∧
  (f.scope = 0 → exec (.phaseOp h f) s = .next s)

/-- R199, R201, R234: `phase.cl` makes the wave wait for the writes it has seen and made; PHASE_CL_COMPLETE ends the wait once
they have performed at the scope; `fence.q` records the commands and writes that later commands wait for. -/
def Sys2Proof.Claims.PhaseAndFenceResults : Prop := ∀ (s : State) (h : Head) (f : MFmt) (x : Ctx), s.ctx h = some x → x.act ≠ 0 →
  let closing : Close := { scope := f.scope, ops := s.writesOut x.b x.w,
                           lines := if f.scope = 0 then [] else x.wv.closeLines, marks := [], sent := false }
  (exec (.phaseCl h f) s = .next ((s.updWave x.b x.w (fun v => { v with hold := .close closing })).sendDue x.b x.w)) ∧
  (exec (.fenceQ h f) s = .next (s.updBlock x.b (fun b => { b with fences := b.fences ++
    [{ mask := f.off.setWidth 4,
       cmds := (List.range 4).flatMap (fun q => if f.off.getLsbD q then
         ((s.queueOf x.blk.core q).filter (fun c => c.blk = x.b)).map (fun c => c.id) else []),
       ops := if f.off.getLsbD 4 then s.writesOut x.b x.w else [],
       lines := if f.off.getLsbD 4 then x.wv.closeLines else [] }] }))) ∧
  (∀ b w v c, s.wave b w = some v → v.hold = .close c → s.closeMet c = true →
    ∃ t v', exec (.phaseClComplete b w) s = .next t ∧ t.wave b w = some v' ∧ v'.hold = .none ∧
      { v' with hold := v.hold, seen := v.seen, seenLines := v.seenLines, wrote := v.wrote } = v ∧
      (∀ o, o ∈ v'.seen ↔ o ∈ v.seen ∧ s.writesDone 2 [o] = false) ∧
      (∀ l, (l ∈ v'.seenLines ↔ l ∈ v.seenLines ∧ s.lagging l = true) ∧ (l ∈ v'.wrote ↔ l ∈ v.wrote ∧ s.lagging l = true)) ∧
      { t with blocks := s.blocks } = s)

/-- Cache drops, phases and queue fences (Claims.CacheDropResults, Claims.PhaseAndFenceResults). -/
def Obligations.OrderingResults : Prop :=
  Claims.CacheDropResults ∧ Claims.PhaseAndFenceResults

/-! ## Global memory (spec/06, spec/07, spec/08) -/

namespace Sys2Proof.Claims

/-- Every access passes the checks of R188, to memory and not to a device register, with these physical addresses; none of the wave's to
its line is held for a fault. -/
def Translates (s : State) (x : Ctx) (need : Need) (dev : Want → Bool) (ws : List Want) (gs : List Got) : Prop :=
  (∀ w ∈ ws, canonicalInt w.va = true ∧ canonicalInt (w.va + w.n - 1) = true ∧ w.va % (w.align : Int) = 0) ∧
  (∀ w ∈ ws, ∀ r ∈ s.replays, r.blk = x.b → r.wave = x.w → ∀ a ∈ r.accs, a.va / 128 ≠ w.va.toNat / 128) ∧
  gs.length = ws.length ∧
  (∀ (i : Nat) (w : Want) (g : Got), ws[i]? = some w → gs[i]? = some g → s.xlateFor x.blk need (dev w) w.va.toNat = .ok g.acc.pa g.leaf g.stable ∧
    g.acc = w.at_ g.acc.pa ∧ s.region g.acc.pa ≠ .dev)

/-- THE REQUESTS OF AN OPERATION: every access is in a request of the operation, which waits in the core; older requests are as
before, but that their data may fill no cache; the flag of an operation that returns is busy; nothing but the TLB, the port's counts
and the L1 has changed, and in the wave nothing but its flags, IDEM and acquires. -/
def Presented (s u : State) (x : Ctx) (kind : ReqKind) (dst : Dst) (after : List Nat) (acq rel : Nat) (gs : List Got) : Prop :=
  (∀ g ∈ gs, ∃ id r, u.reqs.get id = some r ∧ s.nextId < id ∧ r.op = s.nextId ∧ r.kind = kind ∧ r.dst = dst ∧ r.blk = x.b ∧
    r.wave = x.w ∧ r.after = after ∧ r.acqScope = acq ∧ r.rel = rel ∧ r.sent = false ∧ r.visible = false ∧ g.acc ∈ r.accs) ∧
  (∀ id, id < s.nextId → (u.reqs.get id).map (fun r => bareFill (id, r)) = (s.reqs.get id).map (fun r => bareFill (id, r))) ∧
  { u with blocks := s.blocks, reqs := s.reqs, cores := s.cores, tlb := s.tlb, nextId := s.nextId } = s ∧
  (∀ c, c ≠ x.b → u.block c = s.block c) ∧
  ∃ v', u.wave x.b x.w = some v' ∧ { v' with busy := x.wv.busy, idem := x.wv.idem, acq := x.wv.acq } = x.wv ∧
    (kind.returns = true → v'.busy = if x.c.flag = 0 then x.wv.busy else x.wv.busy ++ [(x.c.flag, s.nextId)])

end Sys2Proof.Claims

/-- R187, R188, R191, R192: `ld` and `st` whose every access passes its checks, the loads hitting no L1 line, present their requests:
loads with the destination and the slot's flag, stores with their data; a store to a page that is not idempotent-safe clears
IDEM. -/
def Obligations.LoadStoreIssue : Prop := ∀ (s : State) (h : Head) (f : MFmt) (x : Ctx) (gs : List Got), s.ctx h = some x →
  x.act ≠ 0 →
  (firstBeyond x.blk.kern (f.uses (wdRegs f.wd) 2 0) = none → x.wv.acq = [] →
    Translates s x Need.load devWidth (x.wants f f.n 0 0) gs → (∀ w ∈ x.wants f f.n 0 0, s.l1Hit x.blk w.va.toNat = none) →
    ∃ u, exec (.ld h f) s = .next (u.sendDue x.b x.w) ∧
      Presented s u x (.load (f.b = 1) f.ht.toNat) f.dst [] 0 0 gs) ∧
  (firstBeyond x.blk.kern (f.uses 0 2 (wdRegs f.wd)) = none →
    Translates s x Need.store devWidth (x.wants f f.n f.n f.b.toNat) gs →
    ∃ u v', exec (.st h f) s = .next (u.sendDue x.b x.w) ∧ Presented s u x .store .none [] 0 0 gs ∧
      u.wave x.b x.w = some v' ∧ v'.idem = (x.wv.idem && gs.all (fun g => leafIds g.leaf)))

/-- R190, R193: the block-atomic accesses present data and header as one request. -/
def Obligations.BlockAccessIssue : Prop := ∀ (s : State) (h : Head) (f : MFmt) (x : Ctx) (gs : List Got), s.ctx h = some x →
  x.act ≠ 0 →
  let size := 8 * 2 ^ (f.off >>> 13).toNat
  let wants := fun (data : List Byte) (hdr : List Byte) (hdrAt : DWord) => ([
    { lane := 0, va := ((x.scalPair f.a.toNat).toNat : Int) + (f.off.setWidth 13).toInt, n := size, align := size, data := data },
    { lane := 1, va := (hdrAt.toNat : Int), n := 2, align := 2, data := hdr }] : List Want)
  (firstBeyond x.blk.kern [.v f.d.toNat 2, .s f.a.toNat 2, .s f.b.toNat 2] = none → x.wv.acq = [] →
    Translates s x Need.load (fun _ => false) (wants [] [] (x.scalPair f.b.toNat)) gs →
    ∃ u, exec (.ldBlk h f) s = .next (u.sendDue x.b x.w) ∧
      Presented s u x .loadBlk (.blk f.d.toNat x.act) [] 0 0 gs) ∧
  (firstBeyond x.blk.kern [.s f.a.toNat 4, .v f.b.toNat 2] = none →
    Translates s x Need.store (fun _ => false)
      (wants ((List.range (size / 4)).flatMap (fun l => bytesOfNat (x.vec f.b.toNat l).toNat 4))
        (bytesOfNat (x.vec (f.b.toNat + 1) ((lanesIn x.act).headD 0)).toNat 2) (x.scalPair (f.a.toNat + 2))) gs →
    ∃ u, exec (.stBlk h f) s = .next (u.sendDue x.b x.w) ∧ Presented s u x .storeBlk .none [] 0 0 gs)

/-- R46, R195, R196, R198: the atomics of Table 7-3 and `red` clear IDEM and present their requests, a release with the writes it
waits for, an acquire with its scope; `atom` returns the old values, `red` none. -/
def Obligations.AtomicIssue : Prop := ∀ (s : State) (h : Head) (f : MFmt) (x : Ctx) (gs : List Got), s.ctx h = some x →
  let after := if f.ht.getLsbD 1 then s.writesOut x.b x.w else []
  let rel := if f.ht.getLsbD 1 then f.scope else 0
  let acq := if f.ht.getLsbD 0 then f.scope else 0
  let one : Instr → Nat → Prop := fun i op =>
    firstBeyond x.blk.kern (f.uses (wdRegs f.wd) 2 (if op = 7 then 2 * wdRegs f.wd else wdRegs f.wd)) = none →
    (x.act = 0 → exec i s = .next (s.updWave x.b x.w (fun v => { v with idem := false }))) ∧
    (x.act ≠ 0 → x.wv.acq = [] →
      Translates s x Need.rmw (fun _ => false) (x.wants f f.n (if op = 7 then 2 * f.n else f.n) f.b.toNat) gs →
      ∃ u v', exec i s = .next (u.sendDue x.b x.w) ∧ Presented s u x (.atomic op f.uns) f.dst after acq rel gs ∧
        u.wave x.b x.w = some v' ∧ v'.idem = false)
  one (.atomAdd h f) 0 ∧ one (.atomMin h f) 1 ∧ one (.atomMax h f) 2 ∧ one (.atomAnd h f) 3 ∧ one (.atomOr h f) 4 ∧
  one (.atomXor h f) 5 ∧ one (.atomXch h f) 6 ∧ one (.atomCas h f) 7 ∧ one (.atomFadd h f) 8 ∧
  (firstBeyond x.blk.kern (f.uses 0 2 (wdRegs f.wd)) = none → x.act ≠ 0 → f.ht.getLsbD 0 = false →
    Translates s x Need.rmw (fun _ => false) (x.wants f f.n (if f.d.toNat = 7 then 2 * f.n else f.n) f.b.toNat) gs →
    ∃ u v', exec (.red h f) s = .next (u.sendDue x.b x.w) ∧ Presented s u x (.red f.d.toNat f.uns) .none after 0 rel gs ∧
      u.wave x.b x.w = some v' ∧ v'.idem = false)

/-- R188: a global access that fails a check takes its trap, NONCANONICAL before MISALIGNED before PERMISSION, with the address
of the lowest failing access and the mask of the failing lanes, or, for a scalar form, of the trapping set. -/
def Obligations.AccessTraps : Prop := ∀ (s : State) (h : Head) (f : MFmt) (x : Ctx), s.ctx h = some x → x.act ≠ 0 →
  firstBeyond x.blk.kern (f.uses 0 2 (wdRegs f.wd)) = none →
  let ws := x.wants f f.n f.n f.b.toNat
  let canon := fun (w : Want) => canonicalInt w.va && canonicalInt (w.va + w.n - 1)
  let trapped := fun (code : Nat) (bad : List Want) => ∃ info, exec (.st h f) s =
      .next (({ s with nextId := s.nextId + 1 } : State).takeTrap x.b x.w info) ∧
    info.code = code ∧ info.sub = 0 ∧ info.set = x.act ∧ info.whole = f.ak ∧
    (∀ w, bad.head? = some w → info.addr = BitVec.ofInt 64 w.va) ∧
    (∀ l, l < 32 → (hasLane info.lanes l = true ↔ ∃ w ∈ bad, w.lane = l))
  ((∃ w ∈ ws, canon w = false) → trapped 0x07 (ws.filter (fun w => !canon w))) ∧
  ((∀ w ∈ ws, canon w = true) → (∃ w ∈ ws, w.va % (w.align : Int) ≠ 0) →
    trapped 0x06 (ws.filter (fun w => w.va % (w.align : Int) ≠ 0)))

namespace Sys2Proof.Claims

/-- The bytes that a request leaves where one of its accesses points. -/
def newBytes (kind : ReqKind) (a : LaneAcc) (old : List Byte) : List Byte :=
  match kind with
  | .atomic op uns => atomicBytes op uns a.n old a.data
  | .red op uns => atomicBytes op uns a.n old a.data
  | _ => a.data

/-- The memory after the accesses of a request, in their order (R189). -/
def memAfter (kind : ReqKind) (m : List Host.Cell) (as : List LaneAcc) : List Host.Cell :=
  as.foldl (fun m a => memWrite m (localOf a.pa) (newBytes kind a (memRead m (localOf a.pa) a.n))) m

end Sys2Proof.Claims

/-- R191, R194: LOAD_RESULT writes the registers of a load of this module's memory from the bytes at its home, or of a value
already taken, and changes no byte of memory: a vector register of each lane, extended by the signedness below 4 bytes. -/
def Obligations.LoadResultWrites : Prop := ∀ (s : State) (id d h : Nat) (sgn : Bool) (r : Req) (v : Wave) (a : LaneAcc),
  s.reqs.get id = some r → r.kind = .load sgn h → r.dst = .vec d → r.accs = [a] → a.lane < 32 → a.n = 4 ∨ a.n = 2 ∨ a.n = 1 →
  r.clobbered = [] → r.acqScope = 0 → r.replayed = false → r.part = 0 → s.wave r.blk r.wave = some v →
  let word : List Byte → Word := fun bs =>
    if sgn && decide (2 ^ (8 * a.n - 1) ≤ natOfBytes bs) then BitVec.ofNat 32 (natOfBytes bs + 2 ^ 32 - 2 ^ (8 * a.n))
    else BitVec.ofNat 32 (natOfBytes bs)
  let wrote := fun (t : State) (bs : List Byte) => t.mem = s.mem ∧ t.reqs.get id = none ∧ vreg t r.blk r.wave d a.lane = some (word bs) ∧
    (∀ q l, l < 32 → (q ≠ d ∨ l ≠ a.lane) → vreg t r.blk r.wave q l = vreg s r.blk r.wave q l) ∧
    (∀ q, sreg t r.blk r.wave q = sreg s r.blk r.wave q) ∧ (∀ c, c ≠ r.blk → t.block c = s.block c)
  (r.visible = true → r.olds = [(a.lane, s.rd (localOf a.pa) a.n)] → s.reqs = [(id, r)] →
    ∃ t, exec (.loadResult id .clean) s = .next t ∧ wrote t (s.rd (localOf a.pa) a.n)) ∧
  (r.visible = false → r.sent = true → s.away r.line = false → s.ownDev r.line = false → r.line = lineOf a.pa → a.pa % 128 + a.n ≤ 128 → r.olds = [] →
    s.olderPending id r ReqKind.isWrite = false → s.reqs = [(id, r)] →
    ∃ t, exec (.loadResult id .clean) s = .next t ∧ wrote t (s.rd (localOf a.pa) a.n))

/-- R195, R198, R232, R349: WRITE_PERFORM, in its core's turn at the home slice, of a store, atomic or reduction to this module's
memory leaves at each access's address its
data, or what the operation makes of the old bytes, in lane order, and every other byte as it was; an atomic keeps the old
values for its return. -/
def Obligations.WritePerformResults : Prop := ∀ (s : State) (id : Nat) (r : Req), s.reqs.get id = some r →
  r.kind.isWrite = true → r.cmd = none → r.part = 0 → s.writeReady id r = true →
  (s.away r.line = true → (∀ a ∈ r.accs, s.away (a.pa / 128) = true) → ∃ t, exec (.writePerform id .clean) s = .next t ∧ t.mem = s.mem) ∧
  (s.away r.line = false → (∀ a ∈ r.accs, s.away (a.pa / 128) = false) → s.myTurn r = true →
    (∀ e ∈ s.queues, ∀ a ∈ r.accs, localOf a.pa + 128 ≤ s.descOf e.1 ∨ s.descOf e.1 + 64 ≤ localOf a.pa) →
    (∀ a ∈ r.accs, a.data.length ≤ 128 ∧ a.n ≤ 128) →
    ∃ t, exec (.writePerform id .clean) s = .next t ∧ t.mem = memAfter r.kind s.mem r.accs ∧
      (∀ b, (∀ a ∈ r.accs, b < localOf a.pa ∨ localOf a.pa + max a.n a.data.length ≤ b) → byteAt t b = byteAt s b))

namespace Sys2Proof.Claims

/-- A core without the bytes that its commands keep of their index arrays (R217). -/
def bareCore (k : Core) : Core := { k with queues := k.queues.map (fun q => q.map (fun c => { c with shadow := [] })) }

end Sys2Proof.Claims

/-- R189, R194, R195: scratchpad accesses within the window and aligned: `sts` stores the lanes' bytes, `lds` takes the bytes for
LOAD_RESULT and sets the flag, `satom` also leaves each operation's result, after the writes that its release waits for and before
the open of its acquire, both once the wave's earlier opens have taken effect (R235); other bytes of the window are as before, and
commands that were issued before keep what they read of the window (R217). -/
def Obligations.ScratchpadResults : Prop := ∀ (s : State) (h : Head) (f : MFmt) (x : Ctx), s.ctx h = some x → x.act ≠ 0 →
  let fits := fun (ws : List Want) => ∀ w ∈ ws, w.va % (w.align : Int) = 0 ∧ 0 ≤ w.va ∧ w.va + w.n ≤ (x.blk.kern.spad : Int)
  let out := fun (ws : List Want) (o : Nat) => ∀ w ∈ ws, o < w.va.toNat ∨ w.va.toNat + w.data.length ≤ o
  let later := fun (u : State) (sgn : Bool) (ws : List Want) (vals : List (Nat × List Byte)) =>
    (x.setFlag u.nextId { u with nextId := u.nextId + 1 }).present
      (x.readyReq (opInfo u.nextId (.load sgn 0) f.dst 0 Need.load) (ws.map Want.spadAcc) vals)
  (firstBeyond x.blk.kern (f.uses 0 1 (wdRegs f.wd)) = none →
    let ws := x.spadWants f f.off.toInt f.n f.n f.b.toNat
    fits ws → ∃ t q, exec (.sts h f) s = .next t ∧ t.block x.b = some q ∧ (∀ c, c ≠ x.b → t.block c = s.block c) ∧
      { t with blocks := s.blocks, cores := s.cores } = s ∧ (∀ c, bareCore (t.core c) = bareCore (s.core c)) ∧
      { q with spad := x.blk.spad, touched := x.blk.touched } = x.blk ∧
      (∀ o, out ws o → q.spad.get o = x.blk.spad.get o) ∧
      (∀ w ∈ ws, (∀ w' ∈ ws, w' ≠ w → w'.va.toNat + w'.data.length ≤ w.va.toNat ∨ w.va.toNat + w.data.length ≤ w'.va.toNat) →
        ∀ i b, w.data[i]? = some b → q.spad.get (w.va.toNat + i) = some b)) ∧
  (firstBeyond x.blk.kern (f.uses (wdRegs f.wd) 1 0) = none →
    let ws := x.spadWants f f.off.toInt f.n 0 0
    fits ws → x.wv.acq = [] → exec (.lds h f) s = .next (later s (f.b = 1) ws (ws.map (fun w => (w.lane, x.blk.spadRead w.va.toNat w.n))))) ∧
  (let op := (f.off >>> 12).toNat
   firstBeyond x.blk.kern (f.uses (wdRegs f.wd) 1 (if op = 7 then 2 * wdRegs f.wd else wdRegs f.wd)) = none →
    let ws := x.spadWants f (f.off.setWidth 12).toInt f.n (if op = 7 then 2 * f.n else f.n) f.b.toNat
    fits ws → x.wv.acq = [] → (f.ht.getLsbD 1 = true → ∀ r ∈ s.replays, ¬ (r.blk = x.b ∧ r.wave = x.w ∧ r.kind.isWrite = true)) →
    let u := later (((s.updWave x.b x.w (fun v => { v with idem := false })).keepIndex x.b (wantBytes ws)).updBlock x.b
      (fun b => (b.spadAtomics op f.uns ws).2)) false ws (x.blk.spadAtomics op f.uns ws).1
    exec (.satom h f) s = .next (if f.ht.getLsbD 0 then u.beginOpen x.b x.w x.blk.core 0 else u))

/-! ## Barriers, progress, cancellation, Sheaf, monitors, locks (spec/15, spec/07) -/

namespace Sys2Proof.Claims

/-- A thread whose wait has ended: it runs on at its slot, or, past the last slot, at its transfer or the following packet (R35,
R67); said of threads that neither exit nor return from a handler in this packet, and hold no replay entry. -/
def resumed (y : Thread) : Thread :=
  if y.slot < 3 then { y with st := .running }
  else { y with st := .running, pc := y.next.getD (y.pc + 32), slot := 0, next := none, recheck := false }

/-- A wave with no cancellation asked for, none of whose threads exits or returns from a handler in its packet or holds a replay
entry while it waits. -/
def Calm (v : Wave) : Prop :=
  v.cancels = [] ∧ v.threads.length ≤ 32 ∧ ∀ t ∈ v.threads, t.exiting = false ∧ t.ret = none ∧ t.owed = false

/-- `t` is `s` but for the threads of wave `w` of block `b`, which `f` gives (lane and old thread), and the lanes still in the
wave's packet: the lanes `out` have left it. -/
def ThreadsTo (s t : State) (b w : Nat) (out : Lanes) (f : Nat → Thread → Thread) : Prop :=
  t = s.updWave b w (fun v => { v with threads := v.threads.mapIdx f,
                                       issue := v.issue.map (fun i => { i with lanes := i.lanes &&& ~~~out }) })

/-- `t` is `s` with `v` in scalar register `d` of the wave, from where the threads `m` have run on. -/
def WaitEnds (s t : State) (b w d : Nat) (v : Word) (m : Lanes) : Prop :=
  ∃ u, sreg u b w d = some v ∧ RegFrame s u b w noV (fun r => r = d) noP ∧ t = u.resumeLanes b w m

end Sys2Proof.Claims

/-- R35, R36: threads whose wait ends run on after their instruction, their wave's registers as before; once every non-exited
thread of a wave waits at an `rcv`, RCV_RELEASE ends those waits. -/
def Sys2Proof.Claims.WaitsEnd : Prop := ∀ (s : State) (b w : Nat) (v : Wave), s.wave b w = some v → Calm v →
  (∃ t ∈ v.threads, t.st ≠ .exited) →
  (∀ m, ∃ v', (s.resumeLanes b w m).wave b w = some v' ∧
    v'.threads = v.threads.mapIdx (fun l y => if hasLane m l then resumed y else y) ∧ v'.v = v.v ∧ v'.s = v.s ∧
    v'.busy = v.busy ∧ v'.issue = v.issue ∧ (s.resumeLanes b w m).mem = s.mem ∧ (s.resumeLanes b w m).reqs = s.reqs ∧
    (∀ c, c ≠ b → (s.resumeLanes b w m).block c = s.block c)) ∧
  ((∀ t ∈ v.threads, t.st = .exited ∨ t.st = .waiting .rcv) →
    ∃ m, (∀ l, l < 32 → (hasLane m l = true ↔ ∃ t, v.threads[l]? = some t ∧ t.st = .waiting .rcv)) ∧
      exec (.rcvRelease b w) s = .next (s.resumeLanes b w m))

/-- Waits and sleeps begin and end (Claims.WaitAndSleepResults, Claims.WaitsEnd). -/
def Obligations.WaitResults : Prop :=
  Claims.WaitAndSleepResults ∧ Claims.WaitsEnd

namespace Sys2Proof.Claims

/-- The active threads have arrived at barrier `n`, which is in phase `r.phase`, and wait there when `waits`: their pending bits
are set, the count of waves whose non-exited threads are all pending and hold no replay entry is up to date, nothing else of the wave
has changed. -/
def Arrives (s t : State) (x : Ctx) (n : BarName) (r : Barrier) (count : Option Nat) (waits : Bool) : Prop :=
  ∃ q v r', t.block x.b = some q ∧ q.wave x.w = some v ∧ q.barrier n = some r' ∧
    v.threads = x.wv.threads.mapIdx (fun l y => if hasLane x.act l then
      { y with arrived := y.arrived ++ [(n, r.phase)], st := if waits then .waiting (.bar n) else y.st,
               slot := if waits then x.c.slot + 1 else y.slot, owed := if waits then y.parked else y.owed } else y) ∧
    { v with threads := x.wv.threads, issue := x.wv.issue } = x.wv ∧
    v.issue = (if waits then x.wv.issue.map (fun i => { i with lanes := i.lanes &&& ~~~x.act }) else x.wv.issue) ∧
    q.waves.length = x.blk.waves.length ∧ (∀ i, i ≠ x.w → q.waves[i]? = x.blk.waves[i]?) ∧
    r'.phase = r.phase ∧ r'.expected = count ∧
    (∀ i, i ∈ r'.arrived ↔ i < q.waves.length ∧ (i ∈ r.arrived ∨ ∃ u, q.waves[i]? = some u ∧
      (∃ y ∈ u.threads, y.st ≠ .exited) ∧ ∀ y ∈ u.threads, y.st = .exited ∨ ((n, r.phase) ∈ y.arrived ∧ y.parked = false))) ∧
    { q with waves := x.blk.waves, bar := x.blk.bar, bars := x.blk.bars } = x.blk ∧
    { t with blocks := s.blocks } = s ∧ ∀ c, c ≠ x.b → t.block c = s.block c

/-- BARRIER_MISUSE of the threads `m` of a wave, which alone take it (R375). -/
def Misuse (s : State) (o : Out) (m : Lanes) : Prop :=
  ∃ i, o = .next { s with note := .split i } ∧ i.code = 0x10 ∧ i.set = m ∧ i.whole = true

end Sys2Proof.Claims

/-- R372 to R375: `bar` and `barn` make the active threads arrive and wait, `bara` only arrive, at a barrier whose phase is not
full; a count of 0, above the block's waves or other than the barrier's, an undeclared barrier, and a thread already pending are
misuse. At `barw` threads whose phase has passed go on and the others wait. A full phase completes: its number rises, its count
returns to 0, and its waiting threads run on; going on is an open at block scope. -/
def Obligations.BarrierResults : Prop := ∀ (s : State),
  (∀ (h : Head) (f : YFmt) (x : Ctx), s.ctx h = some x → x.act ≠ 0 →
    let n : BarName := .counted (f.sysno.toNat % 16)
    let count := (x.scal f.a.toNat).toNat
    let named := firstBeyond x.blk.kern [.s f.a.toNat 1] = none
    let idle := fun (n : BarName) => ∀ l t, hasLane x.act l = true → x.wv.threads[l]? = some t → ∀ p, (n, p) ∉ t.arrived
    (∀ l t, hasLane x.act l = true → x.wv.threads[l]? = some t → t.st = .running ∧ t.owed = false) → x.wv.acq = [] →
    (x.blk.phaseFull .block = false → idle .block →
      ∃ t, exec (.bar h f) s = .next t ∧ Arrives s t x .block x.blk.bar none true) ∧
    (∀ r, x.blk.bars[f.sysno.toNat % 16]? = some r → x.blk.phaseFull n = false →
      let ok := 0 < count ∧ count ≤ x.blk.waves.length ∧ (r.expected = none ∨ r.expected = some count)
      (named → ok → idle n → (∃ t, exec (.barn h f) s = .next t ∧ Arrives s t x n r (some count) true) ∧
        (∃ t, exec (.bara h f) s = .next t ∧ Arrives s t x n r (some count) false)) ∧
      (named → ¬ ok → Misuse s (exec (.barn h f) s) x.act ∧ Misuse s (exec (.bara h f) s) x.act) ∧
      ((∀ l, hasLane x.act l = true → ∃ t, x.wv.threads[l]? = some t ∧ ∃ p, (n, p) ∈ t.arrived) →
        ∃ t, exec (.barw h f) s = .next t ∧
          let past := fun (y : Thread) => ∃ p rest, y.arrived.filter (fun e => e.1 = n) = (n, p) :: rest ∧ p < r.phase
          ∃ v, t.wave x.b x.w = some v ∧ { v with threads := x.wv.threads, issue := x.wv.issue, acq := x.wv.acq } = x.wv ∧
            (∀ l y, x.wv.threads[l]? = some y → ∃ y', v.threads[l]? = some y' ∧
              (hasLane x.act l = false → y' = y) ∧
              (hasLane x.act l = true → past y → y' = { y with arrived := y.arrived.filter (fun e => e.1 ≠ n) }) ∧
              (hasLane x.act l = true → ¬ past y → y' = y.stop (.bar n) x.c.slot)) ∧
            t.mem = s.mem ∧ t.reqs = s.reqs ∧ ∀ c, c ≠ x.b → t.block c = s.block c)) ∧
    (x.blk.bars[f.sysno.toNat % 16]? = none → Misuse s (exec (.barw h f) s) x.act ∧
      (named → Misuse s (exec (.barn h f) s) x.act ∧ Misuse s (exec (.bara h f) s) x.act))) ∧
  (∀ (b : Nat) (p : Block) (n : BarName) (r : Barrier) (target : Nat), s.block b = some p → p.barrier n = some r →
    p.barTarget n r = some target → r.arrived ≠ [] → target ≤ r.arrived.length →
    (∀ v ∈ p.waves, Calm v ∧ v.acq = [] ∧ (∃ y ∈ v.threads, y.st ≠ .exited) ∧ ∀ y ∈ v.threads, (n, r.phase + 1) ∉ y.arrived) →
    ∃ t q, exec (.barrierPhaseComplete b n) s = .next t ∧ t.block b = some q ∧
      q.barrier n = some { phase := r.phase + 1, arrived := [], expected := none } ∧
      (∀ (i : Nat) (v : Wave), p.waves[i]? = some v → ∃ v' : Wave, q.waves[i]? = some v' ∧ v'.v = v.v ∧ v'.s = v.s ∧
        v'.threads = v.threads.map (fun y => if y.st = .waiting (.bar n)
          then resumed { y with arrived := y.arrived.filter (fun e => e.1 ≠ n) } else y)) ∧
      t.mem = s.mem ∧ t.reqs = s.reqs ∧ ∀ c, c ≠ b → t.block c = s.block c)

/-- R376 to R378: `prog.add` raises PROG, `idem.end` clears IDEM whatever the guard, and the cancels clear IDEM and take effect
once the threads that issued the packet have issued its last chain group: cancelling the block, the grid, the graph or the job. -/
def Obligations.ProgressAndCancelResults : Prop := ∀ (s : State) (h : Head) (x : Ctx), s.ctx h = some x →
  (∀ f : AI, exec (.progAdd h f) s = .next (if x.act = 0 then s else
    s.updBlock x.b (fun b => { b with prog := min (b.prog + f.imm.toNat) 0xFFFFFFFF }))) ∧
  (∀ f : YFmt,
    let cleared := s.updWave x.b x.w (fun v => { v with idem := false })
    let asked := fun (level : Nat) => s.updWave x.b x.w (fun v => { v with idem := false, cancels := v.cancels ++ [(level, x.c.lanes)] })
    exec (.idemEnd h f) s = .next cleared ∧
    exec (.cancelBlk h f) s = .next (if x.act = 0 then cleared else asked 0) ∧
    exec (.cancelGrid h f) s = .next (if x.act = 0 then cleared else asked 1) ∧
    exec (.cancelGraph h f) s = .next (if x.act = 0 then cleared else asked 2) ∧
    exec (.cancelJob h f) s = .next (if x.act = 0 then cleared else asked 3)) ∧
  (∀ b w p v g, s.block b = some p → p.wave w = some v → s.grids.get p.grid = some g →
    let u := s.updWave b w (fun v => { v with cancels := v.cancels.filter (fun e => e.2 ≠ 0) })
    (v.cancels = [(0, 0)] → s.runCancels b w = u.cancelBlock b) ∧ (v.cancels = [(1, 0)] → s.runCancels b w = u.cancelGrid p.grid) ∧
    (v.cancels = [(2, 0)] → s.runCancels b w = u.cancelGraph g.job g.graph) ∧
    (v.cancels = [(3, 0)] → s.runCancels b w = u.cancelJob g.job) ∧
    (p.cancelled = false → p.aborted = none → ∃ q, (s.cancelBlock b).block b = some q ∧ q.cancelled = true ∧ q.grid = p.grid))

namespace Sys2Proof.Claims

/-- A Sheaf instruction's state: the wave as `wv` makes it, the group as `g` makes it, all else but `puts` and `nextId` kept. -/
def SheafStep (s t : State) (x : Ctx) (n : Nat) (wv : Wave → Wave) (g : Sheaf) : Prop :=
  (∃ q, t.block x.b = some q ∧ { q with waves := x.blk.waves } = x.blk ∧ q.waves.length = x.blk.waves.length ∧
    q.wave x.w = some (wv x.wv) ∧ ∀ i, i ≠ x.w → q.waves[i]? = x.blk.waves[i]?) ∧
  (∀ c, c ≠ x.b → t.block c = s.block c) ∧ t.sheaf n = g ∧ (∀ m, m ≠ n → t.sheaf m = s.sheaf m) ∧
  { t with blocks := s.blocks, sheafs := s.sheafs, puts := s.puts, nextId := s.nextId } = s

/-- The status of item `i` of a put that an open group accepts (R388): 2 for a list it has not, 1 for a full one, else 0. -/
def putStatus (g : Sheaf) (items : List (Nat × Nat × DWord)) (i : Nat) (k : Nat) : Nat :=
  if g.nlists ≤ k then 2
  else if g.cap ≤ (g.list k).length + ((items.take i).filter (fun e => e.2.1 = k)).length then 1 else 0

end Sys2Proof.Claims

/-- R386 to R390: on a group of the block's tenancy, `shf.open` counts the wave as a producer once and arms the group,
`shf.done` ends its taking and, with P, its producing; `shf.put` sends its items and the wave waits for their statuses, which
SHF_PUT_ARRIVE writes; `shf.take` and `shf.wait` make the active threads wait, until an item, QUIET or a missing list ends a take,
and QUIET a wait; a group without producers, takers, items and puts in flight becomes QUIET. -/
def Obligations.SheafResults : Prop := ∀ (s : State),
  (∀ (h : Head) (f : EFmt) (x : Ctx), s.ctx h = some x → x.act ≠ 0 →
    let n := f.n % 64
    let g := s.sheaf n
    let bit := 1#64 <<< n
    g.state ≠ 3 → (fld g.cfg 8 4).toNat = x.blk.ten →
    (∃ t, exec (.shfOpen h f) s = .next t ∧ t.puts = s.puts ∧ SheafStep s t x n
      (fun v => { v with idem := false, producer := v.producer ||| bit })
      { g with producers := g.producers + (!x.wv.producer.getLsbD n).toNat, state := if g.state = 0 ∨ g.state = 2 then 1 else g.state }) ∧
    (∃ t, exec (.shfDone h f) s = .next t ∧ t.puts = s.puts ∧
      let p := f.eng.getLsbD 6
      SheafStep s t x n
        (fun v => { v with idem := false, taker := v.taker &&& ~~~bit, producer := if p then v.producer &&& ~~~bit else v.producer })
        { g with takers := g.takers - (x.wv.taker.getLsbD n).toNat, producers := g.producers - (p && x.wv.producer.getLsbD n).toNat,
                 regerr := g.regerr || (p && !x.wv.producer.getLsbD n) }) ∧
    (firstBeyond x.blk.kern [.v f.x.toNat 1, .v f.a.toNat 2, .v f.b.toNat 1] = none →
      let items := (lanesIn x.act).map (fun l => (l, (x.vec f.b.toNat l).toNat, x.vecPair f.a.toNat l))
      ∃ t, exec (.shfPut h f) s = .next t ∧ t.nextId = s.nextId + 1 ∧
        t.puts = s.puts ++ [⟨s.nextId, n, x.blk.ten, x.b, x.w, f.x.toNat, items⟩] ∧
        SheafStep s t x n (fun v => { v with idem := false }) g ∧ t.stays x.b x.w = true) ∧
    (firstBeyond x.blk.kern [.v f.x.toNat 2, .s f.a.toNat 1, .s f.c.toNat 1] = none →
      ∃ t, exec (.shfTake h f) s = .next t ∧ t.puts = s.puts ∧ SheafStep s t x n
        (fun v => { v with
          idem := false, taker := v.taker &&& ~~~bit,
          threads := v.threads.mapIdx (fun l y => if hasLane x.act l then y.stop .take x.c.slot else y),
          issue := v.issue.map (fun i => { i with lanes := i.lanes &&& ~~~x.act }),
          take := v.take ++ [⟨n, (x.scal f.a.toNat).toNat, f.x.toNat, f.c.toNat, x.act⟩] })
        { g with takers := g.takers - (x.wv.taker.getLsbD n).toNat }) ∧
    (g.state = 2 → exec (.shfWait h f) s = .next s) ∧
    (g.state ≠ 2 → ∃ t, exec (.shfWait h f) s = .next t ∧ ThreadsTo s t x.b x.w x.act (fun l y =>
      if hasLane x.act l then y.stop (.shfWait n) x.c.slot else y))) ∧
  (∀ (id : Nat) (p : Put) (v : Wave), s.puts.find? (fun q => q.id = id) = some p → s.wave p.blk p.wave = some v →
    (p.items.map (fun e => e.1)).Nodup → (∀ e ∈ p.items, e.1 < 32) →
    let g := s.sheaf p.group
    let open_ := g.state ≠ 3 ∧ g.state ≠ 2 ∧ (fld g.cfg 8 4).toNat = p.ten
    ∃ t v', exec (.shfPutArrive id) s = .next t ∧ t.wave p.blk p.wave = some v' ∧
      v'.hold = v.hold ∧ t.puts = s.puts.filter (fun q => q.id ≠ id) ∧
      (∀ i e, p.items[i]? = some e → v'.v.vec p.dst e.1 =
        (if open_ then BitVec.ofNat 32 (putStatus g p.items i e.2.1) else 3)) ∧
      (∀ m, m ≠ p.group → t.sheaf m = s.sheaf m) ∧
      (¬ open_ → t.sheaf p.group = g) ∧
      (open_ → (∀ k, k < g.nlists → (t.sheaf p.group).list k = g.list k ++
          ((p.items.filter (fun e => e.2.1 = k)).map (fun e => e.2.2)).take (g.cap - (g.list k).length)) ∧
        { t.sheaf p.group with lists := g.lists, fullerr := g.fullerr, used := g.used } = g)) ∧
  (∀ (b w : Nat) (v : Wave) (k : Taking) (rest : List Taking), s.wave b w = some v → v.take = k :: rest →
    let g := s.sheaf k.group
    let items := (g.list k.list).take (min (g.list k.list).length (lanesIn k.lanes).length)
    let u := s.updWave b w (fun v => ({ v with take := rest }).keepLate k.lanes)
    (g.nlists ≤ k.list → ∃ t, exec (.shfTakeReturn b w) s = .next t ∧ WaitEnds u t b w k.dstS 0xFFFFFFFF k.lanes) ∧
    (k.list < g.nlists → (g.list k.list ≠ [] ∨ g.state = 2) →
      ∃ (y : State) (v' : Wave), exec (.shfTakeReturn b w) s = .next (y.resumeLanes b w k.lanes) ∧ y.wave b w = some v' ∧
        v'.s.scal k.dstS = BitVec.ofNat 32 items.length ∧
        (∀ (i l : Nat) (e : DWord), (lanesIn k.lanes)[i]? = some l → items[i]? = some e →
          v'.v.vec k.dstV l = loOf e ∧ v'.v.vec (k.dstV + 1) l = hiOf e) ∧
        v'.taker = (if items = [] then v.taker else v.taker ||| 1#64 <<< k.group) ∧ v'.take = rest ∧ v'.threads = v.threads ∧
        (y.sheaf k.group).list k.list = (g.list k.list).drop items.length ∧
        (y.sheaf k.group).takers = g.takers + (if items = [] then 0 else 1) ∧ y.mem = s.mem)) ∧
  (∀ n : Nat, (s.sheaf n).state = 1 → (s.sheaf n).producers = 0 → (s.sheaf n).takers = 0 →
    (∀ e ∈ (s.sheaf n).lists, e.2 = []) → (∀ p ∈ s.puts, p.group ≠ n) →
    ∃ t, exec (.stillwaterQuiet n) s = .next t ∧
      ((∀ e ∈ s.blocks, ∀ v ∈ e.2.waves, (∀ k ∈ v.take, k.group ≠ n) ∧ ∀ y ∈ v.threads, y.st ≠ .waiting (.shfWait n)) →
        t = s.updSheaf n (fun g => { g with state := 2 })))

/-- R382 to R384: `mon.arm` presents a request, and the wave issues nothing until it has left the core: then, with a monitor left at
the slice, the wave's monitor is registered on the line of its address, and the core's copy goes; `mon.wait` writes the reason of a
monitor that has ended or was never armed, and waits for any other; a write by another party ends it with 1, a timeout with 3, and it
may end with 0. -/
def Obligations.MonitorResults : Prop := ∀ (s : State),
  (∀ (h : Head) (f : MFmt) (x : Ctx) (g : Got), Issues s h [.s f.a.toNat 2] x → x.act ≠ 0 → f.ak = true →
    Translates s x Need.load (fun _ => false) (x.wants f 1 0 0) [g] → s.readsOut x.b x.w = false →
    ∃ t v' id r, exec (.monArm h f) s = .next t ∧ t.wave x.b x.w = some v' ∧ v' = { x.wv with hold := .probe s.nextId } ∧
      t.reqs.get id = some r ∧ s.nextId < id ∧ r.kind = .arm f.scope ∧ r.op = s.nextId ∧ r.accs = [g.acc] ∧ r.line = g.acc.pa / 128 ∧
      r.core = x.blk.core ∧ r.blk = x.b ∧ r.wave = x.w ∧ r.sent = false ∧ t.mem = s.mem) ∧
  (∀ (id scope : Nat) (r : Req) (a : LaneAcc) (v : Wave), s.reqs.get id = some r → r.kind = .arm scope → r.sent = true → r.accs = [a] →
    s.wave r.blk r.wave = some v → v.hold = .probe r.op →
    (∀ e ∈ s.reqs, e.1 ≠ id → ¬ (e.2.op = r.op ∧ e.2.blk = r.blk ∧ e.2.wave = r.wave)) →
    ((s.blocks.flatMap (fun e => e.2.waves)).filter (fun v => v.mon ≠ none)).length < Config.monitorsPerSlice →
    ∃ v', (s.armServe id r).wave r.blk r.wave = some v' ∧ v'.monLost = false ∧ v'.hold = .none ∧
      (∃ m, v'.mon = some m ∧ m.line = a.pa / 128 ∧ m.scope = scope ∧ m.hit = false ∧ m.ended = none) ∧
      (∀ l ∈ ((s.armServe id r).core r.core).l1, l.pline ≠ a.pa / 128) ∧ v'.threads = v.threads ∧ v'.v = v.v ∧ v'.s = v.s ∧
      (s.armServe id r).reqs.get id = none ∧ (s.armServe id r).mem = s.mem) ∧
  (∀ (h : Head) (f : MFmt) (x : Ctx), Issues s h [.s f.d.toNat 1, .s f.b.toNat 1] x → x.act ≠ 0 →
    let at_once := fun (n : Nat) => ∃ u, sreg u x.b x.w f.d.toNat = some (BitVec.ofNat 32 n) ∧
      RegFrame s u x.b x.w noV (fun r => r = f.d.toNat) noP ∧
      exec (.monWait h f) s = .next (u.updWave x.b x.w (fun v => { v with mon := none }))
    (x.wv.mon = none → at_once (if x.wv.monLost then 4 else 5)) ∧
    (∀ m, x.wv.mon = some m → m.hit = true → m.ended = none → at_once 1) ∧
    (∀ m n, x.wv.mon = some m → m.ended = some n → at_once n) ∧
    (∀ m, x.wv.mon = some m → m.hit = false → m.ended = none →
      let wait : MonWaiting :=
        { dst := f.d.toNat, until_ := if x.scal f.b.toNat = 0 then none else some (s.clock + (x.scal f.b.toNat).toNat), lanes := x.act }
      exec (.monWait h f) s = .next (s.updWave x.b x.w (fun v => { v with
        threads := v.threads.mapIdx (fun l y => if hasLane x.act l then y.stop .mon x.c.slot else y),
        issue := v.issue.map (fun i => { i with lanes := i.lanes &&& ~~~x.act }), monWait := v.monWait ++ [wait] })))) ∧
  (∀ (b w : Nat) (v : Wave), s.wave b w = some v →
    (∀ m, v.mon = some m → m.ended = none → m.hit = true → v.monWait = [] → exec (.monitorTrigger b w) s =
      .next (s.updWave b w (fun v => { v with mon := v.mon.map (fun m => { m with hit := true, ended := some 1 }) }))) ∧
    (∀ k, v.monWait = [k] →
      let u := s.updWave b w (fun v => ({ v with mon := none, monWait := [] }).keepLate k.lanes)
      (∀ m, v.mon = some m → m.ended = none → m.hit = true →
        ∃ t, exec (.monitorTrigger b w) s = .next t ∧ WaitEnds u t b w k.dst 1 k.lanes) ∧
      (∀ n, k.until_ = some n → n ≤ s.clock →
        ∃ t, exec (.monitorTimeout b w) s = .next t ∧ WaitEnds u t b w k.dst 3 k.lanes) ∧
      (∃ t, exec (.monitorSpuriousEnd b w) s = .next t ∧ WaitEnds u t b w k.dst 0 k.lanes)))

/-- R203 to R206, R243: `prefetch` asks for each line it names whose page allows it, and changes no value; `mprobe` presents a probe
for each line and the wave issues nothing further until LOAD_RESULT has written the storage of their lines (Table 7-4); `icl.lock`
counts the lines of its range that the block holds locked, `icl.free` releases them, `icl.count` counts them all. -/
def Obligations.ProbeAndLockResults : Prop := ∀ (s : State),
  (∀ (id : Nat) (r : Req) (a : LaneAcc) (v : Wave), s.reqs.get id = some r → r.kind = .probe → r.accs = [a] → r.replayed = false →
    s.probeReady id r = true → moduleOf a.pa = s.dev.moduleNum → a.lane < 32 → s.wave r.blk r.wave = some v →
    let owned := ∀ o, s.ownerOf a.pa = some o → o.2 = r.ten
    let at_ := localOf a.pa
    let waits := 1024 * (s.moving at_).toNat + 512 * (s.heldMoving (a.pa / 128)).toNat
    ∃ t y, exec (.loadResult id .clean) s = .next t ∧ t.mem = s.mem ∧ t.reqs.get id = none ∧
      ((∃ d, r.dst = .vec d ∧ vreg t r.blk r.wave d a.lane = some y) ∨ (∃ d, r.dst = .scal d ∧ sreg t r.blk r.wave d = some y) ∨
        (∀ d, r.dst ≠ .vec d ∧ r.dst ≠ .scal d)) ∧
      (¬ owned → y = 0x80000000) ∧
      (owned → s.region a.pa ≠ .hbm → y = BitVec.ofNat 32 (waits + 256 + 4 * 16 + 7)) ∧
      (owned → s.region a.pa = .hbm → s.lag.get (at_ / 128) = none →
        let c := lineCode (s.rd (128 * (at_ / 128)) 128)
        y = BitVec.ofNat 32 (waits + 16 * codeSectors c + c)) ∧
      ((∀ e ∈ s.reqs, e.1 ≠ id → ¬ (e.2.op = r.op ∧ e.2.blk = r.blk ∧ e.2.wave = r.wave)) → v.hold = .probe r.op →
        ∃ v', t.wave r.blk r.wave = some v' ∧ v'.hold = .none)) ∧
  ∀ (h : Head) (f : MFmt) (x : Ctx), s.ctx h = some x → x.act ≠ 0 →
  (firstBeyond x.blk.kern (f.uses 0 2 0) = none →
    exec (.prefetch h f) s = .next ((x.linesNamed f).foldl (fun t v => t.prefetchLine x (decide (f.b = 0)) f.ht.toNat v) s)) ∧
  (∀ (u : State) l1 hint a pa e st, u.xlateFor x.blk Need.load false (128 * a) = .ok pa e st →
    ∃ id r, (u.prefetchLine x l1 hint a).reqs.get id = some r ∧ r.kind = .prefetch l1 ∧ r.line = pa / 128 ∧ r.blk = x.b ∧
      r.wave = x.w ∧ r.sent = false ∧
      { u.prefetchLine x l1 hint a with reqs := u.reqs, cores := u.cores, tlb := u.tlb, nextId := u.nextId } = u) ∧
  (∀ gs : List Got, firstBeyond x.blk.kern (f.uses 1 2 0) = none → x.wv.acq = [] →
    Translates s x Need.load (fun _ => false) (x.wants f 1 0 0) gs →
    ∃ t v', exec (.mprobe h f) s = .next t ∧ t.wave x.b x.w = some v' ∧ v' = { x.wv with hold := .probe s.nextId } ∧
      (∀ g ∈ gs, ∃ id r, t.reqs.get id = some r ∧ s.nextId < id ∧ r.kind = .probe ∧ r.op = s.nextId ∧ g.acc ∈ r.accs ∧ r.dst = f.dst ∧
        (∀ a ∈ r.accs, a.va / 128 = g.acc.va / 128) ∧
        r.blk = x.b ∧ r.wave = x.w ∧ r.ten = x.blk.ten ∧ r.sent = false ∧ r.replayed = false) ∧
      { t with blocks := s.blocks, reqs := s.reqs, cores := s.cores, tlb := s.tlb, nextId := s.nextId } = s) ∧
  (firstBeyond x.blk.kern [.s f.d.toNat 1, .s f.a.toNat 2, .s f.b.toNat 1] = none →
    (∀ ts, (∀ e ∈ ts, e ∈ s.tlb) → ∀ v, canonicalInt (128 * v) = true →
      ({ s with tlb := ts } : State).xlateFor x.blk Need.fetch false (128 * v.toNat) ≠ .fatal) →
    ∃ t ls, exec (.iclLock h f) s = .next t ∧
      { t with cores := s.cores, blocks := s.blocks, reqs := s.reqs, tlb := s.tlb, nextId := s.nextId } = s ∧
      (∃ sh, t.core x.blk.core = { s.core x.blk.core with locked := ls, shares := sh }) ∧ t.mem = s.mem ∧
      sreg t x.b x.w f.d.toNat = some (BitVec.ofNat 32 (128 * (ls.filter (fun l => l.holders.contains x.b && (l.asn = x.blk.asn &&
        inRange (x.iclRange f) l))).length)) ∧
      ls.length ≤ max 256 (s.core x.blk.core).locked.length ∧
      (∀ l ∈ (s.core x.blk.core).locked, ∃ m ∈ ls, m.asn = l.asn ∧ m.vline = l.vline ∧ ∀ b ∈ l.holders, b ∈ m.holders)) ∧
  (firstBeyond x.blk.kern [.s f.a.toNat 2, .s f.b.toNat 1] = none →
    ∃ t ls, exec (.iclFree h f) s = .next t ∧ t = s.updCore x.blk.core (fun c => { c with locked := ls }) ∧
      ∀ b l, (∃ m ∈ ls, m.vline = l ∧ m.asn = x.blk.asn ∧ b ∈ m.holders) ↔
        (∃ m ∈ (s.core x.blk.core).locked, m.vline = l ∧ m.asn = x.blk.asn ∧ b ∈ m.holders) ∧
        ¬ (b = x.b ∧ (x.iclRange f).1 ≤ (l : Int) ∧ (l : Int) < (x.iclRange f).2)) ∧
  (firstBeyond x.blk.kern [.s f.d.toNat 1] = none →
    ∃ t, exec (.iclCount h f) s = .next t ∧
      sreg t x.b x.w f.d.toNat = some (BitVec.ofNat 32 (128 * ((s.core x.blk.core).locked.filter (fun l =>
        l.holders.contains x.b)).length)) ∧ RegFrame s t x.b x.w noV (fun r => r = f.d.toNat) noP)

/-! ## Tiles, copies, the core port (spec/07, spec/20) -/

namespace Sys2Proof.Claims

/-- The state with one more operation, number `s.nextId`, on the flag the slot selects. -/
def begun (s : State) (x : Ctx) : State := ({ s with nextId := s.nextId + 1 } : State).setFlag x.b x.w x.c.flag s.nextId

/-- Every row of a region of the window lies below the declared count. -/
def rowsFit (spad base pitch len rows : Nat) : Prop := ∀ i, i < rows → base + pitch * i + len ≤ spad

/-- The new descriptor of `tile.def` (Table 7-6). -/
def newTile (x : Ctx) (f : EFmt) (t : Tile) : Tile :=
  { base := (x.scal f.a.toNat).toNat, hbase := (x.scal f.b.toNat).toNat, pitch := (x.scal f.c.toNat).toNat % 2 ^ 12,
    len := (x.scal f.c.toNat).toNat / 2 ^ 12 % 2 ^ 12, rows := (x.scal f.c.toNat).toNat / 2 ^ 24 + 1, width := f.bits 16 14,
    blk := f.bits 13 12, hslots := f.bits 11 6, st := t.st, readers := t.readers, fault := t.fault }

/-- The addresses of a copy of `t` are aligned and canonical, its index array aligned and in the window (R215, R217). -/
def copyFits (c : CopyCmd) (t : Tile) (spad : Nat) (indexed : Bool) : Prop :=
  c.d % 8 = 0 ∧ c.ds % 8 = 0 ∧ (t.hslots ≠ 0 → c.h % 2 = 0 ∧ c.hs % 2 = 0) ∧
  (indexed = true → c.idx % 4 = 0 ∧ c.idx + 4 * t.rows ≤ spad) ∧
  (indexed = false →
    let ends := fun (a st : Int) (n : Nat) => canonicalInt (min a (a + ((t.rows : Int) - 1) * st)) = true ∧
      canonicalInt (max a (a + ((t.rows : Int) - 1) * st) + n - 1) = true
    ends c.d c.ds (8 * t.len) ∧ (t.hslots ≠ 0 → ends c.h c.hs (8 * t.hslots)))

/-- The command that a copy of tile `n` queues: its operands as read at issue, nothing of it done, the fences before it. -/
def copyCmdOf (s : State) (x : Ctx) (f : EFmt) (t : Tile) (c : CopyCmd) : Prop :=
  let stride := fun (v : DWord) (n : Nat) => if v = 0 then (n : Int) else v.toInt
  c.id = s.nextId ∧ c.blk = x.b ∧ c.wave = x.w ∧ c.tile = f.x.toNat ∧ c.d = ((x.scalPair f.a.toNat).toNat : Int) ∧
  c.h = ((x.scalPair f.b.toNat).toNat : Int) ∧ c.ds = stride x.blk.dstride (8 * t.len) ∧ c.hs = stride x.blk.hstride (8 * t.hslots) ∧
  c.idx = (x.scal f.c.toNat).toNat ∧ c.pol = f.bits 14 12 ∧ c.begun = false ∧ c.row = 0 ∧ c.moved = 0 ∧ c.fault = none ∧
  c.failed = none ∧ (∀ i, i ∈ c.after ↔ ∃ e ∈ x.blk.fences, e.mask.getLsbD (f.bits 16 15) = true ∧ i ∈ e.cmds) ∧
  (∀ i, i ∈ c.afterOps ↔ ∃ e ∈ x.blk.fences, e.mask.getLsbD (f.bits 16 15) = true ∧ i ∈ e.ops) ∧
  (∀ l, l ∈ c.afterLines ↔ ∃ e ∈ x.blk.fences, e.mask.getLsbD (f.bits 16 15) = true ∧ l ∈ e.lines)

end Sys2Proof.Claims

/-- R207 to R211: `tile.def` gives a tile its descriptor, EMPTY unless it was READY; `tile.rel` and `tile.wait` set the slot's flag
until the tile's state is reached, `tile.q` reads the state; a tile goes to EMPTY when it is to and no reader is left. -/
def Obligations.TileResults : Prop := ∀ (s : State),
  (∀ (h : Head) (f : EFmt) (x : Ctx) (t : Tile), s.ctx h = some x → x.act ≠ 0 → x.blk.tiles[f.x.toNat]? = some t → t.fault = none →
    let n := f.x.toNat
    let d := newTile x f t
    let waits := fun (goal : TileGoal) =>
      ((begun s x).updBlock x.b (fun b => { b with tileOps := b.tileOps ++ [⟨s.nextId, x.w, n, goal⟩] })).settleTiles x.b
    (firstBeyond x.blk.kern [.s f.a.toNat 1, .s f.b.toNat 1, .s f.c.toNat 1] = none →
      (t.st = .undefined ∨ t.st = .empty ∨ (t.st = .ready ∧ t.readers = 0)) →
      d.base % 8 = 0 → (d.hslots ≠ 0 → d.hbase % 8 = 0) → 1 ≤ d.len → d.len ≤ d.pitch → (2 ≤ d.width → d.hslots = 0) →
      rowsFit x.blk.kern.spad d.base (8 * d.pitch) (8 * d.len) d.rows →
      (d.hslots ≠ 0 → rowsFit x.blk.kern.spad d.hbase (8 * d.hslots) (8 * d.hslots) d.rows) →
      exec (.tileDef h f) s = .next ((s.updTile x.b n (fun _ =>
        { d with st := if t.st = .ready then .ready else .empty })).settleTiles x.b)) ∧
    (t.st = .ready → exec (.tileRel h f) s = .next (waits .release)) ∧
    (t.st ≠ .ready → t.st ≠ .undefined → exec (.tileRel h f) s = .next { s with note := .held }) ∧
    (t.st ≠ .undefined → exec (.tileWait h f) s = .next (waits (if f.n % 2 = 0 then .ready else .empty))) ∧
    (firstBeyond x.blk.kern [.s f.a.toNat 1] = none →
      let code : Nat := match t.st with | .empty => 0 | .filling => 1 | .ready => 2 | .draining => 3 | .undefined => 0xFF
      ∃ u r, exec (.tileQ h f) s = .next u ∧ u = { (begun s x) with reqs := s.reqs.put (s.nextId + 1) r, nextId := s.nextId + 2 } ∧
        r.op = s.nextId ∧ r.blk = x.b ∧ r.wave = x.w ∧ r.dst = .scal f.a.toNat ∧ r.olds = [(0, bytesOfNat code 4)] ∧ r.visible = true)) ∧
  (∀ (b : Nat) (p : Block), s.block b = some p →
    let ends := fun (i : Nat) (t : Tile) => t.readers = 0 ∧ ∃ o ∈ p.tileOps, o.tile = i ∧
      ((o.goal = .release ∧ t.st = .ready) ∨ (o.goal = .drained ∧ t.st = .draining))
    ∃ q, (s.settleTiles b).block b = some q ∧ q.tiles.length = p.tiles.length ∧
      (∀ i t, p.tiles[i]? = some t → ∃ t', q.tiles[i]? = some t' ∧ { t' with st := t.st } = t ∧
        (ends i t → t'.st = .empty) ∧ (¬ ends i t → t'.st = t.st)) ∧
      (∀ o, o ∈ q.tileOps ↔ o ∈ p.tileOps ∧ ∃ t', q.tiles[o.tile]? = some t' ∧
        t'.st ≠ (if o.goal = .ready then .ready else .empty)) ∧
      (∀ (i : Nat) (v : Wave), p.waves[i]? = some v → ∃ v' : Wave, q.waves[i]? = some v' ∧ { v' with busy := v.busy } = v ∧
        ∀ e, e ∈ v'.busy ↔ e ∈ v.busy ∧ ∀ o ∈ p.tileOps, o.id = e.2 → o ∈ q.tileOps) ∧
      { q with tiles := p.tiles, tileOps := p.tileOps, waves := p.waves } = p ∧
      { s.settleTiles b with blocks := s.blocks } = s ∧ ∀ c, c ≠ b → (s.settleTiles b).block c = s.block c)

/-- R213 to R220: a copy command on a queue with room, its tile in the state it needs and its operands aligned and canonical, joins
the queue, makes its tile FILLING or DRAINING and sets the slot's flag; `cp.hint` joins too and `cp.set` sets a stride. At the head
of its queue a command begins, reading an index array whole, and presents its rows in order; when its rows have moved it leaves the
queue, its tile READY or on its way to EMPTY, or with the fault record of the row that failed; no line it wrote is held then (R218). -/
def Sys2Proof.Claims.CopyResults : Prop := ∀ (s : State),
  (∀ (h : Head) (f : EFmt) (x : Ctx), s.ctx h = some x → x.act ≠ 0 →
    let q := f.bits 16 15
    let core := x.blk.core
    (∀ t : Tile, x.blk.tiles[f.x.toNat]? = some t → t.fault = none → (s.queueOf core q).length < 64 →
      let issues := fun (i : Instr) (k : CopyKind) (indexed drain : Bool) => ∃ (c : CopyCmd),
        copyCmdOf s x f t c ∧ c.kind = k ∧
        (copyFits c t x.blk.kern.spad indexed → ∃ u, (u = s ∨ (k = .st ∧ u = s.updWave x.b x.w (fun v => { v with idem := false }))) ∧
          exec i s = .next (((begun u x).updQueueOf core q (fun l => l ++ [{ c with undecided := drain && (s.drainPending x c t) }])).updTile
            x.b f.x.toNat (fun y => { y with st := if drain then .draining else .filling })))
      (t.st = .empty → firstBeyond x.blk.kern [.s f.a.toNat 2, .s f.b.toNat 2] = none → issues (.cpLd h f) .ld false false) ∧
      (t.st = .ready → firstBeyond x.blk.kern [.s f.a.toNat 2, .s f.b.toNat 2] = none → issues (.cpSt h f) .st false true) ∧
      (t.st = .empty → firstBeyond x.blk.kern [.s f.a.toNat 2, .s f.b.toNat 2, .s f.c.toNat 1] = none →
        issues (.cpGth h f) .gth true false) ∧
      (t.st = .ready → firstBeyond x.blk.kern [.s f.a.toNat 2, .s f.b.toNat 2, .s f.c.toNat 1] = none →
        issues (.cpSct h f) .sct true true)) ∧
    (firstBeyond x.blk.kern [.s f.a.toNat 2, .s f.b.toNat 1] = none → (s.queueOf core q).length < 64 →
      ∃ c, c.id = s.nextId ∧ c.blk = x.b ∧ c.begun = false ∧
        c.kind = .hint (x.scalPair f.a.toNat).toNat (x.scal f.b.toNat).toNat ∧
        exec (.cpHint h f) s = .next ((begun s x).updQueueOf core q (fun l => l ++ [c]))) ∧
    (firstBeyond x.blk.kern [.s f.a.toNat 2] = none →
      (f.n % 2 = 0 → exec (.cpSet h f) s = .next (s.updBlock x.b (fun b => { b with dstride := x.scalPair f.a.toNat }))) ∧
      (f.n % 2 = 1 → exec (.cpSet h f) s = .next (s.updBlock x.b (fun b => { b with hstride := x.scalPair f.a.toNat }))))) ∧
  (∀ (core q : Nat) (c : CopyCmd) (rest : List CopyCmd) (p : Block), s.queueOf core q = c :: rest → s.block c.blk = some p →
    s.cmd core c.id = some c →
    (c.begun = false → p.mode ≠ .saving → s.fencesMet core c = true → c.isColl = false →
      (∃ u, exec (.copyBegin core q) s = .next u) ∧
      (∀ (t : Tile) gs, p.tiles[c.tile]? = some t → t.rows = 1 → c.row = 0 → (c.kind = .ld ∨ c.kind = .st) →
        s.rowXl p c.need (c.rowPieces t 0) [] = .ok gs →
        ∃ u c', exec (.copyBegin core q) s = .next u ∧ u.cmd core c.id = some c' ∧ c'.begun = true ∧ c'.row = 1 ∧ c'.moved = c.moved ∧
          (∀ g ∈ gs, ∃ id r, u.reqs.get id = some r ∧ s.nextId ≤ id ∧ r.cmd = some c.id ∧ r.dst = .window 0 ∧ r.sent = false ∧
            r.kind = (if c.kind = .st then .copyWrite else .copyRead) ∧ ∃ a ∈ r.accs, a.lane = g.1.off ∧ a.pa = g.2.1 ∧ a.n = g.1.n) ∧
          u.mem = s.mem)) ∧
    (c.begun = true → c.fault = none → c.moved = c.row →
      (∀ a n, c.kind = .hint a n → (∀ e ∈ s.reqs, e.2.cmd ≠ some c.id) →
        exec (.copyComplete core q .clean) s = .next ((s.dropCmd core c.id).clearFlagAll c.blk c.id)) ∧
      (∀ t : Tile, p.tiles[c.tile]? = some t → (c.kind = .ld ∨ c.kind = .gth ∨ c.kind = .st ∨ c.kind = .sct) →
        (∀ l ∈ c.lines, s.lineHeld l = false) →
        let drains := c.kind = .st ∨ c.kind = .sct
        (c.failed = none → c.row = t.rows →
          (¬ drains → exec (.copyComplete core q .clean) s =
            .next (((s.dropCmd core c.id).setTile c.blk c.tile .ready).clearFlagAll c.blk c.id)) ∧
          (drains → exec (.copyComplete core q .clean) s = .next (((s.dropCmd core c.id).updBlock c.blk
            (fun b => { b with tileOps := b.tileOps ++ [⟨c.id, c.wave, c.tile, .drained⟩] })).settleTiles c.blk))) ∧
        (∀ e, c.failed = some e → ∃ u v' t', exec (.copyComplete core q .clean) s = .next u ∧ u.block c.blk = some v' ∧
          v'.tiles[c.tile]? = some t' ∧ t'.fault = some e ∧ u.mem = s.mem))))

/-- R215, R218: a row that has left the port moves as a whole: a fill writes the window from memory, a drain writes memory from
the window, and nothing else of either changes. -/
def Sys2Proof.Claims.RowMovement : Prop := ∀ (s : State) (b : Nat) (p : Block) (id : Nat) (r : Req) (a : LaneAcc),
  s.block b = some p → r.blk = b → r.accs = [a] → s.away r.line = false → r.line = a.pa / 128 → a.pa % 128 + a.n ≤ 128 →
  (r.kind = .copyRead → ∃ q, (s.moveRow .clean b [(id, r)]).block b = some q ∧
    (∀ i, i < a.n → q.spad.get (a.lane + i) = some (byteAt s (localOf a.pa + i))) ∧
    (∀ o, o < a.lane ∨ a.lane + a.n ≤ o → q.spad.get o = p.spad.get o) ∧ (s.moveRow .clean b [(id, r)]).mem = s.mem) ∧
  (r.kind = .copyWrite → (∀ e ∈ s.queues, localOf a.pa + 128 ≤ s.descOf e.1 ∨ s.descOf e.1 + 64 ≤ localOf a.pa) →
    (∀ i, i < a.n → byteAt (s.moveRow .clean b [(id, r)]) (localOf a.pa + i) = p.spadByte (a.lane + i)) ∧
    (∀ m, m < localOf a.pa ∨ localOf a.pa + a.n ≤ m → byteAt (s.moveRow .clean b [(id, r)]) m = byteAt s m))

/-- Copy commands and the movement of rows (Claims.CopyResults, Claims.RowMovement). -/
def Obligations.CopyEngineResults : Prop :=
  Claims.CopyResults ∧ Claims.RowMovement

/-- R444 to R446: at a refill every tenancy of a port that asked has its quota back, up to twice of it saved; a port that is free
sends a waiting request whose tenancy has the tokens, an in-quota one where there is one, and the tenancy pays for it. -/
def Obligations.PortResults : Prop := ∀ (s : State),
  (s.refillDue = true → Tbl.sorted s.cores = true → ∃ t, exec .portRefill s = .next t ∧ t.refillDue = false ∧
    { t with cores := s.cores, refillDue := true } = s ∧
    ∀ c k n h, s.cores.get c = some k → k.shares.get n = some h → n ∈ s.portTens c →
      ∃ h', (t.core c).shares.get n = some h' ∧ h'.sentLast = h.sentNow ∧ h'.sentNow = 0 ∧
        (h.asked = true → h'.b = min (h.b + tenQuota (s.tenCfg n)) (2 * tenQuota (s.tenCfg n)) ∧ h'.q = tenQuota (s.tenCfg n)) ∧
        (h.asked = false → s.portHead c n = none → h'.b = h.b ∧ h'.q = 0 ∧ h'.e = 0)) ∧
  (∀ core id r, s.portChoice core = some (id, r) →
    r.core = core ∧ r.sent = false ∧ (id, r) ∈ s.reqs ∧ r.ten ∈ s.portTens core ∧ (s.core core).busyUntil ≤ s.clock ∧
    let h := (s.core core).share r.ten
    r.cost ≤ h.b + h.e ∧
    (h.q < r.cost → ∀ n e, n ∈ s.portTens core → s.portHead core n = some e → e.2.cost ≤ ((s.core core).share n).b +
      ((s.core core).share n).e → ((s.core core).share n).q < e.2.cost) ∧
    (s.refillDue = false → ∃ t, exec (.portSend core .clean) s = .next t ∧
      ((r.kind = .store ∨ r.kind = .storeBlk ∨ r.kind.isAtomic = true) →
        t.reqs.get id = some { r with sent := true } ∧ t.mem = s.mem ∧
        (t.core core).busyUntil = s.clock + r.cost ∧ (t.core core).lastServed = r.ten ∧
        ∃ h', (t.core core).shares.get r.ten = some h' ∧ h'.e = h.e - r.cost ∧ h'.b = h.b - (r.cost - h.e) ∧
          h'.q = (if r.cost ≤ h.q then h.q - r.cost else h.q)) ∧
      (r.kind = .hint → t.reqs.get id = none ∧ t.mem = s.mem)))

/-! ## The matrix engine (spec/12) and collectives (spec/07) -/

namespace Sys2Proof.Claims

/-- Block `b` is `p` but for tiles, tile operations, accumulator `n`, convergence registers and flags; the state is as it was but
for that block and the number of the accumulator that its core's engine stepped last. -/
def EngineStep (s t : State) (b : Nat) (p q : Block) (n : Nat) : Prop :=
  t.block b = some q ∧ { t with blocks := s.blocks, nextId := s.nextId, cores := s.cores } = s ∧ (∀ c, c ≠ b → t.block c = s.block c) ∧
  (∀ c, c ≠ p.core → t.cores.get c = s.cores.get c) ∧ t.core p.core = { s.core p.core with lastAcc := p.physAcc n } ∧
  (∀ i, i ≠ n → q.accs[i]? = p.accs[i]?) ∧ q.waves.length = p.waves.length ∧
  (∀ (i : Nat) (v : Wave), p.waves[i]? = some v → ∃ v' : Wave, q.waves[i]? = some v' ∧ { v' with busy := v.busy } = v)

/-- One update of an element in a step (R328). -/
def stepped (c : Word) (t : Machine.Num) : Word :=
  match f32.num c.toNat, t with
  | .nan, _ => BitVec.ofNat 32 f32.nanBits
  | _, .nan => BitVec.ofNat 32 f32.nanBits
  | .inf a, .inf b => if a = b then BitVec.ofNat 32 (f32.round .rne false (.inf b)) else BitVec.ofNat 32 f32.nanBits
  | .fin _ _ _, .inf b => BitVec.ofNat 32 (f32.round .rne false (.inf b))
  | .inf _, .fin _ _ _ => c
  | x, y => BitVec.ofNat 32 (f32.round .rne false (Machine.Num.add .rne x (if y.isZero then .fin false 0 0 else y)))

/-- The signatures the active lanes give at a word. -/
def signatures (x : Ctx) (f : EFmt) (tiles : List Nat) : List Signer :=
  (lanesIn x.act).map (fun l => ⟨x.w, l, x.c.word &&& 0xFF01FFFFFFFFFFFF#64, x.vec f.c.toNat l, tiles, x.c.flag⟩)

end Sys2Proof.Claims

/-- R320 to R326: `conv.decl` opens, keeps or frees a register for waves that exist and have not finished, and is misused
otherwise; `mma` and `mma.g` make the active threads sign there with the word without guard and chain bit; a complete round whose
signatures agree and whose operands suit queues one operation, makes it a reader of its tiles and opens the next round; where they
differ every signer meets FORMAT_DIVERGENCE. -/
def Obligations.SigningResults : Prop := ∀ (s : State),
  (∀ (h : Head) (f : EFmt) (x : Ctx) (c : Conv), Issues s h [.s f.a.toNat 1] x → x.act ≠ 0 → x.blk.convs[f.x.toNat]? = some c →
    let m := x.scal f.a.toNat
    let becomes := fun (d : Conv) => s.updBlock x.b (fun b => { b with convs := updAt b.convs f.x.toNat (fun _ => d) })
    let misused := ∃ i, exec (.convDecl h f) s = .next (s.takeTrap x.b x.w i) ∧ i.code = 0x11 ∧ i.set = x.act
    let alive := ∀ n, n < 32 → hasLane m n = true → ∃ v ∈ x.blk.waves[n]?, ∃ y ∈ v.threads, y.st ≠ .exited
    (alive → (∀ mask ss, c ≠ .opened mask ss) →
      exec (.convDecl h f) s = .next (becomes (if m = 0 then .free else .opened m []))) ∧
    (∀ mask ss, alive → c = .opened mask ss →
      (m = mask → exec (.convDecl h f) s = .next (becomes c)) ∧
      (m ≠ mask → m = 0 → ss = [] → exec (.convDecl h f) s = .next (becomes .free)) ∧
      (m ≠ mask → (m ≠ 0 ∨ ss ≠ []) → misused)) ∧
    (¬ alive → misused)) ∧
  (∀ (h : Head) (f : EFmt) (x : Ctx) (a : Acc) (mask : Lanes) (ss : List Signer), s.ctx h = some x → x.act ≠ 0 →
    x.blk.accs[f.x.toNat]? = some a → x.blk.convs[f.bits 8 6]? = some (.opened mask ss) →
    let cv := f.bits 8 6
    let signed := fun (i : Instr) (tiles : List Nat) =>
      (hasLane mask x.w = true → ∃ u, ThreadsTo s u x.b x.w x.act (fun l y =>
          if hasLane x.act l then y.stop (.sign cv) x.c.slot else y) ∧
        exec i s = .next (u.updBlock x.b (fun b => { b with convs := updAt b.convs cv (fun c => match c with
          | .opened m old => .opened m (old ++ signatures x f tiles)
          | c => c) }))) ∧
      (hasLane mask x.w = false → ∃ i', exec i s = .next { s with note := .split i' } ∧ i'.code = 0x11 ∧ i'.set = x.act)
    (firstBeyond x.blk.kern [.v f.c.toNat 1] = none → signed (.mma h f) [f.b.toNat]) ∧
    (firstBeyond x.blk.kern [.s f.b.toNat 4, .v f.c.toNat 1] = none →
      signed (.mmaG h f) ((List.range 4).flatMap (fun q =>
        [(x.scal (f.b.toNat + q)).toNat % 64, (x.scal (f.b.toNat + q)).toNat / 2 ^ 16 % 64])))) ∧
  (∀ (b cv : Nat) (p : Block) (mask : Lanes) (s0 : Signer) (ss : List Signer), s.block b = some p → (p.mode = .normal ∨ p.mode = .drain) →
    p.cancelled = false → p.aborted = none → p.convs[cv]? = some (.opened mask (s0 :: ss)) →
    (∀ n v, hasLane mask n = true → p.waves[n]? = some v → ∀ y ∈ v.threads,
      y.st = .exited ∨ (y.st = .waiting (.sign cv) ∧ y.owed = false)) →
    let alike := ∀ e ∈ ss, e.word = s0.word ∧ e.fmt = s0.fmt ∧ e.tiles = s0.tiles
    let g := signedOf s0.word
    (¬ alike → ∃ t q, exec (.signingRoundComplete b cv) s = .next t ∧ t.block b = some q ∧
      q.convs[cv]? = some (.opened mask []) ∧ t.mem = s.mem ∧
      (∀ e ∈ s0 :: ss, ∀ v y, p.waves[e.wave]? = some v → v.threads[e.lane]? = some y → y.owed = false → e.lane < 32 →
        ∃ v' y' i, q.waves[e.wave]? = some v' ∧ v'.threads[e.lane]? = some y' ∧ y'.st = .running ∧ y'.heldTrap = some i ∧
          i.code = 0x04 ∧ i.sub = 1)) ∧
    (∀ a, alike → s0.fmt.toNat < 2 ^ 20 → fmtReserved s0.fmt.toNat = false → p.accs[g.acc]? = some a → a.fault = none →
      p.operandTrap g s0.fmt.toNat s0.tiles = none →
      (∀ n ∈ g.tileA :: s0.tiles, ∃ t, p.tiles[n]? = some t ∧ t.st = .ready) → a.queue.length < 64 →
      (∀ v ∈ p.waves, Calm v ∧ ∃ y ∈ v.threads, y.st ≠ .exited) →
      ∃ t q a', exec (.signingRoundComplete b cv) s = .next t ∧ t.block b = some q ∧ q.accs[g.acc]? = some a' ∧
        a' = { a with queue := a.queue ++ [⟨s.nextId, .mma g.tileA s0.tiles g.grouped s0.fmt g.blkA g.blkB g.kc g.koff 0⟩] } ∧
        q.convs[cv]? = some (.opened mask []) ∧ t.mem = s.mem ∧
        (∀ i u, p.tiles[i]? = some u →
          q.tiles[i]? = some (if i ∈ g.tileA :: s0.tiles then { u with readers := u.readers + 1 } else u))))

/-- R328 to R331, R334: at an accumulator's turn, a k-step whose headers are all valid updates every element once with the exact sum of its 64 products, and
the last one ends the operation; an invalid header stops it, leaves the accumulator, records the fault and empties the queue. -/
def Obligations.MatrixStepResults : Prop := ∀ (s : State) (b n : Nat) (p : Block) (a : Acc) (c : AccCmd) (rest : List AccCmd)
    (ta : Nat) (tbs : List Nat) (grouped : Bool) (fmt : Word) (blkA blkB kc koff done : Nat),
  s.block b = some p → p.mode ≠ .saving → p.accs[n]? = some a → a.queue = c :: rest → s.engineTurn p n = true →
  c.kind = .mma ta tbs grouped fmt blkA blkB kc koff done →
  let tile := fun (k : Nat) => (p.tiles[k]?).getD Tile.start
  let op : MmaOp := ⟨tile ta, tbs.map tile, grouped, opA fmt.toNat blkA, opB fmt.toNat blkB, koff + done⟩
  (p.badHeader op = none → ∃ t q a', exec (.mmaKstep b n) s = .next t ∧ EngineStep s t b p q n ∧ q.accs[n]? = some a' ∧
    (∀ i j, i < 128 → j < 128 → a'.read i j = stepped (a.read i j) (p.stepSum op.oa op.ob op.ta (op.tileB i) i j op.m)) ∧
    a'.satf = a.satf ∧ a'.fault = a.fault ∧ (a.inv = true → a'.inv = true) ∧ (a.ovf = true → a'.ovf = true) ∧
    (done + 1 < kc → q.tiles = p.tiles ∧
      a'.queue = { c with kind := .mma ta tbs grouped fmt blkA blkB kc koff (done + 1) } :: rest) ∧
    (kc ≤ done + 1 → a'.queue = rest ∧ ∀ (i : Nat) (v : Wave), q.waves[i]? = some v → ∀ e ∈ v.busy, e.2 ≠ c.id)) ∧
  (∀ addr, p.badHeader op = some addr → ∃ t q a', exec (.mmaKstep b n) s = .next t ∧ EngineStep s t b p q n ∧
    q.accs[n]? = some a' ∧ a' = { a with queue := [], fault := some { kstep := done, addr := addr } } ∧
    ∀ d ∈ c :: rest, ∀ (i : Nat) (v : Wave), q.waves[i]? = some v → ∀ e ∈ v.busy, e.2 ≠ d.id)

/-- R332 to R340: on an accumulator without a fault, `mma.wait` goes on once the queue is empty, and the `acc` commands join the
queue; performed, they clear it, take a tile into it, write a tile or a quantised tile from it, report its flags, or clear them. -/
def Obligations.AccumulatorResults : Prop := ∀ (s : State),
  (∀ (h : Head) (f : EFmt) (x : Ctx) (a : Acc), s.ctx h = some x → x.act ≠ 0 → x.blk.accs[f.x.toNat]? = some a → a.fault = none →
    let queued := fun (u : State) (k : AccKind) =>
      (begun u x).updAcc x.b f.x.toNat (fun a => { a with queue := a.queue ++ [⟨u.nextId, k⟩] })
    (a.queue = [] → exec (.mmaWait h f) s = .next s) ∧ (a.queue ≠ [] → exec (.mmaWait h f) s = .next { s with note := .held }) ∧
    (a.queue.length < 64 →
      exec (.accZero h f) s = .next (queued s .zero) ∧
      exec (.accFclr h f) s = .next (queued s (.fclr (f.bits 2 0))) ∧
      (firstBeyond x.blk.kern [.s f.a.toNat 1] = none → exec (.accFlg h f) s = .next (queued s (.flg x.w f.a.toNat false))) ∧
      (∀ t : Tile, x.blk.tiles[f.a.toNat]? = some t → t.fault = none → t.rows = 128 →
        let form := f.bits 1 0
        let wide := (if form = 0 then 32 else 16)
        (tileBits t = wide → 2 * wide ≤ t.len →
          (t.st = .ready → exec (.accLd h f) s = .next (queued
            (s.updTile x.b f.a.toNat (fun t => { t with readers := t.readers + 1 })) (.ld f.a.toNat form))) ∧
          (t.st = .empty → exec (.accSt h f) s = .next (queued (s.setTile x.b f.a.toNat .filling) (.st f.a.toNat form)))) ∧
        (firstBeyond x.blk.kern [.s f.b.toNat 1] = none → stqTile (x.scal f.b.toNat).toNat t = true → t.st = .empty →
          exec (.accStq h f) s = .next (queued (s.setTile x.b f.a.toNat .filling) (.stq f.a.toNat (x.scal f.b.toNat))))))) ∧
  (∀ (b n : Nat) (p : Block) (a : Acc) (c : AccCmd) (rest : List AccCmd), s.block b = some p → p.mode ≠ .saving →
    p.accs[n]? = some a → a.queue = c :: rest →
    let tile := fun (k : Nat) => (p.tiles[k]?).getD Tile.start
    let ends := fun (t : State) (q : Block) (a' : Acc) => exec (.accCommandPerform b n) s = .next t ∧ t.block b = some q ∧
      q.accs[n]? = some a' ∧ t.mem = s.mem ∧ ∀ (i : Nat) (v : Wave), q.waves[i]? = some v → ∀ e ∈ v.busy, e.2 ≠ c.id
    (c.kind = .zero → ∃ t q a', ends t q a' ∧ a' = { a with queue := rest, cells := [], fill := .zero } ∧
      ∀ i j, a'.read i j = 0) ∧
    (∀ k form, c.kind = .ld k form → ∃ t q a', ends t q a' ∧ { a' with queue := a.queue, cells := a.cells } = a ∧ a'.queue = rest ∧
      ∀ i j, i < 128 → j < 128 → a'.read i j =
        (let at_ := (tile k).base + 8 * (tile k).pitch * i
         if form = 0 then BitVec.ofNat 32 (natOfBytes (p.spadRead (at_ + 4 * j) 4))
         else BitVec.ofNat 32 (f32.round .rne false ((if form = 1 then h16 else bf16).num (natOfBytes (p.spadRead (at_ + 2 * j) 2)))))) ∧
    (∀ k form, c.kind = .st k form → (if form = 0 then 512 else 256) ≤ 8 * (tile k).pitch → ∃ t q a', ends t q a' ∧
      { a' with queue := a.queue, ovf := a.ovf } = a ∧ a'.queue = rest ∧
      ∀ i j, i < 128 → j < 128 →
        (let at_ := (tile k).base + 8 * (tile k).pitch * i
         (form = 0 → q.spadRead (at_ + 4 * j) 4 = bytesOfNat (a.read i j).toNat 4) ∧
         (form ≠ 0 → q.spadRead (at_ + 2 * j) 2 =
            bytesOfNat ((if form = 1 then h16 else bf16).round .rne false (f32.num (a.read i j).toNat)) 2))) ∧
    (∀ k w, c.kind = .stq k w → ∃ t q a', ends t q a' ∧ { a' with queue := a.queue, satf := a.satf, inv := a.inv } = a ∧
      a'.queue = rest ∧ q.spad = (p.quantAcc (tile k) w.toNat a).1.spad ∧
      a'.satf = (a.satf || (p.quantAcc (tile k) w.toNat a).2.1) ∧ a'.inv = (a.inv || (p.quantAcc (tile k) w.toNat a).2.2)) ∧
    (∀ w r v, c.kind = .flg w r false → p.waves[w]? = some v → ∃ t q a', ends t q a' ∧
      sreg t b w r = some (BitVec.ofNat 32 (a.ovf.toNat + 2 * a.inv.toNat + 4 * a.satf.toNat))) ∧
    (∀ m, c.kind = .fclr m → ∃ t q a', ends t q a' ∧ a' = { a with
      queue := rest, ovf := a.ovf && !m.testBit 0, inv := a.inv && !m.testBit 1, satf := a.satf && !m.testBit 2 }))

/-- R221 to R227: a collective within its limits clears IDEM, joins its queue and takes its group's next number, one outside them
completes at once with ARG; `coll.wait` writes the queue's status record and clears it once the queue's collectives are over. A
collective begins by reading the buffer and sending its fragments to the members that need them, and leaves the result in it;
it completes once no line that it wrote is held (R226). -/
def Obligations.CollectiveResults : Prop := ∀ (s : State),
  (∀ (h : Head) (f : EFmt) (x : Ctx), Issues s h [.s f.a.toNat 2, .s f.b.toNat 1, .s f.c.toNat 1] x →
    let q := f.bits 16 15
    let word := (x.scal f.c.toNat).toNat
    let grp := s.coll (word % 65536)
    let len := (x.scal f.b.toNat).toNat
    let u := s.updWave x.b x.w (fun v => { v with idem := false })
    let fits := fun (elem : Nat) => (x.scalPair f.a.toNat).toNat % 8 = 0 ∧ 4 ≤ len ∧ len ≤ 4096 ∧ len % elem = 0 ∧ word % 65536 < 64 ∧
      collEn grp.cfg = true ∧ collTen grp.cfg = x.blk.ten
    let arg := u.updBlock x.b (fun b => { b with collStatus := updAt b.collStatus q (fun w => w ||| 1) })
    let joins := fun (i : Instr) (k : CopyKind) => ∃ c : CopyCmd, c.id = s.nextId ∧ c.blk = x.b ∧ c.kind = k ∧ c.begun = false ∧
      c.d = ((x.scalPair f.a.toNat).toNat : Int) ∧ c.idx = len ∧ c.group = word % 65536 ∧ c.num = grp.count ∧
      exec i s = .next (((begun u x).updQueueOf x.blk.core q (fun l => l ++ [c])).updColl (word % 65536)
        (fun g => { g with count := g.count + 1 }))
    (x.act = 0 → exec (.collAr h f) s = .next u ∧ exec (.collBc h f) s = .next u) ∧
    (x.act ≠ 0 →
      (fits (collBytes (f.bits 12 10)) → (s.queueOf x.blk.core q).length < 64 → joins (.collAr h f) (.collAr (f.bits 14 13) (f.bits 12 10))) ∧
      (¬ fits (collBytes (f.bits 12 10)) → exec (.collAr h f) s = .next arg) ∧
      (fits 1 → word / 65536 < grp.size → (s.queueOf x.blk.core q).length < 64 → joins (.collBc h f) (.collBc (word / 65536))) ∧
      (¬ fits 1 ∨ grp.size ≤ word / 65536 → exec (.collBc h f) s = .next arg))) ∧
  (∀ (h : Head) (f : EFmt) (x : Ctx), Issues s h [.s f.x.toNat 1] x → x.act ≠ 0 → x.blk.collWaits = [] →
    let q := f.bits 16 15
    let mine := (s.queueOf x.blk.core q).filter (fun c => c.blk = x.b && c.isColl)
    (mine ≠ [] → exec (.collWait h f) s = .next (((begun s x).updBlock x.b (fun b => { b with
        collWaits := b.collWaits ++ [⟨s.nextId, x.w, q, f.x.toNat, mine.map (fun c => c.id), []⟩] })).settleColls x.b) ∧
      ∃ t p, exec (.collWait h f) s = .next t ∧ t.block x.b = some p ∧ p.collStatus = x.blk.collStatus ∧
        p.collWaits = [⟨s.nextId, x.w, q, f.x.toNat, mine.map (fun c => c.id), []⟩]) ∧
    (mine = [] → ∃ t p r, exec (.collWait h f) s = .next t ∧ t.block x.b = some p ∧ p.collWaits = [] ∧
      (∀ i w, p.collStatus[i]? = some w → w = (if i = q then 0 else x.blk.collStatus.getD i 0)) ∧
      t.reqs.get (s.nextId + 1) = some r ∧ r.op = s.nextId ∧ r.dst = .scal f.x.toNat ∧ r.visible = true ∧
      r.olds = [(0, bytesOfNat (x.blk.collStatus.getD q 0).toNat 4)] ∧ t.mem = s.mem)) ∧
  (∀ (core q : Nat) (c : CopyCmd) (rest : List CopyCmd) (p : Block), s.queueOf core q = c :: rest → s.block c.blk = some p →
    s.cmd core c.id = some c → c.isColl = true → c.fault = none →
    let g := s.coll c.group
    (c.begun = false → p.mode ≠ .saving → s.fencesMet core c = true →
      (s.collBuf c p = .refused → exec (.collBegin core q) s = .next (s.collFinish core q c 1)) ∧
      (∀ ps, s.collBuf c p = .ok ps → ∃ t c', exec (.collBegin core q) s = .next t ∧ t.cmd core c.id = some c' ∧
        c'.begun = true ∧ c'.local_ = s.bufRead ps ∧ t.mem = s.mem ∧
        (∀ r, r < g.size → r ≠ g.rank → (∀ root, c.kind = .collBc root → root = g.rank) →
          ∀ i, 128 * i < (s.bufRead ps).length → ∃ k ∈ t.fabOut, k.typ = 8 ∧ k.dst = g.module r ∧
            k.data = ((s.bufRead ps).drop (128 * i)).take 128))) ∧
    (c.row = 1 → (∀ l ∈ c.lines, s.lineHeld l = false) →
      exec (.collComplete core q false false) s = .next (s.collFinish core q c c.status)) ∧
    (∀ bs, c.begun = true → c.row = 0 → s.collComing c = false → g.disagrees c = false → (∀ r, r < g.size → r ≠ g.rank → s.hasRoute (g.module r) = true) → g.result c = some bs →
      (g.isRoot c = true → exec (.collComplete core q false false) s =
        .next (({ s with fresh := s.fresh + 1 } : State).collFinish core q c 0)) ∧
      (∀ e pa al, g.isRoot c = false → s.collBuf c p = .ok [⟨e, pa, al⟩] → s.isOwn pa = true → s.moving (localOf pa) = false →
        s.roomAt (lineOf (localOf pa)) al = true → e.n ≤ 128 → (∀ d ∈ s.queues, localOf pa + 128 ≤ s.descOf d.1 ∨ s.descOf d.1 + 64 ≤ localOf pa) →
        ∃ t, exec (.collComplete core q false false) s = .next t ∧
          t.mem = memWrite s.mem (localOf pa) ((bs.drop e.off).take e.n) ∧
          (t.lineHeld (lineOf pa) = false → t.cmd core c.id = none) ∧
          (t.lineHeld (lineOf pa) = true → ∃ c', t.cmd core c.id = some c' ∧ c'.row = 1 ∧ c'.lines = [lineOf pa] ∧ c'.status = 0)))) ∧
  (∀ (g : CollGroup) (c : CopyCmd) (op ty : Nat) (other : List Byte), c.kind = .collAr op ty → g.size = 2 →
    g.arrived c.num 1 c.idx = none →
    (g.rank = 0 → g.arrived c.num 2 c.idx = some other → g.result c = some (combineBytes op ty c.local_ other)) ∧
    (g.rank = 1 → g.arrived c.num 0 c.idx = some other → g.result c = some (combineBytes op ty other c.local_))) ∧
  (∀ k : FabPacket, k.typ = 8 → k ∈ s.fabIn →
    exec (.fabricColl k) s = .next ((s.taken k).updColl (k.addr % 64) (fun g => { g with
      inbox := g.inbox ++ [⟨k.addr / 2 ^ 18 % 256, k.addr / 2 ^ 26 % 256, k.addr / 2 ^ 6 % 4096, k.data⟩] })))

/-! ## Placing, ending and preempting blocks (spec/03, spec/14, spec/16) -/

/-- R25 to R27, R44, R47, R363 to R367: the dispatcher takes the released grid of lowest rank, then lowest arrival number; it
places the head's next block, at the next free number, on a core of the tenancy's core set where it fits, its threads at the
kernel's entry, its arguments in scalar registers, the core's non-stable L1 lines dropped, and the stable ones too for the grid's
first block there (R162), where Weir has assigned no block of the grid to a core; and it may place a block of the
first of the next three grids that fits when the head has waited 4,096 clocks in vain. -/
def Obligations.DispatchResults : Prop := ∀ (s : State),
  (∀ g gr, s.grids.get g = some gr → (g, gr) ∈ s.grids → gr.place = .millrace → (∃ r, gr.release = some r ∧ r ≤ s.clock) →
    (s.disp.held.filter (fun n => 0 < s.toPlace n)).length < 4 →
    (∀ e ∈ s.grids, e ≠ (g, gr) → e.2.place = .millrace → (∃ r, e.2.release = some r ∧ r ≤ s.clock) →
      gr.rank < e.2.rank ∨ (gr.rank = e.2.rank ∧ gr.arrival < e.2.arrival)) →
    ∃ t, exec .dispatchTakeGrid s = .next t ∧ t.grids.get g = some { gr with place := .dispatcher } ∧
      t.disp.held = s.disp.held ++ [g] ∧ (∀ n, n ≠ g → t.grids.get n = s.grids.get n) ∧
      { t with grids := s.grids, disp := s.disp } = s) ∧
  (∀ g gr t, s.grids.get g = some gr → gr.coop = false → (∀ i ∈ s.images, i.blk.grid ≠ g) → gr.flushed = [] →
    gr.early = [] → s.assigned g = [] → gr.cancelled = false → gr.nextIndex < gr.total → s.placeGrid g = some t →
    ∃ nb core, t.block s.nextBlock = some nb ∧ t.nextBlock = s.nextBlock + 1 ∧ nb.core = core ∧ s.inSet gr.ten core = true ∧
      (s.core core).fenced = false ∧ nb.grid = g ∧ nb.index = gr.nextIndex ∧ nb.kern = gr.kern ∧ nb.ten = gr.ten ∧
      nb.bid = (gr.nextIndex % gr.gdim.1, gr.nextIndex / gr.gdim.1 % gr.gdim.2.1, gr.nextIndex / (gr.gdim.1 * gr.gdim.2.1)) ∧
      nb.waves.length = (gr.bdim.1 * gr.bdim.2.1 * gr.bdim.2.2 + 31) / 32 ∧
      (∀ w v l y, nb.waves[w]? = some v → v.threads[l]? = some y → y.pc = BitVec.ofNat 64 gr.kern.entry ∧ y.slot = 0 ∧
        y.preds = 0 ∧ y.inHandler = false ∧
        y.st = (if 32 * w + l < gr.bdim.1 * gr.bdim.2.1 * gr.bdim.2.2 then .running else .exited)) ∧
      (∀ (w : Nat) (v : Wave), nb.waves[w]? = some v → v.idem = gr.kern.idem ∧ v.trapSet = none ∧
        ∀ i x, i < gr.kern.sregs → gr.args[i]? = some x → v.s.scal i = x) ∧
      (∃ gr', t.grids.get g = some gr' ∧ { gr' with nextIndex := gr.nextIndex, visited := gr.visited } = gr ∧
        gr'.nextIndex = gr.nextIndex + 1 ∧ core ∈ gr'.visited) ∧ (core ∉ gr.visited → (t.core core).l1 = []) ∧
      (∀ l ∈ (t.core core).l1, l.stable = true) ∧ (∀ b, b ≠ s.nextBlock → t.block b = s.block b) ∧ t.mem = s.mem) ∧
  (s.disp.headGrid = s.head → s.placeAssigned = none → ∀ g, s.head = some g →
    (∀ t, s.placeGrid g = some t → ∃ u, exec .blockPlace s = .next u ∧ { u with disp := t.disp } = t ∧
      u.disp.headSince = t.clock) ∧
    (s.placeGrid g = none → s.disp.headSince + 4096 ≤ s.clock → ∀ k n t, 1 ≤ k → k ≤ 3 →
      (s.disp.held.filter (fun n => 0 < s.toPlace n))[k]? = some n →
      (∀ j m, 1 ≤ j → j < k → (s.disp.held.filter (fun n => 0 < s.toPlace n))[j]? = some m → s.placeGrid m = none) →
      s.placeGrid n = some t → exec (.backfill k) s = .next t))

/-- R29, R30, R341, R395, R479: a fetch that finds its page not present is reported and its threads wait, a denied one takes
PERMISSION at the packet before any slot. A block that is over and has nothing left retires: its grid has one block less, a new
estimate of the clocks a unit of progress takes, and the block's lines that are not yet committed to wait for; a fault of an accumulator or of a tile that nothing delivered aborts it
instead. -/
def Obligations.BlockEndResults : Prop := ∀ (s : State) (b : Nat) (p : Block), s.block b = some p →
  (∀ w v at_ r, s.wave b w = some v → p.live = true → s.fetchTrouble b w = some (at_, r) →
    (r = .denied → ∃ i, exec (.fetchFault b w) s = .next (s.takeTrap b w i) ∧ i.code = 0x08 ∧ i.sub = 2 ∧ i.pc = at_.pc ∧
      i.addr = at_.pc ∧ i.set = v.atPacket at_.pc) ∧
    (r = .absent → ∃ t v', exec (.fetchFault b w) s = .next t ∧ t.wave b w = some v' ∧
      { v' with mon := v.mon } =
        { v with threads := v.threads.mapIdx (fun l y => if hasLane (v.atPacket at_.pc) l then { y with fetchHeld := true } else y) } ∧
      ∃ f ∈ t.faultq.recs, f.open_ = true ∧ 1 ≤ f.kind ∧ f.kind ≤ 3 ∧ f.core = p.core ∧ f.asn = p.asn ∧
        f.addr / 65536 = at_.pc.toNat / 65536)) ∧
  (p.over = true → s.workLeft b p = false → p.remoteLeft = false → s.marksOut p = false →
    (p.cancelled = false → p.aborted = none → (∃ a ∈ p.accs, a.fault ≠ none) →
      ∃ t q, exec (.blockRetire b) s = .next t ∧ t.block b = some q ∧ q.aborted = some 0x05) ∧
    (∀ f, p.cancelled = false → p.aborted = none → (∀ a ∈ p.accs, a.fault = none) → p.tiles.findSome? (fun y => y.fault) = some f →
      ∃ t q, exec (.blockRetire b) s = .next t ∧ t.block b = some q ∧ q.aborted = some f.code) ∧
    ((((∀ a ∈ p.accs, a.fault = none) ∧ ∀ y ∈ p.tiles, y.fault = none) ∨ p.cancelled = true ∨ p.aborted ≠ none) →
      ∃ t, exec (.blockRetire b) s = .next t ∧ t.block b = none ∧ (∀ c, c ≠ b → t.block c = s.block c) ∧ t.mem = s.mem ∧
        (∀ l ∈ (t.core p.core).locked, b ∉ l.holders) ∧
        ∀ gr, s.grids.get p.grid = some gr → ∃ gr', t.grids.get p.grid = some gr' ∧ { gr' with cpu := gr.cpu, left := gr.left, lines := gr.lines } = gr ∧
          gr'.left = gr.left - 1 ∧ (∀ l, l ∈ gr'.lines ↔ l ∈ gr.lines ∨ (s.lagging l = true ∧ ∃ v ∈ p.waves, l ∈ v.wrote)) ∧
          gr'.cpu = (if p.cancelled = false ∧ p.aborted = none
            then (3 * gr.cpu + (p.resident + (s.clock - p.placedAt)) / max p.prog 1) / 4 else gr.cpu)))

/-- R31, R359, R365: a grid whose blocks have all ended and whose writes have performed leaves the machine, its status word written
to its completion record: its state, the trap code and count of its aborts, and whether it was preempted, missed its bound or lost
data. -/
def Obligations.GridCompletionResults : Prop := ∀ (s : State) (g : Nat) (gr : Grid) (pa : Nat) (al : Alloc), s.grids.get g = some gr →
  gr.place = .dispatcher → gr.left = 0 → s.gridClosed g gr = true → s.recordMoving gr = false →
  s.cpAccess { root := gr.root, asn := gr.asn, ten := gr.ten, job := gr.job } gr.user Need.store gr.recVa = .ok pa al →
  s.isOwn pa = true → (∀ e ∈ s.queues, localOf pa + 128 ≤ s.descOf e.1 ∨ s.descOf e.1 + 64 ≤ localOf pa) → localOf pa % 8 = 0 →
  let late := gr.missed || (gr.bounded && gr.release.elim false (fun r => gr.bound * 1400 < s.clock - r))
  let state := if gr.cancelled then 2 else if gr.anyAbort then 3 else 1
  let status : DWord := BitVec.ofNat 64 (gr.trapcode * 2 ^ 24 + gr.aborts * 2 ^ 16 + gr.preempted.toNat * 2 ^ 6 + late.toNat * 2 ^ 5 +
    gr.dataLoss.toNat * 2 ^ 4 + state)
  ∃ t, exec (.gridComplete g) s = .next t ∧ t.grids.get g = none ∧ (∀ n, n ≠ g → t.grids.get n = s.grids.get n) ∧
    g ∉ t.disp.held ∧ t.blocks.map Prod.fst = s.blocks.map Prod.fst ∧
    t.mem = memWrite s.mem (localOf pa) (bytesOfNat status.toNat 8) ∧
    (∀ k ∈ s.graphs, k.job = gr.job → k.number = gr.graph → k.closed = false → { k with left := k.left - 1 } ∈ t.graphs)

/-- R392 to R417: a bounded head that does not fit makes Weir run; a victim is left to drain (one that still resumes, once it runs), flushed to restart from its kernel's
entry, or saved; a saved block's image takes the next sequence number and its block leaves the core; a resumed block issues again
once its reissued commands have completed, after an open. -/
def Obligations.PreemptionResults : Prop := ∀ (s : State),
  (s.disp.headGrid = s.head → ∀ g gr, s.weirDue = some (g, gr) → ∃ t, exec .weirRun s = .next t) ∧
  (∀ (b : Nat) (p : Block) (v : Victim) (gr : Grid), s.block b = some p → s.grids.get p.grid = some gr → v.blocks = [b] →
    p.cancelled = false → p.aborted = none →
    (v.choice = .save → ∀ y ∈ p.waves, y.mon = none ∧ y.monWait = []) →
    (v.choice = .drain → ∃ q, (s.commitVictim v).block b = some q ∧ 
      q = (if p.mode = .resuming then { p with draining := true } else { p with mode := .drain })) ∧
    (v.choice = .flush → (s.commitVictim v).block b = none ∧ (∀ r ∈ (s.commitVictim v).replays, r.blk ≠ b) ∧
      ∃ gr', (s.commitVictim v).grids.get p.grid = some gr' ∧ gr'.preempted = true ∧
        gr'.flushed = gr.flushed ++ [{ index := p.index, vcore := p.vcore }] ∧ gr'.left = gr.left) ∧
    (v.choice = .save → ∃ q, (s.commitVictim v).block b = some q ∧ q.mode = .saving ∧ ∀ y ∈ q.waves, y.issue = none ∧ y.take = []) ∧
    (s.commitVictim v).dev.weirCount = s.dev.weirCount + 1 ∧ (s.commitVictim v).mem = s.mem) ∧
  (∀ (b : Nat) (p : Block), s.block b = some p → p.cancelled = false → p.aborted = none →
    (p.mode = .saving → s.saveWaits b p = false → (∀ v ∈ p.waves, v.mon = none ∧ v.monWait = []) →
      ∃ t img, exec (.saveImageWrite b) s = .next t ∧ t.block b = none ∧ t.images = s.images ++ [img] ∧ img.id = b ∧
        img.seq = s.saveSeq + 1 ∧ t.saveSeq = s.saveSeq + 1 ∧ img.blk.grid = p.grid ∧ img.blk.index = p.index ∧
        img.blk.tileOps = p.tileOps ∧ img.blk.waves.length = p.waves.length ∧
        (∀ r ∈ img.replays, r.blk = b) ∧ (∀ r ∈ t.replays, r.blk ≠ b)) ∧
    (p.mode = .resuming → (∀ id ∈ p.waitCmds, (∀ q ∈ (s.core p.core).queues, ∀ c ∈ q, c.id ≠ id) ∧
        ∀ a ∈ p.accs, ∀ c ∈ a.queue, c.id ≠ id) → (∀ r ∈ s.replays, r.blk = b → r.acked = false) →
      ∃ t q, exec (.resumeIssue b) s = .next t ∧ t.block b = some q ∧ 
        q = { p with mode := (if p.draining = true then .drain else .normal), draining := false, waitCmds := [] } ∧
        L1Dropped (s.updBlock b (fun _ => q)) t p.core (fun l => l.stable = false)))

/-! ## Queues and packets (spec/14, spec/18) -/

namespace Sys2Proof.Claims

/-- A packet of a type, well formed, stands at the head of a queue that runs and holds no packet. -/
def AtQueue (s : State) (n typ : Nat) (q : Queue) (p : Pkt) : Prop :=
  s.queues.get n = some q ∧ q.status ≠ 2 ∧ q.pending = none ∧ s.unmapping n = false ∧ s.atHead q = .packet p ∧ p.typ = typ

/-- Queue `n` stands at `ridx` and holds `pend`; its descriptor's other registers are those of `q`. -/
def QueueAt (t : State) (n : Nat) (q : Queue) (ridx : Nat) (pend : Option Pending) : Prop :=
  ∃ q', t.queues.get n = some q' ∧ q'.ridx = ridx ∧ q'.pending = pend ∧
    { q' with ridx := q.ridx, pending := q.pending, status := q.status } = q

/-- Where the queue stands once its packet has been performed. -/
def past (q : Queue) (p : Pkt) : Nat := (q.ridx + 8 * p.len) % 2 ^ 32

/-- Memory is as it was but for the bytes of `P` and the queue's descriptor after its first word: the device's words, and reserved
fields, which read as zero. -/
def MemBut (s t : State) (n : Nat) (P : Nat → Prop) : Prop :=
  ∀ a, ¬ P a → (a < s.descOf n + 8 ∨ s.descOf n + 64 ≤ a) → byteAt t a = byteAt s a

/-- Eight bytes of this module that overlap no queue's descriptor. -/
def Apart (s : State) (pa : Nat) : Prop :=
  s.isOwn pa = true ∧ localOf pa % 8 = 0 ∧ ∀ e ∈ s.queues, localOf pa + 8 ≤ s.descOf e.1 ∨ s.descOf e.1 + 64 ≤ localOf pa

end Sys2Proof.Claims

/-- R355 to R358: a WAIT goes on when its condition holds and is held otherwise, until WAIT_SATISFIED finds it or a counter that reached zero has met it; SIGNAL writes or
adds its value; CANCEL cancels the grids it names and waits for them; CLOSE closes a graph or a job; TICKALIGN waits for a tick;
a packet with a reserved field stops its queue. -/
def Obligations.QueuePacketResults : Prop := ∀ (s : State) (n : Nat) (q : Queue) (p : Pkt) (b : Binding), q.binding = some b →
  (∀ typ, AtQueue s n typ q p → p.formOk = false →
    let stops := fun (i : Instr) => ∃ t q', exec i s = .next t ∧ t.queues.get n = some q' ∧ q'.status = 2 ∧ q'.lasterr = 1 ∧
      q'.lasttag = p.tag ∧ q'.ridx = q.ridx
    (typ = 2 → stops (.wait n)) ∧ (typ = 4 → stops (.cancel n)) ∧ (typ = 6 → stops (.tickalign n)) ∧ (typ = 7 → stops (.close n))) ∧
  (AtQueue s n 2 q p → p.formOk = true →
    let meets := fun (ok : Bool) => ∃ t, exec (.wait n) s = .next t ∧ MemBut s t n (fun _ => False) ∧
      QueueAt t n q (if ok then past q p else q.ridx) (if ok then none else some .wait)
    (p.flags % 4 = 2 → meets ((s.jobBound b).isNone ||
      (s.graphOf b.job ((p.w 1).toNat % 2 ^ 16)).elim true (fun g => decide (g.left = 0)))) ∧
    (p.flags % 4 = 3 → meets ((s.jobBound b).elim true (fun j => decide (j.left = 0)))) ∧
    (∀ pa al, s.cpAccess b q.user Need.load (p.w 1).toNat = .ok pa al → s.isOwn pa = true →
      let v := natOfBytes (s.rd (localOf pa) 8)
      let masked := fun (x : Nat) => Nat.land x (p.w 3).toNat
      (p.flags % 4 = 1 → meets (decide (v % 16 ≠ 0))) ∧
      (p.flags % 4 = 0 → p.flags / 4 % 4 = 0 → meets (decide (masked v = masked (p.w 2).toNat))) ∧
      (p.flags % 4 = 0 → p.flags / 4 % 4 = 1 → meets (decide (masked v ≠ masked (p.w 2).toNat))) ∧
      (p.flags % 4 = 0 → p.flags / 4 % 4 = 2 → meets (decide (masked (p.w 2).toNat ≤ masked v))) ∧
      (p.flags % 4 = 0 → p.flags / 4 % 4 = 3 → meets (decide (masked v < masked (p.w 2).toNat))))) ∧
  (s.queues.get n = some q → q.status ≠ 2 → q.pending = some .wait → s.atHead q = .packet p → p.typ = 2 → p.flags % 4 = 2 →
    (∀ g, s.graphOf b.job ((p.w 1).toNat % 2 ^ 16) = some g → g.left = 0) →
    ∃ t, exec (.waitSatisfied n) s = .next t ∧ QueueAt t n q (past q p) none) ∧
  (s.queues.get n = some q → q.status ≠ 2 → q.pending = some .met → s.atHead q = .packet p → p.typ = 2 →
    ∃ t, exec (.waitSatisfied n) s = .next t ∧ QueueAt t n q (past q p) none) ∧
  (AtQueue s n 3 q p → p.formOk = true → (p.flags / 2 % 2 = 0 ∨ s.launchedFrom n = []) →
    (∀ pa al, s.cpAccess b q.user (if p.flags % 2 = 1 then Need.rmw else Need.store) (p.w 1).toNat = .ok pa al → Apart s pa →
      s.writeWaits pa = false →
      let v : DWord := if p.flags % 2 = 1 then BitVec.ofNat 64 (natOfBytes (s.rd (localOf pa) 8)) + p.w 2 else p.w 2
      let held := (s.cpWrite pa (p.w 1).toNat al v b.job).lineHeld (lineOf pa) = true
      ∃ t, exec (.signal n) s = .next t ∧ (¬ held → QueueAt t n q (past q p) none) ∧
        (held → QueueAt t n q q.ridx (some (.held (lineOf pa) v))) ∧ t.rd (localOf pa) 8 = bytesOfNat v.toNat 8 ∧
        MemBut s t n (fun a => localOf pa ≤ a ∧ a < localOf pa + 8))) ∧
  (∀ l v, s.queues.get n = some q → q.status ≠ 2 → q.pending = some (.held l v) → s.lineHeld l = false → s.atHead q = .packet p →
    p.typ = 3 → ∃ t, exec (.signal n) s = .next t ∧ QueueAt t n q (past q p) none ∧ MemBut s t n (fun _ => False)) ∧
  (AtQueue s n 4 q p → p.formOk = true → p.flags % 4 = 0 →
    let named := fun (g : Nat × Grid) => g.2.job = b.job ∧ g.2.recVa = (p.w 1).toNat ∧ g.2.place ≠ .done
    ((∀ g ∈ s.grids, ¬ named g) → ∃ t, exec (.cancel n) s = .next t ∧ QueueAt t n q (past q p) none ∧ t.grids = s.grids) ∧
    (∀ g gr, (s.jobBound b).isSome = true → s.grids.get g = some gr → named (g, gr) → (g, gr) ∈ s.grids → ∃ t gr' gs, exec (.cancel n) s = .next t ∧
      t.grids.get g = some gr' ∧ gr'.cancelled = true ∧ g ∈ gs ∧ QueueAt t n q q.ridx (some (.cancel gs)))) ∧
  (AtQueue s n 6 q p → p.formOk = true →
    ∃ t, exec (.tickalign n) s = .next t ∧ QueueAt t n q q.ridx (some (.tickalign (s.tick + p.flags))) ∧
      MemBut s t n (fun _ => False)) ∧
  (AtQueue s n 7 q p → p.formOk = true → ∃ t, exec (.close n) s = .next t ∧ QueueAt t n q (past q p) none ∧
    ((s.jobBound b).isSome = true → ∀ g ∈ s.graphs, g.job = b.job → (p.flags = 1 ∨ g.number = (p.w 1).toNat % 2 ^ 16) → g.left ≠ 0 →
      { g with closed := true } ∈ t.graphs) ∧
    ((s.jobBound b).isSome = true → ∀ j ∈ s.jobs, j.number = b.job → p.flags = 1 → j.left ≠ 0 → (∀ g ∈ s.graphs, g.left ≠ 0) → { j with closed := true } ∈ t.jobs))

/-- R28, R355 to R364, R441: an accepted LAUNCH clears its completion record and enters its grid in Millrace, with the
next arrival number, or before the entries of the same clock that higher queue threads inserted;
a privileged BIND gives its queue the binding and its tenancy, on its other queues too, the address space and root; at a tick boundary the tick counts and
TICK grids are released. -/
def Obligations.LaunchAndBindResults : Prop := ∀ (s : State),
  (∀ (n : Nat) (q : Queue) (p : Pkt) (b : Binding) (o : Object) (k : Kern) (pa : Nat) (al : Alloc), AtQueue s n 1 q p → p.formOk = true →
    q.binding = some b → (p.flags / 8 % 2 = 1 → q.user = false) → s.launchClosed b ((p.w 6).toNat % 2 ^ 16) = false →
    let dims := ((p.w 2).toNat % 2 ^ 32, (p.w 2).toNat / 2 ^ 32 % 2 ^ 16, (p.w 2).toNat / 2 ^ 48)
    let block := ((p.w 3).toNat % 2 ^ 11, (p.w 3).toNat / 2 ^ 11 % 2 ^ 11, (p.w 3).toNat / 2 ^ 22 % 2 ^ 11)
    dimsOk dims block = true → s.descRead b q.user (p.w 1).toNat 8 = none → s.objectAt b.asn (p.w 1).toNat = some o →
    kernOf (p.w 1).toNat o (s.descWord b q.user (p.w 1).toNat) = some k → p.flags % 2 = 0 →
    s.cpAccess b q.user Need.store (p.w 5).toNat = .ok pa al → Apart s pa → s.writeWaits pa = false → s.millrace.length < 4096 →
    ∃ t g q', exec (.launch n) s = .next t ∧ t.grids.get s.nextGrid = some g ∧ t.nextGrid = s.nextGrid + 1 ∧
      t.arrivals = s.arrivals + 1 ∧ t.queues.get n = some q' ∧ q'.ridx = past q p ∧ q'.pending = none ∧
      t.rd (localOf pa) 8 = bytesOfNat 0 8 ∧ MemBut s t n (fun a => localOf pa ≤ a ∧ a < localOf pa + 8) ∧
      g.recVa = (p.w 5).toNat ∧ g.queue = n ∧ g.asn = b.asn ∧ g.ten = b.ten ∧ g.job = b.job ∧ g.graph = (p.w 6).toNat % 2 ^ 16 ∧
      g.kern = k ∧ g.gdim = dims ∧ g.bdim = block ∧ g.thread = q.thread ∧ g.entered = s.clock ∧
      ((∀ e ∈ s.grids, s.enteredAfter q.thread e.2 = false) → g.arrival = s.arrivals) ∧
      (∀ e ∈ s.grids, s.enteredAfter q.thread e.2 = true → g.arrival ≤ e.2.arrival) ∧ g.place = .millrace ∧ g.left = dims.1 * dims.2.1 * dims.2.2 ∧
      g.nextIndex = 0 ∧ g.release = (if p.flags / 4 % 2 = 1 then none else some s.clock) ∧
      g.args.length = (p.w 3).toNat / 2 ^ 33 % 2 ^ 5 ∧
      (∀ i, i < (p.w 3).toNat / 2 ^ 33 % 2 ^ 5 →
        g.args[i]? = some (if i % 2 = 0 then loOf (p.w (7 + i / 2)) else hiOf (p.w (7 + i / 2)))) ∧
      (∀ m, m ≠ s.nextGrid → t.grids.get m = (s.grids.get m).map (fun g =>
        if s.enteredAfter q.thread g = true then { g with arrival := g.arrival + 1 } else g))) ∧
  (∀ (n : Nat) (q : Queue) (p : Pkt), AtQueue s n 5 q p → p.formOk = true →
    let asn := (p.w 2).toNat % 2 ^ 16
    let ten := (p.w 2).toNat / 2 ^ 16 % 2 ^ 4
    let job := (p.w 2).toNat / 2 ^ 20 % 2 ^ 16
    (q.priv = false → ∃ t q', exec (.bind n) s = .next t ∧ t.queues.get n = some q' ∧ q'.lasterr = 3 ∧ q'.ridx = past q p) ∧
    (q.priv = true → s.tenBusy ten = true → ∃ t, exec (.bind n) s = .next t ∧ QueueAt t n q q.ridx (some .bind)) ∧
    (q.priv = true → s.tenBusy ten = false →
      (∀ m, m < 16 → m ≠ ten → tenEnabled (s.tenCfg m) = true → tenAsn (s.tenCfg m) ≠ asn) →
      (∀ j, s.jobOf job = some j → j.asn = asn ∧ j.ten = ten) →
      ∃ t q', exec (.bind n) s = .next t ∧ t.queues.get n = some q' ∧ q'.ridx = past q p ∧
        (ten < s.dev.tenCfg.length → (t.tenCfg ten).toNat = ((s.tenCfg ten).toNat / 2 ^ 48) * 2 ^ 48 + asn * 2 ^ 32 +
          (s.tenCfg ten).toNat % 2 ^ 32) ∧
        (∃ j, t.jobOf job = some j ∧ j.asn = asn ∧ j.ten = ten ∧
          q'.binding = some { root := ((p.w 1).toNat / 2 ^ 13 % 2 ^ 39) * 2 ^ 13, asn := asn, ten := ten, job := job, serial := j.serial }) ∧
        (∀ m q2 b2, m ≠ n → s.queues.get m = some q2 → q2.binding = some b2 → b2.ten = ten → ∃ q3, t.queues.get m = some q3 ∧
          q3.binding = some { b2 with root := ((p.w 1).toNat / 2 ^ 13 % 2 ^ 39) * 2 ^ 13, asn := asn }))) ∧
  (s.startup = 4 → s.lastTick + s.tickSpacing * 1400 ≤ s.clock → ∃ t, exec .tickBoundary s = .next t ∧ t.tick = s.tick + 1 ∧
    t.lastTick = s.lastTick + s.tickSpacing * 1400 ∧ t.tickSpacing = s.tickPeriod ∧
    (∀ g gr, s.grids.get g = some gr → t.grids.get g =
      some (if gr.place = .millrace ∧ gr.release = none then { gr with release := some (s.lastTick + s.tickSpacing * 1400) } else gr)) ∧
    ((∀ e ∈ s.queues, ∀ m, e.2.pending ≠ some (.tickalign m)) → t.queues = s.queues ∧ t.mem = s.mem))

/-! ## Storage and faults (spec/06, spec/21) -/

namespace Sys2Proof.Claims

/-- Bytes of this module's memory that no mapped queue's descriptor overlaps. -/
def Clear (s : State) (a n : Nat) : Prop := ∀ e ∈ s.queues, a + n ≤ s.descOf e.1 ∨ s.descOf e.1 + 64 ≤ a

/-- Ending job `job` with a job-level code (R485): its running grids record the code, and those not cancelled start no further block,
their resident blocks abort with it, and no held write of the job is left. -/
def JobEnded (s t : State) (job code : Nat) : Prop :=
  (∀ g gr, s.grids.get g = some gr → gr.job = job → gr.place ≠ .done → ∃ gr', t.grids.get g = some gr' ∧ gr'.trapcode = code) ∧
  (∀ g gr, s.grids.get g = some gr → gr.job = job → gr.cancelled = false → gr.place ≠ .done →
    (∃ gr', t.grids.get g = some gr' ∧ gr'.trapcode = code ∧ gr'.anyAbort = true ∧
      gr'.nextIndex = gr.gdim.1 * gr.gdim.2.1 * gr.gdim.2.2) ∧
    ∀ b p, s.block b = some p → p.grid = g → p.cancelled = false → p.aborted = none →
      ∃ q, t.block b = some q ∧ q.aborted = some code) ∧
  ∀ e ∈ t.lag, ¬ (e.2.held = true ∧ e.2.job = job)

end Sys2Proof.Claims

/-- R167 to R176, R180 to R183: a held write that fits commits, its new sectors taken from the pool before the old return; the
sweep, at the next frame that Reed may choose, clears its access mark or starts a move to the tier-2 frame at the end of the free list; MOVE_CTL starts the move its
registers name or reports why not; a finished move that no write waits for has copied the page, pointed the leaf at it and dropped the page's translations;
a flush writes back the dirty lines of its range as far as their controllers have room, and ends when all are
committed, its lines leaving the L2 with INV; the free list, its count and the thresholds take the writes their rules allow. -/
def Obligations.StorageResults : Prop := ∀ (s : State),
  (∀ line, s.heldAt line = true → s.commitFits line = true → ∃ t, exec (.heldWriteCommit line) s = .next t ∧ t.mem = s.mem ∧
    t.lag.get line = none ∧ (∀ l, l ≠ line → t.lag.get l = s.lag.get l) ∧
    (s.reed.poolFree.length = 16 → let st := stackOf (128 * line)
      t.poolFree st + lineSectors (s.rd (128 * line) 128) = s.poolFree st + lineSectors (s.committed line))) ∧
  (∀ stack frame leaf, let pa := 65536 * frame
    let e := s.rd64 (localOf leaf)
    s.reedUpdate.reed.working.getD stack false = true → 0 < s.reed.t2Count → pa < s.hbmBytes → s.granaryFrame pa = false →
    s.moving pa = false → leaf % 8 = 0 → s.backed leaf = true → moduleOf leaf = s.dev.moduleNum → e.toNat % 4 = 3 →
    leafOk e false = true → leafNd e = false → e.toNat / 65536 % 2 ^ 36 = (s.dev.moduleNum * 2 ^ 45 + pa) / 65536 →
    (∀ f ∈ s.demotable, s.ahead frame ≤ s.ahead f) →
    (s.reed.accessed.contains frame = true → ∃ t, exec (.reedDemote stack frame leaf) s = .next t ∧
      t.reed.accessed = s.reed.accessed.filter (fun n => n ≠ frame) ∧ t.reed.moves = s.reed.moves ∧ t.reed.hand = frame + 1 ∧ t.mem = s.mem) ∧
    (s.reed.accessed.contains frame = false → ∃ t m, exec (.reedDemote stack frame leaf) s = .next t ∧
      t.reed.moves = s.reed.moves ++ [m] ∧ m.pte = leaf ∧ m.src = pa ∧ m.large = false ∧ m.software = false ∧
      m.dst = natOfBytes (s.rd (localOf s.reed.t2Base.toNat + 8 * (s.reed.t2Count - 1)) 8) ∧
      t.reed.t2Count = s.reed.t2Count - 1 ∧ t.reed.hand = frame + 1 ∧ t.mem = s.mem)) ∧
  (∀ v : DWord, v.getLsbD 0 = true →
    (s.moveBusy = true → exec (.moveStart v) s = .next s) ∧
    (s.moveBusy = false → s.moveResult ≠ 0 →
      exec (.moveStart v) s = .next { s with reed := { s.reed with moveResult := s.moveResult } }) ∧
    (s.moveBusy = false → s.moveResult = 0 → ∃ t m, exec (.moveStart v) s = .next t ∧ t.reed.moveResult = 0 ∧
      t.reed.moves = s.reed.moves ++ [m] ∧ m.pte = s.reed.movePte.toNat ∧ m.dst = s.reed.moveDst.toNat ∧ m.software = true ∧
      t.moveBusy = true ∧ t.mem = s.mem)) ∧
  (∀ frame m, s.reed.moves.find? (fun m => m.src = 65536 * frame) = some m → s.moveFits m = true → moduleOf m.dst = s.dev.moduleNum →
    Tbl.sorted s.mem = true → (localOf m.dst + m.size ≤ m.src ∨ m.src + m.size ≤ localOf m.dst) → Clear s (localOf m.pte) 8 →
    s.waitingFor m = [] → s.packetsFor m = [] → (localOf m.pte + 8 ≤ m.src ∨ m.src + m.size ≤ localOf m.pte) →
    (localOf m.pte + 8 ≤ localOf m.dst ∨ localOf m.dst + m.size ≤ localOf m.pte) →
    ∃ t, exec (.pageMoveComplete frame) s = .next t ∧
      (∀ i, i < m.size → byteAt t (localOf m.dst + i) = byteAt s (m.src + i)) ∧
      t.rd64 (localOf m.pte) = (s.rd64 (localOf m.pte) &&& 0xFFF000000000FFFF#64) |||
        BitVec.ofNat 64 (m.dst % 2 ^ 52 / 65536 * 65536) ∧
      (∀ a, (a < localOf m.pte ∨ localOf m.pte + 8 ≤ a) → (a < localOf m.dst ∨ localOf m.dst + m.size ≤ a) →
        (a < m.src ∨ m.src + m.size ≤ a) → byteAt t a = byteAt s a) ∧
      (∀ n ∈ t.reed.moves, n.src ≠ m.src) ∧
      (∀ e ∈ t.tlb, ¬ (s.dev.moduleNum * 2 ^ 45 + m.src ≤ leafPa e.leaf e.large 0 ∧
        leafPa e.leaf e.large 0 < s.dev.moduleNum * 2 ^ 45 + m.src + m.size))) ∧
  (∀ v : DWord, let n := v.toNat / 2 ^ 8 % 2 ^ 21
    v.getLsbD 0 = true → s.reed.flushBusy = false → n ≠ 0 → ∃ t, exec (.l2FlushStart v) s = .next t ∧ t.mem = s.mem ∧
      t.reed.flushBusy = true ∧ t.reed.flushLines = n ∧ t.reed.flushInv = v.getLsbD 1 ∧ t.reed.flushDrop = v.getLsbD 1 ∧
      t.reed.flushFrom = localOf s.reed.flushAddr.toNat / 128 ∧
      t.reed.flushCount = (if moduleOf s.reed.flushAddr.toNat = s.dev.moduleNum then n else 0) ∧
      (moduleOf s.reed.flushAddr.toNat = s.dev.moduleNum → ∀ l g, t.lag.get l = some g →
        localOf s.reed.flushAddr.toNat / 128 ≤ l → l < localOf s.reed.flushAddr.toNat / 128 + n → g.held = true ∨ t.ctlFull l = true)) ∧
  (s.reed.flushBusy = true → (∀ e ∈ s.lag, s.flushLine e.1 = false) →
    let lines := if s.reed.flushDrop = true then s.l2.filter (fun e => !s.flushLine e.line) else s.l2
    exec .l2FlushDone s = .next { s with reed := { s.reed with flushBusy := false }, l2 := lines }) ∧
  (∀ v : DWord, let refused := s.reed.t2Count = s.reed.t2Cap ∨ v.toNat % 65536 ≠ 0 ∨ 2 ^ 52 ≤ v.toNat ∨
        moduleOf v.toNat ≠ s.dev.moduleNum ∨ s.region v.toNat ≠ .tier2
    let at_ := localOf s.reed.t2Base.toNat + 8 * s.reed.t2Count
    (refused → exec (.t2FreePush v) s = .next { s with reed := { s.reed with pushErr := true } }) ∧
    (¬ refused → Clear s at_ 8 → ∃ t, exec (.t2FreePush v) s = .next t ∧ t.reed.t2Count = s.reed.t2Count + 1 ∧
      t.rd at_ 8 = bytesOfNat v.toNat 8 ∧ ∀ a, (a < at_ ∨ at_ + 8 ≤ a) → byteAt t a = byteAt s a)) ∧
  (∀ v : DWord, exec (.t2FreeCountWrite v) s =
    .next (if s.reedActive then s else { s with reed := { s.reed with t2Count := v.toNat % 2 ^ 32 } })) ∧
  (∀ n (v : DWord), ∃ t, exec (.poolThresholdWrite true n v) s = .next t ∧ t.mem = s.mem ∧ t.reed.poolLow = s.reed.poolLow ∧
    t.reed.poolHigh = (if s.reed.poolLow.getD n 0 < v.toNat then s.reed.poolHigh.set n v.toNat else s.reed.poolHigh)) ∧
  (∀ n (v : DWord), ∃ t, exec (.poolThresholdWrite false n v) s = .next t ∧ t.mem = s.mem ∧ t.reed.poolHigh = s.reed.poolHigh ∧
    t.reed.poolLow = (if v.toNat < s.reed.poolHigh.getD n 0 then s.reed.poolLow.set n v.toNat else s.reed.poolLow))

/-- R481 to R485: an answer to a fault that is not open changes nothing. RETRY makes threads held for the page fetch again, retries
held writes, and lets threads held at a `brk` run on; FATAL ends the job (storage exhausted or access fatal) or aborts the blocks
held at the `brk`. FAULTQ_BASE sets both indices to 0 and FAULTQ_SIZE takes 6 to 16. -/
def Obligations.FaultAnswerResults : Prop := ∀ (s : State),
  (∀ id, (∀ f ∈ s.faultq.recs, ¬ (f.open_ = true ∧ f.id = id)) →
    exec (.faultAckRetry id) s = .next s ∧ exec (.faultAckFatal id) s = .next s) ∧
  (∀ id f, s.openFault id = some f →
    (1 ≤ f.kind → f.kind ≤ 3 → (∀ r ∈ s.replays, r.fault ≠ id) → (∀ e ∈ s.cores, ∀ q ∈ e.2.queues, ∀ c ∈ q, c.fault ≠ some id) →
      ∃ t, exec (.faultAckRetry id) s = .next t ∧ (∀ g ∈ t.faultq.recs, g.id = id → g.open_ = false) ∧ t.mem = s.mem ∧
        ∀ (b : Nat) (p : Block) (w : Nat) (v : Wave) (l : Nat) (y : Thread), s.block b = some p → p.core = f.core → p.asn = f.asn → p.waves[w]? = some v → v.threads[l]? = some y →
          y.pc.toNat / 65536 = f.addr / 65536 → ∃ v', t.wave b w = some v' ∧ v'.threads[l]? = some { y with fetchHeld := false }) ∧
    (f.kind = 4 → (∀ h ∈ s.faultq.recs, h.open_ = true → h.kind = 4 → h.id = id) →
      ∀ line g, s.lag.filter (fun e => e.2.held) = [(line, g)] → lineSectors (s.rd (128 * line) 128) ≤ s.poolFree (stackOf (128 * line)) →
      ∃ t, exec (.faultAckRetry id) s = .next t ∧ t.lag.get line = none ∧ t.mem = s.mem) ∧
    (f.kind = 6 → (∀ b p, s.block b = some p → ∀ v ∈ p.waves, Calm v ∧ ∃ y ∈ v.threads, y.st ≠ .exited) →
      ∃ t, exec (.faultAckRetry id) s = .next t ∧ t.mem = s.mem ∧ ∀ b w v, s.wave b w = some v → ∃ v', t.wave b w = some v' ∧
        v'.v = v.v ∧ v'.s = v.s ∧
        v'.threads = v.threads.map (fun y => if y.st = .waiting (.brk id) then resumed y else y)) ∧
    ((1 ≤ f.kind ∧ f.kind ≤ 3 ∨ f.kind = 5) → ∃ t, exec (.faultAckFatal id) s = .next t ∧ JobEnded s t f.job 0x0C) ∧
    (f.kind = 4 → ∃ t, exec (.faultAckFatal id) s = .next t ∧ JobEnded s t f.job 0x0B) ∧
    (f.kind = 6 → ∃ t, exec (.faultAckFatal id) s = .next t ∧ ∀ b p, s.block b = some p → p.cancelled = false → p.aborted = none →
      (∃ v ∈ p.waves, ∃ y ∈ v.threads, y.st = .waiting (.brk id)) → ∃ q, t.block b = some q ∧ q.aborted = some 0x0E)) ∧
  (∀ v : DWord, ∃ t, exec (.faultqBaseWrite v) s = .next t ∧ t.faultq.base = v &&& 0xFFFFFFFFFFFFF000#64 ∧ t.faultq.ridx = 0 ∧
    ((∀ f ∈ s.faultq.recs, f.written = true) → t.faultq.widx = 0 ∧ t.mem = s.mem)) ∧
  (∀ v : DWord, let n := v.toNat % 2 ^ 32
    ((n < 6 ∨ 16 < n) → exec (.faultqSizeWrite v) s = .next s) ∧
    (6 ≤ n → n ≤ 16 → ∃ t, exec (.faultqSizeWrite v) s = .next t ∧ t.faultq.size = n ∧ t.faultq.base = s.faultq.base)) ∧
  (∀ v : DWord, ∃ t, exec (.faultqRidxWrite v) s = .next t ∧ t.faultq.ridx = v.toNat % 2 ^ 32 ∧ t.faultq.base = s.faultq.base ∧
    ((∀ f ∈ s.faultq.recs, f.written = true) → t.mem = s.mem))

/-! ## Device registers (spec/06, spec/14, spec/18, spec/20, spec/22) -/

namespace Sys2Proof.Claims

/-- The offsets whose writes are those of another instruction of the table (Table 22-7). -/
def WriteOf (s : State) (v : DWord) : Prop :=
  let same := fun (o : Nat) (i : Instr) => exec (.registerWrite o v) s = exec i s
  (∀ n, n < 16 → same (8 * n) (.tenCfgWrite n v) ∧ same (0x2080 + 8 * n) (.poolThresholdWrite false n v) ∧
    same (0x2100 + 8 * n) (.poolThresholdWrite true n v)) ∧
  same 0x2180 (.t2FreeCountWrite v) ∧ same 0x2198 (.t2FreePush v) ∧ same 0x3008 (.granaryChunksWrite v) ∧
  same 0x4000 (.faultqBaseWrite v) ∧ same 0x4008 (.faultqSizeWrite v) ∧ same 0x4018 (.faultqRidxWrite v) ∧
  (∀ n, n < 64 → same (0x5000 + 8 * n) (.shfCfgWrite n v) ∧ same (0x6000 + 8 * n) (.collCfgWrite n none v) ∧
    ∀ j, j < 16 → same (0x6200 + 128 * n + 8 * j) (.collCfgWrite n (some j) v)) ∧
  same 0x9000 (.moduleNumWrite v) ∧ same 0x9008 (.qdescBaseWrite v) ∧ same 0x9010 (.powerLimitWrite v) ∧
  (∀ m p, m < 128 → p < 16 → same (0x40000 + 128 * m + 8 * p) (.fabRouteWrite m p v))

end Sys2Proof.Claims

/-- R222, R364, R385, R411, R439, R500, R504, R505, R510, R512: what a write of each device register does, what refuses it, and what
it reads as afterwards; a write of a read-only or absent register changes nothing. -/
def Obligations.DeviceRegisterResults : Prop := ∀ (s : State) (v : DWord),
  (∀ g, g < 64 →
    let refused := v.toNat / 2 ^ 56 % 2 ^ 7 ≠ 0 ∨ 11 ≤ v.toNat / 2 ^ 52 % 16
    (refused → exec (.shfCfgWrite g v) s = .next s) ∧
    (¬ refused → v.getLsbD 63 = false → exec (.shfCfgWrite g v) s =
      .next { s with sheafs := s.sheafs.put g { s.sheaf g with cfg := v, state := 3 } }) ∧
    (¬ refused → v.getLsbD 63 = true → ∃ t, exec (.shfCfgWrite g v) s = .next t ∧
      t.sheaf g = { cfg := v, state := 0, producers := 0, takers := 0, regerr := false, fullerr := false, lists := [], used := [] } ∧
      (∀ m, m ≠ g → t.sheaf m = s.sheaf m) ∧ { t with sheafs := s.sheafs, blocks := s.blocks, images := s.images } = s ∧
      (∀ b w y, s.wave b w = some y → ∃ y', t.wave b w = some y' ∧ { y' with producer := y.producer, taker := y.taker } = y ∧
        y'.producer.getLsbD g = false ∧ y'.taker.getLsbD g = false ∧
        ∀ m, m ≠ g → y'.producer.getLsbD m = y.producer.getLsbD m ∧ y'.taker.getLsbD m = y.taker.getLsbD m))) ∧
  (∀ n, n < s.dev.tenCfg.length →
    let new := (v &&& 0x87FF0000FFFF0000#64) ||| (s.tenCfg n &&& 0x0000FFFF00000000#64)
    let refused := 1024 < tenQuota new ∨ 1024 < s.quotaSum n new ∨ (new.getLsbD 63 = false ∧ s.tenBusy n = true)
    (refused → exec (.tenCfgWrite n v) s = .next s) ∧
    (¬ refused → ∃ t, exec (.tenCfgWrite n v) s = .next t ∧ t.tenCfg n = new ∧ (∀ m, m ≠ n → t.tenCfg m = s.tenCfg m) ∧
      { t with dev := s.dev, cores := s.cores } = s ∧ { t.dev with tenCfg := s.dev.tenCfg } = s.dev ∧
      (new.getLsbD 63 = true → (s.tenCfg n).getLsbD 63 = false → ∀ c k h, t.cores.get c = some k → k.shares.get n = some h →
        h.b = 0 ∧ h.e = 0) ∧
      (new.getLsbD 63 = false ∨ (s.tenCfg n).getLsbD 63 = true → t.cores = s.cores))) ∧
  (∀ g, (s.collBusy g = true → exec (.collCfgWrite g none v) s = .next s ∧ ∀ j, exec (.collCfgWrite g (some j) v) s = .next s) ∧
    (s.collBusy g = false → ∀ j, j < (s.coll g).map.length → ∃ t, exec (.collCfgWrite g (some j) v) s = .next t ∧
      (t.coll g).map[j]? = some v ∧ (t.coll g).cfg = (s.coll g).cfg ∧ { t with colls := s.colls } = s) ∧
    (s.collBusy g = false → v.getLsbD 63 = true → s.collDefOk (v &&& 0x8000000F007F007F#64) (s.coll g).map = false →
      exec (.collCfgWrite g none v) s = .next s) ∧
    (s.collBusy g = false → (v.getLsbD 63 = true → s.collDefOk (v &&& 0x8000000F007F007F#64) (s.coll g).map = true) →
      ∃ t, exec (.collCfgWrite g none v) s = .next t ∧ (t.coll g).cfg = v &&& 0x8000000F007F007F#64 ∧
        (t.coll g).map = (s.coll g).map ∧ (∀ m, m ≠ g → t.coll m = s.coll m) ∧ { t with colls := s.colls } = s)) ∧
  (let busy := s.images ≠ [] ∨ ∃ e ∈ s.blocks, e.2.chunks ≠ [];
    (busy → exec (.granaryChunksWrite v) s = .next s) ∧
    (¬ busy → exec (.granaryChunksWrite v) s =
      let n := v.toNat % 2 ^ 32
      .next { s with dev := { s.dev with granaryChunks := n, granaryFree := List.range n } })) ∧
  exec (.moduleNumWrite v) s = .next (if s.fabricOpen then s else { s with dev := { s.dev with moduleNum := v.toNat % 128 } }) ∧
  (s.queues ≠ [] → exec (.qdescBaseWrite v) s = .next s) ∧
  (s.queues = [] → exec (.qdescBaseWrite v) s = .next { s with dev := { s.dev with qdescBase := v &&& 0xFFFFFFFFFFFF0000#64 } }) ∧
  (∀ m p, p < 16 → ∃ t, exec (.fabRouteWrite m p v) s = .next t ∧ { t with dev := { t.dev with fabRoute := s.dev.fabRoute } } = s ∧
    (s.pathBusy m p = true → t = s) ∧
    (s.pathBusy m p = false → t.dev.fabRoute.get (16 * m + p) = some ((v.toNat / 2 ^ 15 % 2) * 2 ^ 15 + v.toNat % 64))) ∧
  (let n := v.toNat % 2 ^ 32
    let since := if n < s.power.now then s.power.overSince else none
    exec (.powerLimitWrite v) s =
      .next (if 2000 ≤ n ∧ n ≤ 8000 then { s with power := { s.power with limit := n, overSince := since } } else s) ∧
    exec (.tickPeriodWrite v) s = .next (if 1000 ≤ n ∧ n ≤ 4000000 then { s with tickPeriod := n } else s)) ∧
  exec .dumpRelease s = .next { s with health := { s.health with dump := false, dumps := [] } } ∧
  WriteOf s v ∧
  (let holds := fun (o : Nat) (x : DWord) => ∃ t, exec (.registerWrite o v) s = .next t ∧ t.devRead o = x ∧
      { t with dev := s.dev, reed := s.reed, health := s.health } = s;
    holds 0x1080 (v &&& 0xFFFFFFFFFFFF0000#64) ∧ holds 0x2188 (v &&& 0xFFFFFFFFFFFFFFF8#64) ∧
    holds 0x2190 (v &&& 0x00000000FFFFFFFF#64) ∧ holds 0x21A8 v ∧ holds 0x21B0 v ∧ holds 0x21C0 (v &&& 0xFFFFFFFFFFFFFF80#64) ∧
    holds 0x3000 (v &&& 0xFFFFFFFFFFFF0000#64) ∧ holds 0x3018 (v &&& 0x00000000FFFFFFFF#64) ∧ holds 0x30008 v) ∧
  (∀ o ∈ [0x80, 0xF8, 0x1088, 0x2000, 0x2078, 0x21D0, 0x3010, 0x3020, 0x4010, 0x9018, 0x9020, 0x9028, 0x10000, 0x23FF8, 0x44000],
    exec (.registerWrite o v) s = .next s)

/-! ## Reset, power, the fatal path, fencing (spec/01, spec/19, spec/22) -/

namespace Sys2Proof.Claims

/-- The fatal-error path (R501): the device is in reset; where the dump fits (R185, R22) it stands at DUMP_BASE with its reason and
argument, and DUMP is set. -/
def DumpTaken (s t : State) (reason arg : Nat) : Prop :=
  t.startup = 1 ∧ t.resetLow = true ∧ t.blocks = [] ∧ t.queues = [] ∧ t.grids = [] ∧ t.sessions = [] ∧ t.dev = Dev.reset ∧
  let base := localOf s.health.dumpBase.toNat
  let n := (s.dump reason arg).length
  (s.dumpFits base n = true → t.health.dump = true ∧ t.health.dumpBase = s.health.dumpBase ∧ t.health.dumps = s.health.dumps ++ [(base, n)] ∧
    (Clear s base 8 → t.rd base 8 = bytesOfNat 0x504D5544 4 ++ bytesOfNat reason 2 ++ bytesOfNat arg 2)) ∧
  (s.dumpFits base n = false → t.health.dump = s.health.dump ∧ t.health.dumps = s.health.dumps)

end Sys2Proof.Claims

/-- R15 to R22, R448, R449, R491, R494, R497 to R502: reset and boot; the governor, temperature and rails; the fatal path and what
takes it; a scrubbed line that cannot be corrected reads as zeros; fencing of units; a port that trains again. -/
def Obligations.ResetAndHealthResults : Prop := ∀ (s : State),
  (∃ t, exec .resetAssert s = .next t ∧ t.startup = 1 ∧ t.resetLow = true ∧ t.blocks = [] ∧ t.reqs = [] ∧ t.queues = [] ∧
    t.grids = [] ∧ t.sessions = [] ∧ t.services = [] ∧ t.dev = Dev.reset ∧ t.flash = s.flash ∧ t.secure.rollback = s.secure.rollback ∧
    t.health.clusters = s.health.clusters ∧ t.health.fencedStacks = s.health.fencedStacks ∧ t.health.dump = s.health.dump ∧
    (∀ e ∈ s.cores, e.2.fenced = true → (t.core e.1).fenced = true ∧ t.health.replace = true) ∧
    (∀ e ∈ s.ports, e.2.fenced = true → t.portFenced e.1 = true ∧ t.health.replace = true) ∧
    (s.health.dump = false → t.mem = []) ∧
    (s.health.dump = true → ∀ d ∈ s.health.dumps, ∀ a, d.1 ≤ a → a < d.1 + d.2 → byteAt t a = byteAt s a)) ∧
  (∀ (cfg : SignedConfig) presented, s.resetLow = true → s.startup = 1 →
    let ok := fun (slot : Nat) => s.headerOk slot 1 = true ∧ s.signed slot = true ∧ s.keyHash slot = Config.vendorKey ∧
      s.secure.rollback ≤ s.slotSvn slot
    let config := fun (slot : Nat) => s.headerOk 2 2 = true ∧ s.signed 2 = true ∧ ∃ at_, (at_ = 24 ∨ at_ = 88) ∧
      s.flashRead slot at_ 64 = s.keyHash 2 ∧ ∃ x ∈ s.flashRead slot at_ 64, x ≠ 0
    let boots := fun (slot : Nat) => ok 0 ∧ (ok 1 → s.slotSvn 1 ≤ s.slotSvn 0) ∧ slot = 0 ∨
        ok 1 ∧ (ok 0 → s.slotSvn 0 < s.slotSvn 1) ∧ slot = 1
    ((∀ slot, ¬ (boots slot ∧ config slot)) →
      exec (.resetRelease cfg presented) s = .next { s with resetLow := false }) ∧
    (∀ slot, boots slot → config slot →
      ∃ t, exec (.resetRelease cfg presented) s = .next t ∧ t.startup = 4 ∧ t.resetLow = false ∧ t.clock = 0 ∧ t.cfg = some cfg ∧
        t.secure.slot = slot ∧ t.secure.svn = s.slotSvn slot ∧ t.secure.fw = s.measure slot ∧ t.secure.config = s.measure 2 ∧
        t.secure.rollback = s.secure.rollback ∧ t.mem = s.mem ∧ (768 ≤ presented → presented ≤ 1536 → t.presented = presented) ∧
        ∀ p, p < 36 → (s.portFenced p = true → t.portFenced p = true) ∧
          (s.portFenced p = false → ∃ y, t.ports.get p = some y ∧ y.trained = true ∧ y.fenced = false ∧ y.lanes = 4 ∧ y.ready = false ∧
            y.credReq = 128 ∧ y.credRep = 128 ∧ y.unacked = []))) ∧
  (∀ reason arg, 1 ≤ reason → reason ≤ 5 → s.startup = 4 →
    ∃ t, exec (.fatalError reason arg) s = .next t ∧ DumpTaken s t reason (if reason = 3 then arg else 0)) ∧
  (∀ (h : Head) (f : YFmt) (x : Ctx), s.ctx h = some x → x.blk.service = true → (x.act = 0 → exec (.halt h f) s = .next s) ∧
    (x.act ≠ 0 → ∃ t, exec (.halt h f) s = .next t ∧ t.startup = 1 ∧ t.blocks = [] ∧ (s.startup = 4 → DumpTaken s t 3 f.sysno.toNat))) ∧
  (∀ watts, let p := s.power
    let pacing := if p.limit * 98 < watts * 100 then true else if watts * 100 < p.limit * 95 then false else p.pacing
    exec (.powerSample watts) s = .next { s with power := { p with
                                            now := watts, pacing := pacing,
                                            overSince := if pacing && p.limit < watts then some (p.overSince.getD s.clock) else none } }) ∧
  (∀ c, s.power.overSince = some c → s.power.pacing = true → s.power.limit < s.power.now → c + 14000000 ≤ s.clock → ∃ t, exec .powerOverlimitFault s = .next t ∧ t.startup = 1 ∧ t.blocks = [] ∧
    (s.startup = 4 → DumpTaken s t 2 0)) ∧
  (∀ hottest, (hottest < 105 → exec (.temperatureSample hottest) s = .next { s with power := { s.power with
                                 therm := if 95 ≤ hottest then true else if hottest < 90 then false else s.power.therm } }) ∧
    (105 ≤ hottest → ∃ t, exec (.temperatureSample hottest) s = .next t ∧ t.startup = 1 ∧ t.blocks = [] ∧
      (s.startup = 4 → DumpTaken s t 1 0))) ∧
  (∀ rail since, (rail, since) ∈ s.power.railsBad → since + 1400000 < s.clock → s.resetLow = false →
    ∃ t, exec (.railOutOfWindow rail) s = .next t ∧ t.startup = 1 ∧ t.blocks = [] ∧ (s.startup = 4 → DumpTaken s t 2 0)) ∧
  (∀ rail ok, ∃ t, exec (.railRegulationChange rail ok) s = .next t ∧
    { t with power := { t.power with railsBad := s.power.railsBad } } = s ∧ ((∃ c, (rail, c) ∈ t.power.railsBad) ↔ ok = false) ∧
    (∀ r c, r ≠ rail → ((r, c) ∈ t.power.railsBad ↔ (r, c) ∈ s.power.railsBad)) ∧ (t.pwrGood = true ↔ t.power.railsBad = [])) ∧
  (∀ (prios : BitVec 8) quanta, ∃ t, exec (.pfcPauseFrame prios quanta) s = .next t ∧ { t with pfcPaused := s.pfcPaused, pfcEnds := s.pfcEnds } = s ∧
    ∀ i, i < 8 →
      let honoured := prios.getLsbD i = true ∧ (∃ c, s.cfg = some c ∧ c.pfcMask.getLsbD i = true) ∧
        (∃ x ∈ s.sessions, x.port = none ∧ x.phase ≠ .offered ∧ x.prio = i)
      (honoured → t.pfcPaused.getLsbD i = decide (quanta ≠ 0) ∧ ∃ c, t.pfcEnds.get i = some c ∧ s.clock ≤ c) ∧
      (¬ honoured → t.pfcPaused.getLsbD i = s.pfcPaused.getLsbD i ∧ t.pfcEnds.get i = s.pfcEnds.get i)) ∧
  (∀ line, let full := s.dev.moduleNum * 2 ^ 45 + 128 * line
    let k := if 128 * line < Config.t2Base then 1 else 3
    s.backed full = true → exec (.scrubRead ⟨line, .clean⟩) s = .next s ∧
    (∀ c, s.health.counters[k - 1]? = some c → c < 2 ^ 64 - 1 → ∃ t, exec (.scrubRead ⟨line, .corrected .memory⟩) s = .next t ∧
      t.health.counters[k - 1]? = some (c + 1) ∧ { t with health := s.health } = s) ∧
    (Clear s (128 * line) 128 → ∃ t, exec (.scrubRead ⟨line, .uncorrectable .memory⟩) s = .next t ∧
      (∀ i, i < 128 → byteAt t (128 * line + i) = 0) ∧
      (∀ a, (a < 128 * line ∨ 128 * line + 128 ≤ a) → byteAt t a = byteAt s a) ∧
      (∀ c, s.health.counters[k]? = some c → c < 2 ^ 64 - 1 → t.health.counters[k]? = some (c + 1)) ∧
      (∀ o g gr, s.ownerOf full = some o → s.grids.get g = some gr → gr.job = o.1 →
        t.grids.get g = some (if gr.place = .dispatcher then { gr with dataLoss := true } else gr)))) ∧
  (∀ n, (s.fenceDue .core n = true → ∃ t, exec (.unitFence .core n) s = .next t ∧ t.health.replace = true ∧
      (t.core n).fenced = true ∧ (∀ m, t.inSet m n = false) ∧
      ∀ (b : Nat) (p : Block), s.block b = some p → p.core = n → p.mode ≠ .saving → p.cancelled = false → p.aborted = none →
        ∃ q, t.block b = some q ∧ (q.mode = .saving ∨ q.aborted = some 0)) ∧
    (s.fenceDue .cluster n = true → ∃ t, exec (.unitFence .cluster n) s = .next t ∧ t.health.replace = true ∧
      n ∈ t.health.clusters ∧ ∀ i, i < 4 → (t.core (4 * n + i)).fenced = true) ∧
    (s.fenceDue .hbmStack n = true → ∃ t, exec (.unitFence .hbmStack n) s = .next t ∧ t.health.replace = true ∧
      n ∈ t.health.fencedStacks ∧ t.poolOf n = Nat.xor n 1 ∧ t.mem = s.mem) ∧
    (s.fenceDue .fabricPort n = true → (s.ports.get n).isSome → ∃ t, exec (.unitFence .fabricPort n) s = .next t ∧
      t.health.replace = true ∧ t.portFenced n = true ∧ ∀ m e, e ∈ t.paths m → e.2 ≠ n)) ∧
  (∀ port lanes x, s.ports.get port = some x → x.fenced = false → 16 ≤ x.retries → lanes ≤ x.lanes →
    let out := fun (replies : Bool) => x.unacked.filter (fun u => (u.packet.typ = 4 || u.packet.typ = 6 || u.packet.typ = 7) == replies)
    ∃ t, exec (.portRetrain port lanes) s = .next t ∧ t.mem = s.mem ∧
      (lanes < 3 → t.portFenced port = true ∧ t.health.replace = true) ∧
      (3 ≤ lanes → ∃ y, t.ports.get port = some y ∧ y.lanes = lanes ∧ y.trained = true ∧ y.retries = 0 ∧ y.unacked = x.unacked ∧
        y.credReq = 128 - (out false).length ∧ y.credRep = 128 - (out true).length ∧ y.nextSend = x.nextSend ∧ y.nextRecv = x.nextRecv ∧
        y.wire = x.wire ++ x.unacked.map (fun u => u.bytes)))

/-! ## The fabric and sessions (spec/08, spec/19, spec/22) -/

namespace Sys2Proof.Claims

/-- A reply of type `typ` to the source of `p`, with its tag, joins the packets to be sent; `p` has been taken. -/
def AnswersPacket (s t : State) (p : FabPacket) (typ status : Nat) (data : List Byte) : Prop :=
  t.fabIn = s.fabIn.erase p ∧ ∃ k, t.fabOut = s.fabOut ++ [k] ∧ k.typ = typ ∧ k.tag = p.tag ∧ k.dst = p.src ∧
    k.src = s.dev.moduleNum ∧ k.status = status ∧ k.data = data

/-- A protected frame of form `k` that its session takes, on a module whose ports are up; session numbers are distinct. -/
def Framed (s : State) (f : FrameHead) (k : FrameForm) (x : Session) : Prop :=
  s.startup = 4 ∧ s.session f.session = some x ∧ (x.port = none → s.foreign f.head = false) ∧ x.takes f (k.header x.hostV x.number) = true ∧
  k.queue < 1024 ∧ k.len ≤ 8192 ∧ ∀ y ∈ s.sessions, y.number = x.number → y = x

/-- A frame leaves for the host, or waits behind a pause of its session's priority (R19). -/
def Leaves (s t : State) (prio : Option Nat) (o : OutFrame) : Prop :=
  ∃ f : HostFrame, f.frame = o ∧ match prio with
    | some i => if s.pfcPaused.getLsbD i = true ∨ ∃ e ∈ s.outHeld, e.1 = i then t.out = s.out ∧ t.outHeld = s.outHeld ++ [(i, f)]
        else t.out = s.out ++ [f] ∧ t.outHeld = s.outHeld
    | none => t.out = s.out ++ [f] ∧ t.outHeld = s.outHeld

/-- The body of REFUSE. -/
def refusal (reason : Nat) : List Byte := bytesOfNat reason 4 ++ [0, 0, 0, 0]

end Sys2Proof.Claims

/-- R249, R497, R508 to R511: a sequence that is damaged or out of order is discarded and asked for again, the expected one is
accepted and its packets, opened under the port's keys, go to this module, onward, or to the port's session; a read is answered with its bytes, a write and an atomic act at their home,
a device register is read and written there, any other address that is not this module's memory is answered with status 1; a reply completes its request, ends the job, or delivers zeros;
a marker is acknowledged, and an acknowledged marker is forgotten. -/
def Obligations.FabricResults : Prop := ∀ (s : State),
  (∀ port (bs : List Byte) (x : FabPort), s.ports.get port = some x → x.trained = true → x.fenced = false →
    let h := seqHead bs
    let again := exec (.fabricSequence port bs) s = .next (s.updPort port (fun y => { y.askAgain with discarding := true }))
    (seqGood bs = false → again) ∧
    (seqGood bs = true → h.ctrl = false → h.seq ≠ x.nextRecv →
      (x.discarding = false → again) ∧ (x.discarding = true → exec (.fabricSequence port bs) s = .next s)) ∧
    (seqGood bs = true → h.ctrl = true → ∃ t y, exec (.fabricSequence port bs) s = .next t ∧ t.ports.get port = some y ∧
      t.fabIn = s.fabIn ∧ t.fabOut = s.fabOut ∧ y.nextRecv = x.nextRecv ∧ y.sessIn = x.sessIn ∧
      y.credReq = x.credReq + h.creditReq ∧ y.credRep = x.credRep + h.creditRep ∧
      (h.nak = true → y.wire = x.wire ++ y.unacked.map (fun u => u.bytes)) ∧
      (∀ pre k rest, h.ackv = true → h.nak = false → x.unacked = pre ++ k :: rest → k.seq = h.ack → (∀ e ∈ pre, e.seq ≠ h.ack) →
        y.unacked = rest)) ∧
    (∀ r rest, seqGood bs = true → h.ctrl = false → h.seq = x.nextRecv → x.parse bs = ([r], rest) →
      (∀ data, r.formOk = true → ((x.ready = false ∨ s.portSession port = none) ∧ data = r.body ∨
          x.ready = true ∧ ∃ k, s.portSession port = some k ∧ k.lastIn < r.counter ∧ r.counter ≤ 2 ^ 48 ∧
            Config.gcmOpen (k.keys.take 32) (gcmNonce (s.direction x false) r.counter) r.head r.body = some data) →
        let p := r.packet data
        p.typ < 9 → ∃ t y, exec (.fabricSequence port bs) s = .next t ∧ t.ports.get port = some y ∧ y.nextRecv = (x.nextRecv + 1) % 4096 ∧
          y.discarding = false ∧ y.oweAck = true ∧ y.rx = rest ∧ y.credReq = x.credReq + h.creditReq ∧ y.credRep = x.credRep + h.creditRep ∧
          t.mem = s.mem ∧ y.sessIn = (if p.typ = 7 then x.sessIn ++ [p] else x.sessIn) ∧
          t.fabIn = (if p.typ ≠ 7 ∧ x.ready = true ∧ p.dst = s.dev.moduleNum then s.fabIn ++ [p] else s.fabIn) ∧
          t.fabOut = (if p.typ ≠ 7 ∧ x.ready = true ∧ p.dst ≠ s.dev.moduleNum then s.fabOut ++ [p] else s.fabOut) ∧
          (h.ackv = false → h.nak = false → y.unacked = x.unacked)) ∧
      (∀ k, x.ready = true → s.portSession port = some k → k.phase ≠ .rekeying →
        Config.gcmOpen (k.keys.take 32) (gcmNonce (s.direction x false) r.counter) r.head r.body = none → again) ∧
      (∀ k data, x.ready = true → s.portSession port = some k → r.counter ≤ k.lastIn →
        Config.gcmOpen (k.keys.take 32) (gcmNonce (s.direction x false) r.counter) r.head r.body = some data →
        ∃ t, exec (.fabricSequence port bs) s = .next t ∧ t.fabIn = s.fabIn ∧ t.fabOut = s.fabOut ∧ t.mem = s.mem))) ∧
  (∀ p : FabPacket, let n := p.data.length
    (p.typ = 1 → s.turn p = true → s.homeAddr p.addr n = true →
      ∃ t, exec (.fabricRead p .clean) s = .next t ∧ AnswersPacket s t p 4 0 (s.rd (localOf p.addr) n) ∧ t.mem = s.mem) ∧
    (p.typ = 1 → s.turn p = true → s.regAddr p.addr n = true → ∃ t, exec (.fabricRead p .clean) s = .next t ∧
      AnswersPacket s t p 4 0 ((s.taken p).devLoad (localOf p.addr - Config.devBase) n) ∧ t.mem = s.mem) ∧
    (p.typ = 1 → s.turn p = true → s.homeAddr p.addr n = false → s.regAddr p.addr n = false →
      ∃ t, exec (.fabricRead p .clean) s = .next t ∧ AnswersPacket s t p 4 1 [] ∧ t.mem = s.mem) ∧
    (p.typ = 2 → s.turn p = true → s.regAddr p.addr n = true →
      exec (.fabricWrite p .clean) s = .next ((s.taken p).devStore (localOf p.addr - Config.devBase) p.data)) ∧
    (p.typ = 2 → s.turn p = true → s.homeAddr p.addr n = true → s.packetWaits p = false → Clear s (localOf p.addr) n →
      ∃ t, exec (.fabricWrite p .clean) s = .next t ∧ t.fabIn = s.fabIn.erase p ∧ t.fabOut = s.fabOut ∧
        t.rd (localOf p.addr) n = p.data ∧
        ∀ a, (a < localOf p.addr ∨ localOf p.addr + n ≤ a) → byteAt t a = byteAt s a) ∧
    (p.typ = 2 → s.turn p = true → s.homeAddr p.addr n = false → s.homeAddr p.addr 1 = false →
      s.regAddr p.addr n = false →
      ∃ t, exec (.fabricWrite p .clean) s = .next t ∧ AnswersPacket s t p 4 1 [] ∧ t.mem = s.mem) ∧
    (let n := if p.atop / 16 % 2 = 1 then 8 else 4;
      p.typ = 3 → p.atop % 16 ≤ 8 → s.turn p = true → s.packetWaits p = false →
      (s.homeAddr p.addr n = true → Clear s (localOf p.addr) n → ∃ t uns, exec (.fabricAtomic p .clean) s = .next t ∧
        t.rd (localOf p.addr) n = atomicBytes (p.atop % 16) uns n (s.rd (localOf p.addr) n) p.data ∧
        (∀ a, (a < localOf p.addr ∨ localOf p.addr + n ≤ a) → byteAt t a = byteAt s a) ∧
        (p.atop / 32 % 2 = 0 → AnswersPacket s t p 4 0 (s.rd (localOf p.addr) n)) ∧
        (p.atop / 32 % 2 = 1 → t.fabIn = s.fabIn.erase p ∧ t.fabOut = s.fabOut)) ∧
      (s.homeAddr p.addr n = false → ∃ t, exec (.fabricAtomic p .clean) s = .next t ∧ AnswersPacket s t p 4 1 [] ∧ t.mem = s.mem)) ∧
    (p.typ = 4 → s.fabIn.contains p = true → ∃ t, exec (.fabricReply p) s = .next t ∧ t.fabIn = s.fabIn.erase p ∧
      (∀ id r sg hint, s.awaiting p = some (id, r) → r.kind = .load sg hint → r.pol ≠ 3 →
        (p.status = 0 → t.reqs.get id = some { r with remoteTag := none, olds := r.olds ++ [(lineKey, p.data)], visible := true }) ∧
        (p.status = 2 → t.reqs.get id = some { r with
            remoteTag := none, olds := r.olds ++ [(lineKey, p.data.map (fun _ => 0))], visible := true } ∧
          ∀ gr, s.grids.get r.grid = some gr → t.grids.get r.grid = some { gr with dataLoss := true })) ∧
      (∀ id r, s.awaiting p = some (id, r) → p.status = 1 → JobEnded s t r.job 0x0C) ∧
      (∀ w, s.awaiting p = none → s.sent.get p.tag = some w → t.sent.get p.tag = none ∧ (p.status = 1 → JobEnded s t w.job 0x0C) ∧
        (p.status ≠ 1 → { t with fabIn := s.fabIn, sent := s.sent, pins := s.pins, ports := s.ports } = s))) ∧
    (p.typ = 5 → s.markerDue p = true → ∃ t, exec (.marker p) s = .next t ∧ AnswersPacket s t p 6 0 [] ∧ t.mem = s.mem) ∧
    (p.typ = 6 → s.fabIn.contains p = true → ∃ t, exec (.markerAck p) s = .next t ∧ t.fabIn = s.fabIn.erase p ∧
      { t with fabIn := s.fabIn, marks := s.marks, pins := s.pins, ports := s.ports, markPath := s.markPath } = s ∧ (p.tag, p.src) ∉ t.marks ∧
      ∀ e, e ≠ (p.tag, p.src) → (e ∈ t.marks ↔ e ∈ s.marks)) ∧
    (∀ port x, p.typ = 7 → s.ports.get port = some x → x.sessIn.head? = some p → x.message = none →
      ∃ t y, exec (.fabricSession port p) s = .next t ∧ t.ports.get port = some y ∧ y.sessIn = x.sessIn.erase p ∧ y.peer = p.src ∧
        y.msgLen = p.addr / 65536 % 65536 ∧
        y.msg = (if p.addr % 65536 = 0 then [(0, p.data)] else x.msg ++ [(p.addr % 65536, p.data)])))

/-- R354, R453 to R457, R506, R507, R511: HELLO is refused for want of a common version, a free session or a common priority, else a
session with the highest common versions and the lowest common priority is offered; KEY is refused for its three checks in order,
else the session is ready under the derived keys (and a fabric port carries packets); REKEY prepares new keys; CLOSE ends the
session; a command frame writes its packets into its queue's ring and moves WIDX; a message with a reserved value and a frame that its
session does not take are counted and dropped. -/
def Obligations.SessionResults : Prop := ∀ (s : State),
  (s.startup = 4 → ∀ m : HelloMsg,
    let host := max 1 m.hostLo ≤ min 2 m.hostHi
    let fw := max 1 m.fwLo ≤ min 2 m.fwHi
    let full := Config.hostSessions ≤ (s.sessions.filter (fun x => x.port.isNone)).length
    let prio := fun (i : Nat) => i < 8 ∧ m.prio.getLsbD i = true ∧ ∃ c, s.cfg = some c ∧ c.pfcMask.getLsbD i = true
    let refused := fun (reason : Nat) => ∃ t, exec (.hello none m) s = .next t ∧ t.sessions = s.sessions ∧
      Leaves s t none (.message 0 8 (refusal reason))
    (s.foreign m.head = false → helloOk none m = false → exec (.hello none m) s = .next (s.countError 10)) ∧
    (s.foreign m.head = false → helloOk none m = true →
      (¬ (host ∧ fw) → refused 1) ∧ (host → fw → full → refused 5) ∧ (host → fw → ¬ full → (∀ i, ¬ prio i) → refused 6) ∧
      (∀ i, host → fw → ¬ full → prio i → (∀ j, j < i → ¬ prio j) → ∃ t x body, exec (.hello none m) s = .next t ∧
        t.sessions = s.sessions ++ [x] ∧ x.number = s.nextSession ∧ t.nextSession = s.nextSession + 1 ∧ x.port = none ∧
        x.phase = .offered ∧ x.hostV = min 2 m.hostHi ∧ x.fwV = min 2 m.fwHi ∧ x.prio = i ∧ x.peerNonce = fit 64 m.nonce ∧
        x.transcript = helloBody m ++ body ∧ Leaves s t (some i) (.message s.nextSession 2 body))) ∧
    (∀ port, s.messageIs (some port) (fun bs => bs == helloBytes m) = true →
      (helloOk (some port) m = false → exec (.hello (some port) m) s = .next ((s.messageDone (some port)).countError 10)) ∧
      (helloOk (some port) m = true → max 1 m.fabLo ≤ min 3 m.fabHi →
        ∃ t x, exec (.hello (some port) m) s = .next t ∧ t.sessions = s.sessions ++ [x] ∧ x.number = s.nextSession ∧
          x.port = some port ∧ x.phase = .offered ∧ x.fabV = min 3 m.fabHi ∧ t.out = s.out))) ∧
  (s.startup = 4 → ∀ (m : KeyMsg) port, s.messageIs port (fun bs => bs == keyBytes m) = true → (port = none → s.foreign m.head = false) →
    (s.sessions.find? (fun x => x.number = m.session && x.port = port && x.phase == .offered) = none →
      exec (.key port m) s = .next ((s.messageDone port).countError 10)) ∧
    (∀ x, s.sessions.find? (fun x => x.number = m.session && x.port = port && x.phase == .offered) = some x →
      let known := ∃ c, s.cfg = some c ∧ Config.sha512 (peerKey m) ∈ c.peers
      let signed := Config.pssVerify (fit 512 m.modulus) (bytesOfNat m.exponent.toNat 4) (Config.sha512 (x.transcript ++ fit 512 m.cipher))
        (fit 512 m.signature) = true
      let secret := Config.identityDecrypt (fit 512 m.cipher)
      (keyOk x m = false → exec (.key port m) s = .next ((s.messageDone port).countError 10)) ∧
      (∀ reason, keyOk x m = true → (¬ known ∧ reason = 2 ∨ known ∧ ¬ signed ∧ reason = 3 ∨ known ∧ signed ∧ secret = none ∧ reason = 4) →
        ∃ t, exec (.key port m) s = .next t ∧ (∀ y ∈ t.sessions, y.number ≠ m.session) ∧
          (port = none → Leaves s t (some x.prio) (.message m.session 8 (refusal reason)))) ∧
      (∀ k, keyOk x m = true → known → signed → secret = some k → ∃ t y, exec (.key port m) s = .next t ∧ y ∈ t.sessions ∧
        y.number = m.session ∧ y.phase = .ready ∧ y.lastIn = 0 ∧
        y.keys = deriveKeys k x.peerNonce x.ownNonce m.session ∧
        (port = none → Leaves s t (some x.prio) (.message m.session 4 x.choice)) ∧
        (∀ p y, port = some p → t.ports.get p = some y → y.ready = true ∧ y.peerV = x.fabV)))) ∧
  (∀ (f : FrameHead) (x : Session),
    (∀ nonce cipher, Framed s f (msgForm 584) x → frameSays f 5 = true → x.port = none → x.phase = .ready → f.newKeys = false →
      (∀ k, Config.identityDecrypt (fit 512 cipher) = some k → ∃ t y, exec (.rekey f nonce cipher) s = .next t ∧
        y ∈ t.sessions ∧ y.number = x.number ∧ y.phase = .rekeying ∧ y.keys = x.keys ∧ y.lastIn = f.counter ∧ y.nextOut = 1 ∧
        y.newKeys = deriveKeys k (fit 64 nonce) y.ownNonce x.number ∧
        Leaves s t (some x.prio) (.message x.number 6 y.ownNonce))) ∧
    (Framed s f (msgForm 8) x → frameSays f 7 = true → s.messageIs x.port (fun bs => bs == bytesOfNat f.word.toNat 8) = true →
      ∃ t, exec (.sessionClose f) s = .next t ∧
        (∀ y ∈ t.sessions, y.number ≠ x.number) ∧ (∀ y ∈ s.sessions, y.number ≠ x.number → y ∈ t.sessions) ∧
        ∀ p y, x.port = some p → t.ports.get p = some y → y.ready = false) ∧
    (∀ n off (payload : List DWord), Framed s f ⟨0, n, off, 8 * payload.length⟩ x → x.port = none →
      (∀ q, s.queues.get n = some q → s.queueEnabled n = true → 8 * payload.length ≤ 2 ^ q.rsize → Clear s (localOf q.ring) (2 ^ q.rsize) →
        let bytes := payload.flatMap (fun w => bytesOfNat w.toNat 8)
        ∃ t q', exec (.commandFrame f n off payload) s = .next t ∧ t.queues.get n = some q' ∧
          q'.widx = (off + 8 * payload.length) % 2 ^ 32 ∧ q'.ridx = q.ridx ∧ t.qSess.get n = some x.number ∧
          (∀ i, i < 8 * payload.length → byteAt t (localOf q.ring + (off + i) % 2 ^ q.rsize) = bytes.getD i 0) ∧
          MemBut s t n (fun a => localOf q.ring ≤ a ∧ a < localOf q.ring + 2 ^ q.rsize)) ∧
      ((s.queues.get n = none ∨ s.queueEnabled n = false) →
        ∃ t, exec (.commandFrame f n off payload) s = .next t ∧ t.queues = s.queues ∧ t.mem = s.mem ∧
          { t with sessions := s.sessions } = s.countError 10))) ∧
  (∀ (f : FrameHead) n off (payload : List DWord), s.startup = 4 → s.foreign f.head = false →
    let k : FrameForm := ⟨0, n, off, 8 * payload.length⟩
    (s.session f.session = none ∨ ∃ x, s.session f.session = some x ∧
      (x.takes f (k.header x.hostV x.number) = false ∨ 1024 ≤ n ∨ 1024 < payload.length)) →
    exec (.commandFrame f n off payload) s = .next (s.countError 10))

/-! ## Firmware services (spec/14, spec/19) -/

namespace Sys2Proof.Claims

/-- A service request in a frame that its host session takes and whose first word names it, while no other request of the session
waits. -/
def Sends (s : State) (f : FrameHead) (x : Session) (id : Nat) (r : Service) : Prop :=
  Framed s f ⟨3, 0, 0, r.length f⟩ x ∧ x.port = none ∧ f.word.toNat = requestWord id r.number ∧ ∀ w ∈ s.services, w.session ≠ x.number

/-- The session's version offers the service too. -/
def Asks (s : State) (f : FrameHead) (x : Session) (id : Nat) (r : Service) : Prop :=
  Sends s f x id r ∧ (x.fwV = 1 → r.number ≤ 10)

/-- The request is answered at once with a status and a body, and `P` holds of the state after it. -/
def Served (s : State) (i : Instr) (x : Session) (id n status : Nat) (body : List Byte) (P : State → Prop) : Prop :=
  ∃ t, exec i s = .next t ∧ Leaves s t (some x.prio) (.answer x.number id n status body) ∧ t.services = s.services ∧ P t

/-- The request waits: it is kept, and nothing is answered yet. -/
def Waits (s : State) (i : Instr) (x : Session) (P : State → Prop) : Prop :=
  ∃ t w, exec i s = .next t ∧ t.out = s.out ∧ t.outHeld = s.outHeld ∧ t.services = s.services ++ [w] ∧ w.session = x.number ∧ P t

/-- A queue between packets: nothing is in progress but a wait, which is abandoned. -/
def between (s : State) (q : Queue) : Prop :=
  q.pending = none ∨ q.pending = some .wait ∨ (∃ m, q.pending = some (.tickalign m)) ∨ s.waitFaulted q = true

def Same (s : State) : State → Prop := fun t => t.mem = s.mem ∧ t.queues = s.queues ∧ t.objects = s.objects ∧
  t.routines = s.routines ∧ t.flash = s.flash ∧ t.secure = s.secure ∧ t.dev = s.dev

end Sys2Proof.Claims

/-- R351 to R353, R450 to R452, R458 to R464: each service's answer and effect, status by status; a service that the session's
version does not offer is answered 0xFFFFFFFF; a hand-over that was accepted commits once no packet is in progress. -/
def Obligations.ServiceResults : Prop := ∀ (s : State),
  (∀ (f : FrameHead) (x : Session) (id : Nat),
    (∀ nonce, Asks s f x id (.attest nonce) → Served s (.attest f id nonce) x id 1 0 (s.report64 nonce ++ certBytes) (Same s)) ∧
    (∀ n, Asks s f x id (.mapQueue n) →
      ((s.queues.get n).isSome = true → ∃ body, Served s (.mapQueue f id n) x id 2 3 body (Same s)) ∧
      (s.queues.get n = none → (∀ th, s.queueFrom n th = none) → ∃ body, Served s (.mapQueue f id n) x id 2 2 body (Same s)) ∧
      (∀ q, s.queues.get n = none → s.queueFrom n 0 = some q → (∀ th, th < 32 → ∃ e ∈ s.queues, e.2.thread = th) →
        ∃ body, Served s (.mapQueue f id n) x id 2 1 body (Same s)) ∧
      (∀ th q, s.queues.get n = none → s.queueFrom n th = some q → th < 32 → (∀ e ∈ s.queues, e.2.thread ≠ th) →
        (∀ k, k < th → ∃ e ∈ s.queues, e.2.thread = k) →
        Served s (.mapQueue f id n) x id 2 0 (bytesOfNat th 8) (fun t => t.queues.get n = some q ∧ q.thread = th))) ∧
    (∀ n, Asks s f x id (.unmapQueue n) →
      (s.queues.get n = none → Served s (.unmapQueue f id n) x id 3 1 [] (Same s)) ∧
      (∀ q, s.queues.get n = some q → between s q →
        Served s (.unmapQueue f id n) x id 3 0 [] (fun t => t.queues.get n = none ∧ ∀ m, m ≠ n → t.queues.get m = s.queues.get m)) ∧
      (∀ q, s.queues.get n = some q → ¬ between s q → Waits s (.unmapQueue f id n) x (Same s))) ∧
    (∀ asn va size, Asks s f x id (.load asn va size) →
      (s.holderOf asn = none → Served s (.load f id asn va size) x id 4 5 [] (Same s)) ∧
      (∀ m, s.holderOf asn = some m → let o : ObjAt := { asn := asn, root := (s.dev.tenRoot.getD m 0).toNat, va := va }
        let table := s.objTable o
        let readable := s.svcRangeOk asn o.root Need.load va size = true
        let writable := size < 128 ∨ size < table.1 + table.2 ∨ s.svcRangeOk asn o.root Need.store (va + table.1) table.2 = true
        let ok := readable ∧ writable ∧ s.objOk o size = true
        (¬ (readable ∧ writable) → Served s (.load f id asn va size) x id 4 4 [] (Same s)) ∧
        (readable → writable → s.objOk o size = false → Served s (.load f id asn va size) x id 4 1 [] (Same s)) ∧
        (∀ b, ok → s.objBinds asn (s.objReq o) = .inl b → Served s (.load f id asn va size) x id 4 2 (bytesOfNat b 8) (Same s)) ∧
        (∀ rs b, ok → s.objBinds asn (s.objReq o) = .inr rs → s.unfit o rs = some b →
          Served s (.load f id asn va size) x id 4 3 (bytesOfNat b 8) (Same s)) ∧
        (∀ rs, ok → s.objBinds asn (s.objReq o) = .inr rs → s.unfit o rs = none →
          Served s (.load f id asn va size) x id 4 0 [] (fun t => ∃ ob, t.loaded asn va = some ob ∧
            ob.binds = rs.map (fun r => (r.bit, r.va)) ∧ ob.kcount = s.obj32 o 4 ∧ ob.code = va + s.obj32 o 88)))) ∧
    (∀ asn va, Asks s f x id (.unload asn va) →
      (s.loaded asn va = none → Served s (.unload f id asn va) x id 5 1 [] (Same s)) ∧
      (∀ o, s.loaded asn va = some o → (∀ e ∈ s.grids, e.2.ended = false → s.usesObject e.2 o = false) →
        Served s (.unload f id asn va) x id 5 0 [] (fun t => t.loaded asn va = none)) ∧
      (∀ o, s.loaded asn va = some o → (∃ e ∈ s.grids, e.2.ended = false ∧ s.usesObject e.2 o = true) →
        Waits s (.unload f id asn va) x (Same s))) ∧
    (∀ asn bit va offset vregs sregs, Asks s f x id (.registerEmulation asn bit va offset vregs sregs) →
      let i := Instr.registerEmulation f id asn bit va offset vregs sregs
      let bits := bit = 0 ∨ bit = 12 ∨ 27 ≤ bit ∨ (bit ≠ 9 ∧ bit < 32 ∧ Config.featureMask0.testBit bit = true)
      let counts := 1 ≤ vregs ∧ vregs ≤ 256 ∧ 1 ≤ sregs ∧ sregs ≤ 64
      (s.loaded asn va = none → Served s i x id 6 1 [] (Same s)) ∧
      (∀ o, s.loaded asn va = some o → (o.binds ≠ [] → Served s i x id 6 1 [] (Same s)) ∧
        (o.binds = [] → bits → Served s i x id 6 2 [] (Same s)) ∧
        (o.binds = [] → ¬ bits → ¬ counts → Served s i x id 6 3 [] (Same s)) ∧
        (o.binds = [] → ¬ bits → counts → Served s i x id 6 0 [] (fun t => t.mem = s.mem ∧
          { asn := asn, bit := bit, va := o.code + offset, vregs := vregs, sregs := sregs } ∈ t.routines ∧
          ∀ r ∈ t.routines, r.asn = asn → r.bit = bit → r.va = o.code + offset)))) ∧
    (∀ lo hi slot, slot = slotNumber lo hi → Asks s f x id (.handover slot) →
      let ok := slot < 2 ∧ s.headerOk slot 1 = true ∧ s.signed slot = true ∧ s.keyHash slot = Config.vendorKey ∧
        s.secure.rollback ≤ s.slotSvn slot
      (s.secure.handover = true → Waits s (.handover f id lo hi) x (Same s)) ∧
      (s.secure.handover = false → slot = s.secure.slot → Served s (.handover f id lo hi) x id 7 2 [] (Same s)) ∧
      (s.secure.handover = false → slot ≠ s.secure.slot → ¬ ok → Served s (.handover f id lo hi) x id 7 1 [] (Same s)) ∧
      (s.secure.handover = false → slot ≠ s.secure.slot → ok → Waits s (.handover f id lo hi) x (fun t => t.mem = s.mem ∧
        t.secure = { s.secure with handover := true, fwNew := fit 64 (s.measure slot) }))) ∧
    (∀ slot offset data, Asks s f x id (.flashWrite slot offset data) →
      let bad := 3 ≤ slot ∨ slot = s.secure.slot ∨ 8144 < data.length ∨ 33554432 < offset + data.length
      (bad → Served s (.flashWrite f id slot offset data) x id 8 1 [] (Same s)) ∧
      (¬ bad → s.secure.handover = false → s.flash.length = 3 → Served s (.flashWrite f id slot offset data) x id 8 0 [] (fun t =>
        t.mem = s.mem ∧ (∀ i, i < data.length → t.flashByte slot (offset + i) = data.getD i 0) ∧
        (∀ k, (k < offset ∨ offset + data.length ≤ k) → t.flashByte slot k = s.flashByte slot k) ∧
        ∀ sl k, sl ≠ slot → t.flashByte sl k = s.flashByte sl k))) ∧
    (∀ offset, Asks s f x id (.regRead offset) → Served s (.regRead f id offset) x id 9 0 (bytesOfNat (s.devRead offset).toNat 8) (Same s)) ∧
    (∀ offset v, Asks s f x id (.regWrite offset v) → offset / 8 * 8 ≠ 0x4020 →
      Served s (.regWrite f id offset v) x id 10 (if (regAt (offset / 8 * 8)).elim false (fun r => s.devRefuses r v) then 1 else 0) []
        (fun t => exec (.registerWrite offset v) s = .next { t with out := s.out, outHeld := s.outHeld, sessions := s.sessions })) ∧
    (∀ addr data, (Asks s f x id (.memWrite addr data) → s.svcMem addr data.length = false → Served s (.memWrite f id addr data) x id 11 1 [] (Same s)) ∧
      (Asks s f x id (.memWrite addr data) → s.svcMem addr data.length = true → moduleOf addr = s.dev.moduleNum →
        (∀ l ∈ linesFrom addr data.length, s.writeWaits (128 * l) = false) → Clear s (localOf addr) data.length →
        let stored := fun (t : State) => t.rd (localOf addr) data.length = data ∧
          ∀ a, (a < localOf addr ∨ localOf addr + data.length ≤ a) → byteAt t a = byteAt s a
        let held := ∃ l ∈ linesFrom addr data.length, (s.store (localOf addr) data (s.chargedJob addr 0)).lineHeld l = true
        (¬ held → Served s (.memWrite f id addr data) x id 11 0 [] stored) ∧ (held → Waits s (.memWrite f id addr data) x stored))) ∧
    (∀ addr n, (Asks s f x id (.memRead addr n) → s.svcMem addr n = false → Served s (.memRead f id addr n) x id 12 1 [] (Same s)) ∧
      (Asks s f x id (.memRead addr n) → s.svcMem addr n = true → moduleOf addr = s.dev.moduleNum →
        Served s (.memRead f id addr n) x id 12 0 (s.rd (localOf addr) n) (Same s)) ∧
      (Sends s f x id (.memRead addr n) → x.fwV = 1 → Served s (.memRead f id addr n) x id 12 0xFFFFFFFF [] (Same s)) ∧
      (∀ data, Sends s f x id (.memWrite addr data) → x.fwV = 1 →
        Served s (.memWrite f id addr data) x id 11 0xFFFFFFFF [] (Same s))) ∧
    (∀ n, Sends s f x id (.notOffered n) → (n = 0 ∨ 12 < n ∨ x.fwV = 1 ∧ 10 < n) →
      Served s (.serviceNotOffered f id n) x id n 0xFFFFFFFF [] (Same s))) ∧
  (∀ (f : FrameHead) (id : Nat), s.startup = 4 → s.foreign f.head = false → (s.session f.session = none ∨
      ∃ x, s.session f.session = some x ∧ (x.port ≠ none ∨ f.tagOk = false ∨ 2 ^ 48 < f.counter ∨ f.newKeys = false ∧ f.counter ≤ x.lastIn)) →
    ∀ i ∈ [Instr.attest f id [], .mapQueue f id 0, .unmapQueue f id 0, .load f id 0 0 0, .unload f id 0 0,
      .registerEmulation f id 0 0 0 0 0 0, .handover f id 0 0, .flashWrite f id 0 0 [], .regRead f id 0, .regWrite f id 0 0,
      .memWrite f id 0 [], .memRead f id 0 0], exec i s = .next (s.countError 10)) ∧
  (∀ w slot, s.services = [w] → w.req = .handover slot → w.begun = true → s.secure.handover = true →
    (∀ e ∈ s.queues, e.2.pending = none) →
    ∃ t, exec .handoverCommit s = .next t ∧ t.services = [] ∧ t.mem = s.mem ∧ t.secure.handover = false ∧ t.secure.slot = slot ∧
      t.secure.svn = s.slotSvn slot ∧ t.secure.fw = s.secure.fwNew ∧ t.secure.fwNew = [] ∧
      t.secure.rollback = max s.secure.rollback (s.slotSvn slot) ∧
      (∀ x, s.session w.session = some x → Leaves s t (some x.prio) (.answer w.session w.id 7 0 [])))

/-! ### Where the forms complete -/

namespace Sys2Proof.Claims

/-- A matrix operation among an accumulator's commands. -/
def isMma : AccKind → Bool
  | .mma _ _ _ _ _ _ _ _ _ => true
  | _ => false

/-- Instructions whose own effect is a trap, that read or write a system register, or that ask the memory system for lines and monitors
(R101, R203 to R206, R382, R384, R465, R477, R481, R487): they answer a next state. -/
def InstructionsComplete (s : State) : Prop :=
  let runs := fun (i : Instr) => ∃ t, exec i s = .next t
  (∀ (w : DWord) (x : Ctx), s.ctx ⟨none, false⟩ = some x → runs (.wvote w) ∧ runs (.mma8 w)) ∧
  (∀ (h : Head) (f : YFmt) (x : Ctx), Issues s h (trapUses f) x → runs (.trap h f) ∧ runs (.brk h f)) ∧
  (∀ (h : Head) (f : YFmt) (x : Ctx), s.ctx h = some x → let n := f.sysno.toNat
    (firstBeyond x.blk.kern [.s f.d.toNat (if sysWide n then 2 else 1)] = none → runs (.sysRd h f)) ∧
    ((sysService n = true → x.blk.service = true) → firstBeyond x.blk.kern [.s f.a.toNat (if sysWide n then 2 else 1)] = none →
      runs (.sysWr h f))) ∧
  (∀ (h : Head) (f : MFmt) (x : Ctx), s.ctx h = some x →
    (firstBeyond x.blk.kern (f.uses 0 2 0) = none → runs (.prefetch h f)) ∧
    (∀ gs, firstBeyond x.blk.kern (f.uses 1 2 0) = none → x.wv.acq = [] → Translates s x Need.load (fun _ => false) (x.wants f 1 0 0) gs →
      runs (.mprobe h f)) ∧
    (firstBeyond x.blk.kern [.s f.d.toNat 1, .s f.a.toNat 2, .s f.b.toNat 1] = none → runs (.iclLock h f)) ∧
    (firstBeyond x.blk.kern [.s f.a.toNat 2, .s f.b.toNat 1] = none → runs (.iclFree h f)) ∧
    (firstBeyond x.blk.kern [.s f.d.toNat 1] = none → runs (.iclCount h f)) ∧
    (∀ g : Got, firstBeyond x.blk.kern [.s f.a.toNat 2] = none → f.ak = true → s.readsOut x.b x.w = false →
      Translates s x Need.load (fun _ => false) (x.wants f 1 0 0) [g] → runs (.monArm h f)) ∧
    (firstBeyond x.blk.kern [.s f.d.toNat 1, .s f.b.toNat 1] = none → runs (.monWait h f)))

/-- The events of the cores and their engines happen where their rules put them (R37, R45, R60, R144, R189, R215, R226, R322, R334,
R340, R373, R384, R389, R406, R416). -/
def CoreEventsComplete (s : State) : Prop :=
  let runs := fun (i : Instr) => ∃ t, exec i s = .next t
  (∀ (b w : Nat) (v : Wave), s.wave b w = some v →
    (∀ m, v.mon = some m → m.ended = none → m.hit = true → runs (.monitorTrigger b w)) ∧
    (∀ k n, k ∈ v.monWait → k.until_ = some n → n ≤ s.clock → runs (.monitorTimeout b w)) ∧
    (v.monWait ≠ [] → runs (.monitorSpuriousEnd b w)) ∧
    (∀ k, k ∈ v.take → (s.sheaf k.group).takeReady k = true → runs (.shfTakeReturn b w))) ∧
  (∀ core q c p, s.canBegin core q (fun c => !c.isColl) = some (c, p) → runs (.copyBegin core q)) ∧
  (∀ core q c p, s.canBegin core q (fun c => c.isColl && c.fault.isNone) = some (c, p) → runs (.collBegin core q)) ∧
  (∀ core q c rest, s.queueOf core q = c :: rest → c.isColl = true → c.row = 1 → (∀ l ∈ c.lines, s.lineHeld l = false) →
    runs (.collComplete core q false false)) ∧
  (∀ b p, s.block b = some p →
    (∀ cv mask ss, p.convs[cv]? = some (.opened mask ss) → (p.mode = .normal ∨ p.mode = .drain) → p.cancelled = false → p.aborted = none →
      p.roundComplete cv mask = true → (s.endRound b cv p ss).isSome = true → runs (.signingRoundComplete b cv)) ∧
    (∀ n a c rest, p.accs[n]? = some a → a.queue = c :: rest → p.mode ≠ .saving →
      (isMma c.kind = true → s.engineTurn p n = true → runs (.mmaKstep b n)) ∧
      (isMma c.kind = false → runs (.accCommandPerform b n))) ∧
    (∀ n, p.phaseFull n = true → runs (.barrierPhaseComplete b n)) ∧
    (p.over = true → s.workLeft b p = false → p.remoteLeft = false → s.marksOut p = false → runs (.blockRetire b)) ∧
    (p.mode = .saving → p.aborted = none → s.saveWaits b p = false → runs (.saveImageWrite b)) ∧
    (p.mode = .resuming → p.cancelled = false → p.aborted = none → p.waitCmds = [] → runs (.resumeIssue b)) ∧
    (∀ w at_ r, s.fetchTrouble b w = some (at_, r) → p.live = true → (r = .absent ∨ r = .denied) → runs (.fetchFault b w))) ∧
  (∀ p ∈ s.puts, runs (.shfPutArrive p.id)) ∧
  (∀ g, s.quiet g = true → runs (.stillwaterQuiet g)) ∧
  (∀ id r, s.reqs.get id = some r →
    (r.kind ≠ .probe → r.kind.returns = true → (r.visible = true ∨ s.loadReady id r = true ∧ s.myTurn r = true) →
      runs (.loadResult id .clean)) ∧
    (r.kind = .probe → s.probeReady id r = true → runs (.loadResult id .clean)) ∧
    (r.kind.isWrite = true → r.cmd = none → s.writeReady id r = true → (s.reqAway r = true ∨ s.myTurn r = true) →
      runs (.writePerform id .clean))) ∧
  (s.refillDue = true → runs .portRefill) ∧
  (∀ core e, s.refillDue = false → s.portChoice core = some e → runs (.portSend core .clean))

/-- The events of the front end, of storage and of the device happen, and its registers take their writes (Tables 6-8, 14-4, 18-5,
21-7, 22-2; R175, R179, R181, R182, R352, R366, R367, R392, R483, R499). -/
def DeviceEventsComplete (s : State) : Prop :=
  let runs := fun (i : Instr) => ∃ t, exec i s = .next t
  (∀ g gr, s.grids.get g = some gr → gr.place = .dispatcher → gr.left = 0 → s.gridClosed g gr = true → s.recordMoving gr = false →
    runs (.gridComplete g)) ∧
  (∀ n q p, q.status ≠ 2 → s.queues.get n = some q → q.pending = none → s.unmapping n = false → s.atHead q = .packet p →
    (p.typ = 1 → s.cpMoving q (p.w 5).toNat = false → runs (.launch n)) ∧ (p.typ = 2 → runs (.wait n)) ∧
    (p.typ = 3 → s.cpMoving q (p.w 1).toNat = false → runs (.signal n)) ∧ (p.typ = 4 → runs (.cancel n)) ∧
    (p.typ = 5 → runs (.bind n)) ∧ (p.typ = 6 → runs (.tickalign n)) ∧ (p.typ = 7 → runs (.close n))) ∧
  (∀ n q p, q.status ≠ 2 → s.queues.get n = some q → q.pending = some .met → s.atHead q = .packet p → p.typ = 2 → runs (.waitSatisfied n)) ∧
  (s.tickDue = true → runs .tickBoundary) ∧
  (∀ g, s.heldGrids.length < 4 → s.nextFromMillrace = some g → runs .dispatchTakeGrid) ∧
  (∀ g t, s.noteHead.placeAssigned = none → s.noteHead.head = some g → s.noteHead.placeGrid g = some t → runs .blockPlace) ∧
  (∀ n h g t, 1 ≤ n → n ≤ 3 → s.noteHead.head = some h → s.noteHead.heldGrids[n]? = some g → s.noteHead.mayBackfill h = true →
    (∀ k ∈ (s.noteHead.heldGrids.take n).drop 1, s.noteHead.placeGrid k = none) → s.noteHead.placeGrid g = some t → runs (.backfill n)) ∧
  (∀ e, s.noteHead.weirDue = some e → runs .weirRun) ∧
  (∀ line, s.heldAt line = true → s.commitFits line = true → runs (.heldWriteCommit line)) ∧
  (∀ frame m, s.reed.moves.find? (fun m => m.src = 65536 * frame) = some m → s.moveFits m = true → runs (.pageMoveComplete frame)) ∧
  (∀ v : DWord, (v.getLsbD 0 = true → runs (.moveStart v)) ∧
    (v.getLsbD 0 = true → s.reed.flushBusy = false → fld v 8 21 ≠ 0 → runs (.l2FlushStart v)) ∧
    runs (.t2FreePush v) ∧ runs (.t2FreeCountWrite v) ∧ (∀ high n, runs (.poolThresholdWrite high n v)) ∧
    (∀ id, runs (.faultAckRetry id) ∧ runs (.faultAckFatal id)) ∧ runs (.faultqBaseWrite v) ∧ runs (.faultqSizeWrite v) ∧
    runs (.faultqRidxWrite v) ∧ (∀ g, runs (.shfCfgWrite g v) ∧ runs (.tenCfgWrite g v) ∧ ∀ m, runs (.collCfgWrite g m v)) ∧
    runs (.granaryChunksWrite v) ∧ runs (.moduleNumWrite v) ∧ runs (.qdescBaseWrite v) ∧ (∀ m p, runs (.fabRouteWrite m p v)) ∧
    runs (.powerLimitWrite v) ∧ runs (.tickPeriodWrite v) ∧ (∀ o, runs (.registerWrite o v))) ∧
  runs .dumpRelease ∧
  (s.reed.flushBusy = true → (∀ e ∈ s.lag, s.flushLine e.1 = false) → runs .l2FlushDone)

/-- The events of the environment, the fabric and the firmware (R16 to R21, R427, R449, R454, R488, R491, R499, R505 to R513): from what
the host, a peer module or the board does, a next state follows. -/
def OutsideEventsComplete (s : State) : Prop :=
  let runs := fun (i : Instr) => ∃ t, exec i s = .next t
  (∀ n, runs (.powerSample n) ∧ runs (.temperatureSample n)) ∧
  (s.overlimitDue = true → runs .powerOverlimitFault) ∧
  (∀ rail, (s.railDue rail = true → runs (.railOutOfWindow rail)) ∧ ∀ ok, runs (.railRegulationChange rail ok)) ∧
  runs .resetAssert ∧
  (∀ v n, s.resetLow = true → s.startup = 1 → runs (.resetRelease v n)) ∧
  (∀ reason arg, 1 ≤ reason → reason ≤ 5 → s.startup = 4 → runs (.fatalError reason arg)) ∧
  (∀ line, s.backed (s.dev.moduleNum * 35184372088832 + 128 * line) = true → runs (.scrubRead ⟨line, .clean⟩)) ∧
  (∀ unit n, s.fenceDue unit n = true → runs (.unitFence unit n)) ∧
  (∀ port x, s.ports.get port = some x → x.fenced = false →
    (∀ bs, x.trained = true → runs (.fabricSequence port bs)) ∧
    (∀ lanes, 16 ≤ x.retries → lanes ≤ x.lanes → runs (.portRetrain port lanes))) ∧
  (∀ p : FabPacket,
    (p.typ = 1 → s.turn p = true → runs (.fabricRead p .clean)) ∧
    (p.typ = 2 → s.turn p = true → s.packetWaits p = false → runs (.fabricWrite p .clean)) ∧
    (p.typ = 3 → p.atop % 16 ≤ 8 → s.turn p = true → s.packetWaits p = false → runs (.fabricAtomic p .clean)) ∧
    (s.fabIn.contains p = true → (p.typ = 4 → runs (.fabricReply p)) ∧ (p.typ = 6 → runs (.markerAck p)) ∧ (p.typ = 8 → runs (.fabricColl p))) ∧
    (p.typ = 5 → s.markerDue p = true → runs (.marker p)) ∧
    (∀ port x, p.typ = 7 → s.ports.get port = some x → x.sessIn.head? = some p → x.message = none → runs (.fabricSession port p))) ∧
  (∀ prios quanta, runs (.pfcPauseFrame prios quanta)) ∧
  (s.startup = 4 → (∀ m, runs (.hello none m)) ∧ (∀ m, runs (.key none m)) ∧
    ∀ (f : FrameHead) (id a b c d e g : Nat) (bs cs : List Byte) (v : DWord) (vs : List DWord),
    runs (.commandFrame f a b vs) ∧ (s.portOf f.session = none → runs (.rekey f bs cs) ∧ runs (.sessionClose f)) ∧
    runs (.attest f id bs) ∧ runs (.mapQueue f id a) ∧ runs (.unmapQueue f id a) ∧ runs (.load f id a b c) ∧ runs (.unload f id a b) ∧
    runs (.registerEmulation f id a b c d e g) ∧ (∀ lo hi, runs (.handover f id lo hi)) ∧ runs (.flashWrite f id a b bs) ∧ runs (.regRead f id a) ∧
    runs (.regWrite f id a v) ∧ runs (.memWrite f id a bs) ∧ runs (.memRead f id a b) ∧
    (s.session f.session = none → runs (.serviceNotOffered f id a))) ∧
  (∀ w slot, s.handoverReq = some (w, slot) → s.secure.handover = true → (∀ e ∈ s.queues, e.2.pending = none) → runs .handoverCommit)

end Sys2Proof.Claims

/-- R101, R189, R215, R226, R322, R334, R366, R384, R392, R406, R481, R483: WHERE THE FORMS COMPLETE. Each instruction, event and
register write named here answers a next state under conditions on the state and the operands alone. -/
def Obligations.FormsComplete : Prop := ∀ (s : State),
  InstructionsComplete s ∧ CoreEventsComplete s ∧ DeviceEventsComplete s ∧ OutsideEventsComplete s

/-! ## The step, decoding, reset and invariants (spec/02, spec/03, spec/04) -/

/-- R33, R54, R64 to R68: when the next action is a wave's issue, nothing else is due, R368 and R369 let the wave go, its sub-core
has not issued in this clock and the wave stands in (or next takes) a packet, and the word of its next slot, a chain group of its own,
decodes to an instruction, then the step counts the issue in the wave's run and is exec of that instruction in the wave's issue
context, after which the threads stand at the next slot or have left the packet; what the module does after every action follows. A
word that decodes to nothing is an ILLEGAL_ENCODING trap of the threads that issue it. -/
def Obligations.StepRunsDecoded : Prop := ∀ (s : State) (b w : Nat) (rest : List Action) (es : List (Nat × Nat)) (blk : Block) (wv : Wave),
  s.fatalDue = false → s.tickDue = false → s.agenda = .issue b w :: rest → { s with agenda := rest }.yielding b w = some es →
  let a := { s with agenda := rest }.keepBack es 1
  a.block b = some blk → a.wave b w = some wv →
  blk.live = true → (a.core blk.core).fenced = false → a.subBusy b w = false → a.stays b w = false →
  let issuing := fun (u : State) (v : Wave) (p : Issue) =>
    { u with fresh := u.fresh + 1, note := .fine, cur := some ((v.sources p).curFor b w p p.slot p.lanes u.nextId (u.pending b w)) }
  let advance := fun (p : Issue) (t : State) (k : Nat) =>
    let u := { t with cur := none }.issuedAt b w p
    let v := match (u.wave b w).bind (fun x => x.issue) with
      | none => u
      | some i =>
        if i.lanes = 0 then u.updWave b w (fun x => { x with issue := none })
        else if 3 ≤ k && !u.stays b w then
          (u.updWave b w (fun x => { x.updLanes i.lanes Thread.leave with issue := none })).settle b w i.lanes
        else u.updWave b w (fun x => { x with issue := some { i with slot := k } })
    if 3 ≤ k then v.issuedLast b w p.lanes else v
  (∀ p i t, wv.issue = some p → p.lanes ≠ 0 → groupSlots p.words p.slot = [p.slot] → decode (p.words.getD p.slot 0) = some i →
    exec i (issuing (a.countRun b w false) wv p) = .next t → t.note = .fine →
    Machine.step s = .next ((advance p t (p.slot + 1)).rest s.devHealth)) ∧
  (∀ p, wv.issue = some p → p.lanes ≠ 0 → groupSlots p.words p.slot = [p.slot] → decode (p.words.getD p.slot 0) = none →
    wv.trapSet = none → (∀ y ∈ wv.threads, y.inHandler = false ∧ y.st = .running ∧ y.owed = false) → ∃ i, i.code = 0x01 ∧
      i.pc = p.pc + BitVec.ofNat 64 (8 * (p.slot + 1)) ∧ i.set = p.lanes ∧
      let u := a.countRun b w false
      let t := { u with fresh := u.fresh + 1, note := .fine, cur := none }.takeTrap b w i
      Machine.step s = .next ({ t with note := .fine, cur := none }.rest s.devHealth)) ∧
  (∀ at_ pk i t, wv.issue = none → wv.heldThread = none → wv.sleep = none → wv.positions = [at_] → at_.slot = 0 →
    a.fetch blk at_.pc = .packet pk → packetOk pk = true → groupSlots pk.words 0 = [0] → decode (pk.words.getD 0 0) = some i →
    let m := wv.eligible at_ (controlOf pk.ctl)
    let p : Issue := { pc := at_.pc, ctl := pk.ctl, words := pk.words, slot := 0, lanes := m }
    let begun := fun (x : Wave) => { x.updLanes m (fun y => { y with recheck := false, starve := 0 }) with issue := some p }
    m ≠ 0 → exec i (issuing ((a.countRun b w true).updWave b w begun) (begun wv) p) = .next t → t.note = .fine →
    Machine.step s = .next ((advance p t 1).rest s.devHealth))

/-- R69 to R80, R94 to R98 (sanity): words written out from the encoding tables decode to the instructions they stand for. -/
def Obligations.DecodesKnownWords : Prop :=
  let plain : Head := { guard := none, chain := false }
  decode 0xA000080400590010#64 =
    some (.ld plain { d := 4, a := 2, b := 0, ak := false, sc := 1, wd := 3, ht := 1, off := 0x10 }) ∧
  decode 0xA4000C040E510000#64 =
    some (.atomAdd plain { d := 6, a := 2, b := 7, ak := false, sc := 1, wd := 2, ht := 1, off := 0 }) ∧
  decode 0x2002080A06000400#64 = some (.iadd { plain with chain := true }
    { d := 4, a := 5, b := .imm 3, c := 0, ty := 0, rm := .rne, sat := false }) ∧
  decode 0x3F000802FFFFFFFF#64 = some (.movi plain { d := 4, a := 1, k := false, imm := 0xFFFFFFFF }) ∧
  decode 0x0184000000000003#64 = some (.br { guard := some { neg := false, p := 1 }, chain := false } { d := 0, a := 0, offp := 3 }) ∧
  decode 0xC400061014008000#64 = some (.cpLd plain { x := 3, a := 8, b := 10, c := 0, eng := 0x8000 }) ∧
  decode 0x0B00000000420000#64 = some (.trap plain { d := 0, a := 0, sysno := 0x21 })

/-- R52, R70 (encoding): every well-formed instruction with an encoding decodes from its own word, every operand at every value. -/
def Obligations.DecodeOfEncode : Prop := ∀ (i : Instr) (w : DWord), i.wf = true → encode i = some w → decode w = some i

/-- (encoding) A word that decodes encodes back to itself: no bit of a valid word is dropped. -/
def Obligations.EncodeOfDecode : Prop := ∀ (i : Instr) (w : DWord), decode w = some i → encode i = some w

/-- R21, Tables 1-6, 6-4, 18-5, 21-5, 22-8: the machine after reset stands in step 1 with RESET_N low, nothing resident, queued or
mapped, and its registers at the values the field maps give; its memory is in canonical form. -/
def Obligations.ResetState : Prop :=
  let s := State.reset
  s.startup = 1 ∧ s.resetLow = true ∧ s.blocks = [] ∧ s.grids = [] ∧ s.queues = [] ∧ s.sessions = [] ∧ s.reqs = [] ∧
  s.tick = 0 ∧ s.tickPeriod = 33333 ∧ s.secure.service = List.replicate 64 0 ∧ s.memOk = true ∧ s.atRest = true ∧
  (∀ n, n < 16 → s.devRead (8 * n) = 0xFFFF0000 ∧ s.devRead (0x2080 + 8 * n) = 0 ∧ s.devRead (0x2100 + 8 * n) = 1) ∧
  s.devRead 0x9010 = 8000 ∧ s.devRead 0x9000 = 0 ∧ s.devRead 0x9028 = 0 ∧ s.devRead 0x3018 = 1400 ∧ s.devRead 0x4008 = 0 ∧
  s.devRead 0x21A0 = 0 ∧ s.devRead 0x21B8 = 0 ∧ s.devRead 0x30000 = 0

/-- Every step keeps the memory in its canonical form: addresses strictly rise and no listed byte is one that an unlisted address
reads as (notes/assumptions/2.md). -/
def Obligations.StepKeepsMemoryForm : Prop := ∀ s t : State, s.memOk = true → Machine.step s = .next t → t.memOk = true

/-- The issue context never outlives a step: from a state at rest, every step ends in a state at rest (notes/assumptions/19.md). -/
def Obligations.StepEndsAtRest : Prop := ∀ s t : State, s.atRest = true → Machine.step s = .next t → t.atRest = true
end

