-- ==== Sys2Proof/Laws/Tbl.lean ====
section
/-! SUPPORT. Laws/Tbl.lean: what the operations on tables do: reading after writing, and that keys keep rising. -/

namespace Sys2Proof.Machine

variable {α : Type}

theorem Tbl.get_put_self (t : Tbl α) (k : Nat) (x : α) : (t.put k x).get k = some x := by
  induction t with
  | nil => simp [Tbl.put, Tbl.get]
  | cons e t ih =>
    obtain ⟨j, y⟩ := e
    simp only [Tbl.put]
    split
    · simp [Tbl.get]
    · split
      · simp [Tbl.get]
      · rename_i _ h; simp [Tbl.get, h, ih]

theorem Tbl.get_put_ne (t : Tbl α) (k j : Nat) (x : α) (h : j ≠ k) : (t.put k x).get j = t.get j := by
  induction t with
  | nil => simp [Tbl.put, Tbl.get, h]
  | cons e t ih =>
    obtain ⟨i, y⟩ := e
    simp only [Tbl.put]
    split
    · simp [Tbl.get, h]
    · split
      · rename_i _ hk; subst hk; simp [Tbl.get, h]
      · simp [Tbl.get, ih]

theorem Tbl.get_put (t : Tbl α) (k j : Nat) (x : α) : (t.put k x).get j = if j = k then some x else t.get j := by
  split
  · subst_vars; exact t.get_put_self _ x
  · exact t.get_put_ne k j x ‹_›

theorem Tbl.get_del_self (t : Tbl α) (k : Nat) : (t.del k).get k = none := by
  induction t with
  | nil => rfl
  | cons e t ih =>
    obtain ⟨i, y⟩ := e
    simp only [Tbl.del]
    split
    · exact ih
    · rename_i h; simp [Tbl.get, h, ih]

theorem Tbl.get_del_ne (t : Tbl α) (k j : Nat) (h : j ≠ k) : (t.del k).get j = t.get j := by
  induction t with
  | nil => rfl
  | cons e t ih =>
    obtain ⟨i, y⟩ := e
    simp only [Tbl.del]
    split
    · rename_i hk; subst hk; simp [Tbl.get, h, ih]
    · simp [Tbl.get, ih]

theorem Tbl.get_upd_self (t : Tbl α) (k : Nat) (f : α → α) : (t.upd k f).get k = (t.get k).map f := by
  induction t with
  | nil => rfl
  | cons e t ih =>
    obtain ⟨i, y⟩ := e
    simp only [Tbl.upd]
    split
    · rename_i h; simp [Tbl.get, h]
    · rename_i h; simp [Tbl.get, h, ih]

theorem Tbl.get_upd_ne (t : Tbl α) (k j : Nat) (f : α → α) (h : j ≠ k) : (t.upd k f).get j = t.get j := by
  induction t with
  | nil => rfl
  | cons e t ih =>
    obtain ⟨i, y⟩ := e
    simp only [Tbl.upd]
    split
    · rename_i hk; subst hk; simp [Tbl.get, h, ih]
    · simp [Tbl.get, ih]

theorem Tbl.get_mapAll (t : Tbl α) (f : Nat → α → α) (k : Nat) : (t.mapAll f).get k = (t.get k).map (f k) := by
  induction t with
  | nil => rfl
  | cons e t ih =>
    obtain ⟨i, y⟩ := e
    simp only [Tbl.mapAll, List.map_cons, Tbl.get] at *
    split
    · subst_vars; rfl
    · exact ih

theorem Tbl.mem_of_get (t : Tbl α) (k : Nat) (x : α) (h : t.get k = some x) : (k, x) ∈ t := by
  induction t with
  | nil => simp [Tbl.get] at h
  | cons e t ih =>
    obtain ⟨i, y⟩ := e
    simp only [Tbl.get] at h
    split at h
    · subst_vars; simp at h; simp [h]
    · simp [ih h]

/-! ### Rising keys -/

theorem Tbl.above_mono (t : Tbl α) (a b : Nat) (h : a ≤ b) (hb : t.above b = true) : t.above a = true := by
  cases t with
  | nil => rfl
  | cons e t =>
    obtain ⟨j, y⟩ := e
    simp only [Tbl.above, Bool.and_eq_true, decide_eq_true_eq] at *
    exact ⟨by omega, hb.2⟩

theorem Tbl.above_put (t : Tbl α) (lo k : Nat) (x : α) (h : t.above lo = true) (hk : lo < k) : (t.put k x).above lo = true := by
  induction t generalizing lo with
  | nil => simp [Tbl.put, Tbl.above, hk]
  | cons e t ih =>
    obtain ⟨j, y⟩ := e
    simp only [Tbl.above, Bool.and_eq_true, decide_eq_true_eq] at h
    simp only [Tbl.put]
    split
    · simp only [Tbl.above, Bool.and_eq_true, decide_eq_true_eq]; exact ⟨hk, ‹_›, h.2⟩
    · split
      · subst_vars; simp only [Tbl.above, Bool.and_eq_true, decide_eq_true_eq]; exact h
      · simp only [Tbl.above, Bool.and_eq_true, decide_eq_true_eq]
        exact ⟨h.1, ih j h.2 (by omega)⟩

theorem Tbl.above_del (t : Tbl α) (lo k : Nat) (h : t.above lo = true) : (t.del k).above lo = true := by
  induction t generalizing lo with
  | nil => rfl
  | cons e t ih =>
    obtain ⟨j, y⟩ := e
    simp only [Tbl.above, Bool.and_eq_true, decide_eq_true_eq] at h
    simp only [Tbl.del]
    split
    · exact ih lo (Tbl.above_mono t lo j (by omega) h.2)
    · simp only [Tbl.above, Bool.and_eq_true, decide_eq_true_eq]; exact ⟨h.1, ih j h.2⟩

theorem Tbl.above_filter (t : Tbl α) (lo : Nat) (p : Nat × α → Bool) (h : t.above lo = true) :
    Tbl.above lo (List.filter p t) = true := by
  induction t generalizing lo with
  | nil => rfl
  | cons e t ih =>
    obtain ⟨j, y⟩ := e
    simp only [Tbl.above, Bool.and_eq_true, decide_eq_true_eq] at h
    by_cases hp : p (j, y) = true
    · simp only [List.filter_cons_of_pos hp, Tbl.above, Bool.and_eq_true, decide_eq_true_eq]; exact ⟨h.1, ih j h.2⟩
    · simp only [List.filter_cons_of_neg hp]; exact ih lo (Tbl.above_mono t lo j (by omega) h.2)

/-- Rising keys from any bound below them. -/
theorem Tbl.sorted_of_above (t : Tbl α) (lo : Nat) (h : t.above lo = true) : t.sorted = true := by
  cases t with
  | nil => rfl
  | cons e t =>
    obtain ⟨j, y⟩ := e
    simp only [Tbl.above, Bool.and_eq_true, Tbl.sorted] at *; exact h.2

theorem Tbl.sorted_put (t : Tbl α) (k : Nat) (x : α) (h : t.sorted = true) : (t.put k x).sorted = true := by
  cases t with
  | nil => rfl
  | cons e t =>
    obtain ⟨j, y⟩ := e
    simp only [Tbl.sorted] at h
    simp only [Tbl.put]
    split
    · simp only [Tbl.sorted, Tbl.above, Bool.and_eq_true, decide_eq_true_eq]; exact ⟨‹_›, h⟩
    · split
      · subst_vars; exact h
      · simp only [Tbl.sorted]; exact Tbl.above_put t j k x h (by omega)

theorem Tbl.sorted_del (t : Tbl α) (k : Nat) (h : t.sorted = true) : (t.del k).sorted = true := by
  cases t with
  | nil => rfl
  | cons e t =>
    obtain ⟨j, y⟩ := e
    simp only [Tbl.sorted] at h
    simp only [Tbl.del]
    split
    · exact Tbl.sorted_of_above _ j (Tbl.above_del t j k h)
    · simp only [Tbl.sorted]; exact Tbl.above_del t j k h

theorem Tbl.sorted_filter (t : Tbl α) (p : Nat × α → Bool) (h : t.sorted = true) : Tbl.sorted (List.filter p t) = true := by
  cases t with
  | nil => rfl
  | cons e t =>
    obtain ⟨j, y⟩ := e
    simp only [Tbl.sorted] at h
    by_cases hp : p (j, y) = true
    · simp only [List.filter_cons_of_pos hp, Tbl.sorted]; exact Tbl.above_filter t j p h
    · simp only [List.filter_cons_of_neg hp]; exact Tbl.sorted_of_above _ j (Tbl.above_filter t j p h)

theorem Tbl.mem_put (t : Tbl α) (k : Nat) (x : α) (e : Nat × α) (h : e ∈ t.put k x) : e = (k, x) ∨ e ∈ t := by
  induction t with
  | nil => simpa [Tbl.put] using h
  | cons d t ih =>
    obtain ⟨j, y⟩ := d
    simp only [Tbl.put] at h
    split at h
    · simpa using h
    · split at h
      · simp only [List.mem_cons] at h ⊢
        exact h.imp_right Or.inr
      · simp only [List.mem_cons] at h ⊢
        rcases h with h | h
        · exact .inr (.inl h)
        · exact (ih h).imp_right Or.inr

theorem Tbl.mem_del (t : Tbl α) (k : Nat) (e : Nat × α) (h : e ∈ t.del k) : e ∈ t := by
  induction t with
  | nil => exact h
  | cons d t ih =>
    obtain ⟨j, y⟩ := d
    simp only [Tbl.del] at h
    split at h
    · exact List.mem_cons_of_mem _ (ih h)
    · simp only [List.mem_cons] at h ⊢
      exact h.imp_right ih

/-- Keys that rise are met in a table: below the first key nothing is found. -/
theorem Tbl.get_of_above (t : Tbl α) (lo k : Nat) (h : t.above lo = true) (hk : k ≤ lo) : t.get k = none := by
  induction t generalizing lo with
  | nil => rfl
  | cons e t ih =>
    obtain ⟨j, y⟩ := e
    simp only [Tbl.above, Bool.and_eq_true, decide_eq_true_eq] at h
    simp only [Tbl.get]
    split
    · omega
    · exact ih j h.2 (by omega)

end Sys2Proof.Machine
end

