-- ==== Sys2Proof/Laws/Memory.lean ====
section
/-! SUPPORT. Laws/Memory.lean: the laws of the byte memory: a read after a write, and that every operation on memory keeps its
canonical form (notes/assumptions/2.md). -/

namespace Sys2Proof.Machine

/-! ### Reading after writing -/

theorem memGet_memPut_self (m : List Host.Cell) (a : Nat) (b : Byte) : memGet (memPut m a b) a = b := by
  unfold memGet memPut
  split
  · subst_vars; rw [Tbl.get_del_self]; rfl
  · rw [Tbl.get_put_self]; rfl

theorem memGet_memPut_ne (m : List Host.Cell) (a k : Nat) (b : Byte) (h : k ≠ a) : memGet (memPut m a b) k = memGet m k := by
  unfold memGet memPut
  split
  · rw [Tbl.get_del_ne _ _ _ h]
  · rw [Tbl.get_put_ne _ _ _ _ h]

theorem memGet_memPut (m : List Host.Cell) (a k : Nat) (b : Byte) :
    memGet (memPut m a b) k = if k = a then b else memGet m k := by
  split
  · subst_vars; exact memGet_memPut_self m _ b
  · exact memGet_memPut_ne m a k b ‹_›

/-- A byte outside the written range is as it was. -/
theorem memGet_memWrite_out (m : List Host.Cell) (a : Nat) (bs : List Byte) (k : Nat) (h : k < a ∨ a + bs.length ≤ k) :
    memGet (memWrite m a bs) k = memGet m k := by
  induction bs generalizing m a with
  | nil => rfl
  | cons b bs ih =>
    simp only [List.length_cons] at h
    rw [memWrite, ih _ _ (by omega), memGet_memPut_ne _ _ _ _ (by omega)]

/-- A byte of the written range is the one written there. -/
theorem memGet_memWrite_in (m : List Host.Cell) (a : Nat) (bs : List Byte) (i : Nat) (h : i < bs.length) :
    memGet (memWrite m a bs) (a + i) = bs[i] := by
  induction bs generalizing m a i with
  | nil => simp at h
  | cons b bs ih =>
    cases i with
    | zero => rw [memWrite, memGet_memWrite_out _ _ _ _ (by omega)]; exact memGet_memPut_self m a b
    | succ i =>
      have := ih (memPut m a b) (a + 1) i (by simpa using h)
      rw [memWrite, show a + (i + 1) = a + 1 + i by omega, this]; rfl

theorem memRead_memWrite (m : List Host.Cell) (a : Nat) (bs : List Byte) : memRead (memWrite m a bs) a bs.length = bs := by
  apply List.ext_getElem
  · simp [memRead]
  · intro i h₁ h₂
    simp [memRead, memGet_memWrite_in m a bs i h₂]

theorem memRead_memWrite_out (m : List Host.Cell) (a k n : Nat) (bs : List Byte) (h : k + n ≤ a ∨ a + bs.length ≤ k) :
    memRead (memWrite m a bs) k n = memRead m k n := by
  unfold memRead
  apply List.map_congr_left
  intro i hi
  have := List.mem_range.1 hi
  exact memGet_memWrite_out m a bs (k + i) (by omega)

/-! ### The canonical form -/

theorem Memory.wf_iff (m : List Host.Cell) : Memory.wf m = true ↔ Tbl.sorted m = true ∧ ∀ c ∈ m, c.2 ≠ 0 := by
  simp [Memory.wf]

theorem Memory.wf_nil : Memory.wf [] = true := rfl

theorem memPut_wf (m : List Host.Cell) (a : Nat) (b : Byte) (h : Memory.wf m = true) : Memory.wf (memPut m a b) = true := by
  rw [Memory.wf_iff] at *
  unfold memPut
  split
  · exact ⟨Tbl.sorted_del m a h.1, fun c hc => h.2 c (Tbl.mem_del m a c hc)⟩
  · refine ⟨Tbl.sorted_put m a b h.1, fun c hc => ?_⟩
    rcases Tbl.mem_put m a b c hc with rfl | hc
    · assumption
    · exact h.2 c hc

theorem memWrite_wf (m : List Host.Cell) (a : Nat) (bs : List Byte) (h : Memory.wf m = true) :
    Memory.wf (memWrite m a bs) = true := by
  induction bs generalizing m a with
  | nil => exact h
  | cons b bs ih => exact ih _ _ (memPut_wf m a b h)

theorem filter_wf (m : List Host.Cell) (p : Host.Cell → Bool) (h : Memory.wf m = true) : Memory.wf (m.filter p) = true := by
  rw [Memory.wf_iff] at *
  exact ⟨Tbl.sorted_filter m p h.1, fun c hc => h.2 c (List.mem_filter.1 hc).1⟩

theorem foldPut_wf (cs : List Host.Cell) (g : Host.Cell → Nat) (m : List Host.Cell) (h : Memory.wf m = true) :
    Memory.wf (cs.foldl (fun acc c => memPut acc (g c) c.2) m) = true := by
  induction cs generalizing m with
  | nil => exact h
  | cons c cs ih => exact ih _ (memPut_wf m _ _ h)

theorem memMove_wf (m : List Host.Cell) (src dst n : Nat) (h : Memory.wf m = true) : Memory.wf (memMove m src dst n) = true :=
  foldPut_wf _ _ _ (filter_wf m _ h)

theorem foldWrite_wf {α : Type} (xs : List α) (g : α → Nat) (f : α → List Byte) (m : List Host.Cell) (h : Memory.wf m = true) :
    Memory.wf (xs.foldl (fun m x => memWrite m (g x) (f x)) m) = true := by
  induction xs generalizing m with
  | nil => exact h
  | cons x xs ih => exact ih _ (memWrite_wf m _ _ h)

/-- Writing the value that an unlisted address reads as removes the entry. -/
theorem memPut_zero (m : List Host.Cell) (a : Nat) : memPut m a 0 = Tbl.del m a := by simp [memPut]

end Sys2Proof.Machine
end

