-- ==== Sys2Proof/Laws/State.lean ====
section
/-! SUPPORT. Laws/State.lean: what each update of the state leaves of each field: one lemma for each field and update, true by
definition. -/

namespace Sys2Proof.Machine

/-! ### `updBlock` -/

@[simp] theorem State.updBlock_clock (s : State) (b : Nat) (f : Block → Block) : (s.updBlock b f).clock = s.clock := rfl
@[simp] theorem State.updBlock_tick (s : State) (b : Nat) (f : Block → Block) : (s.updBlock b f).tick = s.tick := rfl
@[simp] theorem State.updBlock_tickPeriod (s : State) (b : Nat) (f : Block → Block) : (s.updBlock b f).tickPeriod = s.tickPeriod := rfl
@[simp] theorem State.updBlock_tickSpacing (s : State) (b : Nat) (f : Block → Block) : (s.updBlock b f).tickSpacing = s.tickSpacing := rfl
@[simp] theorem State.updBlock_lastTick (s : State) (b : Nat) (f : Block → Block) : (s.updBlock b f).lastTick = s.lastTick := rfl
@[simp] theorem State.updBlock_refillDue (s : State) (b : Nat) (f : Block → Block) : (s.updBlock b f).refillDue = s.refillDue := rfl
@[simp] theorem State.updBlock_startup (s : State) (b : Nat) (f : Block → Block) : (s.updBlock b f).startup = s.startup := rfl
@[simp] theorem State.updBlock_resetLow (s : State) (b : Nat) (f : Block → Block) : (s.updBlock b f).resetLow = s.resetLow := rfl
@[simp] theorem State.updBlock_presented (s : State) (b : Nat) (f : Block → Block) : (s.updBlock b f).presented = s.presented := rfl
@[simp] theorem State.updBlock_power (s : State) (b : Nat) (f : Block → Block) : (s.updBlock b f).power = s.power := rfl
@[simp] theorem State.updBlock_mem (s : State) (b : Nat) (f : Block → Block) : (s.updBlock b f).mem = s.mem := rfl
@[simp] theorem State.updBlock_lag (s : State) (b : Nat) (f : Block → Block) : (s.updBlock b f).lag = s.lag := rfl
@[simp] theorem State.updBlock_l2 (s : State) (b : Nat) (f : Block → Block) : (s.updBlock b f).l2 = s.l2 := rfl
@[simp] theorem State.updBlock_slices (s : State) (b : Nat) (f : Block → Block) : (s.updBlock b f).slices = s.slices := rfl
@[simp] theorem State.updBlock_reed (s : State) (b : Nat) (f : Block → Block) : (s.updBlock b f).reed = s.reed := rfl
@[simp] theorem State.updBlock_cores (s : State) (b : Nat) (f : Block → Block) : (s.updBlock b f).cores = s.cores := rfl
@[simp] theorem State.updBlock_tlb (s : State) (b : Nat) (f : Block → Block) : (s.updBlock b f).tlb = s.tlb := rfl
@[simp] theorem State.updBlock_blocks (s : State) (b : Nat) (f : Block → Block) : (s.updBlock b f).blocks = s.blocks.upd b f := rfl
@[simp] theorem State.updBlock_reqs (s : State) (b : Nat) (f : Block → Block) : (s.updBlock b f).reqs = s.reqs := rfl
@[simp] theorem State.updBlock_replays (s : State) (b : Nat) (f : Block → Block) : (s.updBlock b f).replays = s.replays := rfl
@[simp] theorem State.updBlock_puts (s : State) (b : Nat) (f : Block → Block) : (s.updBlock b f).puts = s.puts := rfl
@[simp] theorem State.updBlock_sheafs (s : State) (b : Nat) (f : Block → Block) : (s.updBlock b f).sheafs = s.sheafs := rfl
@[simp] theorem State.updBlock_colls (s : State) (b : Nat) (f : Block → Block) : (s.updBlock b f).colls = s.colls := rfl
@[simp] theorem State.updBlock_nextBlock (s : State) (b : Nat) (f : Block → Block) : (s.updBlock b f).nextBlock = s.nextBlock := rfl
@[simp] theorem State.updBlock_nextId (s : State) (b : Nat) (f : Block → Block) : (s.updBlock b f).nextId = s.nextId := rfl
@[simp] theorem State.updBlock_grids (s : State) (b : Nat) (f : Block → Block) : (s.updBlock b f).grids = s.grids := rfl
@[simp] theorem State.updBlock_nextGrid (s : State) (b : Nat) (f : Block → Block) : (s.updBlock b f).nextGrid = s.nextGrid := rfl
@[simp] theorem State.updBlock_arrivals (s : State) (b : Nat) (f : Block → Block) : (s.updBlock b f).arrivals = s.arrivals := rfl
@[simp] theorem State.updBlock_graphs (s : State) (b : Nat) (f : Block → Block) : (s.updBlock b f).graphs = s.graphs := rfl
@[simp] theorem State.updBlock_jobs (s : State) (b : Nat) (f : Block → Block) : (s.updBlock b f).jobs = s.jobs := rfl
@[simp] theorem State.updBlock_disp (s : State) (b : Nat) (f : Block → Block) : (s.updBlock b f).disp = s.disp := rfl
@[simp] theorem State.updBlock_images (s : State) (b : Nat) (f : Block → Block) : (s.updBlock b f).images = s.images := rfl
@[simp] theorem State.updBlock_saveSeq (s : State) (b : Nat) (f : Block → Block) : (s.updBlock b f).saveSeq = s.saveSeq := rfl
@[simp] theorem State.updBlock_queues (s : State) (b : Nat) (f : Block → Block) : (s.updBlock b f).queues = s.queues := rfl
@[simp] theorem State.updBlock_qSess (s : State) (b : Nat) (f : Block → Block) : (s.updBlock b f).qSess = s.qSess := rfl
@[simp] theorem State.updBlock_dev (s : State) (b : Nat) (f : Block → Block) : (s.updBlock b f).dev = s.dev := rfl
@[simp] theorem State.updBlock_faultq (s : State) (b : Nat) (f : Block → Block) : (s.updBlock b f).faultq = s.faultq := rfl
@[simp] theorem State.updBlock_objects (s : State) (b : Nat) (f : Block → Block) : (s.updBlock b f).objects = s.objects := rfl
@[simp] theorem State.updBlock_routines (s : State) (b : Nat) (f : Block → Block) : (s.updBlock b f).routines = s.routines := rfl
@[simp] theorem State.updBlock_services (s : State) (b : Nat) (f : Block → Block) : (s.updBlock b f).services = s.services := rfl
@[simp] theorem State.updBlock_flash (s : State) (b : Nat) (f : Block → Block) : (s.updBlock b f).flash = s.flash := rfl
@[simp] theorem State.updBlock_secure (s : State) (b : Nat) (f : Block → Block) : (s.updBlock b f).secure = s.secure := rfl
@[simp] theorem State.updBlock_cfg (s : State) (b : Nat) (f : Block → Block) : (s.updBlock b f).cfg = s.cfg := rfl
@[simp] theorem State.updBlock_sessions (s : State) (b : Nat) (f : Block → Block) : (s.updBlock b f).sessions = s.sessions := rfl
@[simp] theorem State.updBlock_nextSession (s : State) (b : Nat) (f : Block → Block) : (s.updBlock b f).nextSession = s.nextSession := rfl
@[simp] theorem State.updBlock_pfcPaused (s : State) (b : Nat) (f : Block → Block) : (s.updBlock b f).pfcPaused = s.pfcPaused := rfl
@[simp] theorem State.updBlock_pfcEnds (s : State) (b : Nat) (f : Block → Block) : (s.updBlock b f).pfcEnds = s.pfcEnds := rfl
@[simp] theorem State.updBlock_health (s : State) (b : Nat) (f : Block → Block) : (s.updBlock b f).health = s.health := rfl
@[simp] theorem State.updBlock_ports (s : State) (b : Nat) (f : Block → Block) : (s.updBlock b f).ports = s.ports := rfl
@[simp] theorem State.updBlock_fabIn (s : State) (b : Nat) (f : Block → Block) : (s.updBlock b f).fabIn = s.fabIn := rfl
@[simp] theorem State.updBlock_fabOut (s : State) (b : Nat) (f : Block → Block) : (s.updBlock b f).fabOut = s.fabOut := rfl
@[simp] theorem State.updBlock_marks (s : State) (b : Nat) (f : Block → Block) : (s.updBlock b f).marks = s.marks := rfl
@[simp] theorem State.updBlock_markPath (s : State) (b : Nat) (f : Block → Block) : (s.updBlock b f).markPath = s.markPath := rfl
@[simp] theorem State.updBlock_markOps (s : State) (b : Nat) (f : Block → Block) : (s.updBlock b f).markOps = s.markOps := rfl
@[simp] theorem State.updBlock_fabHeld (s : State) (b : Nat) (f : Block → Block) : (s.updBlock b f).fabHeld = s.fabHeld := rfl
@[simp] theorem State.updBlock_nextTag (s : State) (b : Nat) (f : Block → Block) : (s.updBlock b f).nextTag = s.nextTag := rfl
@[simp] theorem State.updBlock_sent (s : State) (b : Nat) (f : Block → Block) : (s.updBlock b f).sent = s.sent := rfl
@[simp] theorem State.updBlock_pins (s : State) (b : Nat) (f : Block → Block) : (s.updBlock b f).pins = s.pins := rfl
@[simp] theorem State.updBlock_out (s : State) (b : Nat) (f : Block → Block) : (s.updBlock b f).out = s.out := rfl
@[simp] theorem State.updBlock_outHeld (s : State) (b : Nat) (f : Block → Block) : (s.updBlock b f).outHeld = s.outHeld := rfl
@[simp] theorem State.updBlock_cur (s : State) (b : Nat) (f : Block → Block) : (s.updBlock b f).cur = s.cur := rfl
@[simp] theorem State.updBlock_note (s : State) (b : Nat) (f : Block → Block) : (s.updBlock b f).note = s.note := rfl
@[simp] theorem State.updBlock_agenda (s : State) (b : Nat) (f : Block → Block) : (s.updBlock b f).agenda = s.agenda := rfl
@[simp] theorem State.updBlock_fresh (s : State) (b : Nat) (f : Block → Block) : (s.updBlock b f).fresh = s.fresh := rfl

/-! ### `updWave` -/

@[simp] theorem State.updWave_clock (s : State) (b w : Nat) (f : Wave → Wave) : (s.updWave b w f).clock = s.clock := rfl
@[simp] theorem State.updWave_tick (s : State) (b w : Nat) (f : Wave → Wave) : (s.updWave b w f).tick = s.tick := rfl
@[simp] theorem State.updWave_tickPeriod (s : State) (b w : Nat) (f : Wave → Wave) : (s.updWave b w f).tickPeriod = s.tickPeriod := rfl
@[simp] theorem State.updWave_tickSpacing (s : State) (b w : Nat) (f : Wave → Wave) : (s.updWave b w f).tickSpacing = s.tickSpacing := rfl
@[simp] theorem State.updWave_lastTick (s : State) (b w : Nat) (f : Wave → Wave) : (s.updWave b w f).lastTick = s.lastTick := rfl
@[simp] theorem State.updWave_refillDue (s : State) (b w : Nat) (f : Wave → Wave) : (s.updWave b w f).refillDue = s.refillDue := rfl
@[simp] theorem State.updWave_startup (s : State) (b w : Nat) (f : Wave → Wave) : (s.updWave b w f).startup = s.startup := rfl
@[simp] theorem State.updWave_resetLow (s : State) (b w : Nat) (f : Wave → Wave) : (s.updWave b w f).resetLow = s.resetLow := rfl
@[simp] theorem State.updWave_presented (s : State) (b w : Nat) (f : Wave → Wave) : (s.updWave b w f).presented = s.presented := rfl
@[simp] theorem State.updWave_power (s : State) (b w : Nat) (f : Wave → Wave) : (s.updWave b w f).power = s.power := rfl
@[simp] theorem State.updWave_mem (s : State) (b w : Nat) (f : Wave → Wave) : (s.updWave b w f).mem = s.mem := rfl
@[simp] theorem State.updWave_lag (s : State) (b w : Nat) (f : Wave → Wave) : (s.updWave b w f).lag = s.lag := rfl
@[simp] theorem State.updWave_l2 (s : State) (b w : Nat) (f : Wave → Wave) : (s.updWave b w f).l2 = s.l2 := rfl
@[simp] theorem State.updWave_slices (s : State) (b w : Nat) (f : Wave → Wave) : (s.updWave b w f).slices = s.slices := rfl
@[simp] theorem State.updWave_reed (s : State) (b w : Nat) (f : Wave → Wave) : (s.updWave b w f).reed = s.reed := rfl
@[simp] theorem State.updWave_cores (s : State) (b w : Nat) (f : Wave → Wave) : (s.updWave b w f).cores = s.cores := rfl
@[simp] theorem State.updWave_tlb (s : State) (b w : Nat) (f : Wave → Wave) : (s.updWave b w f).tlb = s.tlb := rfl
@[simp] theorem State.updWave_blocks (s : State) (b w : Nat) (f : Wave → Wave) : (s.updWave b w f).blocks = s.blocks.upd b (fun x => x.updWave w f) := rfl
@[simp] theorem State.updWave_reqs (s : State) (b w : Nat) (f : Wave → Wave) : (s.updWave b w f).reqs = s.reqs := rfl
@[simp] theorem State.updWave_replays (s : State) (b w : Nat) (f : Wave → Wave) : (s.updWave b w f).replays = s.replays := rfl
@[simp] theorem State.updWave_puts (s : State) (b w : Nat) (f : Wave → Wave) : (s.updWave b w f).puts = s.puts := rfl
@[simp] theorem State.updWave_sheafs (s : State) (b w : Nat) (f : Wave → Wave) : (s.updWave b w f).sheafs = s.sheafs := rfl
@[simp] theorem State.updWave_colls (s : State) (b w : Nat) (f : Wave → Wave) : (s.updWave b w f).colls = s.colls := rfl
@[simp] theorem State.updWave_nextBlock (s : State) (b w : Nat) (f : Wave → Wave) : (s.updWave b w f).nextBlock = s.nextBlock := rfl
@[simp] theorem State.updWave_nextId (s : State) (b w : Nat) (f : Wave → Wave) : (s.updWave b w f).nextId = s.nextId := rfl
@[simp] theorem State.updWave_grids (s : State) (b w : Nat) (f : Wave → Wave) : (s.updWave b w f).grids = s.grids := rfl
@[simp] theorem State.updWave_nextGrid (s : State) (b w : Nat) (f : Wave → Wave) : (s.updWave b w f).nextGrid = s.nextGrid := rfl
@[simp] theorem State.updWave_arrivals (s : State) (b w : Nat) (f : Wave → Wave) : (s.updWave b w f).arrivals = s.arrivals := rfl
@[simp] theorem State.updWave_graphs (s : State) (b w : Nat) (f : Wave → Wave) : (s.updWave b w f).graphs = s.graphs := rfl
@[simp] theorem State.updWave_jobs (s : State) (b w : Nat) (f : Wave → Wave) : (s.updWave b w f).jobs = s.jobs := rfl
@[simp] theorem State.updWave_disp (s : State) (b w : Nat) (f : Wave → Wave) : (s.updWave b w f).disp = s.disp := rfl
@[simp] theorem State.updWave_images (s : State) (b w : Nat) (f : Wave → Wave) : (s.updWave b w f).images = s.images := rfl
@[simp] theorem State.updWave_saveSeq (s : State) (b w : Nat) (f : Wave → Wave) : (s.updWave b w f).saveSeq = s.saveSeq := rfl
@[simp] theorem State.updWave_queues (s : State) (b w : Nat) (f : Wave → Wave) : (s.updWave b w f).queues = s.queues := rfl
@[simp] theorem State.updWave_qSess (s : State) (b w : Nat) (f : Wave → Wave) : (s.updWave b w f).qSess = s.qSess := rfl
@[simp] theorem State.updWave_dev (s : State) (b w : Nat) (f : Wave → Wave) : (s.updWave b w f).dev = s.dev := rfl
@[simp] theorem State.updWave_faultq (s : State) (b w : Nat) (f : Wave → Wave) : (s.updWave b w f).faultq = s.faultq := rfl
@[simp] theorem State.updWave_objects (s : State) (b w : Nat) (f : Wave → Wave) : (s.updWave b w f).objects = s.objects := rfl
@[simp] theorem State.updWave_routines (s : State) (b w : Nat) (f : Wave → Wave) : (s.updWave b w f).routines = s.routines := rfl
@[simp] theorem State.updWave_services (s : State) (b w : Nat) (f : Wave → Wave) : (s.updWave b w f).services = s.services := rfl
@[simp] theorem State.updWave_flash (s : State) (b w : Nat) (f : Wave → Wave) : (s.updWave b w f).flash = s.flash := rfl
@[simp] theorem State.updWave_secure (s : State) (b w : Nat) (f : Wave → Wave) : (s.updWave b w f).secure = s.secure := rfl
@[simp] theorem State.updWave_cfg (s : State) (b w : Nat) (f : Wave → Wave) : (s.updWave b w f).cfg = s.cfg := rfl
@[simp] theorem State.updWave_sessions (s : State) (b w : Nat) (f : Wave → Wave) : (s.updWave b w f).sessions = s.sessions := rfl
@[simp] theorem State.updWave_nextSession (s : State) (b w : Nat) (f : Wave → Wave) : (s.updWave b w f).nextSession = s.nextSession := rfl
@[simp] theorem State.updWave_pfcPaused (s : State) (b w : Nat) (f : Wave → Wave) : (s.updWave b w f).pfcPaused = s.pfcPaused := rfl
@[simp] theorem State.updWave_pfcEnds (s : State) (b w : Nat) (f : Wave → Wave) : (s.updWave b w f).pfcEnds = s.pfcEnds := rfl
@[simp] theorem State.updWave_health (s : State) (b w : Nat) (f : Wave → Wave) : (s.updWave b w f).health = s.health := rfl
@[simp] theorem State.updWave_ports (s : State) (b w : Nat) (f : Wave → Wave) : (s.updWave b w f).ports = s.ports := rfl
@[simp] theorem State.updWave_fabIn (s : State) (b w : Nat) (f : Wave → Wave) : (s.updWave b w f).fabIn = s.fabIn := rfl
@[simp] theorem State.updWave_fabOut (s : State) (b w : Nat) (f : Wave → Wave) : (s.updWave b w f).fabOut = s.fabOut := rfl
@[simp] theorem State.updWave_marks (s : State) (b w : Nat) (f : Wave → Wave) : (s.updWave b w f).marks = s.marks := rfl
@[simp] theorem State.updWave_markPath (s : State) (b w : Nat) (f : Wave → Wave) : (s.updWave b w f).markPath = s.markPath := rfl
@[simp] theorem State.updWave_markOps (s : State) (b w : Nat) (f : Wave → Wave) : (s.updWave b w f).markOps = s.markOps := rfl
@[simp] theorem State.updWave_fabHeld (s : State) (b w : Nat) (f : Wave → Wave) : (s.updWave b w f).fabHeld = s.fabHeld := rfl
@[simp] theorem State.updWave_nextTag (s : State) (b w : Nat) (f : Wave → Wave) : (s.updWave b w f).nextTag = s.nextTag := rfl
@[simp] theorem State.updWave_sent (s : State) (b w : Nat) (f : Wave → Wave) : (s.updWave b w f).sent = s.sent := rfl
@[simp] theorem State.updWave_pins (s : State) (b w : Nat) (f : Wave → Wave) : (s.updWave b w f).pins = s.pins := rfl
@[simp] theorem State.updWave_out (s : State) (b w : Nat) (f : Wave → Wave) : (s.updWave b w f).out = s.out := rfl
@[simp] theorem State.updWave_outHeld (s : State) (b w : Nat) (f : Wave → Wave) : (s.updWave b w f).outHeld = s.outHeld := rfl
@[simp] theorem State.updWave_cur (s : State) (b w : Nat) (f : Wave → Wave) : (s.updWave b w f).cur = s.cur := rfl
@[simp] theorem State.updWave_note (s : State) (b w : Nat) (f : Wave → Wave) : (s.updWave b w f).note = s.note := rfl
@[simp] theorem State.updWave_agenda (s : State) (b w : Nat) (f : Wave → Wave) : (s.updWave b w f).agenda = s.agenda := rfl
@[simp] theorem State.updWave_fresh (s : State) (b w : Nat) (f : Wave → Wave) : (s.updWave b w f).fresh = s.fresh := rfl

/-! ### `updGrid` -/

@[simp] theorem State.updGrid_clock (s : State) (g : Nat) (f : Grid → Grid) : (s.updGrid g f).clock = s.clock := rfl
@[simp] theorem State.updGrid_tick (s : State) (g : Nat) (f : Grid → Grid) : (s.updGrid g f).tick = s.tick := rfl
@[simp] theorem State.updGrid_tickPeriod (s : State) (g : Nat) (f : Grid → Grid) : (s.updGrid g f).tickPeriod = s.tickPeriod := rfl
@[simp] theorem State.updGrid_tickSpacing (s : State) (g : Nat) (f : Grid → Grid) : (s.updGrid g f).tickSpacing = s.tickSpacing := rfl
@[simp] theorem State.updGrid_lastTick (s : State) (g : Nat) (f : Grid → Grid) : (s.updGrid g f).lastTick = s.lastTick := rfl
@[simp] theorem State.updGrid_refillDue (s : State) (g : Nat) (f : Grid → Grid) : (s.updGrid g f).refillDue = s.refillDue := rfl
@[simp] theorem State.updGrid_startup (s : State) (g : Nat) (f : Grid → Grid) : (s.updGrid g f).startup = s.startup := rfl
@[simp] theorem State.updGrid_resetLow (s : State) (g : Nat) (f : Grid → Grid) : (s.updGrid g f).resetLow = s.resetLow := rfl
@[simp] theorem State.updGrid_presented (s : State) (g : Nat) (f : Grid → Grid) : (s.updGrid g f).presented = s.presented := rfl
@[simp] theorem State.updGrid_power (s : State) (g : Nat) (f : Grid → Grid) : (s.updGrid g f).power = s.power := rfl
@[simp] theorem State.updGrid_mem (s : State) (g : Nat) (f : Grid → Grid) : (s.updGrid g f).mem = s.mem := rfl
@[simp] theorem State.updGrid_lag (s : State) (g : Nat) (f : Grid → Grid) : (s.updGrid g f).lag = s.lag := rfl
@[simp] theorem State.updGrid_l2 (s : State) (g : Nat) (f : Grid → Grid) : (s.updGrid g f).l2 = s.l2 := rfl
@[simp] theorem State.updGrid_slices (s : State) (g : Nat) (f : Grid → Grid) : (s.updGrid g f).slices = s.slices := rfl
@[simp] theorem State.updGrid_reed (s : State) (g : Nat) (f : Grid → Grid) : (s.updGrid g f).reed = s.reed := rfl
@[simp] theorem State.updGrid_cores (s : State) (g : Nat) (f : Grid → Grid) : (s.updGrid g f).cores = s.cores := rfl
@[simp] theorem State.updGrid_tlb (s : State) (g : Nat) (f : Grid → Grid) : (s.updGrid g f).tlb = s.tlb := rfl
@[simp] theorem State.updGrid_blocks (s : State) (g : Nat) (f : Grid → Grid) : (s.updGrid g f).blocks = s.blocks := rfl
@[simp] theorem State.updGrid_reqs (s : State) (g : Nat) (f : Grid → Grid) : (s.updGrid g f).reqs = s.reqs := rfl
@[simp] theorem State.updGrid_replays (s : State) (g : Nat) (f : Grid → Grid) : (s.updGrid g f).replays = s.replays := rfl
@[simp] theorem State.updGrid_puts (s : State) (g : Nat) (f : Grid → Grid) : (s.updGrid g f).puts = s.puts := rfl
@[simp] theorem State.updGrid_sheafs (s : State) (g : Nat) (f : Grid → Grid) : (s.updGrid g f).sheafs = s.sheafs := rfl
@[simp] theorem State.updGrid_colls (s : State) (g : Nat) (f : Grid → Grid) : (s.updGrid g f).colls = s.colls := rfl
@[simp] theorem State.updGrid_nextBlock (s : State) (g : Nat) (f : Grid → Grid) : (s.updGrid g f).nextBlock = s.nextBlock := rfl
@[simp] theorem State.updGrid_nextId (s : State) (g : Nat) (f : Grid → Grid) : (s.updGrid g f).nextId = s.nextId := rfl
@[simp] theorem State.updGrid_grids (s : State) (g : Nat) (f : Grid → Grid) : (s.updGrid g f).grids = s.grids.upd g f := rfl
@[simp] theorem State.updGrid_nextGrid (s : State) (g : Nat) (f : Grid → Grid) : (s.updGrid g f).nextGrid = s.nextGrid := rfl
@[simp] theorem State.updGrid_arrivals (s : State) (g : Nat) (f : Grid → Grid) : (s.updGrid g f).arrivals = s.arrivals := rfl
@[simp] theorem State.updGrid_graphs (s : State) (g : Nat) (f : Grid → Grid) : (s.updGrid g f).graphs = s.graphs := rfl
@[simp] theorem State.updGrid_jobs (s : State) (g : Nat) (f : Grid → Grid) : (s.updGrid g f).jobs = s.jobs := rfl
@[simp] theorem State.updGrid_disp (s : State) (g : Nat) (f : Grid → Grid) : (s.updGrid g f).disp = s.disp := rfl
@[simp] theorem State.updGrid_images (s : State) (g : Nat) (f : Grid → Grid) : (s.updGrid g f).images = s.images := rfl
@[simp] theorem State.updGrid_saveSeq (s : State) (g : Nat) (f : Grid → Grid) : (s.updGrid g f).saveSeq = s.saveSeq := rfl
@[simp] theorem State.updGrid_queues (s : State) (g : Nat) (f : Grid → Grid) : (s.updGrid g f).queues = s.queues := rfl
@[simp] theorem State.updGrid_qSess (s : State) (g : Nat) (f : Grid → Grid) : (s.updGrid g f).qSess = s.qSess := rfl
@[simp] theorem State.updGrid_dev (s : State) (g : Nat) (f : Grid → Grid) : (s.updGrid g f).dev = s.dev := rfl
@[simp] theorem State.updGrid_faultq (s : State) (g : Nat) (f : Grid → Grid) : (s.updGrid g f).faultq = s.faultq := rfl
@[simp] theorem State.updGrid_objects (s : State) (g : Nat) (f : Grid → Grid) : (s.updGrid g f).objects = s.objects := rfl
@[simp] theorem State.updGrid_routines (s : State) (g : Nat) (f : Grid → Grid) : (s.updGrid g f).routines = s.routines := rfl
@[simp] theorem State.updGrid_services (s : State) (g : Nat) (f : Grid → Grid) : (s.updGrid g f).services = s.services := rfl
@[simp] theorem State.updGrid_flash (s : State) (g : Nat) (f : Grid → Grid) : (s.updGrid g f).flash = s.flash := rfl
@[simp] theorem State.updGrid_secure (s : State) (g : Nat) (f : Grid → Grid) : (s.updGrid g f).secure = s.secure := rfl
@[simp] theorem State.updGrid_cfg (s : State) (g : Nat) (f : Grid → Grid) : (s.updGrid g f).cfg = s.cfg := rfl
@[simp] theorem State.updGrid_sessions (s : State) (g : Nat) (f : Grid → Grid) : (s.updGrid g f).sessions = s.sessions := rfl
@[simp] theorem State.updGrid_nextSession (s : State) (g : Nat) (f : Grid → Grid) : (s.updGrid g f).nextSession = s.nextSession := rfl
@[simp] theorem State.updGrid_pfcPaused (s : State) (g : Nat) (f : Grid → Grid) : (s.updGrid g f).pfcPaused = s.pfcPaused := rfl
@[simp] theorem State.updGrid_pfcEnds (s : State) (g : Nat) (f : Grid → Grid) : (s.updGrid g f).pfcEnds = s.pfcEnds := rfl
@[simp] theorem State.updGrid_health (s : State) (g : Nat) (f : Grid → Grid) : (s.updGrid g f).health = s.health := rfl
@[simp] theorem State.updGrid_ports (s : State) (g : Nat) (f : Grid → Grid) : (s.updGrid g f).ports = s.ports := rfl
@[simp] theorem State.updGrid_fabIn (s : State) (g : Nat) (f : Grid → Grid) : (s.updGrid g f).fabIn = s.fabIn := rfl
@[simp] theorem State.updGrid_fabOut (s : State) (g : Nat) (f : Grid → Grid) : (s.updGrid g f).fabOut = s.fabOut := rfl
@[simp] theorem State.updGrid_marks (s : State) (g : Nat) (f : Grid → Grid) : (s.updGrid g f).marks = s.marks := rfl
@[simp] theorem State.updGrid_markPath (s : State) (g : Nat) (f : Grid → Grid) : (s.updGrid g f).markPath = s.markPath := rfl
@[simp] theorem State.updGrid_markOps (s : State) (g : Nat) (f : Grid → Grid) : (s.updGrid g f).markOps = s.markOps := rfl
@[simp] theorem State.updGrid_fabHeld (s : State) (g : Nat) (f : Grid → Grid) : (s.updGrid g f).fabHeld = s.fabHeld := rfl
@[simp] theorem State.updGrid_nextTag (s : State) (g : Nat) (f : Grid → Grid) : (s.updGrid g f).nextTag = s.nextTag := rfl
@[simp] theorem State.updGrid_sent (s : State) (g : Nat) (f : Grid → Grid) : (s.updGrid g f).sent = s.sent := rfl
@[simp] theorem State.updGrid_pins (s : State) (g : Nat) (f : Grid → Grid) : (s.updGrid g f).pins = s.pins := rfl
@[simp] theorem State.updGrid_out (s : State) (g : Nat) (f : Grid → Grid) : (s.updGrid g f).out = s.out := rfl
@[simp] theorem State.updGrid_outHeld (s : State) (g : Nat) (f : Grid → Grid) : (s.updGrid g f).outHeld = s.outHeld := rfl
@[simp] theorem State.updGrid_cur (s : State) (g : Nat) (f : Grid → Grid) : (s.updGrid g f).cur = s.cur := rfl
@[simp] theorem State.updGrid_note (s : State) (g : Nat) (f : Grid → Grid) : (s.updGrid g f).note = s.note := rfl
@[simp] theorem State.updGrid_agenda (s : State) (g : Nat) (f : Grid → Grid) : (s.updGrid g f).agenda = s.agenda := rfl
@[simp] theorem State.updGrid_fresh (s : State) (g : Nat) (f : Grid → Grid) : (s.updGrid g f).fresh = s.fresh := rfl

/-! ### `updCore` -/

@[simp] theorem State.updCore_clock (s : State) (c : Nat) (f : Core → Core) : (s.updCore c f).clock = s.clock := rfl
@[simp] theorem State.updCore_tick (s : State) (c : Nat) (f : Core → Core) : (s.updCore c f).tick = s.tick := rfl
@[simp] theorem State.updCore_tickPeriod (s : State) (c : Nat) (f : Core → Core) : (s.updCore c f).tickPeriod = s.tickPeriod := rfl
@[simp] theorem State.updCore_tickSpacing (s : State) (c : Nat) (f : Core → Core) : (s.updCore c f).tickSpacing = s.tickSpacing := rfl
@[simp] theorem State.updCore_lastTick (s : State) (c : Nat) (f : Core → Core) : (s.updCore c f).lastTick = s.lastTick := rfl
@[simp] theorem State.updCore_refillDue (s : State) (c : Nat) (f : Core → Core) : (s.updCore c f).refillDue = s.refillDue := rfl
@[simp] theorem State.updCore_startup (s : State) (c : Nat) (f : Core → Core) : (s.updCore c f).startup = s.startup := rfl
@[simp] theorem State.updCore_resetLow (s : State) (c : Nat) (f : Core → Core) : (s.updCore c f).resetLow = s.resetLow := rfl
@[simp] theorem State.updCore_presented (s : State) (c : Nat) (f : Core → Core) : (s.updCore c f).presented = s.presented := rfl
@[simp] theorem State.updCore_power (s : State) (c : Nat) (f : Core → Core) : (s.updCore c f).power = s.power := rfl
@[simp] theorem State.updCore_mem (s : State) (c : Nat) (f : Core → Core) : (s.updCore c f).mem = s.mem := rfl
@[simp] theorem State.updCore_lag (s : State) (c : Nat) (f : Core → Core) : (s.updCore c f).lag = s.lag := rfl
@[simp] theorem State.updCore_l2 (s : State) (c : Nat) (f : Core → Core) : (s.updCore c f).l2 = s.l2 := rfl
@[simp] theorem State.updCore_slices (s : State) (c : Nat) (f : Core → Core) : (s.updCore c f).slices = s.slices := rfl
@[simp] theorem State.updCore_reed (s : State) (c : Nat) (f : Core → Core) : (s.updCore c f).reed = s.reed := rfl
@[simp] theorem State.updCore_cores (s : State) (c : Nat) (f : Core → Core) : (s.updCore c f).cores = s.cores.put c (f (s.core c)) := rfl
@[simp] theorem State.updCore_tlb (s : State) (c : Nat) (f : Core → Core) : (s.updCore c f).tlb = s.tlb := rfl
@[simp] theorem State.updCore_blocks (s : State) (c : Nat) (f : Core → Core) : (s.updCore c f).blocks = s.blocks := rfl
@[simp] theorem State.updCore_reqs (s : State) (c : Nat) (f : Core → Core) : (s.updCore c f).reqs = s.reqs := rfl
@[simp] theorem State.updCore_replays (s : State) (c : Nat) (f : Core → Core) : (s.updCore c f).replays = s.replays := rfl
@[simp] theorem State.updCore_puts (s : State) (c : Nat) (f : Core → Core) : (s.updCore c f).puts = s.puts := rfl
@[simp] theorem State.updCore_sheafs (s : State) (c : Nat) (f : Core → Core) : (s.updCore c f).sheafs = s.sheafs := rfl
@[simp] theorem State.updCore_colls (s : State) (c : Nat) (f : Core → Core) : (s.updCore c f).colls = s.colls := rfl
@[simp] theorem State.updCore_nextBlock (s : State) (c : Nat) (f : Core → Core) : (s.updCore c f).nextBlock = s.nextBlock := rfl
@[simp] theorem State.updCore_nextId (s : State) (c : Nat) (f : Core → Core) : (s.updCore c f).nextId = s.nextId := rfl
@[simp] theorem State.updCore_grids (s : State) (c : Nat) (f : Core → Core) : (s.updCore c f).grids = s.grids := rfl
@[simp] theorem State.updCore_nextGrid (s : State) (c : Nat) (f : Core → Core) : (s.updCore c f).nextGrid = s.nextGrid := rfl
@[simp] theorem State.updCore_arrivals (s : State) (c : Nat) (f : Core → Core) : (s.updCore c f).arrivals = s.arrivals := rfl
@[simp] theorem State.updCore_graphs (s : State) (c : Nat) (f : Core → Core) : (s.updCore c f).graphs = s.graphs := rfl
@[simp] theorem State.updCore_jobs (s : State) (c : Nat) (f : Core → Core) : (s.updCore c f).jobs = s.jobs := rfl
@[simp] theorem State.updCore_disp (s : State) (c : Nat) (f : Core → Core) : (s.updCore c f).disp = s.disp := rfl
@[simp] theorem State.updCore_images (s : State) (c : Nat) (f : Core → Core) : (s.updCore c f).images = s.images := rfl
@[simp] theorem State.updCore_saveSeq (s : State) (c : Nat) (f : Core → Core) : (s.updCore c f).saveSeq = s.saveSeq := rfl
@[simp] theorem State.updCore_queues (s : State) (c : Nat) (f : Core → Core) : (s.updCore c f).queues = s.queues := rfl
@[simp] theorem State.updCore_qSess (s : State) (c : Nat) (f : Core → Core) : (s.updCore c f).qSess = s.qSess := rfl
@[simp] theorem State.updCore_dev (s : State) (c : Nat) (f : Core → Core) : (s.updCore c f).dev = s.dev := rfl
@[simp] theorem State.updCore_faultq (s : State) (c : Nat) (f : Core → Core) : (s.updCore c f).faultq = s.faultq := rfl
@[simp] theorem State.updCore_objects (s : State) (c : Nat) (f : Core → Core) : (s.updCore c f).objects = s.objects := rfl
@[simp] theorem State.updCore_routines (s : State) (c : Nat) (f : Core → Core) : (s.updCore c f).routines = s.routines := rfl
@[simp] theorem State.updCore_services (s : State) (c : Nat) (f : Core → Core) : (s.updCore c f).services = s.services := rfl
@[simp] theorem State.updCore_flash (s : State) (c : Nat) (f : Core → Core) : (s.updCore c f).flash = s.flash := rfl
@[simp] theorem State.updCore_secure (s : State) (c : Nat) (f : Core → Core) : (s.updCore c f).secure = s.secure := rfl
@[simp] theorem State.updCore_cfg (s : State) (c : Nat) (f : Core → Core) : (s.updCore c f).cfg = s.cfg := rfl
@[simp] theorem State.updCore_sessions (s : State) (c : Nat) (f : Core → Core) : (s.updCore c f).sessions = s.sessions := rfl
@[simp] theorem State.updCore_nextSession (s : State) (c : Nat) (f : Core → Core) : (s.updCore c f).nextSession = s.nextSession := rfl
@[simp] theorem State.updCore_pfcPaused (s : State) (c : Nat) (f : Core → Core) : (s.updCore c f).pfcPaused = s.pfcPaused := rfl
@[simp] theorem State.updCore_pfcEnds (s : State) (c : Nat) (f : Core → Core) : (s.updCore c f).pfcEnds = s.pfcEnds := rfl
@[simp] theorem State.updCore_health (s : State) (c : Nat) (f : Core → Core) : (s.updCore c f).health = s.health := rfl
@[simp] theorem State.updCore_ports (s : State) (c : Nat) (f : Core → Core) : (s.updCore c f).ports = s.ports := rfl
@[simp] theorem State.updCore_fabIn (s : State) (c : Nat) (f : Core → Core) : (s.updCore c f).fabIn = s.fabIn := rfl
@[simp] theorem State.updCore_fabOut (s : State) (c : Nat) (f : Core → Core) : (s.updCore c f).fabOut = s.fabOut := rfl
@[simp] theorem State.updCore_marks (s : State) (c : Nat) (f : Core → Core) : (s.updCore c f).marks = s.marks := rfl
@[simp] theorem State.updCore_markPath (s : State) (c : Nat) (f : Core → Core) : (s.updCore c f).markPath = s.markPath := rfl
@[simp] theorem State.updCore_markOps (s : State) (c : Nat) (f : Core → Core) : (s.updCore c f).markOps = s.markOps := rfl
@[simp] theorem State.updCore_fabHeld (s : State) (c : Nat) (f : Core → Core) : (s.updCore c f).fabHeld = s.fabHeld := rfl
@[simp] theorem State.updCore_nextTag (s : State) (c : Nat) (f : Core → Core) : (s.updCore c f).nextTag = s.nextTag := rfl
@[simp] theorem State.updCore_sent (s : State) (c : Nat) (f : Core → Core) : (s.updCore c f).sent = s.sent := rfl
@[simp] theorem State.updCore_pins (s : State) (c : Nat) (f : Core → Core) : (s.updCore c f).pins = s.pins := rfl
@[simp] theorem State.updCore_out (s : State) (c : Nat) (f : Core → Core) : (s.updCore c f).out = s.out := rfl
@[simp] theorem State.updCore_outHeld (s : State) (c : Nat) (f : Core → Core) : (s.updCore c f).outHeld = s.outHeld := rfl
@[simp] theorem State.updCore_cur (s : State) (c : Nat) (f : Core → Core) : (s.updCore c f).cur = s.cur := rfl
@[simp] theorem State.updCore_note (s : State) (c : Nat) (f : Core → Core) : (s.updCore c f).note = s.note := rfl
@[simp] theorem State.updCore_agenda (s : State) (c : Nat) (f : Core → Core) : (s.updCore c f).agenda = s.agenda := rfl
@[simp] theorem State.updCore_fresh (s : State) (c : Nat) (f : Core → Core) : (s.updCore c f).fresh = s.fresh := rfl

/-! ### `updQueue` -/

@[simp] theorem State.updQueue_clock (s : State) (n : Nat) (f : Queue → Queue) : (s.updQueue n f).clock = s.clock := rfl
@[simp] theorem State.updQueue_tick (s : State) (n : Nat) (f : Queue → Queue) : (s.updQueue n f).tick = s.tick := rfl
@[simp] theorem State.updQueue_tickPeriod (s : State) (n : Nat) (f : Queue → Queue) : (s.updQueue n f).tickPeriod = s.tickPeriod := rfl
@[simp] theorem State.updQueue_tickSpacing (s : State) (n : Nat) (f : Queue → Queue) : (s.updQueue n f).tickSpacing = s.tickSpacing := rfl
@[simp] theorem State.updQueue_lastTick (s : State) (n : Nat) (f : Queue → Queue) : (s.updQueue n f).lastTick = s.lastTick := rfl
@[simp] theorem State.updQueue_refillDue (s : State) (n : Nat) (f : Queue → Queue) : (s.updQueue n f).refillDue = s.refillDue := rfl
@[simp] theorem State.updQueue_startup (s : State) (n : Nat) (f : Queue → Queue) : (s.updQueue n f).startup = s.startup := rfl
@[simp] theorem State.updQueue_resetLow (s : State) (n : Nat) (f : Queue → Queue) : (s.updQueue n f).resetLow = s.resetLow := rfl
@[simp] theorem State.updQueue_presented (s : State) (n : Nat) (f : Queue → Queue) : (s.updQueue n f).presented = s.presented := rfl
@[simp] theorem State.updQueue_power (s : State) (n : Nat) (f : Queue → Queue) : (s.updQueue n f).power = s.power := rfl
@[simp] theorem State.updQueue_mem (s : State) (n : Nat) (f : Queue → Queue) : (s.updQueue n f).mem = s.mem := rfl
@[simp] theorem State.updQueue_lag (s : State) (n : Nat) (f : Queue → Queue) : (s.updQueue n f).lag = s.lag := rfl
@[simp] theorem State.updQueue_l2 (s : State) (n : Nat) (f : Queue → Queue) : (s.updQueue n f).l2 = s.l2 := rfl
@[simp] theorem State.updQueue_slices (s : State) (n : Nat) (f : Queue → Queue) : (s.updQueue n f).slices = s.slices := rfl
@[simp] theorem State.updQueue_reed (s : State) (n : Nat) (f : Queue → Queue) : (s.updQueue n f).reed = s.reed := rfl
@[simp] theorem State.updQueue_cores (s : State) (n : Nat) (f : Queue → Queue) : (s.updQueue n f).cores = s.cores := rfl
@[simp] theorem State.updQueue_tlb (s : State) (n : Nat) (f : Queue → Queue) : (s.updQueue n f).tlb = s.tlb := rfl
@[simp] theorem State.updQueue_blocks (s : State) (n : Nat) (f : Queue → Queue) : (s.updQueue n f).blocks = s.blocks := rfl
@[simp] theorem State.updQueue_reqs (s : State) (n : Nat) (f : Queue → Queue) : (s.updQueue n f).reqs = s.reqs := rfl
@[simp] theorem State.updQueue_replays (s : State) (n : Nat) (f : Queue → Queue) : (s.updQueue n f).replays = s.replays := rfl
@[simp] theorem State.updQueue_puts (s : State) (n : Nat) (f : Queue → Queue) : (s.updQueue n f).puts = s.puts := rfl
@[simp] theorem State.updQueue_sheafs (s : State) (n : Nat) (f : Queue → Queue) : (s.updQueue n f).sheafs = s.sheafs := rfl
@[simp] theorem State.updQueue_colls (s : State) (n : Nat) (f : Queue → Queue) : (s.updQueue n f).colls = s.colls := rfl
@[simp] theorem State.updQueue_nextBlock (s : State) (n : Nat) (f : Queue → Queue) : (s.updQueue n f).nextBlock = s.nextBlock := rfl
@[simp] theorem State.updQueue_nextId (s : State) (n : Nat) (f : Queue → Queue) : (s.updQueue n f).nextId = s.nextId := rfl
@[simp] theorem State.updQueue_grids (s : State) (n : Nat) (f : Queue → Queue) : (s.updQueue n f).grids = s.grids := rfl
@[simp] theorem State.updQueue_nextGrid (s : State) (n : Nat) (f : Queue → Queue) : (s.updQueue n f).nextGrid = s.nextGrid := rfl
@[simp] theorem State.updQueue_arrivals (s : State) (n : Nat) (f : Queue → Queue) : (s.updQueue n f).arrivals = s.arrivals := rfl
@[simp] theorem State.updQueue_graphs (s : State) (n : Nat) (f : Queue → Queue) : (s.updQueue n f).graphs = s.graphs := rfl
@[simp] theorem State.updQueue_jobs (s : State) (n : Nat) (f : Queue → Queue) : (s.updQueue n f).jobs = s.jobs := rfl
@[simp] theorem State.updQueue_disp (s : State) (n : Nat) (f : Queue → Queue) : (s.updQueue n f).disp = s.disp := rfl
@[simp] theorem State.updQueue_images (s : State) (n : Nat) (f : Queue → Queue) : (s.updQueue n f).images = s.images := rfl
@[simp] theorem State.updQueue_saveSeq (s : State) (n : Nat) (f : Queue → Queue) : (s.updQueue n f).saveSeq = s.saveSeq := rfl
@[simp] theorem State.updQueue_queues (s : State) (n : Nat) (f : Queue → Queue) : (s.updQueue n f).queues = s.queues.upd n f := rfl
@[simp] theorem State.updQueue_dev (s : State) (n : Nat) (f : Queue → Queue) : (s.updQueue n f).dev = s.dev := rfl
@[simp] theorem State.updQueue_faultq (s : State) (n : Nat) (f : Queue → Queue) : (s.updQueue n f).faultq = s.faultq := rfl
@[simp] theorem State.updQueue_objects (s : State) (n : Nat) (f : Queue → Queue) : (s.updQueue n f).objects = s.objects := rfl
@[simp] theorem State.updQueue_routines (s : State) (n : Nat) (f : Queue → Queue) : (s.updQueue n f).routines = s.routines := rfl
@[simp] theorem State.updQueue_services (s : State) (n : Nat) (f : Queue → Queue) : (s.updQueue n f).services = s.services := rfl
@[simp] theorem State.updQueue_flash (s : State) (n : Nat) (f : Queue → Queue) : (s.updQueue n f).flash = s.flash := rfl
@[simp] theorem State.updQueue_secure (s : State) (n : Nat) (f : Queue → Queue) : (s.updQueue n f).secure = s.secure := rfl
@[simp] theorem State.updQueue_cfg (s : State) (n : Nat) (f : Queue → Queue) : (s.updQueue n f).cfg = s.cfg := rfl
@[simp] theorem State.updQueue_sessions (s : State) (n : Nat) (f : Queue → Queue) : (s.updQueue n f).sessions = s.sessions := rfl
@[simp] theorem State.updQueue_nextSession (s : State) (n : Nat) (f : Queue → Queue) : (s.updQueue n f).nextSession = s.nextSession := rfl
@[simp] theorem State.updQueue_pfcPaused (s : State) (n : Nat) (f : Queue → Queue) : (s.updQueue n f).pfcPaused = s.pfcPaused := rfl
@[simp] theorem State.updQueue_pfcEnds (s : State) (n : Nat) (f : Queue → Queue) : (s.updQueue n f).pfcEnds = s.pfcEnds := rfl
@[simp] theorem State.updQueue_health (s : State) (n : Nat) (f : Queue → Queue) : (s.updQueue n f).health = s.health := rfl
@[simp] theorem State.updQueue_ports (s : State) (n : Nat) (f : Queue → Queue) : (s.updQueue n f).ports = s.ports := rfl
@[simp] theorem State.updQueue_fabIn (s : State) (n : Nat) (f : Queue → Queue) : (s.updQueue n f).fabIn = s.fabIn := rfl
@[simp] theorem State.updQueue_fabOut (s : State) (n : Nat) (f : Queue → Queue) : (s.updQueue n f).fabOut = s.fabOut := rfl
@[simp] theorem State.updQueue_marks (s : State) (n : Nat) (f : Queue → Queue) : (s.updQueue n f).marks = s.marks := rfl
@[simp] theorem State.updQueue_markPath (s : State) (n : Nat) (f : Queue → Queue) : (s.updQueue n f).markPath = s.markPath := rfl
@[simp] theorem State.updQueue_markOps (s : State) (n : Nat) (f : Queue → Queue) : (s.updQueue n f).markOps = s.markOps := rfl
@[simp] theorem State.updQueue_fabHeld (s : State) (n : Nat) (f : Queue → Queue) : (s.updQueue n f).fabHeld = s.fabHeld := rfl
@[simp] theorem State.updQueue_nextTag (s : State) (n : Nat) (f : Queue → Queue) : (s.updQueue n f).nextTag = s.nextTag := rfl
@[simp] theorem State.updQueue_sent (s : State) (n : Nat) (f : Queue → Queue) : (s.updQueue n f).sent = s.sent := rfl
@[simp] theorem State.updQueue_pins (s : State) (n : Nat) (f : Queue → Queue) : (s.updQueue n f).pins = s.pins := rfl
@[simp] theorem State.updQueue_out (s : State) (n : Nat) (f : Queue → Queue) : (s.updQueue n f).out = s.out := rfl
@[simp] theorem State.updQueue_outHeld (s : State) (n : Nat) (f : Queue → Queue) : (s.updQueue n f).outHeld = s.outHeld := rfl
@[simp] theorem State.updQueue_cur (s : State) (n : Nat) (f : Queue → Queue) : (s.updQueue n f).cur = s.cur := rfl
@[simp] theorem State.updQueue_note (s : State) (n : Nat) (f : Queue → Queue) : (s.updQueue n f).note = s.note := rfl
@[simp] theorem State.updQueue_agenda (s : State) (n : Nat) (f : Queue → Queue) : (s.updQueue n f).agenda = s.agenda := rfl
@[simp] theorem State.updQueue_fresh (s : State) (n : Nat) (f : Queue → Queue) : (s.updQueue n f).fresh = s.fresh := rfl

/-! ### `updPort` -/

@[simp] theorem State.updPort_clock (s : State) (p : Nat) (f : FabPort → FabPort) : (s.updPort p f).clock = s.clock := rfl
@[simp] theorem State.updPort_tick (s : State) (p : Nat) (f : FabPort → FabPort) : (s.updPort p f).tick = s.tick := rfl
@[simp] theorem State.updPort_tickPeriod (s : State) (p : Nat) (f : FabPort → FabPort) : (s.updPort p f).tickPeriod = s.tickPeriod := rfl
@[simp] theorem State.updPort_tickSpacing (s : State) (p : Nat) (f : FabPort → FabPort) : (s.updPort p f).tickSpacing = s.tickSpacing := rfl
@[simp] theorem State.updPort_lastTick (s : State) (p : Nat) (f : FabPort → FabPort) : (s.updPort p f).lastTick = s.lastTick := rfl
@[simp] theorem State.updPort_refillDue (s : State) (p : Nat) (f : FabPort → FabPort) : (s.updPort p f).refillDue = s.refillDue := rfl
@[simp] theorem State.updPort_startup (s : State) (p : Nat) (f : FabPort → FabPort) : (s.updPort p f).startup = s.startup := rfl
@[simp] theorem State.updPort_resetLow (s : State) (p : Nat) (f : FabPort → FabPort) : (s.updPort p f).resetLow = s.resetLow := rfl
@[simp] theorem State.updPort_presented (s : State) (p : Nat) (f : FabPort → FabPort) : (s.updPort p f).presented = s.presented := rfl
@[simp] theorem State.updPort_power (s : State) (p : Nat) (f : FabPort → FabPort) : (s.updPort p f).power = s.power := rfl
@[simp] theorem State.updPort_mem (s : State) (p : Nat) (f : FabPort → FabPort) : (s.updPort p f).mem = s.mem := rfl
@[simp] theorem State.updPort_lag (s : State) (p : Nat) (f : FabPort → FabPort) : (s.updPort p f).lag = s.lag := rfl
@[simp] theorem State.updPort_l2 (s : State) (p : Nat) (f : FabPort → FabPort) : (s.updPort p f).l2 = s.l2 := rfl
@[simp] theorem State.updPort_slices (s : State) (p : Nat) (f : FabPort → FabPort) : (s.updPort p f).slices = s.slices := rfl
@[simp] theorem State.updPort_reed (s : State) (p : Nat) (f : FabPort → FabPort) : (s.updPort p f).reed = s.reed := rfl
@[simp] theorem State.updPort_cores (s : State) (p : Nat) (f : FabPort → FabPort) : (s.updPort p f).cores = s.cores := rfl
@[simp] theorem State.updPort_tlb (s : State) (p : Nat) (f : FabPort → FabPort) : (s.updPort p f).tlb = s.tlb := rfl
@[simp] theorem State.updPort_blocks (s : State) (p : Nat) (f : FabPort → FabPort) : (s.updPort p f).blocks = s.blocks := rfl
@[simp] theorem State.updPort_reqs (s : State) (p : Nat) (f : FabPort → FabPort) : (s.updPort p f).reqs = s.reqs := rfl
@[simp] theorem State.updPort_replays (s : State) (p : Nat) (f : FabPort → FabPort) : (s.updPort p f).replays = s.replays := rfl
@[simp] theorem State.updPort_puts (s : State) (p : Nat) (f : FabPort → FabPort) : (s.updPort p f).puts = s.puts := rfl
@[simp] theorem State.updPort_sheafs (s : State) (p : Nat) (f : FabPort → FabPort) : (s.updPort p f).sheafs = s.sheafs := rfl
@[simp] theorem State.updPort_colls (s : State) (p : Nat) (f : FabPort → FabPort) : (s.updPort p f).colls = s.colls := rfl
@[simp] theorem State.updPort_nextBlock (s : State) (p : Nat) (f : FabPort → FabPort) : (s.updPort p f).nextBlock = s.nextBlock := rfl
@[simp] theorem State.updPort_nextId (s : State) (p : Nat) (f : FabPort → FabPort) : (s.updPort p f).nextId = s.nextId := rfl
@[simp] theorem State.updPort_grids (s : State) (p : Nat) (f : FabPort → FabPort) : (s.updPort p f).grids = s.grids := rfl
@[simp] theorem State.updPort_nextGrid (s : State) (p : Nat) (f : FabPort → FabPort) : (s.updPort p f).nextGrid = s.nextGrid := rfl
@[simp] theorem State.updPort_arrivals (s : State) (p : Nat) (f : FabPort → FabPort) : (s.updPort p f).arrivals = s.arrivals := rfl
@[simp] theorem State.updPort_graphs (s : State) (p : Nat) (f : FabPort → FabPort) : (s.updPort p f).graphs = s.graphs := rfl
@[simp] theorem State.updPort_jobs (s : State) (p : Nat) (f : FabPort → FabPort) : (s.updPort p f).jobs = s.jobs := rfl
@[simp] theorem State.updPort_disp (s : State) (p : Nat) (f : FabPort → FabPort) : (s.updPort p f).disp = s.disp := rfl
@[simp] theorem State.updPort_images (s : State) (p : Nat) (f : FabPort → FabPort) : (s.updPort p f).images = s.images := rfl
@[simp] theorem State.updPort_saveSeq (s : State) (p : Nat) (f : FabPort → FabPort) : (s.updPort p f).saveSeq = s.saveSeq := rfl
@[simp] theorem State.updPort_queues (s : State) (p : Nat) (f : FabPort → FabPort) : (s.updPort p f).queues = s.queues := rfl
@[simp] theorem State.updPort_qSess (s : State) (p : Nat) (f : FabPort → FabPort) : (s.updPort p f).qSess = s.qSess := rfl
@[simp] theorem State.updPort_dev (s : State) (p : Nat) (f : FabPort → FabPort) : (s.updPort p f).dev = s.dev := rfl
@[simp] theorem State.updPort_faultq (s : State) (p : Nat) (f : FabPort → FabPort) : (s.updPort p f).faultq = s.faultq := rfl
@[simp] theorem State.updPort_objects (s : State) (p : Nat) (f : FabPort → FabPort) : (s.updPort p f).objects = s.objects := rfl
@[simp] theorem State.updPort_routines (s : State) (p : Nat) (f : FabPort → FabPort) : (s.updPort p f).routines = s.routines := rfl
@[simp] theorem State.updPort_services (s : State) (p : Nat) (f : FabPort → FabPort) : (s.updPort p f).services = s.services := rfl
@[simp] theorem State.updPort_flash (s : State) (p : Nat) (f : FabPort → FabPort) : (s.updPort p f).flash = s.flash := rfl
@[simp] theorem State.updPort_secure (s : State) (p : Nat) (f : FabPort → FabPort) : (s.updPort p f).secure = s.secure := rfl
@[simp] theorem State.updPort_cfg (s : State) (p : Nat) (f : FabPort → FabPort) : (s.updPort p f).cfg = s.cfg := rfl
@[simp] theorem State.updPort_sessions (s : State) (p : Nat) (f : FabPort → FabPort) : (s.updPort p f).sessions = s.sessions := rfl
@[simp] theorem State.updPort_nextSession (s : State) (p : Nat) (f : FabPort → FabPort) : (s.updPort p f).nextSession = s.nextSession := rfl
@[simp] theorem State.updPort_pfcPaused (s : State) (p : Nat) (f : FabPort → FabPort) : (s.updPort p f).pfcPaused = s.pfcPaused := rfl
@[simp] theorem State.updPort_pfcEnds (s : State) (p : Nat) (f : FabPort → FabPort) : (s.updPort p f).pfcEnds = s.pfcEnds := rfl
@[simp] theorem State.updPort_health (s : State) (p : Nat) (f : FabPort → FabPort) : (s.updPort p f).health = s.health := rfl
@[simp] theorem State.updPort_ports (s : State) (p : Nat) (f : FabPort → FabPort) : (s.updPort p f).ports = s.ports.upd p f := rfl
@[simp] theorem State.updPort_fabIn (s : State) (p : Nat) (f : FabPort → FabPort) : (s.updPort p f).fabIn = s.fabIn := rfl
@[simp] theorem State.updPort_fabOut (s : State) (p : Nat) (f : FabPort → FabPort) : (s.updPort p f).fabOut = s.fabOut := rfl
@[simp] theorem State.updPort_marks (s : State) (p : Nat) (f : FabPort → FabPort) : (s.updPort p f).marks = s.marks := rfl
@[simp] theorem State.updPort_markPath (s : State) (p : Nat) (f : FabPort → FabPort) : (s.updPort p f).markPath = s.markPath := rfl
@[simp] theorem State.updPort_markOps (s : State) (p : Nat) (f : FabPort → FabPort) : (s.updPort p f).markOps = s.markOps := rfl
@[simp] theorem State.updPort_fabHeld (s : State) (p : Nat) (f : FabPort → FabPort) : (s.updPort p f).fabHeld = s.fabHeld := rfl
@[simp] theorem State.updPort_nextTag (s : State) (p : Nat) (f : FabPort → FabPort) : (s.updPort p f).nextTag = s.nextTag := rfl
@[simp] theorem State.updPort_sent (s : State) (p : Nat) (f : FabPort → FabPort) : (s.updPort p f).sent = s.sent := rfl
@[simp] theorem State.updPort_pins (s : State) (p : Nat) (f : FabPort → FabPort) : (s.updPort p f).pins = s.pins := rfl
@[simp] theorem State.updPort_out (s : State) (p : Nat) (f : FabPort → FabPort) : (s.updPort p f).out = s.out := rfl
@[simp] theorem State.updPort_outHeld (s : State) (p : Nat) (f : FabPort → FabPort) : (s.updPort p f).outHeld = s.outHeld := rfl
@[simp] theorem State.updPort_cur (s : State) (p : Nat) (f : FabPort → FabPort) : (s.updPort p f).cur = s.cur := rfl
@[simp] theorem State.updPort_note (s : State) (p : Nat) (f : FabPort → FabPort) : (s.updPort p f).note = s.note := rfl
@[simp] theorem State.updPort_agenda (s : State) (p : Nat) (f : FabPort → FabPort) : (s.updPort p f).agenda = s.agenda := rfl
@[simp] theorem State.updPort_fresh (s : State) (p : Nat) (f : FabPort → FabPort) : (s.updPort p f).fresh = s.fresh := rfl

/-! ### `updSheaf` -/

@[simp] theorem State.updSheaf_clock (s : State) (g : Nat) (f : Sheaf → Sheaf) : (s.updSheaf g f).clock = s.clock := rfl
@[simp] theorem State.updSheaf_tick (s : State) (g : Nat) (f : Sheaf → Sheaf) : (s.updSheaf g f).tick = s.tick := rfl
@[simp] theorem State.updSheaf_tickPeriod (s : State) (g : Nat) (f : Sheaf → Sheaf) : (s.updSheaf g f).tickPeriod = s.tickPeriod := rfl
@[simp] theorem State.updSheaf_tickSpacing (s : State) (g : Nat) (f : Sheaf → Sheaf) : (s.updSheaf g f).tickSpacing = s.tickSpacing := rfl
@[simp] theorem State.updSheaf_lastTick (s : State) (g : Nat) (f : Sheaf → Sheaf) : (s.updSheaf g f).lastTick = s.lastTick := rfl
@[simp] theorem State.updSheaf_refillDue (s : State) (g : Nat) (f : Sheaf → Sheaf) : (s.updSheaf g f).refillDue = s.refillDue := rfl
@[simp] theorem State.updSheaf_startup (s : State) (g : Nat) (f : Sheaf → Sheaf) : (s.updSheaf g f).startup = s.startup := rfl
@[simp] theorem State.updSheaf_resetLow (s : State) (g : Nat) (f : Sheaf → Sheaf) : (s.updSheaf g f).resetLow = s.resetLow := rfl
@[simp] theorem State.updSheaf_presented (s : State) (g : Nat) (f : Sheaf → Sheaf) : (s.updSheaf g f).presented = s.presented := rfl
@[simp] theorem State.updSheaf_power (s : State) (g : Nat) (f : Sheaf → Sheaf) : (s.updSheaf g f).power = s.power := rfl
@[simp] theorem State.updSheaf_mem (s : State) (g : Nat) (f : Sheaf → Sheaf) : (s.updSheaf g f).mem = s.mem := rfl
@[simp] theorem State.updSheaf_lag (s : State) (g : Nat) (f : Sheaf → Sheaf) : (s.updSheaf g f).lag = s.lag := rfl
@[simp] theorem State.updSheaf_l2 (s : State) (g : Nat) (f : Sheaf → Sheaf) : (s.updSheaf g f).l2 = s.l2 := rfl
@[simp] theorem State.updSheaf_slices (s : State) (g : Nat) (f : Sheaf → Sheaf) : (s.updSheaf g f).slices = s.slices := rfl
@[simp] theorem State.updSheaf_reed (s : State) (g : Nat) (f : Sheaf → Sheaf) : (s.updSheaf g f).reed = s.reed := rfl
@[simp] theorem State.updSheaf_cores (s : State) (g : Nat) (f : Sheaf → Sheaf) : (s.updSheaf g f).cores = s.cores := rfl
@[simp] theorem State.updSheaf_tlb (s : State) (g : Nat) (f : Sheaf → Sheaf) : (s.updSheaf g f).tlb = s.tlb := rfl
@[simp] theorem State.updSheaf_blocks (s : State) (g : Nat) (f : Sheaf → Sheaf) : (s.updSheaf g f).blocks = s.blocks := rfl
@[simp] theorem State.updSheaf_reqs (s : State) (g : Nat) (f : Sheaf → Sheaf) : (s.updSheaf g f).reqs = s.reqs := rfl
@[simp] theorem State.updSheaf_replays (s : State) (g : Nat) (f : Sheaf → Sheaf) : (s.updSheaf g f).replays = s.replays := rfl
@[simp] theorem State.updSheaf_puts (s : State) (g : Nat) (f : Sheaf → Sheaf) : (s.updSheaf g f).puts = s.puts := rfl
@[simp] theorem State.updSheaf_sheafs (s : State) (g : Nat) (f : Sheaf → Sheaf) : (s.updSheaf g f).sheafs = s.sheafs.put g (f (s.sheaf g)) := rfl
@[simp] theorem State.updSheaf_colls (s : State) (g : Nat) (f : Sheaf → Sheaf) : (s.updSheaf g f).colls = s.colls := rfl
@[simp] theorem State.updSheaf_nextBlock (s : State) (g : Nat) (f : Sheaf → Sheaf) : (s.updSheaf g f).nextBlock = s.nextBlock := rfl
@[simp] theorem State.updSheaf_nextId (s : State) (g : Nat) (f : Sheaf → Sheaf) : (s.updSheaf g f).nextId = s.nextId := rfl
@[simp] theorem State.updSheaf_grids (s : State) (g : Nat) (f : Sheaf → Sheaf) : (s.updSheaf g f).grids = s.grids := rfl
@[simp] theorem State.updSheaf_nextGrid (s : State) (g : Nat) (f : Sheaf → Sheaf) : (s.updSheaf g f).nextGrid = s.nextGrid := rfl
@[simp] theorem State.updSheaf_arrivals (s : State) (g : Nat) (f : Sheaf → Sheaf) : (s.updSheaf g f).arrivals = s.arrivals := rfl
@[simp] theorem State.updSheaf_graphs (s : State) (g : Nat) (f : Sheaf → Sheaf) : (s.updSheaf g f).graphs = s.graphs := rfl
@[simp] theorem State.updSheaf_jobs (s : State) (g : Nat) (f : Sheaf → Sheaf) : (s.updSheaf g f).jobs = s.jobs := rfl
@[simp] theorem State.updSheaf_disp (s : State) (g : Nat) (f : Sheaf → Sheaf) : (s.updSheaf g f).disp = s.disp := rfl
@[simp] theorem State.updSheaf_images (s : State) (g : Nat) (f : Sheaf → Sheaf) : (s.updSheaf g f).images = s.images := rfl
@[simp] theorem State.updSheaf_saveSeq (s : State) (g : Nat) (f : Sheaf → Sheaf) : (s.updSheaf g f).saveSeq = s.saveSeq := rfl
@[simp] theorem State.updSheaf_queues (s : State) (g : Nat) (f : Sheaf → Sheaf) : (s.updSheaf g f).queues = s.queues := rfl
@[simp] theorem State.updSheaf_qSess (s : State) (g : Nat) (f : Sheaf → Sheaf) : (s.updSheaf g f).qSess = s.qSess := rfl
@[simp] theorem State.updSheaf_dev (s : State) (g : Nat) (f : Sheaf → Sheaf) : (s.updSheaf g f).dev = s.dev := rfl
@[simp] theorem State.updSheaf_faultq (s : State) (g : Nat) (f : Sheaf → Sheaf) : (s.updSheaf g f).faultq = s.faultq := rfl
@[simp] theorem State.updSheaf_objects (s : State) (g : Nat) (f : Sheaf → Sheaf) : (s.updSheaf g f).objects = s.objects := rfl
@[simp] theorem State.updSheaf_routines (s : State) (g : Nat) (f : Sheaf → Sheaf) : (s.updSheaf g f).routines = s.routines := rfl
@[simp] theorem State.updSheaf_services (s : State) (g : Nat) (f : Sheaf → Sheaf) : (s.updSheaf g f).services = s.services := rfl
@[simp] theorem State.updSheaf_flash (s : State) (g : Nat) (f : Sheaf → Sheaf) : (s.updSheaf g f).flash = s.flash := rfl
@[simp] theorem State.updSheaf_secure (s : State) (g : Nat) (f : Sheaf → Sheaf) : (s.updSheaf g f).secure = s.secure := rfl
@[simp] theorem State.updSheaf_cfg (s : State) (g : Nat) (f : Sheaf → Sheaf) : (s.updSheaf g f).cfg = s.cfg := rfl
@[simp] theorem State.updSheaf_sessions (s : State) (g : Nat) (f : Sheaf → Sheaf) : (s.updSheaf g f).sessions = s.sessions := rfl
@[simp] theorem State.updSheaf_nextSession (s : State) (g : Nat) (f : Sheaf → Sheaf) : (s.updSheaf g f).nextSession = s.nextSession := rfl
@[simp] theorem State.updSheaf_pfcPaused (s : State) (g : Nat) (f : Sheaf → Sheaf) : (s.updSheaf g f).pfcPaused = s.pfcPaused := rfl
@[simp] theorem State.updSheaf_pfcEnds (s : State) (g : Nat) (f : Sheaf → Sheaf) : (s.updSheaf g f).pfcEnds = s.pfcEnds := rfl
@[simp] theorem State.updSheaf_health (s : State) (g : Nat) (f : Sheaf → Sheaf) : (s.updSheaf g f).health = s.health := rfl
@[simp] theorem State.updSheaf_ports (s : State) (g : Nat) (f : Sheaf → Sheaf) : (s.updSheaf g f).ports = s.ports := rfl
@[simp] theorem State.updSheaf_fabIn (s : State) (g : Nat) (f : Sheaf → Sheaf) : (s.updSheaf g f).fabIn = s.fabIn := rfl
@[simp] theorem State.updSheaf_fabOut (s : State) (g : Nat) (f : Sheaf → Sheaf) : (s.updSheaf g f).fabOut = s.fabOut := rfl
@[simp] theorem State.updSheaf_marks (s : State) (g : Nat) (f : Sheaf → Sheaf) : (s.updSheaf g f).marks = s.marks := rfl
@[simp] theorem State.updSheaf_markPath (s : State) (g : Nat) (f : Sheaf → Sheaf) : (s.updSheaf g f).markPath = s.markPath := rfl
@[simp] theorem State.updSheaf_markOps (s : State) (g : Nat) (f : Sheaf → Sheaf) : (s.updSheaf g f).markOps = s.markOps := rfl
@[simp] theorem State.updSheaf_fabHeld (s : State) (g : Nat) (f : Sheaf → Sheaf) : (s.updSheaf g f).fabHeld = s.fabHeld := rfl
@[simp] theorem State.updSheaf_nextTag (s : State) (g : Nat) (f : Sheaf → Sheaf) : (s.updSheaf g f).nextTag = s.nextTag := rfl
@[simp] theorem State.updSheaf_sent (s : State) (g : Nat) (f : Sheaf → Sheaf) : (s.updSheaf g f).sent = s.sent := rfl
@[simp] theorem State.updSheaf_pins (s : State) (g : Nat) (f : Sheaf → Sheaf) : (s.updSheaf g f).pins = s.pins := rfl
@[simp] theorem State.updSheaf_out (s : State) (g : Nat) (f : Sheaf → Sheaf) : (s.updSheaf g f).out = s.out := rfl
@[simp] theorem State.updSheaf_outHeld (s : State) (g : Nat) (f : Sheaf → Sheaf) : (s.updSheaf g f).outHeld = s.outHeld := rfl
@[simp] theorem State.updSheaf_cur (s : State) (g : Nat) (f : Sheaf → Sheaf) : (s.updSheaf g f).cur = s.cur := rfl
@[simp] theorem State.updSheaf_note (s : State) (g : Nat) (f : Sheaf → Sheaf) : (s.updSheaf g f).note = s.note := rfl
@[simp] theorem State.updSheaf_agenda (s : State) (g : Nat) (f : Sheaf → Sheaf) : (s.updSheaf g f).agenda = s.agenda := rfl
@[simp] theorem State.updSheaf_fresh (s : State) (g : Nat) (f : Sheaf → Sheaf) : (s.updSheaf g f).fresh = s.fresh := rfl

/-! ### `updColl` -/

@[simp] theorem State.updColl_clock (s : State) (g : Nat) (f : CollGroup → CollGroup) : (s.updColl g f).clock = s.clock := rfl
@[simp] theorem State.updColl_tick (s : State) (g : Nat) (f : CollGroup → CollGroup) : (s.updColl g f).tick = s.tick := rfl
@[simp] theorem State.updColl_tickPeriod (s : State) (g : Nat) (f : CollGroup → CollGroup) : (s.updColl g f).tickPeriod = s.tickPeriod := rfl
@[simp] theorem State.updColl_tickSpacing (s : State) (g : Nat) (f : CollGroup → CollGroup) : (s.updColl g f).tickSpacing = s.tickSpacing := rfl
@[simp] theorem State.updColl_lastTick (s : State) (g : Nat) (f : CollGroup → CollGroup) : (s.updColl g f).lastTick = s.lastTick := rfl
@[simp] theorem State.updColl_refillDue (s : State) (g : Nat) (f : CollGroup → CollGroup) : (s.updColl g f).refillDue = s.refillDue := rfl
@[simp] theorem State.updColl_startup (s : State) (g : Nat) (f : CollGroup → CollGroup) : (s.updColl g f).startup = s.startup := rfl
@[simp] theorem State.updColl_resetLow (s : State) (g : Nat) (f : CollGroup → CollGroup) : (s.updColl g f).resetLow = s.resetLow := rfl
@[simp] theorem State.updColl_presented (s : State) (g : Nat) (f : CollGroup → CollGroup) : (s.updColl g f).presented = s.presented := rfl
@[simp] theorem State.updColl_power (s : State) (g : Nat) (f : CollGroup → CollGroup) : (s.updColl g f).power = s.power := rfl
@[simp] theorem State.updColl_mem (s : State) (g : Nat) (f : CollGroup → CollGroup) : (s.updColl g f).mem = s.mem := rfl
@[simp] theorem State.updColl_lag (s : State) (g : Nat) (f : CollGroup → CollGroup) : (s.updColl g f).lag = s.lag := rfl
@[simp] theorem State.updColl_l2 (s : State) (g : Nat) (f : CollGroup → CollGroup) : (s.updColl g f).l2 = s.l2 := rfl
@[simp] theorem State.updColl_slices (s : State) (g : Nat) (f : CollGroup → CollGroup) : (s.updColl g f).slices = s.slices := rfl
@[simp] theorem State.updColl_reed (s : State) (g : Nat) (f : CollGroup → CollGroup) : (s.updColl g f).reed = s.reed := rfl
@[simp] theorem State.updColl_cores (s : State) (g : Nat) (f : CollGroup → CollGroup) : (s.updColl g f).cores = s.cores := rfl
@[simp] theorem State.updColl_tlb (s : State) (g : Nat) (f : CollGroup → CollGroup) : (s.updColl g f).tlb = s.tlb := rfl
@[simp] theorem State.updColl_blocks (s : State) (g : Nat) (f : CollGroup → CollGroup) : (s.updColl g f).blocks = s.blocks := rfl
@[simp] theorem State.updColl_reqs (s : State) (g : Nat) (f : CollGroup → CollGroup) : (s.updColl g f).reqs = s.reqs := rfl
@[simp] theorem State.updColl_replays (s : State) (g : Nat) (f : CollGroup → CollGroup) : (s.updColl g f).replays = s.replays := rfl
@[simp] theorem State.updColl_puts (s : State) (g : Nat) (f : CollGroup → CollGroup) : (s.updColl g f).puts = s.puts := rfl
@[simp] theorem State.updColl_sheafs (s : State) (g : Nat) (f : CollGroup → CollGroup) : (s.updColl g f).sheafs = s.sheafs := rfl
@[simp] theorem State.updColl_colls (s : State) (g : Nat) (f : CollGroup → CollGroup) : (s.updColl g f).colls = s.colls.put g (f (s.coll g)) := rfl
@[simp] theorem State.updColl_nextBlock (s : State) (g : Nat) (f : CollGroup → CollGroup) : (s.updColl g f).nextBlock = s.nextBlock := rfl
@[simp] theorem State.updColl_nextId (s : State) (g : Nat) (f : CollGroup → CollGroup) : (s.updColl g f).nextId = s.nextId := rfl
@[simp] theorem State.updColl_grids (s : State) (g : Nat) (f : CollGroup → CollGroup) : (s.updColl g f).grids = s.grids := rfl
@[simp] theorem State.updColl_nextGrid (s : State) (g : Nat) (f : CollGroup → CollGroup) : (s.updColl g f).nextGrid = s.nextGrid := rfl
@[simp] theorem State.updColl_arrivals (s : State) (g : Nat) (f : CollGroup → CollGroup) : (s.updColl g f).arrivals = s.arrivals := rfl
@[simp] theorem State.updColl_graphs (s : State) (g : Nat) (f : CollGroup → CollGroup) : (s.updColl g f).graphs = s.graphs := rfl
@[simp] theorem State.updColl_jobs (s : State) (g : Nat) (f : CollGroup → CollGroup) : (s.updColl g f).jobs = s.jobs := rfl
@[simp] theorem State.updColl_disp (s : State) (g : Nat) (f : CollGroup → CollGroup) : (s.updColl g f).disp = s.disp := rfl
@[simp] theorem State.updColl_images (s : State) (g : Nat) (f : CollGroup → CollGroup) : (s.updColl g f).images = s.images := rfl
@[simp] theorem State.updColl_saveSeq (s : State) (g : Nat) (f : CollGroup → CollGroup) : (s.updColl g f).saveSeq = s.saveSeq := rfl
@[simp] theorem State.updColl_queues (s : State) (g : Nat) (f : CollGroup → CollGroup) : (s.updColl g f).queues = s.queues := rfl
@[simp] theorem State.updColl_qSess (s : State) (g : Nat) (f : CollGroup → CollGroup) : (s.updColl g f).qSess = s.qSess := rfl
@[simp] theorem State.updColl_dev (s : State) (g : Nat) (f : CollGroup → CollGroup) : (s.updColl g f).dev = s.dev := rfl
@[simp] theorem State.updColl_faultq (s : State) (g : Nat) (f : CollGroup → CollGroup) : (s.updColl g f).faultq = s.faultq := rfl
@[simp] theorem State.updColl_objects (s : State) (g : Nat) (f : CollGroup → CollGroup) : (s.updColl g f).objects = s.objects := rfl
@[simp] theorem State.updColl_routines (s : State) (g : Nat) (f : CollGroup → CollGroup) : (s.updColl g f).routines = s.routines := rfl
@[simp] theorem State.updColl_services (s : State) (g : Nat) (f : CollGroup → CollGroup) : (s.updColl g f).services = s.services := rfl
@[simp] theorem State.updColl_flash (s : State) (g : Nat) (f : CollGroup → CollGroup) : (s.updColl g f).flash = s.flash := rfl
@[simp] theorem State.updColl_secure (s : State) (g : Nat) (f : CollGroup → CollGroup) : (s.updColl g f).secure = s.secure := rfl
@[simp] theorem State.updColl_cfg (s : State) (g : Nat) (f : CollGroup → CollGroup) : (s.updColl g f).cfg = s.cfg := rfl
@[simp] theorem State.updColl_sessions (s : State) (g : Nat) (f : CollGroup → CollGroup) : (s.updColl g f).sessions = s.sessions := rfl
@[simp] theorem State.updColl_nextSession (s : State) (g : Nat) (f : CollGroup → CollGroup) : (s.updColl g f).nextSession = s.nextSession := rfl
@[simp] theorem State.updColl_pfcPaused (s : State) (g : Nat) (f : CollGroup → CollGroup) : (s.updColl g f).pfcPaused = s.pfcPaused := rfl
@[simp] theorem State.updColl_pfcEnds (s : State) (g : Nat) (f : CollGroup → CollGroup) : (s.updColl g f).pfcEnds = s.pfcEnds := rfl
@[simp] theorem State.updColl_health (s : State) (g : Nat) (f : CollGroup → CollGroup) : (s.updColl g f).health = s.health := rfl
@[simp] theorem State.updColl_ports (s : State) (g : Nat) (f : CollGroup → CollGroup) : (s.updColl g f).ports = s.ports := rfl
@[simp] theorem State.updColl_fabIn (s : State) (g : Nat) (f : CollGroup → CollGroup) : (s.updColl g f).fabIn = s.fabIn := rfl
@[simp] theorem State.updColl_fabOut (s : State) (g : Nat) (f : CollGroup → CollGroup) : (s.updColl g f).fabOut = s.fabOut := rfl
@[simp] theorem State.updColl_marks (s : State) (g : Nat) (f : CollGroup → CollGroup) : (s.updColl g f).marks = s.marks := rfl
@[simp] theorem State.updColl_markPath (s : State) (g : Nat) (f : CollGroup → CollGroup) : (s.updColl g f).markPath = s.markPath := rfl
@[simp] theorem State.updColl_markOps (s : State) (g : Nat) (f : CollGroup → CollGroup) : (s.updColl g f).markOps = s.markOps := rfl
@[simp] theorem State.updColl_fabHeld (s : State) (g : Nat) (f : CollGroup → CollGroup) : (s.updColl g f).fabHeld = s.fabHeld := rfl
@[simp] theorem State.updColl_nextTag (s : State) (g : Nat) (f : CollGroup → CollGroup) : (s.updColl g f).nextTag = s.nextTag := rfl
@[simp] theorem State.updColl_sent (s : State) (g : Nat) (f : CollGroup → CollGroup) : (s.updColl g f).sent = s.sent := rfl
@[simp] theorem State.updColl_pins (s : State) (g : Nat) (f : CollGroup → CollGroup) : (s.updColl g f).pins = s.pins := rfl
@[simp] theorem State.updColl_out (s : State) (g : Nat) (f : CollGroup → CollGroup) : (s.updColl g f).out = s.out := rfl
@[simp] theorem State.updColl_outHeld (s : State) (g : Nat) (f : CollGroup → CollGroup) : (s.updColl g f).outHeld = s.outHeld := rfl
@[simp] theorem State.updColl_cur (s : State) (g : Nat) (f : CollGroup → CollGroup) : (s.updColl g f).cur = s.cur := rfl
@[simp] theorem State.updColl_note (s : State) (g : Nat) (f : CollGroup → CollGroup) : (s.updColl g f).note = s.note := rfl
@[simp] theorem State.updColl_agenda (s : State) (g : Nat) (f : CollGroup → CollGroup) : (s.updColl g f).agenda = s.agenda := rfl
@[simp] theorem State.updColl_fresh (s : State) (g : Nat) (f : CollGroup → CollGroup) : (s.updColl g f).fresh = s.fresh := rfl

/-! ### `updSession` -/

@[simp] theorem State.updSession_clock (s : State) (n : Nat) (f : Session → Session) : (s.updSession n f).clock = s.clock := rfl
@[simp] theorem State.updSession_tick (s : State) (n : Nat) (f : Session → Session) : (s.updSession n f).tick = s.tick := rfl
@[simp] theorem State.updSession_tickPeriod (s : State) (n : Nat) (f : Session → Session) : (s.updSession n f).tickPeriod = s.tickPeriod := rfl
@[simp] theorem State.updSession_tickSpacing (s : State) (n : Nat) (f : Session → Session) : (s.updSession n f).tickSpacing = s.tickSpacing := rfl
@[simp] theorem State.updSession_lastTick (s : State) (n : Nat) (f : Session → Session) : (s.updSession n f).lastTick = s.lastTick := rfl
@[simp] theorem State.updSession_refillDue (s : State) (n : Nat) (f : Session → Session) : (s.updSession n f).refillDue = s.refillDue := rfl
@[simp] theorem State.updSession_startup (s : State) (n : Nat) (f : Session → Session) : (s.updSession n f).startup = s.startup := rfl
@[simp] theorem State.updSession_resetLow (s : State) (n : Nat) (f : Session → Session) : (s.updSession n f).resetLow = s.resetLow := rfl
@[simp] theorem State.updSession_presented (s : State) (n : Nat) (f : Session → Session) : (s.updSession n f).presented = s.presented := rfl
@[simp] theorem State.updSession_power (s : State) (n : Nat) (f : Session → Session) : (s.updSession n f).power = s.power := rfl
@[simp] theorem State.updSession_mem (s : State) (n : Nat) (f : Session → Session) : (s.updSession n f).mem = s.mem := rfl
@[simp] theorem State.updSession_lag (s : State) (n : Nat) (f : Session → Session) : (s.updSession n f).lag = s.lag := rfl
@[simp] theorem State.updSession_l2 (s : State) (n : Nat) (f : Session → Session) : (s.updSession n f).l2 = s.l2 := rfl
@[simp] theorem State.updSession_slices (s : State) (n : Nat) (f : Session → Session) : (s.updSession n f).slices = s.slices := rfl
@[simp] theorem State.updSession_reed (s : State) (n : Nat) (f : Session → Session) : (s.updSession n f).reed = s.reed := rfl
@[simp] theorem State.updSession_cores (s : State) (n : Nat) (f : Session → Session) : (s.updSession n f).cores = s.cores := rfl
@[simp] theorem State.updSession_tlb (s : State) (n : Nat) (f : Session → Session) : (s.updSession n f).tlb = s.tlb := rfl
@[simp] theorem State.updSession_blocks (s : State) (n : Nat) (f : Session → Session) : (s.updSession n f).blocks = s.blocks := rfl
@[simp] theorem State.updSession_reqs (s : State) (n : Nat) (f : Session → Session) : (s.updSession n f).reqs = s.reqs := rfl
@[simp] theorem State.updSession_replays (s : State) (n : Nat) (f : Session → Session) : (s.updSession n f).replays = s.replays := rfl
@[simp] theorem State.updSession_puts (s : State) (n : Nat) (f : Session → Session) : (s.updSession n f).puts = s.puts := rfl
@[simp] theorem State.updSession_sheafs (s : State) (n : Nat) (f : Session → Session) : (s.updSession n f).sheafs = s.sheafs := rfl
@[simp] theorem State.updSession_colls (s : State) (n : Nat) (f : Session → Session) : (s.updSession n f).colls = s.colls := rfl
@[simp] theorem State.updSession_nextBlock (s : State) (n : Nat) (f : Session → Session) : (s.updSession n f).nextBlock = s.nextBlock := rfl
@[simp] theorem State.updSession_nextId (s : State) (n : Nat) (f : Session → Session) : (s.updSession n f).nextId = s.nextId := rfl
@[simp] theorem State.updSession_grids (s : State) (n : Nat) (f : Session → Session) : (s.updSession n f).grids = s.grids := rfl
@[simp] theorem State.updSession_nextGrid (s : State) (n : Nat) (f : Session → Session) : (s.updSession n f).nextGrid = s.nextGrid := rfl
@[simp] theorem State.updSession_arrivals (s : State) (n : Nat) (f : Session → Session) : (s.updSession n f).arrivals = s.arrivals := rfl
@[simp] theorem State.updSession_graphs (s : State) (n : Nat) (f : Session → Session) : (s.updSession n f).graphs = s.graphs := rfl
@[simp] theorem State.updSession_jobs (s : State) (n : Nat) (f : Session → Session) : (s.updSession n f).jobs = s.jobs := rfl
@[simp] theorem State.updSession_disp (s : State) (n : Nat) (f : Session → Session) : (s.updSession n f).disp = s.disp := rfl
@[simp] theorem State.updSession_images (s : State) (n : Nat) (f : Session → Session) : (s.updSession n f).images = s.images := rfl
@[simp] theorem State.updSession_saveSeq (s : State) (n : Nat) (f : Session → Session) : (s.updSession n f).saveSeq = s.saveSeq := rfl
@[simp] theorem State.updSession_queues (s : State) (n : Nat) (f : Session → Session) : (s.updSession n f).queues = s.queues := rfl
@[simp] theorem State.updSession_qSess (s : State) (n : Nat) (f : Session → Session) : (s.updSession n f).qSess = s.qSess := rfl
@[simp] theorem State.updSession_dev (s : State) (n : Nat) (f : Session → Session) : (s.updSession n f).dev = s.dev := rfl
@[simp] theorem State.updSession_faultq (s : State) (n : Nat) (f : Session → Session) : (s.updSession n f).faultq = s.faultq := rfl
@[simp] theorem State.updSession_objects (s : State) (n : Nat) (f : Session → Session) : (s.updSession n f).objects = s.objects := rfl
@[simp] theorem State.updSession_routines (s : State) (n : Nat) (f : Session → Session) : (s.updSession n f).routines = s.routines := rfl
@[simp] theorem State.updSession_services (s : State) (n : Nat) (f : Session → Session) : (s.updSession n f).services = s.services := rfl
@[simp] theorem State.updSession_flash (s : State) (n : Nat) (f : Session → Session) : (s.updSession n f).flash = s.flash := rfl
@[simp] theorem State.updSession_secure (s : State) (n : Nat) (f : Session → Session) : (s.updSession n f).secure = s.secure := rfl
@[simp] theorem State.updSession_cfg (s : State) (n : Nat) (f : Session → Session) : (s.updSession n f).cfg = s.cfg := rfl
@[simp] theorem State.updSession_sessions (s : State) (n : Nat) (f : Session → Session) : (s.updSession n f).sessions = s.sessions.map (fun x => if x.number = n then f x else x) := rfl
@[simp] theorem State.updSession_nextSession (s : State) (n : Nat) (f : Session → Session) : (s.updSession n f).nextSession = s.nextSession := rfl
@[simp] theorem State.updSession_pfcPaused (s : State) (n : Nat) (f : Session → Session) : (s.updSession n f).pfcPaused = s.pfcPaused := rfl
@[simp] theorem State.updSession_pfcEnds (s : State) (n : Nat) (f : Session → Session) : (s.updSession n f).pfcEnds = s.pfcEnds := rfl
@[simp] theorem State.updSession_health (s : State) (n : Nat) (f : Session → Session) : (s.updSession n f).health = s.health := rfl
@[simp] theorem State.updSession_ports (s : State) (n : Nat) (f : Session → Session) : (s.updSession n f).ports = s.ports := rfl
@[simp] theorem State.updSession_fabIn (s : State) (n : Nat) (f : Session → Session) : (s.updSession n f).fabIn = s.fabIn := rfl
@[simp] theorem State.updSession_fabOut (s : State) (n : Nat) (f : Session → Session) : (s.updSession n f).fabOut = s.fabOut := rfl
@[simp] theorem State.updSession_marks (s : State) (n : Nat) (f : Session → Session) : (s.updSession n f).marks = s.marks := rfl
@[simp] theorem State.updSession_markPath (s : State) (n : Nat) (f : Session → Session) : (s.updSession n f).markPath = s.markPath := rfl
@[simp] theorem State.updSession_markOps (s : State) (n : Nat) (f : Session → Session) : (s.updSession n f).markOps = s.markOps := rfl
@[simp] theorem State.updSession_fabHeld (s : State) (n : Nat) (f : Session → Session) : (s.updSession n f).fabHeld = s.fabHeld := rfl
@[simp] theorem State.updSession_nextTag (s : State) (n : Nat) (f : Session → Session) : (s.updSession n f).nextTag = s.nextTag := rfl
@[simp] theorem State.updSession_sent (s : State) (n : Nat) (f : Session → Session) : (s.updSession n f).sent = s.sent := rfl
@[simp] theorem State.updSession_pins (s : State) (n : Nat) (f : Session → Session) : (s.updSession n f).pins = s.pins := rfl
@[simp] theorem State.updSession_out (s : State) (n : Nat) (f : Session → Session) : (s.updSession n f).out = s.out := rfl
@[simp] theorem State.updSession_outHeld (s : State) (n : Nat) (f : Session → Session) : (s.updSession n f).outHeld = s.outHeld := rfl
@[simp] theorem State.updSession_cur (s : State) (n : Nat) (f : Session → Session) : (s.updSession n f).cur = s.cur := rfl
@[simp] theorem State.updSession_note (s : State) (n : Nat) (f : Session → Session) : (s.updSession n f).note = s.note := rfl
@[simp] theorem State.updSession_agenda (s : State) (n : Nat) (f : Session → Session) : (s.updSession n f).agenda = s.agenda := rfl
@[simp] theorem State.updSession_fresh (s : State) (n : Nat) (f : Session → Session) : (s.updSession n f).fresh = s.fresh := rfl

/-! ### `setReed` -/

@[simp] theorem State.setReed_clock (s : State) (f : Reed → Reed) : (s.setReed f).clock = s.clock := rfl
@[simp] theorem State.setReed_tick (s : State) (f : Reed → Reed) : (s.setReed f).tick = s.tick := rfl
@[simp] theorem State.setReed_tickPeriod (s : State) (f : Reed → Reed) : (s.setReed f).tickPeriod = s.tickPeriod := rfl
@[simp] theorem State.setReed_tickSpacing (s : State) (f : Reed → Reed) : (s.setReed f).tickSpacing = s.tickSpacing := rfl
@[simp] theorem State.setReed_lastTick (s : State) (f : Reed → Reed) : (s.setReed f).lastTick = s.lastTick := rfl
@[simp] theorem State.setReed_refillDue (s : State) (f : Reed → Reed) : (s.setReed f).refillDue = s.refillDue := rfl
@[simp] theorem State.setReed_startup (s : State) (f : Reed → Reed) : (s.setReed f).startup = s.startup := rfl
@[simp] theorem State.setReed_resetLow (s : State) (f : Reed → Reed) : (s.setReed f).resetLow = s.resetLow := rfl
@[simp] theorem State.setReed_presented (s : State) (f : Reed → Reed) : (s.setReed f).presented = s.presented := rfl
@[simp] theorem State.setReed_power (s : State) (f : Reed → Reed) : (s.setReed f).power = s.power := rfl
@[simp] theorem State.setReed_mem (s : State) (f : Reed → Reed) : (s.setReed f).mem = s.mem := rfl
@[simp] theorem State.setReed_lag (s : State) (f : Reed → Reed) : (s.setReed f).lag = s.lag := rfl
@[simp] theorem State.setReed_l2 (s : State) (f : Reed → Reed) : (s.setReed f).l2 = s.l2 := rfl
@[simp] theorem State.setReed_slices (s : State) (f : Reed → Reed) : (s.setReed f).slices = s.slices := rfl
@[simp] theorem State.setReed_reed (s : State) (f : Reed → Reed) : (s.setReed f).reed = f s.reed := rfl
@[simp] theorem State.setReed_cores (s : State) (f : Reed → Reed) : (s.setReed f).cores = s.cores := rfl
@[simp] theorem State.setReed_tlb (s : State) (f : Reed → Reed) : (s.setReed f).tlb = s.tlb := rfl
@[simp] theorem State.setReed_blocks (s : State) (f : Reed → Reed) : (s.setReed f).blocks = s.blocks := rfl
@[simp] theorem State.setReed_reqs (s : State) (f : Reed → Reed) : (s.setReed f).reqs = s.reqs := rfl
@[simp] theorem State.setReed_replays (s : State) (f : Reed → Reed) : (s.setReed f).replays = s.replays := rfl
@[simp] theorem State.setReed_puts (s : State) (f : Reed → Reed) : (s.setReed f).puts = s.puts := rfl
@[simp] theorem State.setReed_sheafs (s : State) (f : Reed → Reed) : (s.setReed f).sheafs = s.sheafs := rfl
@[simp] theorem State.setReed_colls (s : State) (f : Reed → Reed) : (s.setReed f).colls = s.colls := rfl
@[simp] theorem State.setReed_nextBlock (s : State) (f : Reed → Reed) : (s.setReed f).nextBlock = s.nextBlock := rfl
@[simp] theorem State.setReed_nextId (s : State) (f : Reed → Reed) : (s.setReed f).nextId = s.nextId := rfl
@[simp] theorem State.setReed_grids (s : State) (f : Reed → Reed) : (s.setReed f).grids = s.grids := rfl
@[simp] theorem State.setReed_nextGrid (s : State) (f : Reed → Reed) : (s.setReed f).nextGrid = s.nextGrid := rfl
@[simp] theorem State.setReed_arrivals (s : State) (f : Reed → Reed) : (s.setReed f).arrivals = s.arrivals := rfl
@[simp] theorem State.setReed_graphs (s : State) (f : Reed → Reed) : (s.setReed f).graphs = s.graphs := rfl
@[simp] theorem State.setReed_jobs (s : State) (f : Reed → Reed) : (s.setReed f).jobs = s.jobs := rfl
@[simp] theorem State.setReed_disp (s : State) (f : Reed → Reed) : (s.setReed f).disp = s.disp := rfl
@[simp] theorem State.setReed_images (s : State) (f : Reed → Reed) : (s.setReed f).images = s.images := rfl
@[simp] theorem State.setReed_saveSeq (s : State) (f : Reed → Reed) : (s.setReed f).saveSeq = s.saveSeq := rfl
@[simp] theorem State.setReed_queues (s : State) (f : Reed → Reed) : (s.setReed f).queues = s.queues := rfl
@[simp] theorem State.setReed_qSess (s : State) (f : Reed → Reed) : (s.setReed f).qSess = s.qSess := rfl
@[simp] theorem State.setReed_dev (s : State) (f : Reed → Reed) : (s.setReed f).dev = s.dev := rfl
@[simp] theorem State.setReed_faultq (s : State) (f : Reed → Reed) : (s.setReed f).faultq = s.faultq := rfl
@[simp] theorem State.setReed_objects (s : State) (f : Reed → Reed) : (s.setReed f).objects = s.objects := rfl
@[simp] theorem State.setReed_routines (s : State) (f : Reed → Reed) : (s.setReed f).routines = s.routines := rfl
@[simp] theorem State.setReed_services (s : State) (f : Reed → Reed) : (s.setReed f).services = s.services := rfl
@[simp] theorem State.setReed_flash (s : State) (f : Reed → Reed) : (s.setReed f).flash = s.flash := rfl
@[simp] theorem State.setReed_secure (s : State) (f : Reed → Reed) : (s.setReed f).secure = s.secure := rfl
@[simp] theorem State.setReed_cfg (s : State) (f : Reed → Reed) : (s.setReed f).cfg = s.cfg := rfl
@[simp] theorem State.setReed_sessions (s : State) (f : Reed → Reed) : (s.setReed f).sessions = s.sessions := rfl
@[simp] theorem State.setReed_nextSession (s : State) (f : Reed → Reed) : (s.setReed f).nextSession = s.nextSession := rfl
@[simp] theorem State.setReed_pfcPaused (s : State) (f : Reed → Reed) : (s.setReed f).pfcPaused = s.pfcPaused := rfl
@[simp] theorem State.setReed_pfcEnds (s : State) (f : Reed → Reed) : (s.setReed f).pfcEnds = s.pfcEnds := rfl
@[simp] theorem State.setReed_health (s : State) (f : Reed → Reed) : (s.setReed f).health = s.health := rfl
@[simp] theorem State.setReed_ports (s : State) (f : Reed → Reed) : (s.setReed f).ports = s.ports := rfl
@[simp] theorem State.setReed_fabIn (s : State) (f : Reed → Reed) : (s.setReed f).fabIn = s.fabIn := rfl
@[simp] theorem State.setReed_fabOut (s : State) (f : Reed → Reed) : (s.setReed f).fabOut = s.fabOut := rfl
@[simp] theorem State.setReed_marks (s : State) (f : Reed → Reed) : (s.setReed f).marks = s.marks := rfl
@[simp] theorem State.setReed_markPath (s : State) (f : Reed → Reed) : (s.setReed f).markPath = s.markPath := rfl
@[simp] theorem State.setReed_markOps (s : State) (f : Reed → Reed) : (s.setReed f).markOps = s.markOps := rfl
@[simp] theorem State.setReed_fabHeld (s : State) (f : Reed → Reed) : (s.setReed f).fabHeld = s.fabHeld := rfl
@[simp] theorem State.setReed_nextTag (s : State) (f : Reed → Reed) : (s.setReed f).nextTag = s.nextTag := rfl
@[simp] theorem State.setReed_sent (s : State) (f : Reed → Reed) : (s.setReed f).sent = s.sent := rfl
@[simp] theorem State.setReed_pins (s : State) (f : Reed → Reed) : (s.setReed f).pins = s.pins := rfl
@[simp] theorem State.setReed_out (s : State) (f : Reed → Reed) : (s.setReed f).out = s.out := rfl
@[simp] theorem State.setReed_outHeld (s : State) (f : Reed → Reed) : (s.setReed f).outHeld = s.outHeld := rfl
@[simp] theorem State.setReed_cur (s : State) (f : Reed → Reed) : (s.setReed f).cur = s.cur := rfl
@[simp] theorem State.setReed_note (s : State) (f : Reed → Reed) : (s.setReed f).note = s.note := rfl
@[simp] theorem State.setReed_agenda (s : State) (f : Reed → Reed) : (s.setReed f).agenda = s.agenda := rfl
@[simp] theorem State.setReed_fresh (s : State) (f : Reed → Reed) : (s.setReed f).fresh = s.fresh := rfl

/-! ### `setDev` -/

@[simp] theorem State.setDev_clock (s : State) (f : Dev → Dev) : (s.setDev f).clock = s.clock := rfl
@[simp] theorem State.setDev_tick (s : State) (f : Dev → Dev) : (s.setDev f).tick = s.tick := rfl
@[simp] theorem State.setDev_tickPeriod (s : State) (f : Dev → Dev) : (s.setDev f).tickPeriod = s.tickPeriod := rfl
@[simp] theorem State.setDev_tickSpacing (s : State) (f : Dev → Dev) : (s.setDev f).tickSpacing = s.tickSpacing := rfl
@[simp] theorem State.setDev_lastTick (s : State) (f : Dev → Dev) : (s.setDev f).lastTick = s.lastTick := rfl
@[simp] theorem State.setDev_refillDue (s : State) (f : Dev → Dev) : (s.setDev f).refillDue = s.refillDue := rfl
@[simp] theorem State.setDev_startup (s : State) (f : Dev → Dev) : (s.setDev f).startup = s.startup := rfl
@[simp] theorem State.setDev_resetLow (s : State) (f : Dev → Dev) : (s.setDev f).resetLow = s.resetLow := rfl
@[simp] theorem State.setDev_presented (s : State) (f : Dev → Dev) : (s.setDev f).presented = s.presented := rfl
@[simp] theorem State.setDev_power (s : State) (f : Dev → Dev) : (s.setDev f).power = s.power := rfl
@[simp] theorem State.setDev_mem (s : State) (f : Dev → Dev) : (s.setDev f).mem = s.mem := rfl
@[simp] theorem State.setDev_lag (s : State) (f : Dev → Dev) : (s.setDev f).lag = s.lag := rfl
@[simp] theorem State.setDev_l2 (s : State) (f : Dev → Dev) : (s.setDev f).l2 = s.l2 := rfl
@[simp] theorem State.setDev_slices (s : State) (f : Dev → Dev) : (s.setDev f).slices = s.slices := rfl
@[simp] theorem State.setDev_reed (s : State) (f : Dev → Dev) : (s.setDev f).reed = s.reed := rfl
@[simp] theorem State.setDev_cores (s : State) (f : Dev → Dev) : (s.setDev f).cores = s.cores := rfl
@[simp] theorem State.setDev_tlb (s : State) (f : Dev → Dev) : (s.setDev f).tlb = s.tlb := rfl
@[simp] theorem State.setDev_blocks (s : State) (f : Dev → Dev) : (s.setDev f).blocks = s.blocks := rfl
@[simp] theorem State.setDev_reqs (s : State) (f : Dev → Dev) : (s.setDev f).reqs = s.reqs := rfl
@[simp] theorem State.setDev_replays (s : State) (f : Dev → Dev) : (s.setDev f).replays = s.replays := rfl
@[simp] theorem State.setDev_puts (s : State) (f : Dev → Dev) : (s.setDev f).puts = s.puts := rfl
@[simp] theorem State.setDev_sheafs (s : State) (f : Dev → Dev) : (s.setDev f).sheafs = s.sheafs := rfl
@[simp] theorem State.setDev_colls (s : State) (f : Dev → Dev) : (s.setDev f).colls = s.colls := rfl
@[simp] theorem State.setDev_nextBlock (s : State) (f : Dev → Dev) : (s.setDev f).nextBlock = s.nextBlock := rfl
@[simp] theorem State.setDev_nextId (s : State) (f : Dev → Dev) : (s.setDev f).nextId = s.nextId := rfl
@[simp] theorem State.setDev_grids (s : State) (f : Dev → Dev) : (s.setDev f).grids = s.grids := rfl
@[simp] theorem State.setDev_nextGrid (s : State) (f : Dev → Dev) : (s.setDev f).nextGrid = s.nextGrid := rfl
@[simp] theorem State.setDev_arrivals (s : State) (f : Dev → Dev) : (s.setDev f).arrivals = s.arrivals := rfl
@[simp] theorem State.setDev_graphs (s : State) (f : Dev → Dev) : (s.setDev f).graphs = s.graphs := rfl
@[simp] theorem State.setDev_jobs (s : State) (f : Dev → Dev) : (s.setDev f).jobs = s.jobs := rfl
@[simp] theorem State.setDev_disp (s : State) (f : Dev → Dev) : (s.setDev f).disp = s.disp := rfl
@[simp] theorem State.setDev_images (s : State) (f : Dev → Dev) : (s.setDev f).images = s.images := rfl
@[simp] theorem State.setDev_saveSeq (s : State) (f : Dev → Dev) : (s.setDev f).saveSeq = s.saveSeq := rfl
@[simp] theorem State.setDev_queues (s : State) (f : Dev → Dev) : (s.setDev f).queues = s.queues := rfl
@[simp] theorem State.setDev_qSess (s : State) (f : Dev → Dev) : (s.setDev f).qSess = s.qSess := rfl
@[simp] theorem State.setDev_dev (s : State) (f : Dev → Dev) : (s.setDev f).dev = f s.dev := rfl
@[simp] theorem State.setDev_faultq (s : State) (f : Dev → Dev) : (s.setDev f).faultq = s.faultq := rfl
@[simp] theorem State.setDev_objects (s : State) (f : Dev → Dev) : (s.setDev f).objects = s.objects := rfl
@[simp] theorem State.setDev_routines (s : State) (f : Dev → Dev) : (s.setDev f).routines = s.routines := rfl
@[simp] theorem State.setDev_services (s : State) (f : Dev → Dev) : (s.setDev f).services = s.services := rfl
@[simp] theorem State.setDev_flash (s : State) (f : Dev → Dev) : (s.setDev f).flash = s.flash := rfl
@[simp] theorem State.setDev_secure (s : State) (f : Dev → Dev) : (s.setDev f).secure = s.secure := rfl
@[simp] theorem State.setDev_cfg (s : State) (f : Dev → Dev) : (s.setDev f).cfg = s.cfg := rfl
@[simp] theorem State.setDev_sessions (s : State) (f : Dev → Dev) : (s.setDev f).sessions = s.sessions := rfl
@[simp] theorem State.setDev_nextSession (s : State) (f : Dev → Dev) : (s.setDev f).nextSession = s.nextSession := rfl
@[simp] theorem State.setDev_pfcPaused (s : State) (f : Dev → Dev) : (s.setDev f).pfcPaused = s.pfcPaused := rfl
@[simp] theorem State.setDev_pfcEnds (s : State) (f : Dev → Dev) : (s.setDev f).pfcEnds = s.pfcEnds := rfl
@[simp] theorem State.setDev_health (s : State) (f : Dev → Dev) : (s.setDev f).health = s.health := rfl
@[simp] theorem State.setDev_ports (s : State) (f : Dev → Dev) : (s.setDev f).ports = s.ports := rfl
@[simp] theorem State.setDev_fabIn (s : State) (f : Dev → Dev) : (s.setDev f).fabIn = s.fabIn := rfl
@[simp] theorem State.setDev_fabOut (s : State) (f : Dev → Dev) : (s.setDev f).fabOut = s.fabOut := rfl
@[simp] theorem State.setDev_marks (s : State) (f : Dev → Dev) : (s.setDev f).marks = s.marks := rfl
@[simp] theorem State.setDev_markPath (s : State) (f : Dev → Dev) : (s.setDev f).markPath = s.markPath := rfl
@[simp] theorem State.setDev_markOps (s : State) (f : Dev → Dev) : (s.setDev f).markOps = s.markOps := rfl
@[simp] theorem State.setDev_fabHeld (s : State) (f : Dev → Dev) : (s.setDev f).fabHeld = s.fabHeld := rfl
@[simp] theorem State.setDev_nextTag (s : State) (f : Dev → Dev) : (s.setDev f).nextTag = s.nextTag := rfl
@[simp] theorem State.setDev_sent (s : State) (f : Dev → Dev) : (s.setDev f).sent = s.sent := rfl
@[simp] theorem State.setDev_pins (s : State) (f : Dev → Dev) : (s.setDev f).pins = s.pins := rfl
@[simp] theorem State.setDev_out (s : State) (f : Dev → Dev) : (s.setDev f).out = s.out := rfl
@[simp] theorem State.setDev_outHeld (s : State) (f : Dev → Dev) : (s.setDev f).outHeld = s.outHeld := rfl
@[simp] theorem State.setDev_cur (s : State) (f : Dev → Dev) : (s.setDev f).cur = s.cur := rfl
@[simp] theorem State.setDev_note (s : State) (f : Dev → Dev) : (s.setDev f).note = s.note := rfl
@[simp] theorem State.setDev_agenda (s : State) (f : Dev → Dev) : (s.setDev f).agenda = s.agenda := rfl
@[simp] theorem State.setDev_fresh (s : State) (f : Dev → Dev) : (s.setDev f).fresh = s.fresh := rfl

/-! ### `setFq` -/

@[simp] theorem State.setFq_clock (s : State) (f : FaultQ → FaultQ) : (s.setFq f).clock = s.clock := rfl
@[simp] theorem State.setFq_tick (s : State) (f : FaultQ → FaultQ) : (s.setFq f).tick = s.tick := rfl
@[simp] theorem State.setFq_tickPeriod (s : State) (f : FaultQ → FaultQ) : (s.setFq f).tickPeriod = s.tickPeriod := rfl
@[simp] theorem State.setFq_tickSpacing (s : State) (f : FaultQ → FaultQ) : (s.setFq f).tickSpacing = s.tickSpacing := rfl
@[simp] theorem State.setFq_lastTick (s : State) (f : FaultQ → FaultQ) : (s.setFq f).lastTick = s.lastTick := rfl
@[simp] theorem State.setFq_refillDue (s : State) (f : FaultQ → FaultQ) : (s.setFq f).refillDue = s.refillDue := rfl
@[simp] theorem State.setFq_startup (s : State) (f : FaultQ → FaultQ) : (s.setFq f).startup = s.startup := rfl
@[simp] theorem State.setFq_resetLow (s : State) (f : FaultQ → FaultQ) : (s.setFq f).resetLow = s.resetLow := rfl
@[simp] theorem State.setFq_presented (s : State) (f : FaultQ → FaultQ) : (s.setFq f).presented = s.presented := rfl
@[simp] theorem State.setFq_power (s : State) (f : FaultQ → FaultQ) : (s.setFq f).power = s.power := rfl
@[simp] theorem State.setFq_mem (s : State) (f : FaultQ → FaultQ) : (s.setFq f).mem = s.mem := rfl
@[simp] theorem State.setFq_lag (s : State) (f : FaultQ → FaultQ) : (s.setFq f).lag = s.lag := rfl
@[simp] theorem State.setFq_l2 (s : State) (f : FaultQ → FaultQ) : (s.setFq f).l2 = s.l2 := rfl
@[simp] theorem State.setFq_slices (s : State) (f : FaultQ → FaultQ) : (s.setFq f).slices = s.slices := rfl
@[simp] theorem State.setFq_reed (s : State) (f : FaultQ → FaultQ) : (s.setFq f).reed = s.reed := rfl
@[simp] theorem State.setFq_cores (s : State) (f : FaultQ → FaultQ) : (s.setFq f).cores = s.cores := rfl
@[simp] theorem State.setFq_tlb (s : State) (f : FaultQ → FaultQ) : (s.setFq f).tlb = s.tlb := rfl
@[simp] theorem State.setFq_blocks (s : State) (f : FaultQ → FaultQ) : (s.setFq f).blocks = s.blocks := rfl
@[simp] theorem State.setFq_reqs (s : State) (f : FaultQ → FaultQ) : (s.setFq f).reqs = s.reqs := rfl
@[simp] theorem State.setFq_replays (s : State) (f : FaultQ → FaultQ) : (s.setFq f).replays = s.replays := rfl
@[simp] theorem State.setFq_puts (s : State) (f : FaultQ → FaultQ) : (s.setFq f).puts = s.puts := rfl
@[simp] theorem State.setFq_sheafs (s : State) (f : FaultQ → FaultQ) : (s.setFq f).sheafs = s.sheafs := rfl
@[simp] theorem State.setFq_colls (s : State) (f : FaultQ → FaultQ) : (s.setFq f).colls = s.colls := rfl
@[simp] theorem State.setFq_nextBlock (s : State) (f : FaultQ → FaultQ) : (s.setFq f).nextBlock = s.nextBlock := rfl
@[simp] theorem State.setFq_nextId (s : State) (f : FaultQ → FaultQ) : (s.setFq f).nextId = s.nextId := rfl
@[simp] theorem State.setFq_grids (s : State) (f : FaultQ → FaultQ) : (s.setFq f).grids = s.grids := rfl
@[simp] theorem State.setFq_nextGrid (s : State) (f : FaultQ → FaultQ) : (s.setFq f).nextGrid = s.nextGrid := rfl
@[simp] theorem State.setFq_arrivals (s : State) (f : FaultQ → FaultQ) : (s.setFq f).arrivals = s.arrivals := rfl
@[simp] theorem State.setFq_graphs (s : State) (f : FaultQ → FaultQ) : (s.setFq f).graphs = s.graphs := rfl
@[simp] theorem State.setFq_jobs (s : State) (f : FaultQ → FaultQ) : (s.setFq f).jobs = s.jobs := rfl
@[simp] theorem State.setFq_disp (s : State) (f : FaultQ → FaultQ) : (s.setFq f).disp = s.disp := rfl
@[simp] theorem State.setFq_images (s : State) (f : FaultQ → FaultQ) : (s.setFq f).images = s.images := rfl
@[simp] theorem State.setFq_saveSeq (s : State) (f : FaultQ → FaultQ) : (s.setFq f).saveSeq = s.saveSeq := rfl
@[simp] theorem State.setFq_queues (s : State) (f : FaultQ → FaultQ) : (s.setFq f).queues = s.queues := rfl
@[simp] theorem State.setFq_qSess (s : State) (f : FaultQ → FaultQ) : (s.setFq f).qSess = s.qSess := rfl
@[simp] theorem State.setFq_dev (s : State) (f : FaultQ → FaultQ) : (s.setFq f).dev = s.dev := rfl
@[simp] theorem State.setFq_faultq (s : State) (f : FaultQ → FaultQ) : (s.setFq f).faultq = f s.faultq := rfl
@[simp] theorem State.setFq_objects (s : State) (f : FaultQ → FaultQ) : (s.setFq f).objects = s.objects := rfl
@[simp] theorem State.setFq_routines (s : State) (f : FaultQ → FaultQ) : (s.setFq f).routines = s.routines := rfl
@[simp] theorem State.setFq_services (s : State) (f : FaultQ → FaultQ) : (s.setFq f).services = s.services := rfl
@[simp] theorem State.setFq_flash (s : State) (f : FaultQ → FaultQ) : (s.setFq f).flash = s.flash := rfl
@[simp] theorem State.setFq_secure (s : State) (f : FaultQ → FaultQ) : (s.setFq f).secure = s.secure := rfl
@[simp] theorem State.setFq_cfg (s : State) (f : FaultQ → FaultQ) : (s.setFq f).cfg = s.cfg := rfl
@[simp] theorem State.setFq_sessions (s : State) (f : FaultQ → FaultQ) : (s.setFq f).sessions = s.sessions := rfl
@[simp] theorem State.setFq_nextSession (s : State) (f : FaultQ → FaultQ) : (s.setFq f).nextSession = s.nextSession := rfl
@[simp] theorem State.setFq_pfcPaused (s : State) (f : FaultQ → FaultQ) : (s.setFq f).pfcPaused = s.pfcPaused := rfl
@[simp] theorem State.setFq_pfcEnds (s : State) (f : FaultQ → FaultQ) : (s.setFq f).pfcEnds = s.pfcEnds := rfl
@[simp] theorem State.setFq_health (s : State) (f : FaultQ → FaultQ) : (s.setFq f).health = s.health := rfl
@[simp] theorem State.setFq_ports (s : State) (f : FaultQ → FaultQ) : (s.setFq f).ports = s.ports := rfl
@[simp] theorem State.setFq_fabIn (s : State) (f : FaultQ → FaultQ) : (s.setFq f).fabIn = s.fabIn := rfl
@[simp] theorem State.setFq_fabOut (s : State) (f : FaultQ → FaultQ) : (s.setFq f).fabOut = s.fabOut := rfl
@[simp] theorem State.setFq_marks (s : State) (f : FaultQ → FaultQ) : (s.setFq f).marks = s.marks := rfl
@[simp] theorem State.setFq_markPath (s : State) (f : FaultQ → FaultQ) : (s.setFq f).markPath = s.markPath := rfl
@[simp] theorem State.setFq_markOps (s : State) (f : FaultQ → FaultQ) : (s.setFq f).markOps = s.markOps := rfl
@[simp] theorem State.setFq_fabHeld (s : State) (f : FaultQ → FaultQ) : (s.setFq f).fabHeld = s.fabHeld := rfl
@[simp] theorem State.setFq_nextTag (s : State) (f : FaultQ → FaultQ) : (s.setFq f).nextTag = s.nextTag := rfl
@[simp] theorem State.setFq_sent (s : State) (f : FaultQ → FaultQ) : (s.setFq f).sent = s.sent := rfl
@[simp] theorem State.setFq_pins (s : State) (f : FaultQ → FaultQ) : (s.setFq f).pins = s.pins := rfl
@[simp] theorem State.setFq_out (s : State) (f : FaultQ → FaultQ) : (s.setFq f).out = s.out := rfl
@[simp] theorem State.setFq_outHeld (s : State) (f : FaultQ → FaultQ) : (s.setFq f).outHeld = s.outHeld := rfl
@[simp] theorem State.setFq_cur (s : State) (f : FaultQ → FaultQ) : (s.setFq f).cur = s.cur := rfl
@[simp] theorem State.setFq_note (s : State) (f : FaultQ → FaultQ) : (s.setFq f).note = s.note := rfl
@[simp] theorem State.setFq_agenda (s : State) (f : FaultQ → FaultQ) : (s.setFq f).agenda = s.agenda := rfl
@[simp] theorem State.setFq_fresh (s : State) (f : FaultQ → FaultQ) : (s.setFq f).fresh = s.fresh := rfl

/-! ### `setHealth` -/

@[simp] theorem State.setHealth_clock (s : State) (f : Health → Health) : (s.setHealth f).clock = s.clock := rfl
@[simp] theorem State.setHealth_tick (s : State) (f : Health → Health) : (s.setHealth f).tick = s.tick := rfl
@[simp] theorem State.setHealth_tickPeriod (s : State) (f : Health → Health) : (s.setHealth f).tickPeriod = s.tickPeriod := rfl
@[simp] theorem State.setHealth_tickSpacing (s : State) (f : Health → Health) : (s.setHealth f).tickSpacing = s.tickSpacing := rfl
@[simp] theorem State.setHealth_lastTick (s : State) (f : Health → Health) : (s.setHealth f).lastTick = s.lastTick := rfl
@[simp] theorem State.setHealth_refillDue (s : State) (f : Health → Health) : (s.setHealth f).refillDue = s.refillDue := rfl
@[simp] theorem State.setHealth_startup (s : State) (f : Health → Health) : (s.setHealth f).startup = s.startup := rfl
@[simp] theorem State.setHealth_resetLow (s : State) (f : Health → Health) : (s.setHealth f).resetLow = s.resetLow := rfl
@[simp] theorem State.setHealth_presented (s : State) (f : Health → Health) : (s.setHealth f).presented = s.presented := rfl
@[simp] theorem State.setHealth_power (s : State) (f : Health → Health) : (s.setHealth f).power = s.power := rfl
@[simp] theorem State.setHealth_mem (s : State) (f : Health → Health) : (s.setHealth f).mem = s.mem := rfl
@[simp] theorem State.setHealth_lag (s : State) (f : Health → Health) : (s.setHealth f).lag = s.lag := rfl
@[simp] theorem State.setHealth_l2 (s : State) (f : Health → Health) : (s.setHealth f).l2 = s.l2 := rfl
@[simp] theorem State.setHealth_slices (s : State) (f : Health → Health) : (s.setHealth f).slices = s.slices := rfl
@[simp] theorem State.setHealth_reed (s : State) (f : Health → Health) : (s.setHealth f).reed = s.reed := rfl
@[simp] theorem State.setHealth_cores (s : State) (f : Health → Health) : (s.setHealth f).cores = s.cores := rfl
@[simp] theorem State.setHealth_tlb (s : State) (f : Health → Health) : (s.setHealth f).tlb = s.tlb := rfl
@[simp] theorem State.setHealth_blocks (s : State) (f : Health → Health) : (s.setHealth f).blocks = s.blocks := rfl
@[simp] theorem State.setHealth_reqs (s : State) (f : Health → Health) : (s.setHealth f).reqs = s.reqs := rfl
@[simp] theorem State.setHealth_replays (s : State) (f : Health → Health) : (s.setHealth f).replays = s.replays := rfl
@[simp] theorem State.setHealth_puts (s : State) (f : Health → Health) : (s.setHealth f).puts = s.puts := rfl
@[simp] theorem State.setHealth_sheafs (s : State) (f : Health → Health) : (s.setHealth f).sheafs = s.sheafs := rfl
@[simp] theorem State.setHealth_colls (s : State) (f : Health → Health) : (s.setHealth f).colls = s.colls := rfl
@[simp] theorem State.setHealth_nextBlock (s : State) (f : Health → Health) : (s.setHealth f).nextBlock = s.nextBlock := rfl
@[simp] theorem State.setHealth_nextId (s : State) (f : Health → Health) : (s.setHealth f).nextId = s.nextId := rfl
@[simp] theorem State.setHealth_grids (s : State) (f : Health → Health) : (s.setHealth f).grids = s.grids := rfl
@[simp] theorem State.setHealth_nextGrid (s : State) (f : Health → Health) : (s.setHealth f).nextGrid = s.nextGrid := rfl
@[simp] theorem State.setHealth_arrivals (s : State) (f : Health → Health) : (s.setHealth f).arrivals = s.arrivals := rfl
@[simp] theorem State.setHealth_graphs (s : State) (f : Health → Health) : (s.setHealth f).graphs = s.graphs := rfl
@[simp] theorem State.setHealth_jobs (s : State) (f : Health → Health) : (s.setHealth f).jobs = s.jobs := rfl
@[simp] theorem State.setHealth_disp (s : State) (f : Health → Health) : (s.setHealth f).disp = s.disp := rfl
@[simp] theorem State.setHealth_images (s : State) (f : Health → Health) : (s.setHealth f).images = s.images := rfl
@[simp] theorem State.setHealth_saveSeq (s : State) (f : Health → Health) : (s.setHealth f).saveSeq = s.saveSeq := rfl
@[simp] theorem State.setHealth_queues (s : State) (f : Health → Health) : (s.setHealth f).queues = s.queues := rfl
@[simp] theorem State.setHealth_qSess (s : State) (f : Health → Health) : (s.setHealth f).qSess = s.qSess := rfl
@[simp] theorem State.setHealth_dev (s : State) (f : Health → Health) : (s.setHealth f).dev = s.dev := rfl
@[simp] theorem State.setHealth_faultq (s : State) (f : Health → Health) : (s.setHealth f).faultq = s.faultq := rfl
@[simp] theorem State.setHealth_objects (s : State) (f : Health → Health) : (s.setHealth f).objects = s.objects := rfl
@[simp] theorem State.setHealth_routines (s : State) (f : Health → Health) : (s.setHealth f).routines = s.routines := rfl
@[simp] theorem State.setHealth_services (s : State) (f : Health → Health) : (s.setHealth f).services = s.services := rfl
@[simp] theorem State.setHealth_flash (s : State) (f : Health → Health) : (s.setHealth f).flash = s.flash := rfl
@[simp] theorem State.setHealth_secure (s : State) (f : Health → Health) : (s.setHealth f).secure = s.secure := rfl
@[simp] theorem State.setHealth_cfg (s : State) (f : Health → Health) : (s.setHealth f).cfg = s.cfg := rfl
@[simp] theorem State.setHealth_sessions (s : State) (f : Health → Health) : (s.setHealth f).sessions = s.sessions := rfl
@[simp] theorem State.setHealth_nextSession (s : State) (f : Health → Health) : (s.setHealth f).nextSession = s.nextSession := rfl
@[simp] theorem State.setHealth_pfcPaused (s : State) (f : Health → Health) : (s.setHealth f).pfcPaused = s.pfcPaused := rfl
@[simp] theorem State.setHealth_pfcEnds (s : State) (f : Health → Health) : (s.setHealth f).pfcEnds = s.pfcEnds := rfl
@[simp] theorem State.setHealth_health (s : State) (f : Health → Health) : (s.setHealth f).health = f s.health := rfl
@[simp] theorem State.setHealth_ports (s : State) (f : Health → Health) : (s.setHealth f).ports = s.ports := rfl
@[simp] theorem State.setHealth_fabIn (s : State) (f : Health → Health) : (s.setHealth f).fabIn = s.fabIn := rfl
@[simp] theorem State.setHealth_fabOut (s : State) (f : Health → Health) : (s.setHealth f).fabOut = s.fabOut := rfl
@[simp] theorem State.setHealth_marks (s : State) (f : Health → Health) : (s.setHealth f).marks = s.marks := rfl
@[simp] theorem State.setHealth_markPath (s : State) (f : Health → Health) : (s.setHealth f).markPath = s.markPath := rfl
@[simp] theorem State.setHealth_markOps (s : State) (f : Health → Health) : (s.setHealth f).markOps = s.markOps := rfl
@[simp] theorem State.setHealth_fabHeld (s : State) (f : Health → Health) : (s.setHealth f).fabHeld = s.fabHeld := rfl
@[simp] theorem State.setHealth_nextTag (s : State) (f : Health → Health) : (s.setHealth f).nextTag = s.nextTag := rfl
@[simp] theorem State.setHealth_sent (s : State) (f : Health → Health) : (s.setHealth f).sent = s.sent := rfl
@[simp] theorem State.setHealth_pins (s : State) (f : Health → Health) : (s.setHealth f).pins = s.pins := rfl
@[simp] theorem State.setHealth_out (s : State) (f : Health → Health) : (s.setHealth f).out = s.out := rfl
@[simp] theorem State.setHealth_outHeld (s : State) (f : Health → Health) : (s.setHealth f).outHeld = s.outHeld := rfl
@[simp] theorem State.setHealth_cur (s : State) (f : Health → Health) : (s.setHealth f).cur = s.cur := rfl
@[simp] theorem State.setHealth_note (s : State) (f : Health → Health) : (s.setHealth f).note = s.note := rfl
@[simp] theorem State.setHealth_agenda (s : State) (f : Health → Health) : (s.setHealth f).agenda = s.agenda := rfl
@[simp] theorem State.setHealth_fresh (s : State) (f : Health → Health) : (s.setHealth f).fresh = s.fresh := rfl

/-! ### `hold` -/

@[simp] theorem State.hold_clock (s : State) : (s.hold).clock = s.clock := rfl
@[simp] theorem State.hold_tick (s : State) : (s.hold).tick = s.tick := rfl
@[simp] theorem State.hold_tickPeriod (s : State) : (s.hold).tickPeriod = s.tickPeriod := rfl
@[simp] theorem State.hold_tickSpacing (s : State) : (s.hold).tickSpacing = s.tickSpacing := rfl
@[simp] theorem State.hold_lastTick (s : State) : (s.hold).lastTick = s.lastTick := rfl
@[simp] theorem State.hold_refillDue (s : State) : (s.hold).refillDue = s.refillDue := rfl
@[simp] theorem State.hold_startup (s : State) : (s.hold).startup = s.startup := rfl
@[simp] theorem State.hold_resetLow (s : State) : (s.hold).resetLow = s.resetLow := rfl
@[simp] theorem State.hold_presented (s : State) : (s.hold).presented = s.presented := rfl
@[simp] theorem State.hold_power (s : State) : (s.hold).power = s.power := rfl
@[simp] theorem State.hold_mem (s : State) : (s.hold).mem = s.mem := rfl
@[simp] theorem State.hold_lag (s : State) : (s.hold).lag = s.lag := rfl
@[simp] theorem State.hold_l2 (s : State) : (s.hold).l2 = s.l2 := rfl
@[simp] theorem State.hold_slices (s : State) : (s.hold).slices = s.slices := rfl
@[simp] theorem State.hold_reed (s : State) : (s.hold).reed = s.reed := rfl
@[simp] theorem State.hold_cores (s : State) : (s.hold).cores = s.cores := rfl
@[simp] theorem State.hold_tlb (s : State) : (s.hold).tlb = s.tlb := rfl
@[simp] theorem State.hold_blocks (s : State) : (s.hold).blocks = s.blocks := rfl
@[simp] theorem State.hold_reqs (s : State) : (s.hold).reqs = s.reqs := rfl
@[simp] theorem State.hold_replays (s : State) : (s.hold).replays = s.replays := rfl
@[simp] theorem State.hold_puts (s : State) : (s.hold).puts = s.puts := rfl
@[simp] theorem State.hold_sheafs (s : State) : (s.hold).sheafs = s.sheafs := rfl
@[simp] theorem State.hold_colls (s : State) : (s.hold).colls = s.colls := rfl
@[simp] theorem State.hold_nextBlock (s : State) : (s.hold).nextBlock = s.nextBlock := rfl
@[simp] theorem State.hold_nextId (s : State) : (s.hold).nextId = s.nextId := rfl
@[simp] theorem State.hold_grids (s : State) : (s.hold).grids = s.grids := rfl
@[simp] theorem State.hold_nextGrid (s : State) : (s.hold).nextGrid = s.nextGrid := rfl
@[simp] theorem State.hold_arrivals (s : State) : (s.hold).arrivals = s.arrivals := rfl
@[simp] theorem State.hold_graphs (s : State) : (s.hold).graphs = s.graphs := rfl
@[simp] theorem State.hold_jobs (s : State) : (s.hold).jobs = s.jobs := rfl
@[simp] theorem State.hold_disp (s : State) : (s.hold).disp = s.disp := rfl
@[simp] theorem State.hold_images (s : State) : (s.hold).images = s.images := rfl
@[simp] theorem State.hold_saveSeq (s : State) : (s.hold).saveSeq = s.saveSeq := rfl
@[simp] theorem State.hold_queues (s : State) : (s.hold).queues = s.queues := rfl
@[simp] theorem State.hold_qSess (s : State) : (s.hold).qSess = s.qSess := rfl
@[simp] theorem State.hold_dev (s : State) : (s.hold).dev = s.dev := rfl
@[simp] theorem State.hold_faultq (s : State) : (s.hold).faultq = s.faultq := rfl
@[simp] theorem State.hold_objects (s : State) : (s.hold).objects = s.objects := rfl
@[simp] theorem State.hold_routines (s : State) : (s.hold).routines = s.routines := rfl
@[simp] theorem State.hold_services (s : State) : (s.hold).services = s.services := rfl
@[simp] theorem State.hold_flash (s : State) : (s.hold).flash = s.flash := rfl
@[simp] theorem State.hold_secure (s : State) : (s.hold).secure = s.secure := rfl
@[simp] theorem State.hold_cfg (s : State) : (s.hold).cfg = s.cfg := rfl
@[simp] theorem State.hold_sessions (s : State) : (s.hold).sessions = s.sessions := rfl
@[simp] theorem State.hold_nextSession (s : State) : (s.hold).nextSession = s.nextSession := rfl
@[simp] theorem State.hold_pfcPaused (s : State) : (s.hold).pfcPaused = s.pfcPaused := rfl
@[simp] theorem State.hold_pfcEnds (s : State) : (s.hold).pfcEnds = s.pfcEnds := rfl
@[simp] theorem State.hold_health (s : State) : (s.hold).health = s.health := rfl
@[simp] theorem State.hold_ports (s : State) : (s.hold).ports = s.ports := rfl
@[simp] theorem State.hold_fabIn (s : State) : (s.hold).fabIn = s.fabIn := rfl
@[simp] theorem State.hold_fabOut (s : State) : (s.hold).fabOut = s.fabOut := rfl
@[simp] theorem State.hold_marks (s : State) : (s.hold).marks = s.marks := rfl
@[simp] theorem State.hold_markPath (s : State) : (s.hold).markPath = s.markPath := rfl
@[simp] theorem State.hold_markOps (s : State) : (s.hold).markOps = s.markOps := rfl
@[simp] theorem State.hold_fabHeld (s : State) : (s.hold).fabHeld = s.fabHeld := rfl
@[simp] theorem State.hold_nextTag (s : State) : (s.hold).nextTag = s.nextTag := rfl
@[simp] theorem State.hold_sent (s : State) : (s.hold).sent = s.sent := rfl
@[simp] theorem State.hold_pins (s : State) : (s.hold).pins = s.pins := rfl
@[simp] theorem State.hold_out (s : State) : (s.hold).out = s.out := rfl
@[simp] theorem State.hold_outHeld (s : State) : (s.hold).outHeld = s.outHeld := rfl
@[simp] theorem State.hold_cur (s : State) : (s.hold).cur = s.cur := rfl
@[simp] theorem State.hold_note (s : State) : (s.hold).note = .held := rfl
@[simp] theorem State.hold_agenda (s : State) : (s.hold).agenda = s.agenda := rfl
@[simp] theorem State.hold_fresh (s : State) : (s.hold).fresh = s.fresh := rfl

/-! ### `reedUpdate` -/

@[simp] theorem State.reedUpdate_clock (s : State) : (s.reedUpdate).clock = s.clock := rfl
@[simp] theorem State.reedUpdate_tick (s : State) : (s.reedUpdate).tick = s.tick := rfl
@[simp] theorem State.reedUpdate_tickPeriod (s : State) : (s.reedUpdate).tickPeriod = s.tickPeriod := rfl
@[simp] theorem State.reedUpdate_tickSpacing (s : State) : (s.reedUpdate).tickSpacing = s.tickSpacing := rfl
@[simp] theorem State.reedUpdate_lastTick (s : State) : (s.reedUpdate).lastTick = s.lastTick := rfl
@[simp] theorem State.reedUpdate_refillDue (s : State) : (s.reedUpdate).refillDue = s.refillDue := rfl
@[simp] theorem State.reedUpdate_startup (s : State) : (s.reedUpdate).startup = s.startup := rfl
@[simp] theorem State.reedUpdate_resetLow (s : State) : (s.reedUpdate).resetLow = s.resetLow := rfl
@[simp] theorem State.reedUpdate_presented (s : State) : (s.reedUpdate).presented = s.presented := rfl
@[simp] theorem State.reedUpdate_power (s : State) : (s.reedUpdate).power = s.power := rfl
@[simp] theorem State.reedUpdate_mem (s : State) : (s.reedUpdate).mem = s.mem := rfl
@[simp] theorem State.reedUpdate_lag (s : State) : (s.reedUpdate).lag = s.lag := rfl
@[simp] theorem State.reedUpdate_l2 (s : State) : (s.reedUpdate).l2 = s.l2 := rfl
@[simp] theorem State.reedUpdate_slices (s : State) : (s.reedUpdate).slices = s.slices := rfl
@[simp] theorem State.reedUpdate_cores (s : State) : (s.reedUpdate).cores = s.cores := rfl
@[simp] theorem State.reedUpdate_tlb (s : State) : (s.reedUpdate).tlb = s.tlb := rfl
@[simp] theorem State.reedUpdate_blocks (s : State) : (s.reedUpdate).blocks = s.blocks := rfl
@[simp] theorem State.reedUpdate_reqs (s : State) : (s.reedUpdate).reqs = s.reqs := rfl
@[simp] theorem State.reedUpdate_replays (s : State) : (s.reedUpdate).replays = s.replays := rfl
@[simp] theorem State.reedUpdate_puts (s : State) : (s.reedUpdate).puts = s.puts := rfl
@[simp] theorem State.reedUpdate_sheafs (s : State) : (s.reedUpdate).sheafs = s.sheafs := rfl
@[simp] theorem State.reedUpdate_colls (s : State) : (s.reedUpdate).colls = s.colls := rfl
@[simp] theorem State.reedUpdate_nextBlock (s : State) : (s.reedUpdate).nextBlock = s.nextBlock := rfl
@[simp] theorem State.reedUpdate_nextId (s : State) : (s.reedUpdate).nextId = s.nextId := rfl
@[simp] theorem State.reedUpdate_grids (s : State) : (s.reedUpdate).grids = s.grids := rfl
@[simp] theorem State.reedUpdate_nextGrid (s : State) : (s.reedUpdate).nextGrid = s.nextGrid := rfl
@[simp] theorem State.reedUpdate_arrivals (s : State) : (s.reedUpdate).arrivals = s.arrivals := rfl
@[simp] theorem State.reedUpdate_graphs (s : State) : (s.reedUpdate).graphs = s.graphs := rfl
@[simp] theorem State.reedUpdate_jobs (s : State) : (s.reedUpdate).jobs = s.jobs := rfl
@[simp] theorem State.reedUpdate_disp (s : State) : (s.reedUpdate).disp = s.disp := rfl
@[simp] theorem State.reedUpdate_images (s : State) : (s.reedUpdate).images = s.images := rfl
@[simp] theorem State.reedUpdate_saveSeq (s : State) : (s.reedUpdate).saveSeq = s.saveSeq := rfl
@[simp] theorem State.reedUpdate_queues (s : State) : (s.reedUpdate).queues = s.queues := rfl
@[simp] theorem State.reedUpdate_qSess (s : State) : (s.reedUpdate).qSess = s.qSess := rfl
@[simp] theorem State.reedUpdate_dev (s : State) : (s.reedUpdate).dev = s.dev := rfl
@[simp] theorem State.reedUpdate_faultq (s : State) : (s.reedUpdate).faultq = s.faultq := rfl
@[simp] theorem State.reedUpdate_objects (s : State) : (s.reedUpdate).objects = s.objects := rfl
@[simp] theorem State.reedUpdate_routines (s : State) : (s.reedUpdate).routines = s.routines := rfl
@[simp] theorem State.reedUpdate_services (s : State) : (s.reedUpdate).services = s.services := rfl
@[simp] theorem State.reedUpdate_flash (s : State) : (s.reedUpdate).flash = s.flash := rfl
@[simp] theorem State.reedUpdate_secure (s : State) : (s.reedUpdate).secure = s.secure := rfl
@[simp] theorem State.reedUpdate_cfg (s : State) : (s.reedUpdate).cfg = s.cfg := rfl
@[simp] theorem State.reedUpdate_sessions (s : State) : (s.reedUpdate).sessions = s.sessions := rfl
@[simp] theorem State.reedUpdate_nextSession (s : State) : (s.reedUpdate).nextSession = s.nextSession := rfl
@[simp] theorem State.reedUpdate_pfcPaused (s : State) : (s.reedUpdate).pfcPaused = s.pfcPaused := rfl
@[simp] theorem State.reedUpdate_pfcEnds (s : State) : (s.reedUpdate).pfcEnds = s.pfcEnds := rfl
@[simp] theorem State.reedUpdate_health (s : State) : (s.reedUpdate).health = s.health := rfl
@[simp] theorem State.reedUpdate_ports (s : State) : (s.reedUpdate).ports = s.ports := rfl
@[simp] theorem State.reedUpdate_fabIn (s : State) : (s.reedUpdate).fabIn = s.fabIn := rfl
@[simp] theorem State.reedUpdate_fabOut (s : State) : (s.reedUpdate).fabOut = s.fabOut := rfl
@[simp] theorem State.reedUpdate_marks (s : State) : (s.reedUpdate).marks = s.marks := rfl
@[simp] theorem State.reedUpdate_markPath (s : State) : (s.reedUpdate).markPath = s.markPath := rfl
@[simp] theorem State.reedUpdate_markOps (s : State) : (s.reedUpdate).markOps = s.markOps := rfl
@[simp] theorem State.reedUpdate_fabHeld (s : State) : (s.reedUpdate).fabHeld = s.fabHeld := rfl
@[simp] theorem State.reedUpdate_nextTag (s : State) : (s.reedUpdate).nextTag = s.nextTag := rfl
@[simp] theorem State.reedUpdate_sent (s : State) : (s.reedUpdate).sent = s.sent := rfl
@[simp] theorem State.reedUpdate_pins (s : State) : (s.reedUpdate).pins = s.pins := rfl
@[simp] theorem State.reedUpdate_out (s : State) : (s.reedUpdate).out = s.out := rfl
@[simp] theorem State.reedUpdate_outHeld (s : State) : (s.reedUpdate).outHeld = s.outHeld := rfl
@[simp] theorem State.reedUpdate_cur (s : State) : (s.reedUpdate).cur = s.cur := rfl
@[simp] theorem State.reedUpdate_note (s : State) : (s.reedUpdate).note = s.note := rfl
@[simp] theorem State.reedUpdate_agenda (s : State) : (s.reedUpdate).agenda = s.agenda := rfl
@[simp] theorem State.reedUpdate_fresh (s : State) : (s.reedUpdate).fresh = s.fresh := rfl

/-! ### `touchFrame` -/

@[simp] theorem State.touchFrame_clock (s : State) (line : Nat) : (s.touchFrame line).clock = s.clock := rfl
@[simp] theorem State.touchFrame_tick (s : State) (line : Nat) : (s.touchFrame line).tick = s.tick := rfl
@[simp] theorem State.touchFrame_tickPeriod (s : State) (line : Nat) : (s.touchFrame line).tickPeriod = s.tickPeriod := rfl
@[simp] theorem State.touchFrame_tickSpacing (s : State) (line : Nat) : (s.touchFrame line).tickSpacing = s.tickSpacing := rfl
@[simp] theorem State.touchFrame_lastTick (s : State) (line : Nat) : (s.touchFrame line).lastTick = s.lastTick := rfl
@[simp] theorem State.touchFrame_refillDue (s : State) (line : Nat) : (s.touchFrame line).refillDue = s.refillDue := rfl
@[simp] theorem State.touchFrame_startup (s : State) (line : Nat) : (s.touchFrame line).startup = s.startup := rfl
@[simp] theorem State.touchFrame_resetLow (s : State) (line : Nat) : (s.touchFrame line).resetLow = s.resetLow := rfl
@[simp] theorem State.touchFrame_presented (s : State) (line : Nat) : (s.touchFrame line).presented = s.presented := rfl
@[simp] theorem State.touchFrame_power (s : State) (line : Nat) : (s.touchFrame line).power = s.power := rfl
@[simp] theorem State.touchFrame_mem (s : State) (line : Nat) : (s.touchFrame line).mem = s.mem := rfl
@[simp] theorem State.touchFrame_lag (s : State) (line : Nat) : (s.touchFrame line).lag = s.lag := rfl
@[simp] theorem State.touchFrame_l2 (s : State) (line : Nat) : (s.touchFrame line).l2 = s.l2 := rfl
@[simp] theorem State.touchFrame_slices (s : State) (line : Nat) : (s.touchFrame line).slices = s.slices := rfl
@[simp] theorem State.touchFrame_cores (s : State) (line : Nat) : (s.touchFrame line).cores = s.cores := rfl
@[simp] theorem State.touchFrame_tlb (s : State) (line : Nat) : (s.touchFrame line).tlb = s.tlb := rfl
@[simp] theorem State.touchFrame_blocks (s : State) (line : Nat) : (s.touchFrame line).blocks = s.blocks := rfl
@[simp] theorem State.touchFrame_reqs (s : State) (line : Nat) : (s.touchFrame line).reqs = s.reqs := rfl
@[simp] theorem State.touchFrame_replays (s : State) (line : Nat) : (s.touchFrame line).replays = s.replays := rfl
@[simp] theorem State.touchFrame_puts (s : State) (line : Nat) : (s.touchFrame line).puts = s.puts := rfl
@[simp] theorem State.touchFrame_sheafs (s : State) (line : Nat) : (s.touchFrame line).sheafs = s.sheafs := rfl
@[simp] theorem State.touchFrame_colls (s : State) (line : Nat) : (s.touchFrame line).colls = s.colls := rfl
@[simp] theorem State.touchFrame_nextBlock (s : State) (line : Nat) : (s.touchFrame line).nextBlock = s.nextBlock := rfl
@[simp] theorem State.touchFrame_nextId (s : State) (line : Nat) : (s.touchFrame line).nextId = s.nextId := rfl
@[simp] theorem State.touchFrame_grids (s : State) (line : Nat) : (s.touchFrame line).grids = s.grids := rfl
@[simp] theorem State.touchFrame_nextGrid (s : State) (line : Nat) : (s.touchFrame line).nextGrid = s.nextGrid := rfl
@[simp] theorem State.touchFrame_arrivals (s : State) (line : Nat) : (s.touchFrame line).arrivals = s.arrivals := rfl
@[simp] theorem State.touchFrame_graphs (s : State) (line : Nat) : (s.touchFrame line).graphs = s.graphs := rfl
@[simp] theorem State.touchFrame_jobs (s : State) (line : Nat) : (s.touchFrame line).jobs = s.jobs := rfl
@[simp] theorem State.touchFrame_disp (s : State) (line : Nat) : (s.touchFrame line).disp = s.disp := rfl
@[simp] theorem State.touchFrame_images (s : State) (line : Nat) : (s.touchFrame line).images = s.images := rfl
@[simp] theorem State.touchFrame_saveSeq (s : State) (line : Nat) : (s.touchFrame line).saveSeq = s.saveSeq := rfl
@[simp] theorem State.touchFrame_queues (s : State) (line : Nat) : (s.touchFrame line).queues = s.queues := rfl
@[simp] theorem State.touchFrame_qSess (s : State) (line : Nat) : (s.touchFrame line).qSess = s.qSess := rfl
@[simp] theorem State.touchFrame_dev (s : State) (line : Nat) : (s.touchFrame line).dev = s.dev := rfl
@[simp] theorem State.touchFrame_faultq (s : State) (line : Nat) : (s.touchFrame line).faultq = s.faultq := rfl
@[simp] theorem State.touchFrame_objects (s : State) (line : Nat) : (s.touchFrame line).objects = s.objects := rfl
@[simp] theorem State.touchFrame_routines (s : State) (line : Nat) : (s.touchFrame line).routines = s.routines := rfl
@[simp] theorem State.touchFrame_services (s : State) (line : Nat) : (s.touchFrame line).services = s.services := rfl
@[simp] theorem State.touchFrame_flash (s : State) (line : Nat) : (s.touchFrame line).flash = s.flash := rfl
@[simp] theorem State.touchFrame_secure (s : State) (line : Nat) : (s.touchFrame line).secure = s.secure := rfl
@[simp] theorem State.touchFrame_cfg (s : State) (line : Nat) : (s.touchFrame line).cfg = s.cfg := rfl
@[simp] theorem State.touchFrame_sessions (s : State) (line : Nat) : (s.touchFrame line).sessions = s.sessions := rfl
@[simp] theorem State.touchFrame_nextSession (s : State) (line : Nat) : (s.touchFrame line).nextSession = s.nextSession := rfl
@[simp] theorem State.touchFrame_pfcPaused (s : State) (line : Nat) : (s.touchFrame line).pfcPaused = s.pfcPaused := rfl
@[simp] theorem State.touchFrame_pfcEnds (s : State) (line : Nat) : (s.touchFrame line).pfcEnds = s.pfcEnds := rfl
@[simp] theorem State.touchFrame_health (s : State) (line : Nat) : (s.touchFrame line).health = s.health := rfl
@[simp] theorem State.touchFrame_ports (s : State) (line : Nat) : (s.touchFrame line).ports = s.ports := rfl
@[simp] theorem State.touchFrame_fabIn (s : State) (line : Nat) : (s.touchFrame line).fabIn = s.fabIn := rfl
@[simp] theorem State.touchFrame_fabOut (s : State) (line : Nat) : (s.touchFrame line).fabOut = s.fabOut := rfl
@[simp] theorem State.touchFrame_marks (s : State) (line : Nat) : (s.touchFrame line).marks = s.marks := rfl
@[simp] theorem State.touchFrame_markPath (s : State) (line : Nat) : (s.touchFrame line).markPath = s.markPath := rfl
@[simp] theorem State.touchFrame_markOps (s : State) (line : Nat) : (s.touchFrame line).markOps = s.markOps := rfl
@[simp] theorem State.touchFrame_fabHeld (s : State) (line : Nat) : (s.touchFrame line).fabHeld = s.fabHeld := rfl
@[simp] theorem State.touchFrame_nextTag (s : State) (line : Nat) : (s.touchFrame line).nextTag = s.nextTag := rfl
@[simp] theorem State.touchFrame_sent (s : State) (line : Nat) : (s.touchFrame line).sent = s.sent := rfl
@[simp] theorem State.touchFrame_pins (s : State) (line : Nat) : (s.touchFrame line).pins = s.pins := rfl
@[simp] theorem State.touchFrame_out (s : State) (line : Nat) : (s.touchFrame line).out = s.out := rfl
@[simp] theorem State.touchFrame_outHeld (s : State) (line : Nat) : (s.touchFrame line).outHeld = s.outHeld := rfl
@[simp] theorem State.touchFrame_cur (s : State) (line : Nat) : (s.touchFrame line).cur = s.cur := rfl
@[simp] theorem State.touchFrame_note (s : State) (line : Nat) : (s.touchFrame line).note = s.note := rfl
@[simp] theorem State.touchFrame_agenda (s : State) (line : Nat) : (s.touchFrame line).agenda = s.agenda := rfl
@[simp] theorem State.touchFrame_fresh (s : State) (line : Nat) : (s.touchFrame line).fresh = s.fresh := rfl

/-! ### `l2Drop` -/

@[simp] theorem State.l2Drop_clock (s : State) (p : Nat → Bool) : (s.l2Drop p).clock = s.clock := rfl
@[simp] theorem State.l2Drop_tick (s : State) (p : Nat → Bool) : (s.l2Drop p).tick = s.tick := rfl
@[simp] theorem State.l2Drop_tickPeriod (s : State) (p : Nat → Bool) : (s.l2Drop p).tickPeriod = s.tickPeriod := rfl
@[simp] theorem State.l2Drop_tickSpacing (s : State) (p : Nat → Bool) : (s.l2Drop p).tickSpacing = s.tickSpacing := rfl
@[simp] theorem State.l2Drop_lastTick (s : State) (p : Nat → Bool) : (s.l2Drop p).lastTick = s.lastTick := rfl
@[simp] theorem State.l2Drop_refillDue (s : State) (p : Nat → Bool) : (s.l2Drop p).refillDue = s.refillDue := rfl
@[simp] theorem State.l2Drop_startup (s : State) (p : Nat → Bool) : (s.l2Drop p).startup = s.startup := rfl
@[simp] theorem State.l2Drop_resetLow (s : State) (p : Nat → Bool) : (s.l2Drop p).resetLow = s.resetLow := rfl
@[simp] theorem State.l2Drop_presented (s : State) (p : Nat → Bool) : (s.l2Drop p).presented = s.presented := rfl
@[simp] theorem State.l2Drop_power (s : State) (p : Nat → Bool) : (s.l2Drop p).power = s.power := rfl
@[simp] theorem State.l2Drop_mem (s : State) (p : Nat → Bool) : (s.l2Drop p).mem = s.mem := rfl
@[simp] theorem State.l2Drop_lag (s : State) (p : Nat → Bool) : (s.l2Drop p).lag = s.lag := rfl
@[simp] theorem State.l2Drop_slices (s : State) (p : Nat → Bool) : (s.l2Drop p).slices = s.slices := rfl
@[simp] theorem State.l2Drop_reed (s : State) (p : Nat → Bool) : (s.l2Drop p).reed = s.reed := rfl
@[simp] theorem State.l2Drop_cores (s : State) (p : Nat → Bool) : (s.l2Drop p).cores = s.cores := rfl
@[simp] theorem State.l2Drop_tlb (s : State) (p : Nat → Bool) : (s.l2Drop p).tlb = s.tlb := rfl
@[simp] theorem State.l2Drop_blocks (s : State) (p : Nat → Bool) : (s.l2Drop p).blocks = s.blocks := rfl
@[simp] theorem State.l2Drop_reqs (s : State) (p : Nat → Bool) : (s.l2Drop p).reqs = s.reqs := rfl
@[simp] theorem State.l2Drop_replays (s : State) (p : Nat → Bool) : (s.l2Drop p).replays = s.replays := rfl
@[simp] theorem State.l2Drop_puts (s : State) (p : Nat → Bool) : (s.l2Drop p).puts = s.puts := rfl
@[simp] theorem State.l2Drop_sheafs (s : State) (p : Nat → Bool) : (s.l2Drop p).sheafs = s.sheafs := rfl
@[simp] theorem State.l2Drop_colls (s : State) (p : Nat → Bool) : (s.l2Drop p).colls = s.colls := rfl
@[simp] theorem State.l2Drop_nextBlock (s : State) (p : Nat → Bool) : (s.l2Drop p).nextBlock = s.nextBlock := rfl
@[simp] theorem State.l2Drop_nextId (s : State) (p : Nat → Bool) : (s.l2Drop p).nextId = s.nextId := rfl
@[simp] theorem State.l2Drop_grids (s : State) (p : Nat → Bool) : (s.l2Drop p).grids = s.grids := rfl
@[simp] theorem State.l2Drop_nextGrid (s : State) (p : Nat → Bool) : (s.l2Drop p).nextGrid = s.nextGrid := rfl
@[simp] theorem State.l2Drop_arrivals (s : State) (p : Nat → Bool) : (s.l2Drop p).arrivals = s.arrivals := rfl
@[simp] theorem State.l2Drop_graphs (s : State) (p : Nat → Bool) : (s.l2Drop p).graphs = s.graphs := rfl
@[simp] theorem State.l2Drop_jobs (s : State) (p : Nat → Bool) : (s.l2Drop p).jobs = s.jobs := rfl
@[simp] theorem State.l2Drop_disp (s : State) (p : Nat → Bool) : (s.l2Drop p).disp = s.disp := rfl
@[simp] theorem State.l2Drop_images (s : State) (p : Nat → Bool) : (s.l2Drop p).images = s.images := rfl
@[simp] theorem State.l2Drop_saveSeq (s : State) (p : Nat → Bool) : (s.l2Drop p).saveSeq = s.saveSeq := rfl
@[simp] theorem State.l2Drop_queues (s : State) (p : Nat → Bool) : (s.l2Drop p).queues = s.queues := rfl
@[simp] theorem State.l2Drop_qSess (s : State) (p : Nat → Bool) : (s.l2Drop p).qSess = s.qSess := rfl
@[simp] theorem State.l2Drop_dev (s : State) (p : Nat → Bool) : (s.l2Drop p).dev = s.dev := rfl
@[simp] theorem State.l2Drop_faultq (s : State) (p : Nat → Bool) : (s.l2Drop p).faultq = s.faultq := rfl
@[simp] theorem State.l2Drop_objects (s : State) (p : Nat → Bool) : (s.l2Drop p).objects = s.objects := rfl
@[simp] theorem State.l2Drop_routines (s : State) (p : Nat → Bool) : (s.l2Drop p).routines = s.routines := rfl
@[simp] theorem State.l2Drop_services (s : State) (p : Nat → Bool) : (s.l2Drop p).services = s.services := rfl
@[simp] theorem State.l2Drop_flash (s : State) (p : Nat → Bool) : (s.l2Drop p).flash = s.flash := rfl
@[simp] theorem State.l2Drop_secure (s : State) (p : Nat → Bool) : (s.l2Drop p).secure = s.secure := rfl
@[simp] theorem State.l2Drop_cfg (s : State) (p : Nat → Bool) : (s.l2Drop p).cfg = s.cfg := rfl
@[simp] theorem State.l2Drop_sessions (s : State) (p : Nat → Bool) : (s.l2Drop p).sessions = s.sessions := rfl
@[simp] theorem State.l2Drop_nextSession (s : State) (p : Nat → Bool) : (s.l2Drop p).nextSession = s.nextSession := rfl
@[simp] theorem State.l2Drop_pfcPaused (s : State) (p : Nat → Bool) : (s.l2Drop p).pfcPaused = s.pfcPaused := rfl
@[simp] theorem State.l2Drop_pfcEnds (s : State) (p : Nat → Bool) : (s.l2Drop p).pfcEnds = s.pfcEnds := rfl
@[simp] theorem State.l2Drop_health (s : State) (p : Nat → Bool) : (s.l2Drop p).health = s.health := rfl
@[simp] theorem State.l2Drop_ports (s : State) (p : Nat → Bool) : (s.l2Drop p).ports = s.ports := rfl
@[simp] theorem State.l2Drop_fabIn (s : State) (p : Nat → Bool) : (s.l2Drop p).fabIn = s.fabIn := rfl
@[simp] theorem State.l2Drop_fabOut (s : State) (p : Nat → Bool) : (s.l2Drop p).fabOut = s.fabOut := rfl
@[simp] theorem State.l2Drop_marks (s : State) (p : Nat → Bool) : (s.l2Drop p).marks = s.marks := rfl
@[simp] theorem State.l2Drop_markPath (s : State) (p : Nat → Bool) : (s.l2Drop p).markPath = s.markPath := rfl
@[simp] theorem State.l2Drop_markOps (s : State) (p : Nat → Bool) : (s.l2Drop p).markOps = s.markOps := rfl
@[simp] theorem State.l2Drop_fabHeld (s : State) (p : Nat → Bool) : (s.l2Drop p).fabHeld = s.fabHeld := rfl
@[simp] theorem State.l2Drop_nextTag (s : State) (p : Nat → Bool) : (s.l2Drop p).nextTag = s.nextTag := rfl
@[simp] theorem State.l2Drop_sent (s : State) (p : Nat → Bool) : (s.l2Drop p).sent = s.sent := rfl
@[simp] theorem State.l2Drop_pins (s : State) (p : Nat → Bool) : (s.l2Drop p).pins = s.pins := rfl
@[simp] theorem State.l2Drop_out (s : State) (p : Nat → Bool) : (s.l2Drop p).out = s.out := rfl
@[simp] theorem State.l2Drop_outHeld (s : State) (p : Nat → Bool) : (s.l2Drop p).outHeld = s.outHeld := rfl
@[simp] theorem State.l2Drop_cur (s : State) (p : Nat → Bool) : (s.l2Drop p).cur = s.cur := rfl
@[simp] theorem State.l2Drop_note (s : State) (p : Nat → Bool) : (s.l2Drop p).note = s.note := rfl
@[simp] theorem State.l2Drop_agenda (s : State) (p : Nat → Bool) : (s.l2Drop p).agenda = s.agenda := rfl
@[simp] theorem State.l2Drop_fresh (s : State) (p : Nat → Bool) : (s.l2Drop p).fresh = s.fresh := rfl
@[simp] theorem State.l2Drop_l2 (s : State) (p : Nat → Bool) : (s.l2Drop p).l2 = s.l2.filter (fun e => !p e.line) := rfl

/-! ### `l2Put` -/

@[simp] theorem State.l2Put_clock (s : State) (line way : Nat) (a : Alloc) : (s.l2Put line way a).clock = s.clock := rfl
@[simp] theorem State.l2Put_tick (s : State) (line way : Nat) (a : Alloc) : (s.l2Put line way a).tick = s.tick := rfl
@[simp] theorem State.l2Put_tickPeriod (s : State) (line way : Nat) (a : Alloc) : (s.l2Put line way a).tickPeriod = s.tickPeriod := rfl
@[simp] theorem State.l2Put_tickSpacing (s : State) (line way : Nat) (a : Alloc) : (s.l2Put line way a).tickSpacing = s.tickSpacing := rfl
@[simp] theorem State.l2Put_lastTick (s : State) (line way : Nat) (a : Alloc) : (s.l2Put line way a).lastTick = s.lastTick := rfl
@[simp] theorem State.l2Put_refillDue (s : State) (line way : Nat) (a : Alloc) : (s.l2Put line way a).refillDue = s.refillDue := rfl
@[simp] theorem State.l2Put_startup (s : State) (line way : Nat) (a : Alloc) : (s.l2Put line way a).startup = s.startup := rfl
@[simp] theorem State.l2Put_resetLow (s : State) (line way : Nat) (a : Alloc) : (s.l2Put line way a).resetLow = s.resetLow := rfl
@[simp] theorem State.l2Put_presented (s : State) (line way : Nat) (a : Alloc) : (s.l2Put line way a).presented = s.presented := rfl
@[simp] theorem State.l2Put_power (s : State) (line way : Nat) (a : Alloc) : (s.l2Put line way a).power = s.power := rfl
@[simp] theorem State.l2Put_mem (s : State) (line way : Nat) (a : Alloc) : (s.l2Put line way a).mem = s.mem := rfl
@[simp] theorem State.l2Put_lag (s : State) (line way : Nat) (a : Alloc) : (s.l2Put line way a).lag = s.lag := rfl
@[simp] theorem State.l2Put_slices (s : State) (line way : Nat) (a : Alloc) : (s.l2Put line way a).slices = s.slices := rfl
@[simp] theorem State.l2Put_reed (s : State) (line way : Nat) (a : Alloc) : (s.l2Put line way a).reed = s.reed := rfl
@[simp] theorem State.l2Put_cores (s : State) (line way : Nat) (a : Alloc) : (s.l2Put line way a).cores = s.cores := rfl
@[simp] theorem State.l2Put_tlb (s : State) (line way : Nat) (a : Alloc) : (s.l2Put line way a).tlb = s.tlb := rfl
@[simp] theorem State.l2Put_blocks (s : State) (line way : Nat) (a : Alloc) : (s.l2Put line way a).blocks = s.blocks := rfl
@[simp] theorem State.l2Put_reqs (s : State) (line way : Nat) (a : Alloc) : (s.l2Put line way a).reqs = s.reqs := rfl
@[simp] theorem State.l2Put_replays (s : State) (line way : Nat) (a : Alloc) : (s.l2Put line way a).replays = s.replays := rfl
@[simp] theorem State.l2Put_puts (s : State) (line way : Nat) (a : Alloc) : (s.l2Put line way a).puts = s.puts := rfl
@[simp] theorem State.l2Put_sheafs (s : State) (line way : Nat) (a : Alloc) : (s.l2Put line way a).sheafs = s.sheafs := rfl
@[simp] theorem State.l2Put_colls (s : State) (line way : Nat) (a : Alloc) : (s.l2Put line way a).colls = s.colls := rfl
@[simp] theorem State.l2Put_nextBlock (s : State) (line way : Nat) (a : Alloc) : (s.l2Put line way a).nextBlock = s.nextBlock := rfl
@[simp] theorem State.l2Put_nextId (s : State) (line way : Nat) (a : Alloc) : (s.l2Put line way a).nextId = s.nextId := rfl
@[simp] theorem State.l2Put_grids (s : State) (line way : Nat) (a : Alloc) : (s.l2Put line way a).grids = s.grids := rfl
@[simp] theorem State.l2Put_nextGrid (s : State) (line way : Nat) (a : Alloc) : (s.l2Put line way a).nextGrid = s.nextGrid := rfl
@[simp] theorem State.l2Put_arrivals (s : State) (line way : Nat) (a : Alloc) : (s.l2Put line way a).arrivals = s.arrivals := rfl
@[simp] theorem State.l2Put_graphs (s : State) (line way : Nat) (a : Alloc) : (s.l2Put line way a).graphs = s.graphs := rfl
@[simp] theorem State.l2Put_jobs (s : State) (line way : Nat) (a : Alloc) : (s.l2Put line way a).jobs = s.jobs := rfl
@[simp] theorem State.l2Put_disp (s : State) (line way : Nat) (a : Alloc) : (s.l2Put line way a).disp = s.disp := rfl
@[simp] theorem State.l2Put_images (s : State) (line way : Nat) (a : Alloc) : (s.l2Put line way a).images = s.images := rfl
@[simp] theorem State.l2Put_saveSeq (s : State) (line way : Nat) (a : Alloc) : (s.l2Put line way a).saveSeq = s.saveSeq := rfl
@[simp] theorem State.l2Put_queues (s : State) (line way : Nat) (a : Alloc) : (s.l2Put line way a).queues = s.queues := rfl
@[simp] theorem State.l2Put_qSess (s : State) (line way : Nat) (a : Alloc) : (s.l2Put line way a).qSess = s.qSess := rfl
@[simp] theorem State.l2Put_dev (s : State) (line way : Nat) (a : Alloc) : (s.l2Put line way a).dev = s.dev := rfl
@[simp] theorem State.l2Put_faultq (s : State) (line way : Nat) (a : Alloc) : (s.l2Put line way a).faultq = s.faultq := rfl
@[simp] theorem State.l2Put_objects (s : State) (line way : Nat) (a : Alloc) : (s.l2Put line way a).objects = s.objects := rfl
@[simp] theorem State.l2Put_routines (s : State) (line way : Nat) (a : Alloc) : (s.l2Put line way a).routines = s.routines := rfl
@[simp] theorem State.l2Put_services (s : State) (line way : Nat) (a : Alloc) : (s.l2Put line way a).services = s.services := rfl
@[simp] theorem State.l2Put_flash (s : State) (line way : Nat) (a : Alloc) : (s.l2Put line way a).flash = s.flash := rfl
@[simp] theorem State.l2Put_secure (s : State) (line way : Nat) (a : Alloc) : (s.l2Put line way a).secure = s.secure := rfl
@[simp] theorem State.l2Put_cfg (s : State) (line way : Nat) (a : Alloc) : (s.l2Put line way a).cfg = s.cfg := rfl
@[simp] theorem State.l2Put_sessions (s : State) (line way : Nat) (a : Alloc) : (s.l2Put line way a).sessions = s.sessions := rfl
@[simp] theorem State.l2Put_nextSession (s : State) (line way : Nat) (a : Alloc) : (s.l2Put line way a).nextSession = s.nextSession := rfl
@[simp] theorem State.l2Put_pfcPaused (s : State) (line way : Nat) (a : Alloc) : (s.l2Put line way a).pfcPaused = s.pfcPaused := rfl
@[simp] theorem State.l2Put_pfcEnds (s : State) (line way : Nat) (a : Alloc) : (s.l2Put line way a).pfcEnds = s.pfcEnds := rfl
@[simp] theorem State.l2Put_health (s : State) (line way : Nat) (a : Alloc) : (s.l2Put line way a).health = s.health := rfl
@[simp] theorem State.l2Put_ports (s : State) (line way : Nat) (a : Alloc) : (s.l2Put line way a).ports = s.ports := rfl
@[simp] theorem State.l2Put_fabIn (s : State) (line way : Nat) (a : Alloc) : (s.l2Put line way a).fabIn = s.fabIn := rfl
@[simp] theorem State.l2Put_fabOut (s : State) (line way : Nat) (a : Alloc) : (s.l2Put line way a).fabOut = s.fabOut := rfl
@[simp] theorem State.l2Put_marks (s : State) (line way : Nat) (a : Alloc) : (s.l2Put line way a).marks = s.marks := rfl
@[simp] theorem State.l2Put_markPath (s : State) (line way : Nat) (a : Alloc) : (s.l2Put line way a).markPath = s.markPath := rfl
@[simp] theorem State.l2Put_markOps (s : State) (line way : Nat) (a : Alloc) : (s.l2Put line way a).markOps = s.markOps := rfl
@[simp] theorem State.l2Put_fabHeld (s : State) (line way : Nat) (a : Alloc) : (s.l2Put line way a).fabHeld = s.fabHeld := rfl
@[simp] theorem State.l2Put_nextTag (s : State) (line way : Nat) (a : Alloc) : (s.l2Put line way a).nextTag = s.nextTag := rfl
@[simp] theorem State.l2Put_sent (s : State) (line way : Nat) (a : Alloc) : (s.l2Put line way a).sent = s.sent := rfl
@[simp] theorem State.l2Put_pins (s : State) (line way : Nat) (a : Alloc) : (s.l2Put line way a).pins = s.pins := rfl
@[simp] theorem State.l2Put_out (s : State) (line way : Nat) (a : Alloc) : (s.l2Put line way a).out = s.out := rfl
@[simp] theorem State.l2Put_outHeld (s : State) (line way : Nat) (a : Alloc) : (s.l2Put line way a).outHeld = s.outHeld := rfl
@[simp] theorem State.l2Put_cur (s : State) (line way : Nat) (a : Alloc) : (s.l2Put line way a).cur = s.cur := rfl
@[simp] theorem State.l2Put_note (s : State) (line way : Nat) (a : Alloc) : (s.l2Put line way a).note = s.note := rfl
@[simp] theorem State.l2Put_agenda (s : State) (line way : Nat) (a : Alloc) : (s.l2Put line way a).agenda = s.agenda := rfl
@[simp] theorem State.l2Put_fresh (s : State) (line way : Nat) (a : Alloc) : (s.l2Put line way a).fresh = s.fresh := rfl

/-! ### `countError` -/

@[simp] theorem State.countError_clock (s : State) (n : Nat) : (s.countError n).clock = s.clock := rfl
@[simp] theorem State.countError_tick (s : State) (n : Nat) : (s.countError n).tick = s.tick := rfl
@[simp] theorem State.countError_tickPeriod (s : State) (n : Nat) : (s.countError n).tickPeriod = s.tickPeriod := rfl
@[simp] theorem State.countError_tickSpacing (s : State) (n : Nat) : (s.countError n).tickSpacing = s.tickSpacing := rfl
@[simp] theorem State.countError_lastTick (s : State) (n : Nat) : (s.countError n).lastTick = s.lastTick := rfl
@[simp] theorem State.countError_refillDue (s : State) (n : Nat) : (s.countError n).refillDue = s.refillDue := rfl
@[simp] theorem State.countError_startup (s : State) (n : Nat) : (s.countError n).startup = s.startup := rfl
@[simp] theorem State.countError_resetLow (s : State) (n : Nat) : (s.countError n).resetLow = s.resetLow := rfl
@[simp] theorem State.countError_presented (s : State) (n : Nat) : (s.countError n).presented = s.presented := rfl
@[simp] theorem State.countError_power (s : State) (n : Nat) : (s.countError n).power = s.power := rfl
@[simp] theorem State.countError_mem (s : State) (n : Nat) : (s.countError n).mem = s.mem := rfl
@[simp] theorem State.countError_lag (s : State) (n : Nat) : (s.countError n).lag = s.lag := rfl
@[simp] theorem State.countError_l2 (s : State) (n : Nat) : (s.countError n).l2 = s.l2 := rfl
@[simp] theorem State.countError_slices (s : State) (n : Nat) : (s.countError n).slices = s.slices := rfl
@[simp] theorem State.countError_reed (s : State) (n : Nat) : (s.countError n).reed = s.reed := rfl
@[simp] theorem State.countError_cores (s : State) (n : Nat) : (s.countError n).cores = s.cores := rfl
@[simp] theorem State.countError_tlb (s : State) (n : Nat) : (s.countError n).tlb = s.tlb := rfl
@[simp] theorem State.countError_blocks (s : State) (n : Nat) : (s.countError n).blocks = s.blocks := rfl
@[simp] theorem State.countError_reqs (s : State) (n : Nat) : (s.countError n).reqs = s.reqs := rfl
@[simp] theorem State.countError_replays (s : State) (n : Nat) : (s.countError n).replays = s.replays := rfl
@[simp] theorem State.countError_puts (s : State) (n : Nat) : (s.countError n).puts = s.puts := rfl
@[simp] theorem State.countError_sheafs (s : State) (n : Nat) : (s.countError n).sheafs = s.sheafs := rfl
@[simp] theorem State.countError_colls (s : State) (n : Nat) : (s.countError n).colls = s.colls := rfl
@[simp] theorem State.countError_nextBlock (s : State) (n : Nat) : (s.countError n).nextBlock = s.nextBlock := rfl
@[simp] theorem State.countError_nextId (s : State) (n : Nat) : (s.countError n).nextId = s.nextId := rfl
@[simp] theorem State.countError_grids (s : State) (n : Nat) : (s.countError n).grids = s.grids := rfl
@[simp] theorem State.countError_nextGrid (s : State) (n : Nat) : (s.countError n).nextGrid = s.nextGrid := rfl
@[simp] theorem State.countError_arrivals (s : State) (n : Nat) : (s.countError n).arrivals = s.arrivals := rfl
@[simp] theorem State.countError_graphs (s : State) (n : Nat) : (s.countError n).graphs = s.graphs := rfl
@[simp] theorem State.countError_jobs (s : State) (n : Nat) : (s.countError n).jobs = s.jobs := rfl
@[simp] theorem State.countError_disp (s : State) (n : Nat) : (s.countError n).disp = s.disp := rfl
@[simp] theorem State.countError_images (s : State) (n : Nat) : (s.countError n).images = s.images := rfl
@[simp] theorem State.countError_saveSeq (s : State) (n : Nat) : (s.countError n).saveSeq = s.saveSeq := rfl
@[simp] theorem State.countError_queues (s : State) (n : Nat) : (s.countError n).queues = s.queues := rfl
@[simp] theorem State.countError_qSess (s : State) (n : Nat) : (s.countError n).qSess = s.qSess := rfl
@[simp] theorem State.countError_dev (s : State) (n : Nat) : (s.countError n).dev = s.dev := rfl
@[simp] theorem State.countError_faultq (s : State) (n : Nat) : (s.countError n).faultq = s.faultq := rfl
@[simp] theorem State.countError_objects (s : State) (n : Nat) : (s.countError n).objects = s.objects := rfl
@[simp] theorem State.countError_routines (s : State) (n : Nat) : (s.countError n).routines = s.routines := rfl
@[simp] theorem State.countError_services (s : State) (n : Nat) : (s.countError n).services = s.services := rfl
@[simp] theorem State.countError_flash (s : State) (n : Nat) : (s.countError n).flash = s.flash := rfl
@[simp] theorem State.countError_secure (s : State) (n : Nat) : (s.countError n).secure = s.secure := rfl
@[simp] theorem State.countError_cfg (s : State) (n : Nat) : (s.countError n).cfg = s.cfg := rfl
@[simp] theorem State.countError_sessions (s : State) (n : Nat) : (s.countError n).sessions = s.sessions := rfl
@[simp] theorem State.countError_nextSession (s : State) (n : Nat) : (s.countError n).nextSession = s.nextSession := rfl
@[simp] theorem State.countError_pfcPaused (s : State) (n : Nat) : (s.countError n).pfcPaused = s.pfcPaused := rfl
@[simp] theorem State.countError_pfcEnds (s : State) (n : Nat) : (s.countError n).pfcEnds = s.pfcEnds := rfl
@[simp] theorem State.countError_ports (s : State) (n : Nat) : (s.countError n).ports = s.ports := rfl
@[simp] theorem State.countError_fabIn (s : State) (n : Nat) : (s.countError n).fabIn = s.fabIn := rfl
@[simp] theorem State.countError_fabOut (s : State) (n : Nat) : (s.countError n).fabOut = s.fabOut := rfl
@[simp] theorem State.countError_marks (s : State) (n : Nat) : (s.countError n).marks = s.marks := rfl
@[simp] theorem State.countError_markPath (s : State) (n : Nat) : (s.countError n).markPath = s.markPath := rfl
@[simp] theorem State.countError_markOps (s : State) (n : Nat) : (s.countError n).markOps = s.markOps := rfl
@[simp] theorem State.countError_fabHeld (s : State) (n : Nat) : (s.countError n).fabHeld = s.fabHeld := rfl
@[simp] theorem State.countError_nextTag (s : State) (n : Nat) : (s.countError n).nextTag = s.nextTag := rfl
@[simp] theorem State.countError_sent (s : State) (n : Nat) : (s.countError n).sent = s.sent := rfl
@[simp] theorem State.countError_pins (s : State) (n : Nat) : (s.countError n).pins = s.pins := rfl
@[simp] theorem State.countError_out (s : State) (n : Nat) : (s.countError n).out = s.out := rfl
@[simp] theorem State.countError_outHeld (s : State) (n : Nat) : (s.countError n).outHeld = s.outHeld := rfl
@[simp] theorem State.countError_cur (s : State) (n : Nat) : (s.countError n).cur = s.cur := rfl
@[simp] theorem State.countError_note (s : State) (n : Nat) : (s.countError n).note = s.note := rfl
@[simp] theorem State.countError_agenda (s : State) (n : Nat) : (s.countError n).agenda = s.agenda := rfl
@[simp] theorem State.countError_fresh (s : State) (n : Nat) : (s.countError n).fresh = s.fresh := rfl

/-! ### `unitError` -/

@[simp] theorem State.unitError_clock (s : State) (k n : Nat) : (s.unitError k n).clock = s.clock := rfl
@[simp] theorem State.unitError_tick (s : State) (k n : Nat) : (s.unitError k n).tick = s.tick := rfl
@[simp] theorem State.unitError_tickPeriod (s : State) (k n : Nat) : (s.unitError k n).tickPeriod = s.tickPeriod := rfl
@[simp] theorem State.unitError_tickSpacing (s : State) (k n : Nat) : (s.unitError k n).tickSpacing = s.tickSpacing := rfl
@[simp] theorem State.unitError_lastTick (s : State) (k n : Nat) : (s.unitError k n).lastTick = s.lastTick := rfl
@[simp] theorem State.unitError_refillDue (s : State) (k n : Nat) : (s.unitError k n).refillDue = s.refillDue := rfl
@[simp] theorem State.unitError_startup (s : State) (k n : Nat) : (s.unitError k n).startup = s.startup := rfl
@[simp] theorem State.unitError_resetLow (s : State) (k n : Nat) : (s.unitError k n).resetLow = s.resetLow := rfl
@[simp] theorem State.unitError_presented (s : State) (k n : Nat) : (s.unitError k n).presented = s.presented := rfl
@[simp] theorem State.unitError_power (s : State) (k n : Nat) : (s.unitError k n).power = s.power := rfl
@[simp] theorem State.unitError_mem (s : State) (k n : Nat) : (s.unitError k n).mem = s.mem := rfl
@[simp] theorem State.unitError_lag (s : State) (k n : Nat) : (s.unitError k n).lag = s.lag := rfl
@[simp] theorem State.unitError_l2 (s : State) (k n : Nat) : (s.unitError k n).l2 = s.l2 := rfl
@[simp] theorem State.unitError_slices (s : State) (k n : Nat) : (s.unitError k n).slices = s.slices := rfl
@[simp] theorem State.unitError_reed (s : State) (k n : Nat) : (s.unitError k n).reed = s.reed := rfl
@[simp] theorem State.unitError_cores (s : State) (k n : Nat) : (s.unitError k n).cores = s.cores := rfl
@[simp] theorem State.unitError_tlb (s : State) (k n : Nat) : (s.unitError k n).tlb = s.tlb := rfl
@[simp] theorem State.unitError_blocks (s : State) (k n : Nat) : (s.unitError k n).blocks = s.blocks := rfl
@[simp] theorem State.unitError_reqs (s : State) (k n : Nat) : (s.unitError k n).reqs = s.reqs := rfl
@[simp] theorem State.unitError_replays (s : State) (k n : Nat) : (s.unitError k n).replays = s.replays := rfl
@[simp] theorem State.unitError_puts (s : State) (k n : Nat) : (s.unitError k n).puts = s.puts := rfl
@[simp] theorem State.unitError_sheafs (s : State) (k n : Nat) : (s.unitError k n).sheafs = s.sheafs := rfl
@[simp] theorem State.unitError_colls (s : State) (k n : Nat) : (s.unitError k n).colls = s.colls := rfl
@[simp] theorem State.unitError_nextBlock (s : State) (k n : Nat) : (s.unitError k n).nextBlock = s.nextBlock := rfl
@[simp] theorem State.unitError_nextId (s : State) (k n : Nat) : (s.unitError k n).nextId = s.nextId := rfl
@[simp] theorem State.unitError_grids (s : State) (k n : Nat) : (s.unitError k n).grids = s.grids := rfl
@[simp] theorem State.unitError_nextGrid (s : State) (k n : Nat) : (s.unitError k n).nextGrid = s.nextGrid := rfl
@[simp] theorem State.unitError_arrivals (s : State) (k n : Nat) : (s.unitError k n).arrivals = s.arrivals := rfl
@[simp] theorem State.unitError_graphs (s : State) (k n : Nat) : (s.unitError k n).graphs = s.graphs := rfl
@[simp] theorem State.unitError_jobs (s : State) (k n : Nat) : (s.unitError k n).jobs = s.jobs := rfl
@[simp] theorem State.unitError_disp (s : State) (k n : Nat) : (s.unitError k n).disp = s.disp := rfl
@[simp] theorem State.unitError_images (s : State) (k n : Nat) : (s.unitError k n).images = s.images := rfl
@[simp] theorem State.unitError_saveSeq (s : State) (k n : Nat) : (s.unitError k n).saveSeq = s.saveSeq := rfl
@[simp] theorem State.unitError_queues (s : State) (k n : Nat) : (s.unitError k n).queues = s.queues := rfl
@[simp] theorem State.unitError_qSess (s : State) (k n : Nat) : (s.unitError k n).qSess = s.qSess := rfl
@[simp] theorem State.unitError_dev (s : State) (k n : Nat) : (s.unitError k n).dev = s.dev := rfl
@[simp] theorem State.unitError_faultq (s : State) (k n : Nat) : (s.unitError k n).faultq = s.faultq := rfl
@[simp] theorem State.unitError_objects (s : State) (k n : Nat) : (s.unitError k n).objects = s.objects := rfl
@[simp] theorem State.unitError_routines (s : State) (k n : Nat) : (s.unitError k n).routines = s.routines := rfl
@[simp] theorem State.unitError_services (s : State) (k n : Nat) : (s.unitError k n).services = s.services := rfl
@[simp] theorem State.unitError_flash (s : State) (k n : Nat) : (s.unitError k n).flash = s.flash := rfl
@[simp] theorem State.unitError_secure (s : State) (k n : Nat) : (s.unitError k n).secure = s.secure := rfl
@[simp] theorem State.unitError_cfg (s : State) (k n : Nat) : (s.unitError k n).cfg = s.cfg := rfl
@[simp] theorem State.unitError_sessions (s : State) (k n : Nat) : (s.unitError k n).sessions = s.sessions := rfl
@[simp] theorem State.unitError_nextSession (s : State) (k n : Nat) : (s.unitError k n).nextSession = s.nextSession := rfl
@[simp] theorem State.unitError_pfcPaused (s : State) (k n : Nat) : (s.unitError k n).pfcPaused = s.pfcPaused := rfl
@[simp] theorem State.unitError_pfcEnds (s : State) (k n : Nat) : (s.unitError k n).pfcEnds = s.pfcEnds := rfl
@[simp] theorem State.unitError_ports (s : State) (k n : Nat) : (s.unitError k n).ports = s.ports := rfl
@[simp] theorem State.unitError_fabIn (s : State) (k n : Nat) : (s.unitError k n).fabIn = s.fabIn := rfl
@[simp] theorem State.unitError_fabOut (s : State) (k n : Nat) : (s.unitError k n).fabOut = s.fabOut := rfl
@[simp] theorem State.unitError_marks (s : State) (k n : Nat) : (s.unitError k n).marks = s.marks := rfl
@[simp] theorem State.unitError_markPath (s : State) (k n : Nat) : (s.unitError k n).markPath = s.markPath := rfl
@[simp] theorem State.unitError_markOps (s : State) (k n : Nat) : (s.unitError k n).markOps = s.markOps := rfl
@[simp] theorem State.unitError_fabHeld (s : State) (k n : Nat) : (s.unitError k n).fabHeld = s.fabHeld := rfl
@[simp] theorem State.unitError_nextTag (s : State) (k n : Nat) : (s.unitError k n).nextTag = s.nextTag := rfl
@[simp] theorem State.unitError_sent (s : State) (k n : Nat) : (s.unitError k n).sent = s.sent := rfl
@[simp] theorem State.unitError_pins (s : State) (k n : Nat) : (s.unitError k n).pins = s.pins := rfl
@[simp] theorem State.unitError_out (s : State) (k n : Nat) : (s.unitError k n).out = s.out := rfl
@[simp] theorem State.unitError_outHeld (s : State) (k n : Nat) : (s.unitError k n).outHeld = s.outHeld := rfl
@[simp] theorem State.unitError_cur (s : State) (k n : Nat) : (s.unitError k n).cur = s.cur := rfl
@[simp] theorem State.unitError_note (s : State) (k n : Nat) : (s.unitError k n).note = s.note := rfl
@[simp] theorem State.unitError_agenda (s : State) (k n : Nat) : (s.unitError k n).agenda = s.agenda := rfl
@[simp] theorem State.unitError_fresh (s : State) (k n : Nat) : (s.unitError k n).fresh = s.fresh := rfl

/-! ### `monSees` -/

@[simp] theorem State.monSees_clock (s : State) (line : Nat) (who : Option (Nat × Nat)) : (s.monSees line who).clock = s.clock := rfl
@[simp] theorem State.monSees_tick (s : State) (line : Nat) (who : Option (Nat × Nat)) : (s.monSees line who).tick = s.tick := rfl
@[simp] theorem State.monSees_tickPeriod (s : State) (line : Nat) (who : Option (Nat × Nat)) : (s.monSees line who).tickPeriod = s.tickPeriod := rfl
@[simp] theorem State.monSees_tickSpacing (s : State) (line : Nat) (who : Option (Nat × Nat)) : (s.monSees line who).tickSpacing = s.tickSpacing := rfl
@[simp] theorem State.monSees_lastTick (s : State) (line : Nat) (who : Option (Nat × Nat)) : (s.monSees line who).lastTick = s.lastTick := rfl
@[simp] theorem State.monSees_refillDue (s : State) (line : Nat) (who : Option (Nat × Nat)) : (s.monSees line who).refillDue = s.refillDue := rfl
@[simp] theorem State.monSees_startup (s : State) (line : Nat) (who : Option (Nat × Nat)) : (s.monSees line who).startup = s.startup := rfl
@[simp] theorem State.monSees_resetLow (s : State) (line : Nat) (who : Option (Nat × Nat)) : (s.monSees line who).resetLow = s.resetLow := rfl
@[simp] theorem State.monSees_presented (s : State) (line : Nat) (who : Option (Nat × Nat)) : (s.monSees line who).presented = s.presented := rfl
@[simp] theorem State.monSees_power (s : State) (line : Nat) (who : Option (Nat × Nat)) : (s.monSees line who).power = s.power := rfl
@[simp] theorem State.monSees_mem (s : State) (line : Nat) (who : Option (Nat × Nat)) : (s.monSees line who).mem = s.mem := rfl
@[simp] theorem State.monSees_lag (s : State) (line : Nat) (who : Option (Nat × Nat)) : (s.monSees line who).lag = s.lag := rfl
@[simp] theorem State.monSees_l2 (s : State) (line : Nat) (who : Option (Nat × Nat)) : (s.monSees line who).l2 = s.l2 := rfl
@[simp] theorem State.monSees_slices (s : State) (line : Nat) (who : Option (Nat × Nat)) : (s.monSees line who).slices = s.slices := rfl
@[simp] theorem State.monSees_reed (s : State) (line : Nat) (who : Option (Nat × Nat)) : (s.monSees line who).reed = s.reed := rfl
@[simp] theorem State.monSees_cores (s : State) (line : Nat) (who : Option (Nat × Nat)) : (s.monSees line who).cores = s.cores := rfl
@[simp] theorem State.monSees_tlb (s : State) (line : Nat) (who : Option (Nat × Nat)) : (s.monSees line who).tlb = s.tlb := rfl
@[simp] theorem State.monSees_reqs (s : State) (line : Nat) (who : Option (Nat × Nat)) : (s.monSees line who).reqs = s.reqs := rfl
@[simp] theorem State.monSees_replays (s : State) (line : Nat) (who : Option (Nat × Nat)) : (s.monSees line who).replays = s.replays := rfl
@[simp] theorem State.monSees_puts (s : State) (line : Nat) (who : Option (Nat × Nat)) : (s.monSees line who).puts = s.puts := rfl
@[simp] theorem State.monSees_sheafs (s : State) (line : Nat) (who : Option (Nat × Nat)) : (s.monSees line who).sheafs = s.sheafs := rfl
@[simp] theorem State.monSees_colls (s : State) (line : Nat) (who : Option (Nat × Nat)) : (s.monSees line who).colls = s.colls := rfl
@[simp] theorem State.monSees_nextBlock (s : State) (line : Nat) (who : Option (Nat × Nat)) : (s.monSees line who).nextBlock = s.nextBlock := rfl
@[simp] theorem State.monSees_nextId (s : State) (line : Nat) (who : Option (Nat × Nat)) : (s.monSees line who).nextId = s.nextId := rfl
@[simp] theorem State.monSees_grids (s : State) (line : Nat) (who : Option (Nat × Nat)) : (s.monSees line who).grids = s.grids := rfl
@[simp] theorem State.monSees_nextGrid (s : State) (line : Nat) (who : Option (Nat × Nat)) : (s.monSees line who).nextGrid = s.nextGrid := rfl
@[simp] theorem State.monSees_arrivals (s : State) (line : Nat) (who : Option (Nat × Nat)) : (s.monSees line who).arrivals = s.arrivals := rfl
@[simp] theorem State.monSees_graphs (s : State) (line : Nat) (who : Option (Nat × Nat)) : (s.monSees line who).graphs = s.graphs := rfl
@[simp] theorem State.monSees_jobs (s : State) (line : Nat) (who : Option (Nat × Nat)) : (s.monSees line who).jobs = s.jobs := rfl
@[simp] theorem State.monSees_disp (s : State) (line : Nat) (who : Option (Nat × Nat)) : (s.monSees line who).disp = s.disp := rfl
@[simp] theorem State.monSees_images (s : State) (line : Nat) (who : Option (Nat × Nat)) : (s.monSees line who).images = s.images := rfl
@[simp] theorem State.monSees_saveSeq (s : State) (line : Nat) (who : Option (Nat × Nat)) : (s.monSees line who).saveSeq = s.saveSeq := rfl
@[simp] theorem State.monSees_queues (s : State) (line : Nat) (who : Option (Nat × Nat)) : (s.monSees line who).queues = s.queues := rfl
@[simp] theorem State.monSees_qSess (s : State) (line : Nat) (who : Option (Nat × Nat)) : (s.monSees line who).qSess = s.qSess := rfl
@[simp] theorem State.monSees_dev (s : State) (line : Nat) (who : Option (Nat × Nat)) : (s.monSees line who).dev = s.dev := rfl
@[simp] theorem State.monSees_faultq (s : State) (line : Nat) (who : Option (Nat × Nat)) : (s.monSees line who).faultq = s.faultq := rfl
@[simp] theorem State.monSees_objects (s : State) (line : Nat) (who : Option (Nat × Nat)) : (s.monSees line who).objects = s.objects := rfl
@[simp] theorem State.monSees_routines (s : State) (line : Nat) (who : Option (Nat × Nat)) : (s.monSees line who).routines = s.routines := rfl
@[simp] theorem State.monSees_services (s : State) (line : Nat) (who : Option (Nat × Nat)) : (s.monSees line who).services = s.services := rfl
@[simp] theorem State.monSees_flash (s : State) (line : Nat) (who : Option (Nat × Nat)) : (s.monSees line who).flash = s.flash := rfl
@[simp] theorem State.monSees_secure (s : State) (line : Nat) (who : Option (Nat × Nat)) : (s.monSees line who).secure = s.secure := rfl
@[simp] theorem State.monSees_cfg (s : State) (line : Nat) (who : Option (Nat × Nat)) : (s.monSees line who).cfg = s.cfg := rfl
@[simp] theorem State.monSees_sessions (s : State) (line : Nat) (who : Option (Nat × Nat)) : (s.monSees line who).sessions = s.sessions := rfl
@[simp] theorem State.monSees_nextSession (s : State) (line : Nat) (who : Option (Nat × Nat)) : (s.monSees line who).nextSession = s.nextSession := rfl
@[simp] theorem State.monSees_pfcPaused (s : State) (line : Nat) (who : Option (Nat × Nat)) : (s.monSees line who).pfcPaused = s.pfcPaused := rfl
@[simp] theorem State.monSees_pfcEnds (s : State) (line : Nat) (who : Option (Nat × Nat)) : (s.monSees line who).pfcEnds = s.pfcEnds := rfl
@[simp] theorem State.monSees_health (s : State) (line : Nat) (who : Option (Nat × Nat)) : (s.monSees line who).health = s.health := rfl
@[simp] theorem State.monSees_ports (s : State) (line : Nat) (who : Option (Nat × Nat)) : (s.monSees line who).ports = s.ports := rfl
@[simp] theorem State.monSees_fabIn (s : State) (line : Nat) (who : Option (Nat × Nat)) : (s.monSees line who).fabIn = s.fabIn := rfl
@[simp] theorem State.monSees_fabOut (s : State) (line : Nat) (who : Option (Nat × Nat)) : (s.monSees line who).fabOut = s.fabOut := rfl
@[simp] theorem State.monSees_marks (s : State) (line : Nat) (who : Option (Nat × Nat)) : (s.monSees line who).marks = s.marks := rfl
@[simp] theorem State.monSees_markPath (s : State) (line : Nat) (who : Option (Nat × Nat)) : (s.monSees line who).markPath = s.markPath := rfl
@[simp] theorem State.monSees_markOps (s : State) (line : Nat) (who : Option (Nat × Nat)) : (s.monSees line who).markOps = s.markOps := rfl
@[simp] theorem State.monSees_fabHeld (s : State) (line : Nat) (who : Option (Nat × Nat)) : (s.monSees line who).fabHeld = s.fabHeld := rfl
@[simp] theorem State.monSees_nextTag (s : State) (line : Nat) (who : Option (Nat × Nat)) : (s.monSees line who).nextTag = s.nextTag := rfl
@[simp] theorem State.monSees_sent (s : State) (line : Nat) (who : Option (Nat × Nat)) : (s.monSees line who).sent = s.sent := rfl
@[simp] theorem State.monSees_pins (s : State) (line : Nat) (who : Option (Nat × Nat)) : (s.monSees line who).pins = s.pins := rfl
@[simp] theorem State.monSees_out (s : State) (line : Nat) (who : Option (Nat × Nat)) : (s.monSees line who).out = s.out := rfl
@[simp] theorem State.monSees_outHeld (s : State) (line : Nat) (who : Option (Nat × Nat)) : (s.monSees line who).outHeld = s.outHeld := rfl
@[simp] theorem State.monSees_cur (s : State) (line : Nat) (who : Option (Nat × Nat)) : (s.monSees line who).cur = s.cur := rfl
@[simp] theorem State.monSees_note (s : State) (line : Nat) (who : Option (Nat × Nat)) : (s.monSees line who).note = s.note := rfl
@[simp] theorem State.monSees_agenda (s : State) (line : Nat) (who : Option (Nat × Nat)) : (s.monSees line who).agenda = s.agenda := rfl
@[simp] theorem State.monSees_fresh (s : State) (line : Nat) (who : Option (Nat × Nat)) : (s.monSees line who).fresh = s.fresh := rfl

/-! ### `updDisp` -/

@[simp] theorem State.updDisp_clock (s : State) (f : Dispatcher → Dispatcher) : (s.updDisp f).clock = s.clock := rfl
@[simp] theorem State.updDisp_tick (s : State) (f : Dispatcher → Dispatcher) : (s.updDisp f).tick = s.tick := rfl
@[simp] theorem State.updDisp_tickPeriod (s : State) (f : Dispatcher → Dispatcher) : (s.updDisp f).tickPeriod = s.tickPeriod := rfl
@[simp] theorem State.updDisp_tickSpacing (s : State) (f : Dispatcher → Dispatcher) : (s.updDisp f).tickSpacing = s.tickSpacing := rfl
@[simp] theorem State.updDisp_lastTick (s : State) (f : Dispatcher → Dispatcher) : (s.updDisp f).lastTick = s.lastTick := rfl
@[simp] theorem State.updDisp_refillDue (s : State) (f : Dispatcher → Dispatcher) : (s.updDisp f).refillDue = s.refillDue := rfl
@[simp] theorem State.updDisp_startup (s : State) (f : Dispatcher → Dispatcher) : (s.updDisp f).startup = s.startup := rfl
@[simp] theorem State.updDisp_resetLow (s : State) (f : Dispatcher → Dispatcher) : (s.updDisp f).resetLow = s.resetLow := rfl
@[simp] theorem State.updDisp_presented (s : State) (f : Dispatcher → Dispatcher) : (s.updDisp f).presented = s.presented := rfl
@[simp] theorem State.updDisp_power (s : State) (f : Dispatcher → Dispatcher) : (s.updDisp f).power = s.power := rfl
@[simp] theorem State.updDisp_mem (s : State) (f : Dispatcher → Dispatcher) : (s.updDisp f).mem = s.mem := rfl
@[simp] theorem State.updDisp_lag (s : State) (f : Dispatcher → Dispatcher) : (s.updDisp f).lag = s.lag := rfl
@[simp] theorem State.updDisp_l2 (s : State) (f : Dispatcher → Dispatcher) : (s.updDisp f).l2 = s.l2 := rfl
@[simp] theorem State.updDisp_slices (s : State) (f : Dispatcher → Dispatcher) : (s.updDisp f).slices = s.slices := rfl
@[simp] theorem State.updDisp_reed (s : State) (f : Dispatcher → Dispatcher) : (s.updDisp f).reed = s.reed := rfl
@[simp] theorem State.updDisp_cores (s : State) (f : Dispatcher → Dispatcher) : (s.updDisp f).cores = s.cores := rfl
@[simp] theorem State.updDisp_tlb (s : State) (f : Dispatcher → Dispatcher) : (s.updDisp f).tlb = s.tlb := rfl
@[simp] theorem State.updDisp_blocks (s : State) (f : Dispatcher → Dispatcher) : (s.updDisp f).blocks = s.blocks := rfl
@[simp] theorem State.updDisp_reqs (s : State) (f : Dispatcher → Dispatcher) : (s.updDisp f).reqs = s.reqs := rfl
@[simp] theorem State.updDisp_replays (s : State) (f : Dispatcher → Dispatcher) : (s.updDisp f).replays = s.replays := rfl
@[simp] theorem State.updDisp_puts (s : State) (f : Dispatcher → Dispatcher) : (s.updDisp f).puts = s.puts := rfl
@[simp] theorem State.updDisp_sheafs (s : State) (f : Dispatcher → Dispatcher) : (s.updDisp f).sheafs = s.sheafs := rfl
@[simp] theorem State.updDisp_colls (s : State) (f : Dispatcher → Dispatcher) : (s.updDisp f).colls = s.colls := rfl
@[simp] theorem State.updDisp_nextBlock (s : State) (f : Dispatcher → Dispatcher) : (s.updDisp f).nextBlock = s.nextBlock := rfl
@[simp] theorem State.updDisp_nextId (s : State) (f : Dispatcher → Dispatcher) : (s.updDisp f).nextId = s.nextId := rfl
@[simp] theorem State.updDisp_grids (s : State) (f : Dispatcher → Dispatcher) : (s.updDisp f).grids = s.grids := rfl
@[simp] theorem State.updDisp_nextGrid (s : State) (f : Dispatcher → Dispatcher) : (s.updDisp f).nextGrid = s.nextGrid := rfl
@[simp] theorem State.updDisp_arrivals (s : State) (f : Dispatcher → Dispatcher) : (s.updDisp f).arrivals = s.arrivals := rfl
@[simp] theorem State.updDisp_graphs (s : State) (f : Dispatcher → Dispatcher) : (s.updDisp f).graphs = s.graphs := rfl
@[simp] theorem State.updDisp_jobs (s : State) (f : Dispatcher → Dispatcher) : (s.updDisp f).jobs = s.jobs := rfl
@[simp] theorem State.updDisp_disp (s : State) (f : Dispatcher → Dispatcher) : (s.updDisp f).disp = f s.disp := rfl
@[simp] theorem State.updDisp_images (s : State) (f : Dispatcher → Dispatcher) : (s.updDisp f).images = s.images := rfl
@[simp] theorem State.updDisp_saveSeq (s : State) (f : Dispatcher → Dispatcher) : (s.updDisp f).saveSeq = s.saveSeq := rfl
@[simp] theorem State.updDisp_queues (s : State) (f : Dispatcher → Dispatcher) : (s.updDisp f).queues = s.queues := rfl
@[simp] theorem State.updDisp_qSess (s : State) (f : Dispatcher → Dispatcher) : (s.updDisp f).qSess = s.qSess := rfl
@[simp] theorem State.updDisp_dev (s : State) (f : Dispatcher → Dispatcher) : (s.updDisp f).dev = s.dev := rfl
@[simp] theorem State.updDisp_faultq (s : State) (f : Dispatcher → Dispatcher) : (s.updDisp f).faultq = s.faultq := rfl
@[simp] theorem State.updDisp_objects (s : State) (f : Dispatcher → Dispatcher) : (s.updDisp f).objects = s.objects := rfl
@[simp] theorem State.updDisp_routines (s : State) (f : Dispatcher → Dispatcher) : (s.updDisp f).routines = s.routines := rfl
@[simp] theorem State.updDisp_services (s : State) (f : Dispatcher → Dispatcher) : (s.updDisp f).services = s.services := rfl
@[simp] theorem State.updDisp_flash (s : State) (f : Dispatcher → Dispatcher) : (s.updDisp f).flash = s.flash := rfl
@[simp] theorem State.updDisp_secure (s : State) (f : Dispatcher → Dispatcher) : (s.updDisp f).secure = s.secure := rfl
@[simp] theorem State.updDisp_cfg (s : State) (f : Dispatcher → Dispatcher) : (s.updDisp f).cfg = s.cfg := rfl
@[simp] theorem State.updDisp_sessions (s : State) (f : Dispatcher → Dispatcher) : (s.updDisp f).sessions = s.sessions := rfl
@[simp] theorem State.updDisp_nextSession (s : State) (f : Dispatcher → Dispatcher) : (s.updDisp f).nextSession = s.nextSession := rfl
@[simp] theorem State.updDisp_pfcPaused (s : State) (f : Dispatcher → Dispatcher) : (s.updDisp f).pfcPaused = s.pfcPaused := rfl
@[simp] theorem State.updDisp_pfcEnds (s : State) (f : Dispatcher → Dispatcher) : (s.updDisp f).pfcEnds = s.pfcEnds := rfl
@[simp] theorem State.updDisp_health (s : State) (f : Dispatcher → Dispatcher) : (s.updDisp f).health = s.health := rfl
@[simp] theorem State.updDisp_ports (s : State) (f : Dispatcher → Dispatcher) : (s.updDisp f).ports = s.ports := rfl
@[simp] theorem State.updDisp_fabIn (s : State) (f : Dispatcher → Dispatcher) : (s.updDisp f).fabIn = s.fabIn := rfl
@[simp] theorem State.updDisp_fabOut (s : State) (f : Dispatcher → Dispatcher) : (s.updDisp f).fabOut = s.fabOut := rfl
@[simp] theorem State.updDisp_marks (s : State) (f : Dispatcher → Dispatcher) : (s.updDisp f).marks = s.marks := rfl
@[simp] theorem State.updDisp_markPath (s : State) (f : Dispatcher → Dispatcher) : (s.updDisp f).markPath = s.markPath := rfl
@[simp] theorem State.updDisp_markOps (s : State) (f : Dispatcher → Dispatcher) : (s.updDisp f).markOps = s.markOps := rfl
@[simp] theorem State.updDisp_fabHeld (s : State) (f : Dispatcher → Dispatcher) : (s.updDisp f).fabHeld = s.fabHeld := rfl
@[simp] theorem State.updDisp_nextTag (s : State) (f : Dispatcher → Dispatcher) : (s.updDisp f).nextTag = s.nextTag := rfl
@[simp] theorem State.updDisp_sent (s : State) (f : Dispatcher → Dispatcher) : (s.updDisp f).sent = s.sent := rfl
@[simp] theorem State.updDisp_pins (s : State) (f : Dispatcher → Dispatcher) : (s.updDisp f).pins = s.pins := rfl
@[simp] theorem State.updDisp_out (s : State) (f : Dispatcher → Dispatcher) : (s.updDisp f).out = s.out := rfl
@[simp] theorem State.updDisp_outHeld (s : State) (f : Dispatcher → Dispatcher) : (s.updDisp f).outHeld = s.outHeld := rfl
@[simp] theorem State.updDisp_cur (s : State) (f : Dispatcher → Dispatcher) : (s.updDisp f).cur = s.cur := rfl
@[simp] theorem State.updDisp_note (s : State) (f : Dispatcher → Dispatcher) : (s.updDisp f).note = s.note := rfl
@[simp] theorem State.updDisp_agenda (s : State) (f : Dispatcher → Dispatcher) : (s.updDisp f).agenda = s.agenda := rfl
@[simp] theorem State.updDisp_fresh (s : State) (f : Dispatcher → Dispatcher) : (s.updDisp f).fresh = s.fresh := rfl

end Sys2Proof.Machine
end

