-- ==== Sys2Proof/Laws/Ops.lean ====
section
/-! SUPPORT. Laws/Ops.lean: for each shared operation, what it can do: issuing an instruction, an event, register writes, taking a
trap, writes at the home; cited in place of unfolding them. -/

namespace Sys2Proof.Machine

/-! ### Outcomes -/

theorem event_eq_next (name : String) (c : Bool) (t u : State) : event name c t = .next u ↔ c = true ∧ u = t := by
  cases c
  · simp [event]
  · simp [event, eq_comm]

theorem event_next (name : String) (c : Bool) (t : State) (h : c = true) : event name c t = .next t := by simp [event, h]

/-- An instruction that is issued, may run and names declared registers has its own effect. -/
theorem issueOp_next (name : String) (h : Head) (service : Bool) (us : List RegUse) (body : Ctx → State → State) (s : State) (x : Ctx)
    (hx : s.ctx h = some x) (hs : service = true → x.blk.service = true) (hu : firstBeyond x.blk.kern us = none) :
    issueOp name h service us body s = .next (body x s) := by
  have hc : ∃ c, s.cur = some c := by
    cases hc : s.cur with
    | none => simp [State.ctx, hc] at hx
    | some c => exact ⟨c, rfl⟩
  obtain ⟨c, hc⟩ := hc
  cases service
  · simp [issueOp, hc, hx, hu]
  · simp [issueOp, hc, hx, hu, hs rfl]

/-- Everything that issuing an instruction can do. -/
theorem issueOp_cases (name : String) (h : Head) (service : Bool) (us : List RegUse) (body : Ctx → State → State) (s t : State)
    (ht : issueOp name h service us body s = .next t) :
    ∃ x, s.ctx h = some x ∧
      ((service = true ∧ x.blk.service = false ∧ t = x.raise (x.decodeTrap 0x0F 0 0) s) ∨
       (∃ r, firstBeyond x.blk.kern us = some r ∧ t = x.raise (x.decodeTrap 0x03 (BitVec.ofNat 64 r) 0) s) ∨
       (firstBeyond x.blk.kern us = none ∧ t = body x s)) := by
  unfold issueOp at ht
  split at ht
  · cases ht
  · split at ht
    · cases ht
    · rename_i x hx
      refine ⟨x, hx, ?_⟩
      split at ht
      · rename_i hp
        simp only [Bool.and_eq_true, Bool.not_eq_true'] at hp
        cases ht
        exact .inl ⟨hp.1, hp.2, rfl⟩
      · split at ht
        · rename_i r hr
          cases ht
          exact .inr (.inl ⟨r, hr, rfl⟩)
        · rename_i hr
          cases ht
          exact .inr (.inr ⟨hr, rfl⟩)

/-- What the context of an issue is made of. -/
theorem State.ctx_some (s : State) (h : Head) (x : Ctx) (hx : s.ctx h = some x) :
    s.cur = some x.c ∧ s.block x.c.blk = some x.blk ∧ x.blk.wave x.c.wave = some x.wv ∧ x.act = activeLanes h x.c := by
  unfold State.ctx at hx
  cases hc : s.cur with
  | none => simp [hc] at hx
  | some c =>
    cases hb : s.block c.blk with
    | none => simp [hc, hb] at hx
    | some p =>
      cases hw : p.wave c.wave with
      | none => simp [hc, hb, hw] at hx
      | some v =>
        simp [hc, hb, hw] at hx
        subst hx
        exact ⟨rfl, hb, hw, rfl⟩

/-! ### Blocks and waves -/

theorem updAt_get {α : Type} (xs : List α) (i j : Nat) (f : α → α) :
    (updAt xs i f)[j]? = if j = i then xs[j]?.map f else xs[j]? := by
  simp only [updAt, List.getElem?_mapIdx]
  cases xs[j]? <;> split <;> simp_all

theorem updAt_length {α : Type} (xs : List α) (i : Nat) (f : α → α) : (updAt xs i f).length = xs.length := by simp [updAt]

theorem State.block_updBlock_self (s : State) (b : Nat) (f : Block → Block) : (s.updBlock b f).block b = (s.block b).map f :=
  Tbl.get_upd_self s.blocks b f

theorem State.block_updBlock_ne (s : State) (b c : Nat) (f : Block → Block) (h : c ≠ b) : (s.updBlock b f).block c = s.block c :=
  Tbl.get_upd_ne s.blocks b c f h

theorem State.wave_updWave_self (s : State) (b w : Nat) (f : Wave → Wave) : (s.updWave b w f).wave b w = (s.wave b w).map f := by
  unfold State.wave State.updWave
  rw [State.block_updBlock_self]
  cases s.block b with
  | none => rfl
  | some p => simp [Block.updWave, Block.wave, updAt_get]

theorem State.wave_updWave_ne (s : State) (b w i : Nat) (f : Wave → Wave) (h : i ≠ w) : (s.updWave b w f).wave b i = s.wave b i := by
  unfold State.wave State.updWave
  rw [State.block_updBlock_self]
  cases s.block b with
  | none => rfl
  | some p => simp [Block.updWave, Block.wave, updAt_get, h]

theorem State.block_updWave_ne (s : State) (b w c : Nat) (f : Wave → Wave) (h : c ≠ b) : (s.updWave b w f).block c = s.block c :=
  State.block_updBlock_ne s b c _ h

/-! ### Registers -/

theorem vkey_inj (r l q k : Nat) (hl : l < 32) (hk : k < 32) (h : vkey r l = vkey q k) : r = q ∧ l = k := by
  unfold vkey at h; omega

theorem RegFile.read_write_self (f : RegFile) (reg key : Nat) (x : Word) : (f.write key x).read reg key = x := by
  simp [RegFile.read, RegFile.write, Tbl.get_put_self]

theorem RegFile.read_write_ne (f : RegFile) (reg key k : Nat) (x : Word) (h : k ≠ key) : (f.write key x).read reg k = f.read reg k := by
  simp [RegFile.read, RegFile.write, Tbl.get_put_ne _ _ _ _ h]

/-- A write of one vector register of one lane changes that register of that lane only. -/
theorem RegFile.vec_write (f : RegFile) (r l q k : Nat) (x : Word) (hl : l < 32) (hk : k < 32) :
    (f.write (vkey r l) x).vec q k = if q = r ∧ k = l then x else f.vec q k := by
  unfold RegFile.vec
  split
  · rename_i h; obtain ⟨rfl, rfl⟩ := h; exact f.read_write_self _ _ x
  · rename_i h
    exact f.read_write_ne _ _ _ x (fun e => h (vkey_inj q k r l hk hl e))

theorem RegFile.scal_write (f : RegFile) (r q : Nat) (x : Word) : (f.write r x).scal q = if q = r then x else f.scal q := by
  unfold RegFile.scal
  split
  · subst_vars; exact f.read_write_self _ _ x
  · exact f.read_write_ne _ _ _ x ‹_›

/-- Register writes keep all of memory, the grids and the units other than the wave's block. -/
theorem State.commit_keeps (s : State) (b w : Nat) (ws : List Wr) :
    { s.commit b w ws with blocks := s.blocks, reqs := s.reqs } = s ∧ ∀ c, c ≠ b → (s.commit b w ws).block c = s.block c := by
  refine ⟨rfl, fun c hc => ?_⟩
  show ((s.updWave b w _).updBlock b _).block c = s.block c
  rw [State.block_updBlock_ne _ _ _ _ hc, State.block_updWave_ne _ _ _ _ _ hc]

/-! ### Traps -/

/-- Everything that taking a trap can do to a wave that is there. -/
theorem State.takeTrap_cases (s : State) (b w : Nat) (t : TrapInfo) (blk : Block) (wv : Wave) (hb : s.block b = some blk)
    (hw : s.wave b w = some wv) :
    s.takeTrap b w t = { s with note := .held } ∨
    ∃ u, (u = s ∨ u = s.retireUse t.feat) ∧
      (s.takeTrap b w t = { u.abortBlock b t.code with note := .raised t } ∨
       s.takeTrap b w t = { u.holdBreak b w blk wv t with note := .raised t } ∨
       ∃ e, u.entryFor blk t = some e ∧
         s.takeTrap b w t =
           { ((((u.clearRecord b t.record).updWave b w (fun x => x.enterTrap t (BitVec.ofNat 64 e))).loseMonitor b w false).settle
               b w t.set) with note := .raised t }) := by
  unfold State.takeTrap
  simp only [hb, hw]
  split
  · exact .inl rfl
  · refine .inr ⟨if t.code = 2 then s.retireUse t.feat else s, ?_, ?_⟩
    · split
      · exact .inr rfl
      · exact .inl rfl
    · split
      · exact .inl rfl
      · split
        · split
          · exact .inr (.inl rfl)
          · exact .inl rfl
        · rename_i e he
          exact .inr (.inr ⟨e, he, rfl⟩)

/-! ### Writes at the home -/

theorem ite_state_mem {c : Prop} [Decidable c] (t u : State) (m : List Host.Cell) (ht : t.mem = m) (hu : u.mem = m) :
    (if c then t else u).mem = m := by split <;> assumption

theorem State.commitLine_mem (s : State) (line job : Nat) : (s.commitLine line job).mem = s.mem := by
  unfold State.commitLine
  simp only [State.reedUpdate_mem]
  split
  · rfl
  · split <;> rfl

theorem State.writeBack_mem (s : State) (line : Nat) : (s.writeBack line).mem = s.mem := by
  unfold State.writeBack
  split
  · exact ite_state_mem _ _ _ rfl (s.commitLine_mem _ _)
  · rfl

theorem State.l2Evict_mem (s t : State) (line : Nat) (h : s.l2Evict line = some t) : t.mem = s.mem := by
  unfold State.l2Evict at h
  split at h
  · cases h
  · cases h; exact s.writeBack_mem line

/-- An allocation in the L2 keeps the values of memory. -/
theorem State.l2Alloc_mem (s : State) (line : Nat) (a : Alloc) : (s.l2Alloc line a).mem = s.mem := by
  unfold State.l2Alloc
  simp only []
  split
  · rfl
  · split
    · split
      · rename_i t ht; exact s.l2Evict_mem t _ ht
      · rfl
    · rfl

theorem State.l2Access_mem (s : State) (line : Nat) (a : Alloc) : (s.l2Access line a).mem = s.mem := by
  unfold State.l2Access
  split
  · rfl
  · exact ite_state_mem _ _ _ rfl (State.l2Alloc_mem _ _ _)

theorem State.l2Touch_mem (s : State) (pa : Nat) (a : Alloc) : (s.l2Touch pa a).mem = s.mem := by
  unfold State.l2Touch
  exact ite_state_mem _ _ _ (s.l2Access_mem _ _) rfl

theorem State.putDirty_mem (s : State) (line job : Nat) (before : List Byte) (lagging : Bool) :
    (s.putDirty line job before lagging).mem = s.mem := by
  unfold State.putDirty
  exact ite_state_mem _ _ _ (State.commitLine_mem _ _ _) rfl

/-- A write at the home changes the bytes it names, whatever the L2 and the controller do with the line. -/
theorem State.rawWrite_mem (s : State) (pa : Nat) (bs : List Byte) (a : Alloc) (who : Option (Nat × Nat)) (job : Nat) :
    (s.rawWrite pa bs a who job).mem = memWrite s.mem pa bs := by
  rw [← s.l2Touch_mem pa a]
  unfold State.rawWrite
  rw [State.monSees_mem]
  exact ite_state_mem _ _ _ (State.putDirty_mem _ _ _ _ _) rfl

theorem State.showWord_wf (s : State) (a v : Nat) (h : Memory.wf s.mem = true) : Memory.wf (s.showWord a v).mem = true := by
  unfold State.showWord
  split
  · exact h
  · rw [State.rawWrite_mem]; exact memWrite_wf _ _ _ h

/-- The device's words of a descriptor keep the form of memory. -/
theorem State.showQueue_wf (s : State) (n : Nat) (h : Memory.wf s.mem = true) : Memory.wf (s.showQueue n).mem = true := by
  unfold State.showQueue
  split
  · exact h
  · iterate 6 apply State.showWord_wf
    exact h

theorem foldl_wf {α : Type} (xs : List α) (f : State → α → State) (s : State)
    (hf : ∀ t x, Memory.wf t.mem = true → Memory.wf (f t x).mem = true) (h : Memory.wf s.mem = true) :
    Memory.wf (xs.foldl f s).mem = true := by
  induction xs generalizing s with
  | nil => exact h
  | cons x xs ih => exact ih _ (hf s x h)

theorem State.descWritten_wf (s : State) (pa : Nat) (bs : List Byte) (h : Memory.wf s.mem = true) :
    Memory.wf (s.descWritten pa bs).mem = true :=
  foldl_wf _ _ _ (fun _ _ ht => State.showQueue_wf _ _ ht) h

theorem State.homeWrite_wf (s : State) (pa : Nat) (bs : List Byte) (a : Alloc) (who : Option (Nat × Nat)) (job : Nat)
    (h : Memory.wf s.mem = true) : Memory.wf (s.homeWrite pa bs a who job).mem = true := by
  have hr : Memory.wf (s.rawWrite pa bs a who (s.chargedJob pa job)).mem = true := by rw [State.rawWrite_mem]; exact memWrite_wf _ _ _ h
  unfold State.homeWrite
  simp only []
  split
  · exact hr
  · exact State.descWritten_wf _ _ _ hr

theorem State.homeWriteAll_wf (s : State) (pa : Nat) (bs : List Byte) (job fuel : Nat) (h : Memory.wf s.mem = true) :
    Memory.wf (s.homeWriteAll pa bs job fuel).mem = true := by
  induction fuel generalizing s pa bs with
  | zero => exact h
  | succ n ih =>
    unfold State.homeWriteAll
    split
    · exact h
    · exact ih _ _ _ (State.homeWrite_wf _ _ _ _ _ _ h)

theorem State.store_wf (s : State) (pa : Nat) (bs : List Byte) (job : Nat) (h : Memory.wf s.mem = true) :
    Memory.wf (s.store pa bs job).mem = true := State.homeWriteAll_wf _ _ _ _ _ h

/-- With no queue mapped, a write at the home changes the bytes it names and no other. -/
theorem State.homeWrite_mem (s : State) (pa : Nat) (bs : List Byte) (a : Alloc) (who : Option (Nat × Nat)) (job : Nat)
    (hq : s.queues = []) : (s.homeWrite pa bs a who job).mem = memWrite s.mem pa bs := by
  unfold State.homeWrite
  simp [hq, State.rawWrite_mem]

/-! ### Faults reported to system software -/

theorem State.writeFault_wf (s : State) (h : Memory.wf s.mem = true) : Memory.wf s.writeFault.mem = true := by
  unfold State.writeFault
  split
  · exact h
  · split
    · simp only [State.setFq_mem]; exact State.homeWrite_wf _ _ _ _ _ _ h
    · exact h

theorem State.writeFaults_wf (s : State) (h : Memory.wf s.mem = true) : Memory.wf s.writeFaults.mem = true :=
  foldl_wf _ _ _ (fun t _ ht => State.writeFault_wf t ht) h

theorem State.report_wf (s : State) (kind core asn ten job need addr grid : Nat) (awaits : Bool) (h : Memory.wf s.mem = true) :
    Memory.wf (s.report kind core asn ten job need addr grid awaits).2.mem = true := by
  unfold State.report
  split
  · exact h
  · exact State.writeFaults_wf _ h

/-- Discarding a job's held writes, moving a page and a reset keep the form of memory. -/
theorem State.dropHeld_wf (s : State) (job : Nat) (h : Memory.wf s.mem = true) : Memory.wf (s.dropHeld job).mem = true :=
  foldWrite_wf _ _ _ _ h

theorem State.keptMem_wf (s : State) (h : Memory.wf s.mem = true) : Memory.wf s.keptMem = true := by
  unfold State.keptMem
  split
  · exact filter_wf _ _ h
  · exact Memory.wf_nil

theorem State.toReset_wf (s : State) (h : Memory.wf s.mem = true) : Memory.wf s.toReset.mem = true := State.keptMem_wf s h

theorem State.fatal_wf (s : State) (reason arg : Nat) (h : Memory.wf s.mem = true) : Memory.wf (s.fatal reason arg).mem = true := by
  unfold State.fatal
  simp only []
  split
  · exact State.toReset_wf _ (State.store_wf _ _ _ _ h)
  · exact State.toReset_wf _ h

theorem State.reset_wf : Memory.wf State.reset.mem = true := rfl

end Sys2Proof.Machine
end

