-- ==== Sys2Proof/Laws/PerInstr.lean ====
section
/-! SUPPORT. Laws/PerInstr.lean: facts about instructions as syntax, one lemma for each constructor. OpByte: the word of a
well-formed instruction carries the OP that the opcode map gives it (R92), and an event has no word. -/

namespace Sys2Proof.Laws.OpByte

/-- The OP of an instruction (Tables 4-2 to 4-9); none for an event. -/
def op : Instr → Option Nat
  | .nop _ => some 0
  | .br _ _ => some 0x01
  | .brx _ _ => some 0x02
  | .call _ _ => some 0x03
  | .callx _ _ => some 0x04
  | .ret _ _ => some 0x05
  | .exit _ _ => some 0x06
  | .rcv _ _ => some 0x07
  | .rcvRelease _ _ => none
  | .loop _ _ => some 0x08
  | .brany _ _ => some 0x09
  | .brall _ _ => some 0x0A
  | .yield _ _ => some 0x0E
  | .sleep _ _ => some 0x0F
  | .sleepEnd _ _ => none
  | .trap _ _ => some 0x0B
  | .brk _ _ => some 0x0C
  | .rte _ _ => some 0x0D
  | .rteNext _ _ => some 0x0D
  | .sysRd _ _ => some 0x10
  | .sysWr _ _ => some 0x11
  | .tlbInvPage _ _ => some 0x12
  | .tlbInvLarge _ _ => some 0x12
  | .tlbInvAsn _ _ => some 0x12
  | .tlbInvAll _ _ => some 0x12
  | .errRdCounter _ _ => some 0x13
  | .errRdLog _ _ => some 0x13
  | .errRdRetire _ _ => some 0x13
  | .iclLock _ _ => some 0x14
  | .iclFree _ _ => some 0x15
  | .iclCount _ _ => some 0x16
  | .halt _ _ => some 0x17
  | .wvote _ => some 0x18
  | .iadd _ _ => some 0x20
  | .isub _ _ => some 0x21
  | .iadd64 _ _ => some 0x22
  | .imul _ _ => some 0x23
  | .imulh _ _ => some 0x24
  | .imad _ _ => some 0x25
  | .imadw _ _ => some 0x26
  | .iaddc _ _ => some 0x27
  | .isubb _ _ => some 0x28
  | .idiv _ _ => some 0x29
  | .irem _ _ => some 0x2A
  | .imin _ _ => some 0x2B
  | .imax _ _ => some 0x2C
  | .iabs _ _ => some 0x2D
  | .isad _ _ => some 0x2E
  | .idot4 _ _ => some 0x2F
  | .and _ _ => some 0x30
  | .or _ _ => some 0x31
  | .xor _ _ => some 0x32
  | .andn _ _ => some 0x33
  | .ltab _ _ => some 0x34
  | .shl _ _ => some 0x35
  | .shr _ _ => some 0x36
  | .sar _ _ => some 0x37
  | .rot _ _ => some 0x38
  | .bfe _ _ => some 0x39
  | .bfi _ _ => some 0x3A
  | .popc _ _ => some 0x3B
  | .clz _ _ => some 0x3C
  | .brev _ _ => some 0x3D
  | .lea _ _ => some 0x3E
  | .movi _ _ => some 0x3F
  | .icmp _ _ => some 0x40
  | .fcmp _ _ => some 0x41
  | .pand _ _ => some 0x42
  | .por _ _ => some 0x43
  | .pxor _ _ => some 0x44
  | .pmov _ _ => some 0x45
  | .sel _ _ => some 0x46
  | .ballot _ _ => some 0x47
  | .vany _ _ => some 0x48
  | .vall _ _ => some 0x49
  | .vmatch _ _ => some 0x4A
  | .lanes _ _ => some 0x4B
  | .mov _ _ => some 0x4C
  | .movs _ _ => some 0x4D
  | .smov _ _ => some 0x4E
  | .sltab _ _ => some 0x4F
  | .sadd _ _ => some 0x50
  | .ssub _ _ => some 0x51
  | .smul _ _ => some 0x52
  | .sand _ _ => some 0x53
  | .sor _ _ => some 0x54
  | .sxor _ _ => some 0x55
  | .sshl _ _ => some 0x56
  | .sshr _ _ => some 0x57
  | .scmp _ _ => some 0x58
  | .smovi _ _ => some 0x59
  | .smin _ _ => some 0x5A
  | .smax _ _ => some 0x5B
  | .movri _ _ => some 0x5C
  | .movwi _ _ => some 0x5D
  | .xperm _ _ => some 0x5E
  | .spec _ _ => some 0x5F
  | .fadd _ _ => some 0x60
  | .fsub _ _ => some 0x61
  | .fmul _ _ => some 0x62
  | .ffma _ _ => some 0x63
  | .fmin _ _ => some 0x64
  | .fmax _ _ => some 0x65
  | .fabs _ _ => some 0x66
  | .fneg _ _ => some 0x67
  | .frcp _ _ => some 0x68
  | .fsqrt _ _ => some 0x69
  | .frsq _ _ => some 0x6A
  | .fexp2 _ _ => some 0x6B
  | .flog2 _ _ => some 0x6C
  | .fsinp _ _ => some 0x6D
  | .fcosp _ _ => some 0x6E
  | .sfuResult _ _ _ => none
  | .fdiv _ _ => some 0x6F
  | .frnd _ _ => some 0x70
  | .fclass _ _ => some 0x71
  | .fscale _ _ => some 0x72
  | .fdot2 _ _ => some 0x73
  | .ftwosum _ _ => some 0x74
  | .fcpysgn _ _ => some 0x75
  | .fmadFtz _ _ => some 0x76
  | .cvtFf _ _ => some 0x80
  | .cvtFi _ _ => some 0x81
  | .cvtIf _ _ => some 0x82
  | .cvtIi _ _ => some 0x83
  | .cvtE8 _ _ => some 0x84
  | .cvtE4 _ _ => some 0x85
  | .dcvtE8 _ _ => some 0x86
  | .dcvtE4 _ _ => some 0x87
  | .qblk _ _ => some 0x88
  | .dqblk _ _ => some 0x89
  | .qhdr _ _ => some 0x8A
  | .hchk _ _ => some 0x8B
  | .pack4 _ _ => some 0x8C
  | .pack8 _ _ => some 0x8D
  | .unpk4 _ _ => some 0x8E
  | .unpk8 _ _ => some 0x8F
  | .fpk2 _ _ => some 0x90
  | .fupk2 _ _ => some 0x91
  | .ld _ _ => some 0xA0
  | .ldBlk _ _ => some 0xA0
  | .st _ _ => some 0xA1
  | .stBlk _ _ => some 0xA1
  | .lds _ _ => some 0xA2
  | .sts _ _ => some 0xA3
  | .atomAdd _ _ => some 0xA4
  | .atomMin _ _ => some 0xA5
  | .atomMax _ _ => some 0xA6
  | .atomAnd _ _ => some 0xA7
  | .atomOr _ _ => some 0xA8
  | .atomXor _ _ => some 0xA9
  | .atomXch _ _ => some 0xAA
  | .atomCas _ _ => some 0xAB
  | .atomFadd _ _ => some 0xAC
  | .red _ _ => some 0xAD
  | .satom _ _ => some 0xAE
  | .phaseCl _ _ => some 0xAF
  | .phaseClComplete _ _ => none
  | .phaseOp _ _ => some 0xB0
  | .fenceQ _ _ => some 0xB1
  | .cinv _ _ => some 0xB2
  | .cinvAll _ _ => some 0xB2
  | .prefetch _ _ => some 0xB3
  | .mprobe _ _ => some 0xB4
  | .monArm _ _ => some 0xB5
  | .monWait _ _ => some 0xB6
  | .monitorTrigger _ _ => none
  | .monitorTimeout _ _ => none
  | .tileDef _ _ => some 0xC0
  | .tileRel _ _ => some 0xC1
  | .tileWait _ _ => some 0xC2
  | .tileQ _ _ => some 0xC3
  | .cpLd _ _ => some 0xC4
  | .cpSt _ _ => some 0xC5
  | .cpGth _ _ => some 0xC6
  | .cpSct _ _ => some 0xC7
  | .cpHint _ _ => some 0xC8
  | .cpSet _ _ => some 0xC9
  | .copyBegin _ _ => none
  | .copyComplete _ _ _ => none
  | .collAr _ _ => some 0xD4
  | .collBc _ _ => some 0xD5
  | .collWait _ _ => some 0xD6
  | .collBegin _ _ => none
  | .collComplete _ _ _ _ => none
  | .convDecl _ _ => some 0xCA
  | .mma _ _ => some 0xCB
  | .mmaG _ _ => some 0xCC
  | .signingRoundComplete _ _ => none
  | .mmaKstep _ _ => none
  | .mmaWait _ _ => some 0xCD
  | .accZero _ _ => some 0xCE
  | .accLd _ _ => some 0xCF
  | .accSt _ _ => some 0xD0
  | .accStq _ _ => some 0xD1
  | .accFlg _ _ => some 0xD2
  | .accFclr _ _ => some 0xD3
  | .accCommandPerform _ _ => none
  | .mma8 _ => some 0xD8
  | .bar _ _ => some 0xE0
  | .barn _ _ => some 0xE1
  | .bara _ _ => some 0xE2
  | .barw _ _ => some 0xE3
  | .barrierPhaseComplete _ _ => none
  | .progAdd _ _ => some 0xE4
  | .idemEnd _ _ => some 0xE5
  | .shfPut _ _ => some 0xE6
  | .shfPutArrive _ => none
  | .shfTake _ _ => some 0xE7
  | .shfTakeReturn _ _ => none
  | .shfWait _ _ => some 0xE8
  | .shfOpen _ _ => some 0xE9
  | .shfDone _ _ => some 0xEA
  | .stillwaterQuiet _ => none
  | .cancelBlk _ _ => some 0xEB
  | .cancelGrid _ _ => some 0xEB
  | .cancelGraph _ _ => some 0xEB
  | .cancelJob _ _ => some 0xEB
  | .tickRd _ _ => some 0xEC
  | .clk _ _ => some 0xED
  | .loadResult _ _ => none
  | .writePerform _ _ => none
  | .fetchFault _ _ => none
  | .blockRetire _ => none
  | .gridComplete _ => none
  | .commandFrame _ _ _ _ => none
  | .launch _ => none
  | .wait _ => none
  | .waitSatisfied _ => none
  | .signal _ => none
  | .cancel _ => none
  | .bind _ => none
  | .tickalign _ => none
  | .close _ => none
  | .tickBoundary => none
  | .dispatchTakeGrid => none
  | .blockPlace => none
  | .backfill _ => none
  | .weirRun => none
  | .saveImageWrite _ => none
  | .resumeIssue _ => none
  | .portRefill => none
  | .portSend _ _ => none
  | .reedDemote _ _ _ => none
  | .heldWriteCommit _ => none
  | .pageMoveComplete _ => none
  | .moveStart _ => none
  | .l2FlushStart _ => none
  | .l2FlushDone => none
  | .t2FreePush _ => none
  | .t2FreeCountWrite _ => none
  | .poolThresholdWrite _ _ _ => none
  | .faultAckRetry _ => none
  | .faultAckFatal _ => none
  | .faultqBaseWrite _ => none
  | .faultqSizeWrite _ => none
  | .shfCfgWrite _ _ => none
  | .tenCfgWrite _ _ => none
  | .collCfgWrite _ _ _ => none
  | .granaryChunksWrite _ => none
  | .moduleNumWrite _ => none
  | .qdescBaseWrite _ => none
  | .fabRouteWrite _ _ _ => none
  | .powerLimitWrite _ => none
  | .tickPeriodWrite _ => none
  | .dumpRelease => none
  | .registerWrite _ _ => none
  | .powerSample _ => none
  | .powerOverlimitFault => none
  | .temperatureSample _ => none
  | .railOutOfWindow _ => none
  | .resetAssert => none
  | .resetRelease _ _ => none
  | .fatalError _ _ => none
  | .scrubRead _ => none
  | .unitFence _ _ => none
  | .fabricSequence _ _ => none
  | .portRetrain _ _ => none
  | .fabricRead _ _ => none
  | .fabricWrite _ _ => none
  | .fabricAtomic _ _ => none
  | .fabricReply _ => none
  | .marker _ => none
  | .markerAck _ => none
  | .fabricSession _ _ => none
  | .fabricColl _ => none
  | .hello _ _ => none
  | .key _ _ => none
  | .rekey _ _ _ => none
  | .sessionClose _ => none
  | .attest _ _ _ => none
  | .mapQueue _ _ _ => none
  | .unmapQueue _ _ _ => none
  | .load _ _ _ _ _ => none
  | .unload _ _ _ _ => none
  | .registerEmulation _ _ _ _ _ _ _ _ => none
  | .handover _ _ _ _ => none
  | .handoverCommit => none
  | .flashWrite _ _ _ _ _ => none
  | .regRead _ _ _ => none
  | .regWrite _ _ _ _ => none
  | .memWrite _ _ _ _ => none
  | .memRead _ _ _ _ => none
  | .railRegulationChange _ _ => none
  | .faultqRidxWrite _ => none
  | .pfcPauseFrame _ _ => none
  | .serviceNotOffered _ _ _ => none
  | .monitorSpuriousEnd _ _ => none

def Statement (i : Instr) : Prop := ∀ w, i.wf = true → encode i = some w → op i = some (opOfWord w)

theorem opOfWord_wordOf (n : Nat) (h : Head) (f : BitVec 49) (hn : n < 256) : opOfWord (wordOf n h f) = n := by
  have e : fld (wordOf n h f) 56 8 = BitVec.ofNat 8 n := by
    unfold fld wordOf
    apply BitVec.eq_of_getLsbD_eq
    intro i hi
    simp only [BitVec.getLsbD_extractLsb', hi, decide_true, Bool.true_and, BitVec.getLsbD_append]
    rw [if_neg (by omega), if_neg (by omega)]
    congr 1
    omega
  unfold opOfWord
  rw [e, BitVec.toNat_ofNat]
  omega

theorem of_word (i : Instr) (n : Nat) (h : Head) (f : BitVec 49) (hn : n < 256) (ho : op i = some n)
    (he : encode i = some (wordOf n h f)) : Statement i := by
  intro w _ hw
  rw [he] at hw
  cases hw
  rw [ho, opOfWord_wordOf n h f hn]

theorem of_event (i : Instr) (he : encode i = none) : Statement i := by
  intro w _ hw
  rw [he] at hw
  cases hw

theorem nop (chain : Bool) : Statement (.nop chain) := of_word _ 0 _ _ (by decide) rfl rfl
theorem br (h : Head) (f : CFmt) : Statement (.br h f) := of_word _ 0x01 _ _ (by decide) rfl rfl
theorem brx (h : Head) (f : CFmt) : Statement (.brx h f) := of_word _ 0x02 _ _ (by decide) rfl rfl
theorem call (h : Head) (f : CFmt) : Statement (.call h f) := of_word _ 0x03 _ _ (by decide) rfl rfl
theorem callx (h : Head) (f : CFmt) : Statement (.callx h f) := of_word _ 0x04 _ _ (by decide) rfl rfl
theorem ret (h : Head) (f : CFmt) : Statement (.ret h f) := of_word _ 0x05 _ _ (by decide) rfl rfl
theorem exit (h : Head) (f : CFmt) : Statement (.exit h f) := of_word _ 0x06 _ _ (by decide) rfl rfl
theorem rcv (h : Head) (f : CFmt) : Statement (.rcv h f) := of_word _ 0x07 _ _ (by decide) rfl rfl
theorem rcvRelease (blk wave : Nat) : Statement (.rcvRelease blk wave) := of_event _ rfl
theorem loop (h : Head) (f : CFmt) : Statement (.loop h f) := of_word _ 0x08 _ _ (by decide) rfl rfl
theorem brany (h : Head) (f : CFmt) : Statement (.brany h f) := of_word _ 0x09 _ _ (by decide) rfl rfl
theorem brall (h : Head) (f : CFmt) : Statement (.brall h f) := of_word _ 0x0A _ _ (by decide) rfl rfl
theorem yield (h : Head) (f : CFmt) : Statement (.yield h f) := of_word _ 0x0E _ _ (by decide) rfl rfl
theorem sleep (h : Head) (f : CFmt) : Statement (.sleep h f) := of_word _ 0x0F _ _ (by decide) rfl rfl
theorem sleepEnd (blk wave : Nat) : Statement (.sleepEnd blk wave) := of_event _ rfl
theorem trap (h : Head) (f : YFmt) : Statement (.trap h f) := of_word _ 0x0B _ _ (by decide) rfl rfl
theorem brk (h : Head) (f : YFmt) : Statement (.brk h f) := of_word _ 0x0C _ _ (by decide) rfl rfl
theorem rte (h : Head) (f : YFmt) : Statement (.rte h f) := of_word _ 0x0D _ _ (by decide) rfl rfl
theorem rteNext (h : Head) (f : YFmt) : Statement (.rteNext h f) := of_word _ 0x0D _ _ (by decide) rfl rfl
theorem sysRd (h : Head) (f : YFmt) : Statement (.sysRd h f) := of_word _ 0x10 _ _ (by decide) rfl rfl
theorem sysWr (h : Head) (f : YFmt) : Statement (.sysWr h f) := of_word _ 0x11 _ _ (by decide) rfl rfl
theorem tlbInvPage (h : Head) (f : YFmt) : Statement (.tlbInvPage h f) := of_word _ 0x12 _ _ (by decide) rfl rfl
theorem tlbInvLarge (h : Head) (f : YFmt) : Statement (.tlbInvLarge h f) := of_word _ 0x12 _ _ (by decide) rfl rfl
theorem tlbInvAsn (h : Head) (f : YFmt) : Statement (.tlbInvAsn h f) := of_word _ 0x12 _ _ (by decide) rfl rfl
theorem tlbInvAll (h : Head) (f : YFmt) : Statement (.tlbInvAll h f) := of_word _ 0x12 _ _ (by decide) rfl rfl
theorem errRdCounter (h : Head) (f : YFmt) : Statement (.errRdCounter h f) := of_word _ 0x13 _ _ (by decide) rfl rfl
theorem errRdLog (h : Head) (f : YFmt) : Statement (.errRdLog h f) := of_word _ 0x13 _ _ (by decide) rfl rfl
theorem errRdRetire (h : Head) (f : YFmt) : Statement (.errRdRetire h f) := of_word _ 0x13 _ _ (by decide) rfl rfl
theorem iclLock (h : Head) (f : MFmt) : Statement (.iclLock h f) := of_word _ 0x14 _ _ (by decide) rfl rfl
theorem iclFree (h : Head) (f : MFmt) : Statement (.iclFree h f) := of_word _ 0x15 _ _ (by decide) rfl rfl
theorem iclCount (h : Head) (f : MFmt) : Statement (.iclCount h f) := of_word _ 0x16 _ _ (by decide) rfl rfl
theorem halt (h : Head) (f : YFmt) : Statement (.halt h f) := of_word _ 0x17 _ _ (by decide) rfl rfl
theorem wvote (w : DWord) : Statement (.wvote w) := by
  intro v hw he
  cases he
  have h : (w >>> 56).toNat = 0x18 := by simpa [Instr.wf] using hw
  simp only [op, opOfWord, fld, Option.some.injEq]
  rw [BitVec.extractLsb'_toNat, ← h, BitVec.toNat_ushiftRight]
  have := w.isLt
  simp only [Nat.shiftRight_eq_div_pow]
  omega
theorem iadd (h : Head) (f : A3) : Statement (.iadd h f) := of_word _ 0x20 _ _ (by decide) rfl rfl
theorem isub (h : Head) (f : A3) : Statement (.isub h f) := of_word _ 0x21 _ _ (by decide) rfl rfl
theorem iadd64 (h : Head) (f : A3) : Statement (.iadd64 h f) := of_word _ 0x22 _ _ (by decide) rfl rfl
theorem imul (h : Head) (f : A3) : Statement (.imul h f) := of_word _ 0x23 _ _ (by decide) rfl rfl
theorem imulh (h : Head) (f : A3) : Statement (.imulh h f) := of_word _ 0x24 _ _ (by decide) rfl rfl
theorem imad (h : Head) (f : A3) : Statement (.imad h f) := of_word _ 0x25 _ _ (by decide) rfl rfl
theorem imadw (h : Head) (f : A3) : Statement (.imadw h f) := of_word _ 0x26 _ _ (by decide) rfl rfl
theorem iaddc (h : Head) (f : A3) : Statement (.iaddc h f) := of_word _ 0x27 _ _ (by decide) rfl rfl
theorem isubb (h : Head) (f : A3) : Statement (.isubb h f) := of_word _ 0x28 _ _ (by decide) rfl rfl
theorem idiv (h : Head) (f : A3) : Statement (.idiv h f) := of_word _ 0x29 _ _ (by decide) rfl rfl
theorem irem (h : Head) (f : A3) : Statement (.irem h f) := of_word _ 0x2A _ _ (by decide) rfl rfl
theorem imin (h : Head) (f : A3) : Statement (.imin h f) := of_word _ 0x2B _ _ (by decide) rfl rfl
theorem imax (h : Head) (f : A3) : Statement (.imax h f) := of_word _ 0x2C _ _ (by decide) rfl rfl
theorem iabs (h : Head) (f : A3) : Statement (.iabs h f) := of_word _ 0x2D _ _ (by decide) rfl rfl
theorem isad (h : Head) (f : A3) : Statement (.isad h f) := of_word _ 0x2E _ _ (by decide) rfl rfl
theorem idot4 (h : Head) (f : A3) : Statement (.idot4 h f) := of_word _ 0x2F _ _ (by decide) rfl rfl
theorem and (h : Head) (f : A3) : Statement (.and h f) := of_word _ 0x30 _ _ (by decide) rfl rfl
theorem or (h : Head) (f : A3) : Statement (.or h f) := of_word _ 0x31 _ _ (by decide) rfl rfl
theorem xor (h : Head) (f : A3) : Statement (.xor h f) := of_word _ 0x32 _ _ (by decide) rfl rfl
theorem andn (h : Head) (f : A3) : Statement (.andn h f) := of_word _ 0x33 _ _ (by decide) rfl rfl
theorem ltab (h : Head) (f : Tab3) : Statement (.ltab h f) := of_word _ 0x34 _ _ (by decide) rfl rfl
theorem shl (h : Head) (f : A3) : Statement (.shl h f) := of_word _ 0x35 _ _ (by decide) rfl rfl
theorem shr (h : Head) (f : A3) : Statement (.shr h f) := of_word _ 0x36 _ _ (by decide) rfl rfl
theorem sar (h : Head) (f : A3) : Statement (.sar h f) := of_word _ 0x37 _ _ (by decide) rfl rfl
theorem rot (h : Head) (f : A3) : Statement (.rot h f) := of_word _ 0x38 _ _ (by decide) rfl rfl
theorem bfe (h : Head) (f : A3) : Statement (.bfe h f) := of_word _ 0x39 _ _ (by decide) rfl rfl
theorem bfi (h : Head) (f : A3) : Statement (.bfi h f) := of_word _ 0x3A _ _ (by decide) rfl rfl
theorem popc (h : Head) (f : A3) : Statement (.popc h f) := of_word _ 0x3B _ _ (by decide) rfl rfl
theorem clz (h : Head) (f : A3) : Statement (.clz h f) := of_word _ 0x3C _ _ (by decide) rfl rfl
theorem brev (h : Head) (f : A3) : Statement (.brev h f) := of_word _ 0x3D _ _ (by decide) rfl rfl
theorem lea (h : Head) (f : A3) : Statement (.lea h f) := of_word _ 0x3E _ _ (by decide) rfl rfl
theorem movi (h : Head) (f : AI) : Statement (.movi h f) := of_word _ 0x3F _ _ (by decide) rfl rfl
theorem icmp (h : Head) (f : A3) : Statement (.icmp h f) := of_word _ 0x40 _ _ (by decide) rfl rfl
theorem fcmp (h : Head) (f : A3) : Statement (.fcmp h f) := of_word _ 0x41 _ _ (by decide) rfl rfl
theorem pand (h : Head) (f : A3) : Statement (.pand h f) := of_word _ 0x42 _ _ (by decide) rfl rfl
theorem por (h : Head) (f : A3) : Statement (.por h f) := of_word _ 0x43 _ _ (by decide) rfl rfl
theorem pxor (h : Head) (f : A3) : Statement (.pxor h f) := of_word _ 0x44 _ _ (by decide) rfl rfl
theorem pmov (h : Head) (f : A3) : Statement (.pmov h f) := of_word _ 0x45 _ _ (by decide) rfl rfl
theorem sel (h : Head) (f : A3) : Statement (.sel h f) := of_word _ 0x46 _ _ (by decide) rfl rfl
theorem ballot (h : Head) (f : A3) : Statement (.ballot h f) := of_word _ 0x47 _ _ (by decide) rfl rfl
theorem vany (h : Head) (f : A3) : Statement (.vany h f) := of_word _ 0x48 _ _ (by decide) rfl rfl
theorem vall (h : Head) (f : A3) : Statement (.vall h f) := of_word _ 0x49 _ _ (by decide) rfl rfl
theorem vmatch (h : Head) (f : A3) : Statement (.vmatch h f) := of_word _ 0x4A _ _ (by decide) rfl rfl
theorem lanes (h : Head) (f : A3) : Statement (.lanes h f) := of_word _ 0x4B _ _ (by decide) rfl rfl
theorem mov (h : Head) (f : A3) : Statement (.mov h f) := of_word _ 0x4C _ _ (by decide) rfl rfl
theorem movs (h : Head) (f : A3) : Statement (.movs h f) := of_word _ 0x4D _ _ (by decide) rfl rfl
theorem smov (h : Head) (f : A3) : Statement (.smov h f) := of_word _ 0x4E _ _ (by decide) rfl rfl
theorem sltab (h : Head) (f : Tab3) : Statement (.sltab h f) := of_word _ 0x4F _ _ (by decide) rfl rfl
theorem sadd (h : Head) (f : A3) : Statement (.sadd h f) := of_word _ 0x50 _ _ (by decide) rfl rfl
theorem ssub (h : Head) (f : A3) : Statement (.ssub h f) := of_word _ 0x51 _ _ (by decide) rfl rfl
theorem smul (h : Head) (f : A3) : Statement (.smul h f) := of_word _ 0x52 _ _ (by decide) rfl rfl
theorem sand (h : Head) (f : A3) : Statement (.sand h f) := of_word _ 0x53 _ _ (by decide) rfl rfl
theorem sor (h : Head) (f : A3) : Statement (.sor h f) := of_word _ 0x54 _ _ (by decide) rfl rfl
theorem sxor (h : Head) (f : A3) : Statement (.sxor h f) := of_word _ 0x55 _ _ (by decide) rfl rfl
theorem sshl (h : Head) (f : A3) : Statement (.sshl h f) := of_word _ 0x56 _ _ (by decide) rfl rfl
theorem sshr (h : Head) (f : A3) : Statement (.sshr h f) := of_word _ 0x57 _ _ (by decide) rfl rfl
theorem scmp (h : Head) (f : A3) : Statement (.scmp h f) := of_word _ 0x58 _ _ (by decide) rfl rfl
theorem smovi (h : Head) (f : AI) : Statement (.smovi h f) := of_word _ 0x59 _ _ (by decide) rfl rfl
theorem smin (h : Head) (f : A3) : Statement (.smin h f) := of_word _ 0x5A _ _ (by decide) rfl rfl
theorem smax (h : Head) (f : A3) : Statement (.smax h f) := of_word _ 0x5B _ _ (by decide) rfl rfl
theorem movri (h : Head) (f : A3) : Statement (.movri h f) := of_word _ 0x5C _ _ (by decide) rfl rfl
theorem movwi (h : Head) (f : A3) : Statement (.movwi h f) := of_word _ 0x5D _ _ (by decide) rfl rfl
theorem xperm (h : Head) (f : A3) : Statement (.xperm h f) := of_word _ 0x5E _ _ (by decide) rfl rfl
theorem spec (h : Head) (f : YFmt) : Statement (.spec h f) := of_word _ 0x5F _ _ (by decide) rfl rfl
theorem fadd (h : Head) (f : A3) : Statement (.fadd h f) := of_word _ 0x60 _ _ (by decide) rfl rfl
theorem fsub (h : Head) (f : A3) : Statement (.fsub h f) := of_word _ 0x61 _ _ (by decide) rfl rfl
theorem fmul (h : Head) (f : A3) : Statement (.fmul h f) := of_word _ 0x62 _ _ (by decide) rfl rfl
theorem ffma (h : Head) (f : A3) : Statement (.ffma h f) := of_word _ 0x63 _ _ (by decide) rfl rfl
theorem fmin (h : Head) (f : A3) : Statement (.fmin h f) := of_word _ 0x64 _ _ (by decide) rfl rfl
theorem fmax (h : Head) (f : A3) : Statement (.fmax h f) := of_word _ 0x65 _ _ (by decide) rfl rfl
theorem fabs (h : Head) (f : A3) : Statement (.fabs h f) := of_word _ 0x66 _ _ (by decide) rfl rfl
theorem fneg (h : Head) (f : A3) : Statement (.fneg h f) := of_word _ 0x67 _ _ (by decide) rfl rfl
theorem frcp (h : Head) (f : A3) : Statement (.frcp h f) := of_word _ 0x68 _ _ (by decide) rfl rfl
theorem fsqrt (h : Head) (f : A3) : Statement (.fsqrt h f) := of_word _ 0x69 _ _ (by decide) rfl rfl
theorem frsq (h : Head) (f : A3) : Statement (.frsq h f) := of_word _ 0x6A _ _ (by decide) rfl rfl
theorem fexp2 (h : Head) (f : A3) : Statement (.fexp2 h f) := of_word _ 0x6B _ _ (by decide) rfl rfl
theorem flog2 (h : Head) (f : A3) : Statement (.flog2 h f) := of_word _ 0x6C _ _ (by decide) rfl rfl
theorem fsinp (h : Head) (f : A3) : Statement (.fsinp h f) := of_word _ 0x6D _ _ (by decide) rfl rfl
theorem fcosp (h : Head) (f : A3) : Statement (.fcosp h f) := of_word _ 0x6E _ _ (by decide) rfl rfl
theorem sfuResult (blk wave op : Nat) : Statement (.sfuResult blk wave op) := of_event _ rfl
theorem fdiv (h : Head) (f : A3) : Statement (.fdiv h f) := of_word _ 0x6F _ _ (by decide) rfl rfl
theorem frnd (h : Head) (f : A3) : Statement (.frnd h f) := of_word _ 0x70 _ _ (by decide) rfl rfl
theorem fclass (h : Head) (f : A3) : Statement (.fclass h f) := of_word _ 0x71 _ _ (by decide) rfl rfl
theorem fscale (h : Head) (f : A3) : Statement (.fscale h f) := of_word _ 0x72 _ _ (by decide) rfl rfl
theorem fdot2 (h : Head) (f : A3) : Statement (.fdot2 h f) := of_word _ 0x73 _ _ (by decide) rfl rfl
theorem ftwosum (h : Head) (f : A3) : Statement (.ftwosum h f) := of_word _ 0x74 _ _ (by decide) rfl rfl
theorem fcpysgn (h : Head) (f : A3) : Statement (.fcpysgn h f) := of_word _ 0x75 _ _ (by decide) rfl rfl
theorem fmadFtz (h : Head) (f : A3) : Statement (.fmadFtz h f) := of_word _ 0x76 _ _ (by decide) rfl rfl
theorem cvtFf (h : Head) (f : A3) : Statement (.cvtFf h f) := of_word _ 0x80 _ _ (by decide) rfl rfl
theorem cvtFi (h : Head) (f : A3) : Statement (.cvtFi h f) := of_word _ 0x81 _ _ (by decide) rfl rfl
theorem cvtIf (h : Head) (f : A3) : Statement (.cvtIf h f) := of_word _ 0x82 _ _ (by decide) rfl rfl
theorem cvtIi (h : Head) (f : A3) : Statement (.cvtIi h f) := of_word _ 0x83 _ _ (by decide) rfl rfl
theorem cvtE8 (h : Head) (f : A3) : Statement (.cvtE8 h f) := of_word _ 0x84 _ _ (by decide) rfl rfl
theorem cvtE4 (h : Head) (f : A3) : Statement (.cvtE4 h f) := of_word _ 0x85 _ _ (by decide) rfl rfl
theorem dcvtE8 (h : Head) (f : A3) : Statement (.dcvtE8 h f) := of_word _ 0x86 _ _ (by decide) rfl rfl
theorem dcvtE4 (h : Head) (f : A3) : Statement (.dcvtE4 h f) := of_word _ 0x87 _ _ (by decide) rfl rfl
theorem qblk (h : Head) (f : A3) : Statement (.qblk h f) := of_word _ 0x88 _ _ (by decide) rfl rfl
theorem dqblk (h : Head) (f : A3) : Statement (.dqblk h f) := of_word _ 0x89 _ _ (by decide) rfl rfl
theorem qhdr (h : Head) (f : A3) : Statement (.qhdr h f) := of_word _ 0x8A _ _ (by decide) rfl rfl
theorem hchk (h : Head) (f : A3) : Statement (.hchk h f) := of_word _ 0x8B _ _ (by decide) rfl rfl
theorem pack4 (h : Head) (f : A3) : Statement (.pack4 h f) := of_word _ 0x8C _ _ (by decide) rfl rfl
theorem pack8 (h : Head) (f : A3) : Statement (.pack8 h f) := of_word _ 0x8D _ _ (by decide) rfl rfl
theorem unpk4 (h : Head) (f : A3) : Statement (.unpk4 h f) := of_word _ 0x8E _ _ (by decide) rfl rfl
theorem unpk8 (h : Head) (f : A3) : Statement (.unpk8 h f) := of_word _ 0x8F _ _ (by decide) rfl rfl
theorem fpk2 (h : Head) (f : A3) : Statement (.fpk2 h f) := of_word _ 0x90 _ _ (by decide) rfl rfl
theorem fupk2 (h : Head) (f : A3) : Statement (.fupk2 h f) := of_word _ 0x91 _ _ (by decide) rfl rfl
theorem ld (h : Head) (f : MFmt) : Statement (.ld h f) := of_word _ 0xA0 _ _ (by decide) rfl rfl
theorem ldBlk (h : Head) (f : MFmt) : Statement (.ldBlk h f) := of_word _ 0xA0 _ _ (by decide) rfl rfl
theorem st (h : Head) (f : MFmt) : Statement (.st h f) := of_word _ 0xA1 _ _ (by decide) rfl rfl
theorem stBlk (h : Head) (f : MFmt) : Statement (.stBlk h f) := of_word _ 0xA1 _ _ (by decide) rfl rfl
theorem lds (h : Head) (f : MFmt) : Statement (.lds h f) := of_word _ 0xA2 _ _ (by decide) rfl rfl
theorem sts (h : Head) (f : MFmt) : Statement (.sts h f) := of_word _ 0xA3 _ _ (by decide) rfl rfl
theorem atomAdd (h : Head) (f : MFmt) : Statement (.atomAdd h f) := of_word _ 0xA4 _ _ (by decide) rfl rfl
theorem atomMin (h : Head) (f : MFmt) : Statement (.atomMin h f) := of_word _ 0xA5 _ _ (by decide) rfl rfl
theorem atomMax (h : Head) (f : MFmt) : Statement (.atomMax h f) := of_word _ 0xA6 _ _ (by decide) rfl rfl
theorem atomAnd (h : Head) (f : MFmt) : Statement (.atomAnd h f) := of_word _ 0xA7 _ _ (by decide) rfl rfl
theorem atomOr (h : Head) (f : MFmt) : Statement (.atomOr h f) := of_word _ 0xA8 _ _ (by decide) rfl rfl
theorem atomXor (h : Head) (f : MFmt) : Statement (.atomXor h f) := of_word _ 0xA9 _ _ (by decide) rfl rfl
theorem atomXch (h : Head) (f : MFmt) : Statement (.atomXch h f) := of_word _ 0xAA _ _ (by decide) rfl rfl
theorem atomCas (h : Head) (f : MFmt) : Statement (.atomCas h f) := of_word _ 0xAB _ _ (by decide) rfl rfl
theorem atomFadd (h : Head) (f : MFmt) : Statement (.atomFadd h f) := of_word _ 0xAC _ _ (by decide) rfl rfl
theorem red (h : Head) (f : MFmt) : Statement (.red h f) := of_word _ 0xAD _ _ (by decide) rfl rfl
theorem satom (h : Head) (f : MFmt) : Statement (.satom h f) := of_word _ 0xAE _ _ (by decide) rfl rfl
theorem phaseCl (h : Head) (f : MFmt) : Statement (.phaseCl h f) := of_word _ 0xAF _ _ (by decide) rfl rfl
theorem phaseClComplete (blk wave : Nat) : Statement (.phaseClComplete blk wave) := of_event _ rfl
theorem phaseOp (h : Head) (f : MFmt) : Statement (.phaseOp h f) := of_word _ 0xB0 _ _ (by decide) rfl rfl
theorem fenceQ (h : Head) (f : MFmt) : Statement (.fenceQ h f) := of_word _ 0xB1 _ _ (by decide) rfl rfl
theorem cinv (h : Head) (f : MFmt) : Statement (.cinv h f) := of_word _ 0xB2 _ _ (by decide) rfl rfl
theorem cinvAll (h : Head) (f : MFmt) : Statement (.cinvAll h f) := of_word _ 0xB2 _ _ (by decide) rfl rfl
theorem prefetch (h : Head) (f : MFmt) : Statement (.prefetch h f) := of_word _ 0xB3 _ _ (by decide) rfl rfl
theorem mprobe (h : Head) (f : MFmt) : Statement (.mprobe h f) := of_word _ 0xB4 _ _ (by decide) rfl rfl
theorem monArm (h : Head) (f : MFmt) : Statement (.monArm h f) := of_word _ 0xB5 _ _ (by decide) rfl rfl
theorem monWait (h : Head) (f : MFmt) : Statement (.monWait h f) := of_word _ 0xB6 _ _ (by decide) rfl rfl
theorem monitorTrigger (blk wave : Nat) : Statement (.monitorTrigger blk wave) := of_event _ rfl
theorem monitorTimeout (blk wave : Nat) : Statement (.monitorTimeout blk wave) := of_event _ rfl
theorem tileDef (h : Head) (f : EFmt) : Statement (.tileDef h f) := of_word _ 0xC0 _ _ (by decide) rfl rfl
theorem tileRel (h : Head) (f : EFmt) : Statement (.tileRel h f) := of_word _ 0xC1 _ _ (by decide) rfl rfl
theorem tileWait (h : Head) (f : EFmt) : Statement (.tileWait h f) := of_word _ 0xC2 _ _ (by decide) rfl rfl
theorem tileQ (h : Head) (f : EFmt) : Statement (.tileQ h f) := of_word _ 0xC3 _ _ (by decide) rfl rfl
theorem cpLd (h : Head) (f : EFmt) : Statement (.cpLd h f) := of_word _ 0xC4 _ _ (by decide) rfl rfl
theorem cpSt (h : Head) (f : EFmt) : Statement (.cpSt h f) := of_word _ 0xC5 _ _ (by decide) rfl rfl
theorem cpGth (h : Head) (f : EFmt) : Statement (.cpGth h f) := of_word _ 0xC6 _ _ (by decide) rfl rfl
theorem cpSct (h : Head) (f : EFmt) : Statement (.cpSct h f) := of_word _ 0xC7 _ _ (by decide) rfl rfl
theorem cpHint (h : Head) (f : EFmt) : Statement (.cpHint h f) := of_word _ 0xC8 _ _ (by decide) rfl rfl
theorem cpSet (h : Head) (f : EFmt) : Statement (.cpSet h f) := of_word _ 0xC9 _ _ (by decide) rfl rfl
theorem copyBegin (core queue : Nat) : Statement (.copyBegin core queue) := of_event _ rfl
theorem copyComplete (core queue : Nat) (ecc : Ecc) : Statement (.copyComplete core queue ecc) := of_event _ rfl
theorem collAr (h : Head) (f : EFmt) : Statement (.collAr h f) := of_word _ 0xD4 _ _ (by decide) rfl rfl
theorem collBc (h : Head) (f : EFmt) : Statement (.collBc h f) := of_word _ 0xD5 _ _ (by decide) rfl rfl
theorem collWait (h : Head) (f : EFmt) : Statement (.collWait h f) := of_word _ 0xD6 _ _ (by decide) rfl rfl
theorem collBegin (core queue : Nat) : Statement (.collBegin core queue) := of_event _ rfl
theorem collComplete (core queue : Nat) (mismatch lost : Bool) : Statement (.collComplete core queue mismatch lost) := of_event _ rfl
theorem convDecl (h : Head) (f : EFmt) : Statement (.convDecl h f) := of_word _ 0xCA _ _ (by decide) rfl rfl
theorem mma (h : Head) (f : EFmt) : Statement (.mma h f) := of_word _ 0xCB _ _ (by decide) rfl rfl
theorem mmaG (h : Head) (f : EFmt) : Statement (.mmaG h f) := of_word _ 0xCC _ _ (by decide) rfl rfl
theorem signingRoundComplete (blk conv : Nat) : Statement (.signingRoundComplete blk conv) := of_event _ rfl
theorem mmaKstep (blk acc : Nat) : Statement (.mmaKstep blk acc) := of_event _ rfl
theorem mmaWait (h : Head) (f : EFmt) : Statement (.mmaWait h f) := of_word _ 0xCD _ _ (by decide) rfl rfl
theorem accZero (h : Head) (f : EFmt) : Statement (.accZero h f) := of_word _ 0xCE _ _ (by decide) rfl rfl
theorem accLd (h : Head) (f : EFmt) : Statement (.accLd h f) := of_word _ 0xCF _ _ (by decide) rfl rfl
theorem accSt (h : Head) (f : EFmt) : Statement (.accSt h f) := of_word _ 0xD0 _ _ (by decide) rfl rfl
theorem accStq (h : Head) (f : EFmt) : Statement (.accStq h f) := of_word _ 0xD1 _ _ (by decide) rfl rfl
theorem accFlg (h : Head) (f : EFmt) : Statement (.accFlg h f) := of_word _ 0xD2 _ _ (by decide) rfl rfl
theorem accFclr (h : Head) (f : EFmt) : Statement (.accFclr h f) := of_word _ 0xD3 _ _ (by decide) rfl rfl
theorem accCommandPerform (blk acc : Nat) : Statement (.accCommandPerform blk acc) := of_event _ rfl
theorem mma8 (w : DWord) : Statement (.mma8 w) := by
  intro v hw he
  cases he
  have h : (w >>> 56).toNat = 0xD8 := by simpa [Instr.wf] using hw
  simp only [op, opOfWord, fld, Option.some.injEq]
  rw [BitVec.extractLsb'_toNat, ← h, BitVec.toNat_ushiftRight]
  have := w.isLt
  simp only [Nat.shiftRight_eq_div_pow]
  omega
theorem bar (h : Head) (f : YFmt) : Statement (.bar h f) := of_word _ 0xE0 _ _ (by decide) rfl rfl
theorem barn (h : Head) (f : YFmt) : Statement (.barn h f) := of_word _ 0xE1 _ _ (by decide) rfl rfl
theorem bara (h : Head) (f : YFmt) : Statement (.bara h f) := of_word _ 0xE2 _ _ (by decide) rfl rfl
theorem barw (h : Head) (f : YFmt) : Statement (.barw h f) := of_word _ 0xE3 _ _ (by decide) rfl rfl
theorem barrierPhaseComplete (blk : Nat) (bar : BarName) : Statement (.barrierPhaseComplete blk bar) := of_event _ rfl
theorem progAdd (h : Head) (f : AI) : Statement (.progAdd h f) := of_word _ 0xE4 _ _ (by decide) rfl rfl
theorem idemEnd (h : Head) (f : YFmt) : Statement (.idemEnd h f) := of_word _ 0xE5 _ _ (by decide) rfl rfl
theorem shfPut (h : Head) (f : EFmt) : Statement (.shfPut h f) := of_word _ 0xE6 _ _ (by decide) rfl rfl
theorem shfPutArrive (put : Nat) : Statement (.shfPutArrive put) := of_event _ rfl
theorem shfTake (h : Head) (f : EFmt) : Statement (.shfTake h f) := of_word _ 0xE7 _ _ (by decide) rfl rfl
theorem shfTakeReturn (blk wave : Nat) : Statement (.shfTakeReturn blk wave) := of_event _ rfl
theorem shfWait (h : Head) (f : EFmt) : Statement (.shfWait h f) := of_word _ 0xE8 _ _ (by decide) rfl rfl
theorem shfOpen (h : Head) (f : EFmt) : Statement (.shfOpen h f) := of_word _ 0xE9 _ _ (by decide) rfl rfl
theorem shfDone (h : Head) (f : EFmt) : Statement (.shfDone h f) := of_word _ 0xEA _ _ (by decide) rfl rfl
theorem stillwaterQuiet (group : Nat) : Statement (.stillwaterQuiet group) := of_event _ rfl
theorem cancelBlk (h : Head) (f : YFmt) : Statement (.cancelBlk h f) := of_word _ 0xEB _ _ (by decide) rfl rfl
theorem cancelGrid (h : Head) (f : YFmt) : Statement (.cancelGrid h f) := of_word _ 0xEB _ _ (by decide) rfl rfl
theorem cancelGraph (h : Head) (f : YFmt) : Statement (.cancelGraph h f) := of_word _ 0xEB _ _ (by decide) rfl rfl
theorem cancelJob (h : Head) (f : YFmt) : Statement (.cancelJob h f) := of_word _ 0xEB _ _ (by decide) rfl rfl
theorem tickRd (h : Head) (f : YFmt) : Statement (.tickRd h f) := of_word _ 0xEC _ _ (by decide) rfl rfl
theorem clk (h : Head) (f : YFmt) : Statement (.clk h f) := of_word _ 0xED _ _ (by decide) rfl rfl
theorem loadResult (req : Nat) (ecc : Ecc) : Statement (.loadResult req ecc) := of_event _ rfl
theorem writePerform (req : Nat) (ecc : Ecc) : Statement (.writePerform req ecc) := of_event _ rfl
theorem fetchFault (blk wave : Nat) : Statement (.fetchFault blk wave) := of_event _ rfl
theorem blockRetire (blk : Nat) : Statement (.blockRetire blk) := of_event _ rfl
theorem gridComplete (grid : Nat) : Statement (.gridComplete grid) := of_event _ rfl
theorem commandFrame (f : FrameHead) (queue offset : Nat) (payload : List DWord) : Statement (.commandFrame f queue offset payload) := of_event _ rfl
theorem launch (queue : Nat) : Statement (.launch queue) := of_event _ rfl
theorem wait (queue : Nat) : Statement (.wait queue) := of_event _ rfl
theorem waitSatisfied (queue : Nat) : Statement (.waitSatisfied queue) := of_event _ rfl
theorem signal (queue : Nat) : Statement (.signal queue) := of_event _ rfl
theorem cancel (queue : Nat) : Statement (.cancel queue) := of_event _ rfl
theorem bind (queue : Nat) : Statement (.bind queue) := of_event _ rfl
theorem tickalign (queue : Nat) : Statement (.tickalign queue) := of_event _ rfl
theorem close (queue : Nat) : Statement (.close queue) := of_event _ rfl
theorem tickBoundary : Statement (.tickBoundary) := of_event _ rfl
theorem dispatchTakeGrid : Statement (.dispatchTakeGrid) := of_event _ rfl
theorem blockPlace : Statement (.blockPlace) := of_event _ rfl
theorem backfill (behind : Nat) : Statement (.backfill behind) := of_event _ rfl
theorem weirRun : Statement (.weirRun) := of_event _ rfl
theorem saveImageWrite (blk : Nat) : Statement (.saveImageWrite blk) := of_event _ rfl
theorem resumeIssue (blk : Nat) : Statement (.resumeIssue blk) := of_event _ rfl
theorem portRefill : Statement (.portRefill) := of_event _ rfl
theorem portSend (core : Nat) (ecc : Ecc) : Statement (.portSend core ecc) := of_event _ rfl
theorem reedDemote (stack frame leaf : Nat) : Statement (.reedDemote stack frame leaf) := of_event _ rfl
theorem heldWriteCommit (line : Nat) : Statement (.heldWriteCommit line) := of_event _ rfl
theorem pageMoveComplete (frame : Nat) : Statement (.pageMoveComplete frame) := of_event _ rfl
theorem moveStart (value : DWord) : Statement (.moveStart value) := of_event _ rfl
theorem l2FlushStart (value : DWord) : Statement (.l2FlushStart value) := of_event _ rfl
theorem l2FlushDone : Statement (.l2FlushDone) := of_event _ rfl
theorem t2FreePush (value : DWord) : Statement (.t2FreePush value) := of_event _ rfl
theorem t2FreeCountWrite (value : DWord) : Statement (.t2FreeCountWrite value) := of_event _ rfl
theorem poolThresholdWrite (high : Bool) (stack : Nat) (value : DWord) : Statement (.poolThresholdWrite high stack value) := of_event _ rfl
theorem faultAckRetry (fault : Nat) : Statement (.faultAckRetry fault) := of_event _ rfl
theorem faultAckFatal (fault : Nat) : Statement (.faultAckFatal fault) := of_event _ rfl
theorem faultqBaseWrite (value : DWord) : Statement (.faultqBaseWrite value) := of_event _ rfl
theorem faultqSizeWrite (value : DWord) : Statement (.faultqSizeWrite value) := of_event _ rfl
theorem shfCfgWrite (group : Nat) (value : DWord) : Statement (.shfCfgWrite group value) := of_event _ rfl
theorem tenCfgWrite (tenancy : Nat) (value : DWord) : Statement (.tenCfgWrite tenancy value) := of_event _ rfl
theorem collCfgWrite (group : Nat) (map : Option Nat) (value : DWord) : Statement (.collCfgWrite group map value) := of_event _ rfl
theorem granaryChunksWrite (value : DWord) : Statement (.granaryChunksWrite value) := of_event _ rfl
theorem moduleNumWrite (value : DWord) : Statement (.moduleNumWrite value) := of_event _ rfl
theorem qdescBaseWrite (value : DWord) : Statement (.qdescBaseWrite value) := of_event _ rfl
theorem fabRouteWrite (module path : Nat) (value : DWord) : Statement (.fabRouteWrite module path value) := of_event _ rfl
theorem powerLimitWrite (value : DWord) : Statement (.powerLimitWrite value) := of_event _ rfl
theorem tickPeriodWrite (value : DWord) : Statement (.tickPeriodWrite value) := of_event _ rfl
theorem dumpRelease : Statement (.dumpRelease) := of_event _ rfl
theorem registerWrite (offset : Nat) (value : DWord) : Statement (.registerWrite offset value) := of_event _ rfl
theorem powerSample (watts : Nat) : Statement (.powerSample watts) := of_event _ rfl
theorem powerOverlimitFault : Statement (.powerOverlimitFault) := of_event _ rfl
theorem temperatureSample (hottest : Nat) : Statement (.temperatureSample hottest) := of_event _ rfl
theorem railOutOfWindow (rail : Nat) : Statement (.railOutOfWindow rail) := of_event _ rfl
theorem resetAssert : Statement (.resetAssert) := of_event _ rfl
theorem resetRelease (cfg : SignedConfig) (presented : Nat) : Statement (.resetRelease cfg presented) := of_event _ rfl
theorem fatalError (reason arg : Nat) : Statement (.fatalError reason arg) := of_event _ rfl
theorem scrubRead (read : LineRead) : Statement (.scrubRead read) := of_event _ rfl
theorem unitFence (unit : FenceUnit) (number : Nat) : Statement (.unitFence unit number) := of_event _ rfl
theorem fabricSequence (port : Nat) (bytes : List Byte) : Statement (.fabricSequence port bytes) := of_event _ rfl
theorem portRetrain (port lanes : Nat) : Statement (.portRetrain port lanes) := of_event _ rfl
theorem fabricRead (p : FabPacket) (ecc : Ecc) : Statement (.fabricRead p ecc) := of_event _ rfl
theorem fabricWrite (p : FabPacket) (ecc : Ecc) : Statement (.fabricWrite p ecc) := of_event _ rfl
theorem fabricAtomic (p : FabPacket) (ecc : Ecc) : Statement (.fabricAtomic p ecc) := of_event _ rfl
theorem fabricReply (p : FabPacket) : Statement (.fabricReply p) := of_event _ rfl
theorem marker (p : FabPacket) : Statement (.marker p) := of_event _ rfl
theorem markerAck (p : FabPacket) : Statement (.markerAck p) := of_event _ rfl
theorem fabricSession (port : Nat) (p : FabPacket) : Statement (.fabricSession port p) := of_event _ rfl
theorem fabricColl (p : FabPacket) : Statement (.fabricColl p) := of_event _ rfl
theorem hello (port : Option Nat) (m : HelloMsg) : Statement (.hello port m) := of_event _ rfl
theorem key (port : Option Nat) (m : KeyMsg) : Statement (.key port m) := of_event _ rfl
theorem rekey (f : FrameHead) (nonce cipher : List Byte) : Statement (.rekey f nonce cipher) := of_event _ rfl
theorem sessionClose (f : FrameHead) : Statement (.sessionClose f) := of_event _ rfl
theorem attest (f : FrameHead) (id : Nat) (nonce : List Byte) : Statement (.attest f id nonce) := of_event _ rfl
theorem mapQueue (f : FrameHead) (id queue : Nat) : Statement (.mapQueue f id queue) := of_event _ rfl
theorem unmapQueue (f : FrameHead) (id queue : Nat) : Statement (.unmapQueue f id queue) := of_event _ rfl
theorem load (f : FrameHead) (id asn va size : Nat) : Statement (.load f id asn va size) := of_event _ rfl
theorem unload (f : FrameHead) (id asn va : Nat) : Statement (.unload f id asn va) := of_event _ rfl
theorem registerEmulation (f : FrameHead) (id asn bit va offset vregs sregs : Nat) : Statement (.registerEmulation f id asn bit va offset vregs sregs) := of_event _ rfl
theorem handover (f : FrameHead) (id : Nat) (slot rest : Word) : Statement (.handover f id slot rest) := of_event _ rfl
theorem handoverCommit : Statement (.handoverCommit) := of_event _ rfl
theorem flashWrite (f : FrameHead) (id slot offset : Nat) (data : List Byte) : Statement (.flashWrite f id slot offset data) := of_event _ rfl
theorem regRead (f : FrameHead) (id offset : Nat) : Statement (.regRead f id offset) := of_event _ rfl
theorem regWrite (f : FrameHead) (id offset : Nat) (value : DWord) : Statement (.regWrite f id offset value) := of_event _ rfl
theorem memWrite (f : FrameHead) (id address : Nat) (data : List Byte) : Statement (.memWrite f id address data) := of_event _ rfl
theorem memRead (f : FrameHead) (id address length : Nat) : Statement (.memRead f id address length) := of_event _ rfl
theorem railRegulationChange (rail : Nat) (inWindow : Bool) : Statement (.railRegulationChange rail inWindow) := of_event _ rfl
theorem faultqRidxWrite (value : DWord) : Statement (.faultqRidxWrite value) := of_event _ rfl
theorem pfcPauseFrame (priorities : BitVec 8) (quanta : Nat) : Statement (.pfcPauseFrame priorities quanta) := of_event _ rfl
theorem serviceNotOffered (f : FrameHead) (id service : Nat) : Statement (.serviceNotOffered f id service) := of_event _ rfl
theorem monitorSpuriousEnd (blk wave : Nat) : Statement (.monitorSpuriousEnd blk wave) := of_event _ rfl

end Sys2Proof.Laws.OpByte
end

