-- ==== Sys2Proof/Tests/Slice0.lean ====
section
/-! SUPPORT. Tests/Slice0.lean: small tests of the model, with expected results worked out by hand from the spec's tables, and
for each obligation with hypotheses, states and operands that meet them (theorems named wit_<obligation or part>). -/

namespace Sys2Proof.Tests

set_option Elab.async false

open Sys2Proof.Machine Sys2Proof.Claims

/-! ### Small states -/

/-- A grid of one block of 64 threads: two waves. -/
def tGrid (svc : Bool) : Grid := { putGrid 0x2000 with bdim := (64, 1, 1), service := svc, job := 7 }
/-- Its placement on core 0, every unit cleared. -/
def tPlace : Placement :=
  { putPlacement with vclear := [List.replicate 256 true, List.replicate 256 true],
                      sclear := [List.replicate 64 true, List.replicate 64 true] }
def tBlock (svc : Bool) : Block := Block.start 0 (tGrid svc) 0 tPlace 0
/-- Wave `w` of block 0 issues its first word; the predicates of lane 0 are `p0`. -/
def tCur (svc : Bool) (w : Nat) : Cur :=
  { blk := 0, wave := w, pc := 0x10000, slot := 0, word := 0, flag := 1, lanes := 0xFFFFFFFF,
    v := ((tBlock svc).waves.headD (Wave.start 0 0 0 false ⟨[], [], 0⟩ ⟨[], [], 0⟩)).v,
    s := ((tBlock svc).waves.headD (Wave.start 0 0 0 false ⟨[], [], 0⟩ ⟨[], [], 0⟩)).s,
    preds := List.replicate 32 0, opBase := 1 }
/-- A running module with that block, whose wave 0 issues. -/
def tState (svc : Bool) : State :=
  { State.reset with startup := 4, resetLow := false, clock := 5000, blocks := [(0, tBlock svc)], grids := [(0, tGrid svc)],
                     cur := some (tCur svc 0) }
/-- The same with edits of the block, of wave 0 and of the issue's scalar registers. -/
def State.withBlock (s : State) (f : Block → Block) : State := s.updBlock 0 f
def State.withWave (s : State) (f : Wave → Wave) : State := s.updWave 0 0 f
def State.withScalars (s : State) (cells : Tbl Word) : State :=
  { s with cur := s.cur.map (fun c => { c with s := { c.s with cells := cells } }) }
def State.withVectors (s : State) (cells : Tbl Word) : State :=
  { s with cur := s.cur.map (fun c => { c with v := { c.v with cells := cells } }) }
def tu : State := tState false
def ts : State := tState true

def plain : Head := { guard := none, chain := false }
/-- Guarded by p0, which no lane holds: no active thread. -/
def never : Head := { guard := some { neg := false, p := 0 }, chain := false }

/-- The instruction is being issued with a context that satisfies `p`. -/
def at_ (s : State) (p : Ctx → Bool) : Bool := (s.ctx plain).any p
/-- Every register named stands below its declared count. -/
def Ctx.names (x : Ctx) (us : List RegUse) : Bool := firstBeyond x.blk.kern us == none
/-- Issued by active threads, with the registers of each list declared. -/
def issued (uss : List (List RegUse)) : Bool := at_ tu (fun x => x.act != 0 && uss.all (fun us => Ctx.names x us))

/-- Operands at the top of the register files. -/
def f3 (ty c : Nat) : A3 :=
  { d := 254, a := 254, b := .vec 254 .none 0, c := BitVec.ofNat 8 c, ty := BitVec.ofNat 3 ty, rm := .rne, sat := true }
def s3 (ty c : Nat) : A3 := { f3 ty c with d := 62, a := 62, b := .scal 62 }
def p3 (ty c : Nat) : A3 := { f3 ty c with d := 15, a := 15 }
def tab : Tab3 := { d := 254, a := 254, b := 254, c := 254, ty := 2, scalB := false, tab := 0x96 }
def yf (d a n : Nat) : YFmt := { d := BitVec.ofNat 8 d, a := BitVec.ofNat 8 a, sysno := BitVec.ofNat 16 n }

/-! ### Witnesses: register instructions -/

theorem wit_IntegerArithmeticResults : issued [intUses (rowInt allTys true) (f3 2 0),
    intUses { rowInt allTys true with c := .vT } (f3 3 254), intUses (rowInt [0, 2, 4, 6] true).noB (f3 2 0)] = true := by decide
theorem wit_WideningResults : issued [intUses (rowInt [0, 1] false) (f3 0 0),
    intUses { rowInt [0, 1] true with d := .v2, c := .v2 } (f3 1 254),
    intUses { (rowInt [0, 1] false).single with d := .v2, a := .v2, c := .n 63 } (f3 1 63)] = true := by decide
theorem wit_CarryResults : issued [intUses { rowInt [1] false with c := .p } (f3 1 15)] = true := by decide
theorem wit_DivisionAndSumResults : issued [intUses (rowInt [0, 1, 2, 3] true) (f3 3 0),
    intUses { rowInt [0, 1, 4, 5, 6, 7] true with c := .v } (f3 7 255), intUses { rowInt [6, 7] true with c := .v } (f3 6 255)] = true := by
  decide
theorem wit_LogicAndShiftResults : issued [intUses (rowInt [0, 2] false) (f3 2 0), tabUses true tab,
    intUses (rowInt [0, 2] false).single (f3 0 0), intUses (rowInt [0, 2] false).single (f3 2 0)] = true := by decide
theorem wit_BitFieldResults : issued [intUses (rowInt [0, 1] false) (f3 1 0),
    intUses { (rowInt [0] false).noImm with c := .v } (f3 0 255), intUses { (rowInt [0, 2] false).noB with d := .v } (f3 2 0)] = true := by
  decide
theorem wit_MoveResults : issued [[.v 254 2], [.s 62 2], intUses { rowInt [0, 2] false with a := .zero } (f3 2 0),
    intUses { rowScal [0, 2] false with a := .zero } (s3 2 0),
    intUses { (rowInt [0, 2] false).noB with d := .sT, c := .n 31 } { f3 2 31 with d := 62 }] = true := by decide
theorem wit_ComparisonResults : issued [intUses { rowInt [0, 1, 2, 3] false with d := .p, c := .n 5 } { f3 3 5 with d := 15 },
    intUses { rowScal [0, 1, 2, 3] false with d := .p, c := .n 5 } { s3 3 5 with d := 15 },
    fltUses { (rowFlt [0, 1, 2] false).noImm with d := .p, c := .n 7 } { f3 2 7 with d := 15 }] = true := by decide
theorem wit_PredicateLogicResults : issued [intUses rowPred (p3 0 3), intUses { rowPred.noB with c := .n 1 } (p3 0 1),
    intUses { rowInt [0, 2] false with c := .p } (f3 2 15)] = true := by decide
theorem wit_VoteResults : issued [[.s 63 1], [], intUses { (rowInt [0, 2] false).noB with d := .v } (f3 2 0)] = true := by decide
theorem wit_ScalarResults : issued [intUses (rowScal [0, 1, 2, 3] true) (s3 3 0), intUses (rowScal [0, 2] false) (s3 2 0),
    intUses { rowScal [0, 2] false with bS := some .s } (s3 2 0), tabUses false { tab with d := 62, a := 62, b := 62, c := 62 }] = true := by
  decide
/-- A computed index at the last register: base 254 plus 1, below the declared 256. -/
theorem wit_ComputedIndexResults : at_ tu (fun x =>
    let f : A3 := { f3 0 255 with b := .imm 1 }
    x.act != 0 && Ctx.names x (intUses (rowInt [0] false) f) && Ctx.names x (intUses { rowInt [0] false with a := .zero, c := .v } f) &&
    laneList.all (fun l => decide (f.a.toNat + (loOf (bitB1 f x l)).toNat < x.blk.kern.vregs ∧
      f.d.toNat + (loOf (bitB1 f x l)).toNat < x.blk.kern.vregs))) = true := by decide
theorem wit_SpecialValueResults : at_ tu (fun x => x.act != 0 && Ctx.names x [.v 254 2] && Ctx.names x [.s 62 2] &&
    Ctx.names x (YFmt.manyUses (yf 252 0 0) 4) && Ctx.names x (YFmt.manyUses (yf 62 1 0) 2) &&
    x.wv.busy.all (fun e => x.c.opBase ≤ e.2)) = true := by decide
theorem wit_FloatArithmeticResults : issued [fltUses (rowFlt fltTys true) (f3 0 0),
    fltUses { rowFlt fltTys true with c := .v } (f3 4 255), fltUses (rowFlt fltTys false).noB (f3 4 0)] = true := by decide
theorem wit_FloatFunctionResults : issued [fltUses (rowFlt [0, 1, 2] true) (f3 2 0),
    fltUses { (rowFlt [3, 4] true).noImm with c := .v } (f3 4 255), fltUses { rowFlt [0] false with d := .v2 } (f3 0 0),
    fltUses { rowFlt [0] false with c := .v } (f3 0 255)] = true := by decide
theorem wit_ConversionResults : issued [fltUses { (rowFlt [0, 1, 2] true).noB with sat := true, c := .n 2 } (f3 2 2),
    fltUses { (rowFlt [0, 1, 2] true).noB with sat := true, c := .n 7, a := .v2 } (f3 2 3),
    intUses { (rowFlt allTys true).noB with d := .vT, c := .n 2 } (f3 3 2), intUses { (rowInt allTys true).noB with c := .n 7 } (f3 3 7),
    fltUses { rowFlt [3, 4] true with sat := true } (f3 4 0), fltUses { (rowFlt [3, 4] false).noB with c := .n 1 } (f3 3 1),
    fltUses { rowFlt [0] false with c := .n 7 } (f3 0 7), fltUses { rowFlt [0] false with c := .n 3 } (f3 0 3)] = true := by decide
/-- Both clauses: headers of 0 pass in every lane, and a header of 0xFFFF fails in lane 31 alone (R303). -/
theorem wit_HeaderConversionResults : (at_ tu (fun x => x.act != 0 && Ctx.names x (fltUses (rowFlt [0, 1, 2] false).noImm (f3 2 0)) &&
      laneList.all (fun l => hdrOk ((loOf (bitB1 (f3 2 0) x l)).toNat % 65536))) &&
    at_ (State.withVectors tu [(32 * 254 + 31, 0xFFFF)]) (fun x =>
      laneList.all (fun l => hdrOk ((loOf (bitB1 (f3 2 0) x l)).toNat % 65536) == decide (l ≠ 31)))) = true := by decide
theorem wit_BlockQuantiseResults : (blkLenOk (f3 0 15) &&
    issued [fltUses { (rowFlt [0, 3, 4] false).noB with d := .v2, c := .n 127 } (f3 4 15),
      fltUses { (rowFlt [0, 3, 4] true).noImm with bS := none, pp := false, c := .n 127 } (f3 0 15)] && hdrOk 0) = true := by decide
theorem wit_LongLatencyResults : issued [intUses (rowInt [0, 2] false).single (f3 2 0),
    fltUses (rowFlt [0, 1, 2] true).noB (f3 2 0)] = true := by decide
/-- A result for the first and the last lane, of two registers each. -/
theorem wit_LongLatencyResults_return :
    let o : SfuOp := { id := 9, dst := 254, regs := 2, lanes := 0x80000001, vals := [(0, 1), (31, 2)], clobbered := [] }
    ((State.withWave tu (fun v => { v with sfu := [o] })).wave 0 0).any (fun v => v.sfu.find? (fun p => p.id = 9) == some o &&
      decide ((o.vals.map Prod.fst).Nodup ∧ ∀ e ∈ o.vals, e.1 < 32)) = true := by decide

/-! ### Witnesses: control flow, traps, system registers -/

/-- A target within R115's bounds. -/
def good (a : Int) : Bool := decide (0 ≤ a ∧ (a < 2 ^ 55 ∨ (2 ^ 64 - 2 ^ 55 ≤ a ∧ a < 2 ^ 64)) ∧ a % 32 = 0)
def cf (d a : Nat) (off : Int) : CFmt := { d := BitVec.ofNat 8 d, a := BitVec.ofNat 8 a, offp := BitVec.ofInt 32 off }
/-- A scalar pair s0 of this value. -/
def pair (v : Nat) : Tbl Word := [(0, BitVec.ofNat 32 v), (1, BitVec.ofNat 32 (v / 2 ^ 32))]

/-- A branch back by the packet's own address, the farthest that stays at 0 or above; indirect targets at both edges of the
canonical range; a link pair that is the last one declared. -/
theorem wit_TransferResults : (at_ tu (fun x => x.act != 0 && good (relTarget x (cf 254 0 (-2048))) && Ctx.names x [.v 254 2] &&
      laneList.all (fun l => good (pairTarget x (cf 254 0 0) l)) && Ctx.names x [.v 254 2, targetUse (cf 254 0 0)]) &&
    [2 ^ 55 - 32, 2 ^ 64 - 2 ^ 55, 2 ^ 64 - 32].all (fun v => at_ (State.withScalars tu (pair v)) (fun x =>
      good (pairTarget x (cf 254 0 1) 0) && Ctx.names x [targetUse (cf 254 0 1)]))) = true := by decide
/-- A count of 1 ends the loop, 2 branches and 0 wraps. -/
theorem wit_LoopResults : ([0, 1, 2].all (fun n => at_ (State.withScalars tu [(63, n)]) (fun x =>
    x.act != 0 && Ctx.names x [.s 63 1] && good (relTarget x (cf 0 63 1)))) && (tu.ctx never).any (fun x => x.act == 0)) = true := by decide
/-- The first value beyond the canonical range in every lane, and a target of 8. -/
theorem wit_TransferTraps : ([2 ^ 55, 2 ^ 64 - 2 ^ 55 - 32].all (fun v => at_ (State.withScalars tu (pair v)) (fun x =>
      x.act != 0 && Ctx.names x [targetUse (cf 0 0 1)] && !good (pairTarget x (cf 0 0 1) 0) && v % 32 == 0)) &&
    at_ (State.withScalars tu (pair 8)) (fun x => decide (pairTarget x (cf 0 0 1) 0 % 32 = 8))) = true := by decide
def thread0 : Thread := Thread.start 0x10000 true
theorem wit_PacketEnd : (thread0.ret == none && ({ thread0 with ret := some (0x10020, 2) } : Thread).ret == some (0x10020, 2) &&
    ({ thread0 with exiting := true } : Thread).st != .parked) = true := by decide
theorem wit_WaitAndSleepResults : (at_ tu (fun x => x.act != 0) && (tu.ctx never).any (fun x => x.act == 0) &&
    ((State.withWave tu (fun v => { v with sleep := some 5000 })).wave 0 0).any (fun v => v.sleep == some 5000 && decide (5000 ≤ tu.clock))) =
    true := by decide

/-- The kernel of block 0 has a handler; lane 31 takes a trap. -/
def handled : State := State.withBlock tu (fun b => { b with kern := { b.kern with handler := some 0x11000 } })
def trapAt (set : Lanes) : TrapInfo :=
  { code := 0x0D, sub := 3, pc := 0x10008, addr := 0, kstep := 0, lanes := set, set := set, whole := true, feat := 0, defer := false }
theorem wit_TrapEntry : ((handled.block 0).any (fun p => (p.wave 0).any (fun v =>
    v.trapSet == none && v.cancels.isEmpty && v.monWait.isEmpty && decide (31 < v.threads.length) && hasLane 0x80000000 31 &&
    v.threads.all (fun t => !t.inHandler) && handled.entryFor p (trapAt 0x80000000) == some 0x11000))) = true := by decide
/-- All three cases: a thread in the handler, no handler, and a wave that holds a trap. -/
theorem wit_TrapWithoutEntry : ((tu.block 0).any (fun p => !p.cancelled && p.aborted == none && p.kern.handler == none) &&
    ((State.withWave tu (fun v => v.updLanes 1 (fun t => { t with inHandler := true }))).wave 0 0).any (fun v =>
      (v.threads[0]?).any (fun t => t.inHandler)) &&
    ((State.withWave tu (fun v => { v with trapSet := some 1 })).wave 0 0).any (fun v =>
      v.trapSet == some 1 && v.threads.all (fun t => !t.inHandler))) = true := by decide
/-- User privilege, and a kernel that declares 8 vector and 8 scalar registers: register 8 is the first beyond. -/
def few : State := State.withBlock tu (fun b => { b with kern := { b.kern with vregs := 8, sregs := 8 } })
theorem wit_DecodeTraps : at_ few (fun x => !x.blk.service && decide (x.blk.kern.vregs ≤ 8 ∧ x.blk.kern.sregs ≤ 8) &&
    !Ctx.names x [.v 8 1] && Ctx.names x [.v 7 1]) = true := by decide
/-- An object at va 0 that binds feature bits 7 and 11. -/
def bound : State :=
  { tu with objects := [{ asn := 0, va := 0, size := 128, kdesc := 0, kcount := 1, code := 0, binds := [(7, 0x20000), (11, 0x20000)],
                          measured := false }] }
theorem wit_RetiredEncodings : (at_ tu (fun x => x.act != 0) && (tu.binding 0 0 7).isNone && (bound.binding 0 0 7).isSome &&
    (bound.binding 0 0 11).isSome) = true := by decide
/-- With U = 1 the pair s62, s63 is named. -/
theorem wit_SoftwareTraps : (at_ tu (fun x => x.act != 0 && Ctx.names x (trapUses (yf 0 62 0x1FF))) &&
    (tu.ctx never).any (fun x => x.act == 0 && Ctx.names x (trapUses (yf 0 0 0)))) = true := by decide
/-- In the handler, with a TRAP_PC in each of the four words of a packet, up to the last canonical packet. -/
theorem wit_ReturnFromTrap : [0x10000, 0x10008, 0x10010, 0x10018, 2 ^ 55 - 8].all (fun v =>
    at_ (State.withWave tu (fun w => { w.updLanes 0xFFFFFFFF (fun t => { t with inHandler := true }) with tpc := BitVec.ofNat 64 v })) (fun x =>
      x.act != 0 && laneList.all (fun l => (x.wv.threads[l]?).any (fun t => t.inHandler)) && canonicalNat x.wv.tpc.toNat &&
      x.wv.tpc.toNat % 8 == 0)) = true := by decide
theorem wit_SystemRegisterResults : (at_ ts (fun x => x.act != 0 && x.blk.service && Ctx.names x [.s 63 1] && Ctx.names x [.s 62 2])) = true ∧
    (yf 63 0 0x32).sysno.toNat = 0x32 ∧ (yf 62 0 0x2F).sysno.toNat = 0x2F ∧ (yf 63 0 0x1F).sysno.toNat = 0x1F ∧ (yf 62 0 0x2B).sysno.toNat = 0x2B ∧
    Counts 11 ∧ ¬ Counts 15 ∧ sysService 1 = false := by decide
theorem wit_TlbInvalidation : (at_ ts (fun x => x.act != 0 && x.blk.service && Ctx.names x [.s 63 1, .s 62 2]) &&
    (ts.ctx never).any (fun x => x.act == 0 && x.blk.service)) = true := by decide
/-- The log both empty and with a record; s0 names each of the record's words. -/
theorem wit_ErrorReadResults : (at_ ts (fun x => x.act != 0 && x.blk.service && Ctx.names x [.s 62 2, .s 0 1]) && ts.health.log.isEmpty &&
    ({ ts.health with log := [⟨1, 2, 3, 4, 5, 6, 7, 8⟩] } : Health).log.length == 1 &&
    [0, 1, 2, 3].all (fun n => at_ (State.withScalars ts [(0, n)]) (fun x => (x.scal 0).toNat % 4 == n.toNat))) = true := by decide

/-! ### Witnesses: caches and memory -/

/-- Tables that map one page at 0x10000, as `withFetchWord` lays them out. -/
def mapped (svc : Bool) : State := { tState svc with mem := (State.reset.putWord 0).mem }
def tm : State := mapped true
def mf (d a b : Nat) (ak : Bool) (sc wd ht off : Nat) : MFmt :=
  { d := BitVec.ofNat 8 d, a := BitVec.ofNat 8 a, b := BitVec.ofNat 8 b, ak := ak, sc := BitVec.ofNat 2 sc, wd := BitVec.ofNat 3 wd,
    ht := BitVec.ofNat 3 ht, off := BitVec.ofNat 16 off }
/-- Vector pair v2 of lane l holds the address `a` + `n` × l. -/
def lanesAt (a n : Nat) : Tbl Word := laneList.map (fun l => (64 + l, BitVec.ofNat 32 (a + n * l)))
/-- Every access passes the checks of R188 at memory. -/
def passes (s : State) (x : Ctx) (need : Need) (ws : List Want) : Bool :=
  ws.length != 0 && ws.all (fun w => canonicalInt w.va && canonicalInt (w.va + w.n - 1) && w.va % (w.align : Int) == 0 &&
    match s.xlateFor x.blk need true w.va.toNat with
    | .ok pa _ _ => s.region pa != .dev
    | _ => false)
/-- The module with something in core 0's L1, one line stable. -/
def cached (s : State) : State := s.updCore 0 (fun c => { c with
  l1 := [⟨0, 512, 512, [], false, true, false⟩, ⟨0, 513, 513, [], true, true, false⟩] })

theorem wit_CacheDropResults : at_ (State.withScalars (cached tu) [(62, 0x10000)]) (fun x =>
    x.act != 0 && Ctx.names x ((mf 0 62 0 true 2 0 0 0).uses 0 2 0) && !(cached tu).readsOut x.b x.w && (mf 0 0 0 true 2 0 0 0).scope != 0 &&
    (mf 0 0 0 true 0 0 0 0).scope == 0 && ((cached tu).core 0).l1.length == 2) = true := by decide
theorem wit_PhaseAndFenceResults : (at_ tu (fun x => x.act != 0) &&
    (let c : Close := { scope := 0, ops := [], lines := [], marks := [], sent := false }
     ((State.withWave tu (fun v => { v with hold := .close c })).wave 0 0).any (fun v => v.hold == .close c && tu.closeMet c))) = true := by
  decide
/-- 32 lanes of 4 bytes up to the last bytes of the page, and a scalar access of 8 at its first. -/
theorem wit_LoadStoreIssue : (at_ (State.withVectors tm (lanesAt 0x1FF80 4)) (fun x =>
      let f := mf 254 2 0 false 1 2 1 0
      x.act != 0 && x.wv.acq.isEmpty && Ctx.names x (f.uses (wdRegs f.wd) 2 0) && Ctx.names x (f.uses 0 2 (wdRegs f.wd)) &&
      passes tm x Need.load (x.wants f f.n 0 0) && passes tm x Need.store (x.wants f f.n f.n f.b.toNat) &&
      (x.wants f f.n 0 0).all (fun w => (tm.l1Hit x.blk w.va.toNat).isNone)) &&
    at_ (State.withScalars tm [(62, 0x10000)]) (fun x =>
      let f := mf 62 62 62 true 1 3 1 0
      Ctx.names x (f.uses (wdRegs f.wd) 2 0) && passes tm x Need.load (x.wants f f.n 0 0))) = true := by decide
/-- A block of 64 bytes at the end of the page, its header in the two bytes before. -/
theorem wit_BlockAccessIssue : at_ (State.withScalars tm [(4, 0x1FFC0), (6, 0x1FFBE)]) (fun x =>
    let f := mf 254 4 6 true 1 0 0 0x6000
    let size := 8 * 2 ^ (f.off >>> 13).toNat
    x.act != 0 && x.wv.acq.isEmpty && Ctx.names x [.v f.d.toNat 2, .s f.a.toNat 2, .s f.b.toNat 2] &&
    Ctx.names x [.s 60 4, .v 254 2] && size == 64 &&
    [Need.load, Need.store].all (fun need => passes tm x need [
      { lane := 0, va := ((x.scalPair f.a.toNat).toNat : Int) + (f.off.setWidth 13).toInt, n := size, align := size, data := [] },
      { lane := 1, va := ((x.scalPair f.b.toNat).toNat : Int), n := 2, align := 2, data := [] }])) = true := by decide
/-- `atom` and `red` of 4 bytes by 32 lanes, and a compare of 8 bytes, whose data takes four registers; none active. -/
theorem wit_AtomicIssue : (at_ (State.withVectors tm (lanesAt 0x1FF00 8)) (fun x =>
      let f := mf 252 2 252 false 2 3 3 0
      let r := mf 1 2 252 false 2 2 2 0
      x.act != 0 && x.wv.acq.isEmpty && Ctx.names x (f.uses (wdRegs f.wd) 2 (2 * wdRegs f.wd)) && f.scope == 2 &&
      passes tm x Need.rmw (x.wants f f.n (2 * f.n) f.b.toNat) &&
      Ctx.names x (r.uses 0 2 (wdRegs r.wd)) && !r.ht.getLsbD 0 && passes tm x Need.rmw (x.wants r r.n r.n r.b.toNat)) &&
    (tm.ctx never).any (fun x => x.act == 0)) = true := by decide
/-- The last lane's four bytes straddle the end of the canonical range; another state's lane 1 is misaligned. -/
theorem wit_AccessTraps : (at_ (State.withVectors tm [(64 + 31, 0xFFFFFFFE), (96 + 31, 0x007FFFFF)]) (fun x =>
      let f := mf 0 2 4 false 1 2 0 0
      let ws := x.wants f f.n f.n f.b.toNat
      x.act != 0 && Ctx.names x (f.uses 0 2 (wdRegs f.wd)) &&
      ws.all (fun w => (canonicalInt w.va && canonicalInt (w.va + w.n - 1)) == decide (w.lane ≠ 31))) &&
    at_ (State.withVectors tm [(64 + 1, 2)]) (fun x =>
      let f := mf 0 2 4 false 1 2 0 0
      let ws := x.wants f f.n f.n f.b.toNat
      ws.all (fun w => canonicalInt w.va && canonicalInt (w.va + w.n - 1)) &&
      ws.any (fun w => w.va % (w.align : Int) ≠ 0))) = true := by decide

/-- A request of wave 0 for `n` bytes at 0x10000 of this module, sent. -/
def tReq (kind : ReqKind) (n : Nat) (data : List Byte) : Req :=
  { op := 1, grid := 0, core := 0, blk := 0, wave := 0, cmd := none, ten := 0, asn := 0, job := 7, user := true, kind := kind, vline := 512,
    line := 512, pol := 0, stable := false, accs := [{ lane := 31, va := 0x1007C, pa := 0x1007C, n := n, data := data }], dst := .vec 255,
    after := [], sent := true, visible := false, remoteTag := none, olds := [], acqScope := 0, rel := 0, clobbered := [], replayed := false }
def withReq (r : Req) : State := { tm with reqs := [(1, r)] }
/-- A load of the last four bytes of a line, and one whose value is already taken. -/
theorem wit_LoadResultWrites : (let r := tReq (.load true 0) 4 []
    let s := withReq r
    s.reqs.get 1 == some r && (s.wave r.blk r.wave).isSome && !s.away r.line && decide (r.line = lineOf 0x1007C ∧ 0x1007C % 128 + 4 ≤ 128) &&
    !s.olderPending 1 r ReqKind.isWrite && r.part == 0 && s.reqs.length == 1 && r.clobbered.isEmpty && r.acqScope == 0 && !r.replayed &&
    r.olds.isEmpty && r.sent && !r.visible &&
    ({ r with visible := true, olds := [(31, s.rd 0x1007C 4)] } : Req).olds.length == 1) = true := by decide
/-- A store and a reduction of this module, and a store whose home is another module. -/
theorem wit_WritePerformResults : (let away := lineOf (5 * 2 ^ 45)
    [tReq .store 4 [1, 2, 3, 4], tReq (.red 0 true) 4 [1, 0, 0, 0]].all (fun r => (withReq r).writeReady 1 r && r.kind.isWrite &&
      r.cmd == none && r.part == 0 && (withReq r).myTurn r && !(withReq r).away r.line && (withReq r).queues.isEmpty &&
      r.accs.all (fun a => a.data.length ≤ 128 && a.n ≤ 128 && !(withReq r).away (a.pa / 128))) &&
    (let r := { tReq .store 4 [1, 2, 3, 4] with line := away, accs := [{ lane := 31, va := 0x1007C, pa := 5 * 2 ^ 45, n := 4, data := [1, 2, 3, 4] }] }
     (withReq r).writeReady 1 r && r.accs.all (fun a => (withReq r).away (a.pa / 128)) && (withReq r).away away)) = true := by decide
/-- 32 lanes of 4 bytes at the top of a window of 65,536 bytes. -/
theorem wit_ScratchpadResults : at_ (State.withVectors tm (lanesAt 0xFF80 4)) (fun x =>
    let f := mf 254 2 4 false 0 2 0 0
    let ws := x.spadWants f f.off.toInt f.n f.n f.b.toNat
    x.act != 0 && Ctx.names x (f.uses 0 1 (wdRegs f.wd)) && Ctx.names x (f.uses (wdRegs f.wd) 1 0) &&
    Ctx.names x (f.uses (wdRegs f.wd) 1 (2 * wdRegs f.wd)) && ws.length == 32 && tm.replays.isEmpty &&
    ws.all (fun w => w.va % (w.align : Int) == 0 && decide (0 ≤ w.va ∧ w.va + w.n ≤ (x.blk.kern.spad : Int)))) = true := by decide

/-! ### Witnesses: barriers, progress, Sheaf, monitors, locks -/

def isCalm (v : Wave) : Bool :=
  v.cancels.isEmpty && decide (v.threads.length ≤ 32) && v.threads.all (fun t => !t.exiting && t.ret.isNone && t.st != .exited && !t.owed)
def allThreads (v : Wave) (f : Thread → Thread) : Wave := { v with threads := v.threads.map f }
/-- Every thread of wave 0 waits at an `rcv`. -/
theorem wit_WaitsEnd : ((State.withWave tu (fun v => allThreads v (fun t => { t with st := .waiting .rcv }))).wave 0 0).any (fun v =>
    isCalm v && v.threads.all (fun t => t.st == .waiting .rcv)) = true := by decide
/-- Counted barrier 15 with count 2, the block's number of waves; counts 0 and 3 are misuse, and so is barrier 15 of a kernel that
declares 15; a thread that has arrived may go on to `barw`. -/
theorem wit_BarrierResults : ([0, 2, 3].all (fun n => at_ (State.withScalars tu [(63, n)]) (fun x =>
      x.act != 0 && Ctx.names x [.s 63 1] && x.blk.waves.length == 2 && (x.blk.bars[15]?).any (fun r => r.expected == none) &&
      !x.blk.phaseFull .block && !x.blk.phaseFull (.counted 15) && decide ((x.scal 63) = n) &&
      x.wv.acq.isEmpty && x.wv.threads.all (fun t => t.st == .running && !t.owed && t.arrived.isEmpty))) &&
    at_ (State.withBlock tu (fun b => { b with bars := b.bars.take 15 })) (fun x => (x.blk.bars[15]?).isNone) &&
    at_ (State.withWave tu (fun v => allThreads v (fun t => { t with arrived := [(.counted 15, 0)] }))) (fun x =>
      x.wv.threads.all (fun t => t.arrived.any (fun e => e.1 == .counted 15)))) = true := by decide
/-- The block barrier, which both waves have reached; and a counted one. -/
theorem wit_BarrierResults_complete : ([BarName.block, .counted 0].all (fun n =>
    let s := State.withBlock tu (fun b => { b with
      waves := b.waves.map (fun v => allThreads v (fun t => { t with st := .waiting (.bar n), arrived := [(n, 0)] })),
      bar := { phase := 0, arrived := [0, 1], expected := none }, bars := [{ phase := 0, arrived := [0, 1], expected := some 2 }] })
    (s.block 0).any (fun p => (p.barrier n).any (fun r => p.barTarget n r == some 2 && r.arrived == [0, 1]) &&
      p.waves.all (fun v => isCalm v && v.acq.isEmpty && v.threads.all (fun t => !t.arrived.contains (n, 1)))))) = true := by decide
theorem wit_ProgressAndCancelResults : (at_ tu (fun x => x.act != 0) && (tu.ctx never).any (fun x => x.act == 0) &&
    [0, 1, 2, 3].all (fun k => ((State.withWave tu (fun v => { v with cancels := [(k, 0)] })).block 0).any (fun p =>
      (p.wave 0).any (fun v => v.cancels == [(k, 0)]) && !p.cancelled && p.aborted == none && (tu.grids.get p.grid).isSome))) = true := by
  decide

def ef (x a b c eng : Nat) : EFmt :=
  { x := BitVec.ofNat 8 x, a := BitVec.ofNat 8 a, b := BitVec.ofNat 8 b, c := BitVec.ofNat 8 c, eng := BitVec.ofNat 17 eng }
/-- Group 63, enabled for tenancy 0, with 256 lists. -/
def sheaf63 (state : Nat) : Sheaf :=
  { cfg := 0x80000000000000FF, state := state, producers := 0, takers := 0, regerr := false, fullerr := false, lists := [], used := [] }
def grouped (state : Nat) : State := { tu with sheafs := [(63, sheaf63 state)] }
theorem wit_SheafResults : [1, 2].all (fun k => at_ (grouped k) (fun x =>
    x.act != 0 && (ef 0 0 0 0 63).n % 64 == 63 && (fld ((grouped k).sheaf 63).cfg 8 4).toNat == x.blk.ten &&
    ((grouped k).sheaf 63).state == k && Ctx.names x [.v 254 2, .s 63 1, .s 62 1, .v 255 1])) = true := by decide
/-- A put to list 255 (the last) and to 256 (none), from the lanes at both ends. -/
theorem wit_SheafResults_put :
    let p : Put := { id := 9, group := 63, ten := 0, blk := 0, wave := 0, dst := 255, items := [(0, 255, 1), (31, 256, 2)] }
    ([1, 2].all (fun k => ({ grouped k with puts := [p] } : State).puts.find? (fun q => q.id = 9) == some p &&
      ((grouped k).wave 0 0).isSome) && decide ((p.items.map (fun e => e.1)).Nodup ∧ ∀ e ∈ p.items, e.1 < 32)) = true := by decide
/-- A take from list 255 of a group that holds an item, from a QUIET one, and from list 256, which it has not. -/
theorem wit_SheafResults_take :
    ((State.withWave (grouped 2) (fun v => { v with take := [⟨63, 255, 254, 63, 1⟩] })).wave 0 0).any (fun v =>
      v.take.length == 1 && decide (255 < (sheaf63 2).nlists) && decide ((sheaf63 2).nlists ≤ 256) && (sheaf63 2).state == 2 &&
      ({ sheaf63 1 with lists := [(255, [7])] } : Sheaf).list 255 == [7]) = true := by decide
theorem wit_SheafResults_quiet : (((grouped 1).sheaf 63).state == 1 && ((grouped 1).sheaf 63).producers == 0 &&
    ((grouped 1).sheaf 63).takers == 0 && ((grouped 1).sheaf 63).lists.isEmpty && (grouped 1).puts.isEmpty &&
    (grouped 1).blocks.all (fun e => e.2.waves.all (fun v => v.take.isEmpty && v.threads.all (fun t => t.st != .waiting (.shfWait 63))))) =
    true := by decide

/-- An arm at the last byte of the mapped page, with no monitor in use. -/
theorem wit_MonitorResults : at_ (State.withScalars tm [(62, 0x1FFFF)]) (fun x =>
    let f := mf 0 62 0 true 1 0 0 0
    x.act != 0 && f.ak && !tm.readsOut x.b x.w && Ctx.names x [.s 62 2] && passes tm x Need.load (x.wants f 1 0 0) &&
    (x.wants f 1 0 0).length == 1 &&
    decide (((tm.blocks.flatMap (fun e => e.2.waves)).filter (fun v => v.mon ≠ none)).length < Config.monitorsPerSlice)) = true := by decide
def mon (hit : Bool) (ended : Option Nat) : Monitor := { line := 512, scope := 1, age := 0, hit := hit, ended := ended }
theorem wit_MonitorResults_wait : (at_ tu (fun x => x.act != 0 && Ctx.names x [.s 63 1, .s 62 1] && x.wv.mon == none) &&
    [mon true none, mon false (some 2), mon false none].all (fun m =>
      at_ (State.withWave tu (fun v => { v with mon := some m })) (fun x => x.wv.mon == some m))) = true := by decide
theorem wit_MonitorResults_end : ((State.withWave tu (fun v =>
    { v with mon := some (mon true none), monWait := [{ dst := 63, until_ := some 5000, lanes := 0xFFFFFFFF }] })).wave 0 0).any (fun v =>
      v.monWait.length == 1 && v.monWait.all (fun k => k.until_ == some 5000 && decide (5000 ≤ tu.clock))) = true := by decide

/-- A probe of a mapped line of an enabled tenancy, of its neighbour beyond every owner, and of a tier-2 line; the last of its
instruction. -/
theorem wit_ProbeAndLockResults_probe : [0x1007C, Config.t2Base].all (fun pa =>
    let r := { tReq .probe 1 [] with line := pa / 128, accs := [{ lane := 31, va := 0x1007C, pa := pa, n := 1, data := [] }] }
    let s := State.withWave (withReq r) (fun v => { v with hold := .probe 1 })
    s.probeReady 1 r && moduleOf pa == s.dev.moduleNum && (s.wave 0 0).any (fun v => v.hold == .probe r.op) && s.reqs.length == 1 &&
    (s.lag.get (localOf pa / 128)).isNone && decide (s.region pa = .hbm) == decide (pa = 0x1007C) && (s.ownerOf pa).isNone &&
    ({ s with mem := [(4, 0x1F)] } : State).ownerOf 0x1007C == some (0, 15)) = true := by decide
/-- One line of the mapped page, this module's memory; a range of one byte for the locks. -/
theorem wit_ProbeAndLockResults : at_ (State.withScalars tm [(62, 0x10000), (61, 1)]) (fun x =>
    let f := mf 60 62 61 true 1 0 0 0
    x.act != 0 && x.wv.acq.isEmpty && Ctx.names x (f.uses 1 2 0) && Ctx.names x [.s 60 1, .s 62 2, .s 61 1] &&
    passes tm x Need.load (x.wants f 1 0 0) && x.linesNamed f == [512] &&
    moduleOf 0x10000 == tm.dev.moduleNum && tm.region 0x10000 == .hbm && (tm.lag.get 512).isNone && x.iclRange f == (512, 513)) =
    true := by decide

/-- Reset memory maps nothing: a range of any lines may be locked without a fatal error. -/
theorem wit_ProbeAndLockResults_lock : (tu.block 0).any (fun p => tu.rootOf p == 0x2000 && p.asn == 0) = true ∧
    ∀ v p, tu.block 0 = some p → tu.xlateFor p Need.fetch false v ≠ .fatal := by
  refine ⟨by decide, fun v p hp => ?_⟩
  have hr : tu.rootOf p = 0x2000 := by cases hp; decide
  have hz : ∀ a, fld (tu.rd64 a) 0 1 = 0 := fun a => by
    have h : memRead tu.mem a 8 = List.replicate 8 0 := rfl
    simp only [State.rd64, State.rdNat, State.rd, h]
    decide
  have hb : tu.backed 0x2000 = true := by decide
  have ht : tu.tlb = [] := rfl
  have hl : ∀ c a, tu.leafFor c a 0x2000 v = .absent := by
    intro c a
    cases c <;> simp [State.leafFor, ht, State.walk, State.walkFrom, hb, hz]
  simp [State.xlateFor, State.xlate, hr, hl]
/-! ### Witnesses: tiles, copies, the core port -/

def tile0 (st : TileState) (readers : Nat) : Tile :=
  { Tile.start with base := 0, pitch := 16, len := 16, rows := 1, st := st, readers := readers }
/-- Tile 63, the last declared. -/
def tiled (t : Tile) : State := State.withBlock tm (fun b => { b with tiles := updAt b.tiles 63 (fun _ => t) })
/-- `tile.def` of one row of 128 bytes at the top of the window, on an undefined, an empty and a READY tile. -/
theorem wit_TileResults : [Tile.start, tile0 .empty 0, tile0 .ready 0].all (fun t =>
    at_ (State.withScalars (tiled t) [(60, 65408), (61, 0), (62, 16 + 4096 * 16)]) (fun x =>
      let f := ef 63 60 61 62 0
      let d := newTile x f t
      x.act != 0 && (x.blk.tiles[63]?) == some t && t.fault == none && Ctx.names x [.s 60 1, .s 61 1, .s 62 1] &&
      decide (d.base % 8 = 0 ∧ d.hslots = 0 ∧ 1 ≤ d.len ∧ d.len ≤ d.pitch ∧ d.rows = 1 ∧ d.base + 8 * d.len ≤ x.blk.kern.spad))) =
    true := by decide
/-- A READY tile that no copy reads is to be released; a DRAINING one, still read, is not. -/
theorem wit_TileResults_settle : ([(tile0 .ready 0, TileGoal.release), (tile0 .draining 0, .drained), (tile0 .draining 1, .drained)].all (fun e =>
    ((State.withBlock (tiled e.1) (fun b => { b with tileOps := [⟨9, 0, 63, e.2⟩] })).block 0).any (fun p =>
      (p.tiles[63]?) == some e.1 && p.tileOps.length == 1))) = true := by decide
def queues (n : Nat) (c : CopyCmd) (s : State) : State :=
  s.updCore 0 (fun k => { k with queues := [[], [], [], List.replicate n c] })
def fits (c : CopyCmd) (t : Tile) : Bool :=
  decide (c.d % 8 = 0 ∧ c.ds % 8 = 0 ∧ t.hslots = 0) && canonicalInt c.d && canonicalInt (c.d + 8 * t.len - 1)
/-- A copy of one row of 128 bytes of the mapped page on queue 3, which holds 63 commands of 64. -/
theorem wit_CopyResults : [TileState.empty, .ready].all (fun st => at_ (State.withScalars (tiled (tile0 st 0)) [(60, 0x1FF80)]) (fun x =>
    let f := ef 63 60 58 57 0x18000
    let c := x.copyOf f .ld (tile0 st 0) 0
    x.act != 0 && (x.blk.tiles[63]?) == some (tile0 st 0) && Ctx.names x [.s 60 2, .s 58 2, .s 57 1] && f.bits 16 15 == 3 &&
    ((queues 63 c tm).queueOf x.blk.core 3).length == 63 && fits c (tile0 st 0) && c.idx % 4 == 0)) = true := by
  decide
/-- At the head of its queue, not begun, its row translated; and begun with its row moved. -/
theorem wit_CopyResults_run : at_ (State.withScalars (tiled (tile0 .filling 0)) [(60, 0x1FF80)]) (fun x =>
    let c := x.copyOf (ef 63 60 58 57 0x18000) .ld (tile0 .filling 0) 0
    let s := queues 1 c (tiled (tile0 .filling 0))
    s.queueOf 0 3 == [c] && s.cmd 0 c.id == some c && !c.begun && s.fencesMet 0 c && !c.isColl && c.row == 0 &&
    (s.block 0).any (fun p => p.mode != .saving && match s.rowXl p c.need (c.rowPieces (tile0 .filling 0) 0) [] with
      | .ok gs => gs.length == 1
      | _ => false) &&
    (let d := { c with begun := true, row := 1, moved := 1 }
     d.fault == none && d.failed == none && d.moved == d.row && d.row == (tile0 .filling 0).rows && d.lines.all (fun l => !s.lineHeld l) &&
     ({ d with failed := some ⟨2, 0⟩, kind := .hint 0x10000 128 } : CopyCmd).failed.isSome &&
     s.reqs.all (fun e => e.2.cmd != some d.id))) = true := by decide
/-- A row of the last line of the page, read and written. -/
theorem wit_RowMovement : ([ReqKind.copyRead, .copyWrite].all (fun k =>
    let r := { tReq k 128 [] with line := 1023, accs := [{ lane := 0, va := 0x1FF80, pa := 0x1FF80, n := 128, data := [] }] }
    (tm.block r.blk).isSome && !tm.away r.line && r.accs.all (fun a => r.line == a.pa / 128 && decide (a.pa % 128 + a.n ≤ 128)) &&
    tm.queues.isEmpty)) = true := by decide
/-- Tenancy 0 is enabled, with a quota of 8; it has asked, and holds the tokens for its request. -/
def shared : State :=
  { withReq { tReq .store 4 [1, 2, 3, 4] with sent := false } with
    refillDue := true, dev := { Dev.reset with tenCfg := Dev.reset.tenCfg.set 0 0x8008FFFFFFFF0000 },
    cores := [(0, { tm.core 0 with shares := [(0, { b := 16, e := 0, q := 16, sentLast := 0, sentNow := 0, asked := true })] })] }
theorem wit_PortResults : (shared.refillDue && Tbl.sorted shared.cores && (shared.portTens 0).contains 0 &&
    (shared.cores.get 0).any (fun k => (k.shares.get 0).any (fun h => h.asked)) &&
    (shared.portChoice 0).any (fun e => e.1 == 1) && !({ shared with refillDue := false } : State).refillDue) = true := by decide

/-! ### Witnesses: the matrix engine and collectives -/

/-- A tile of 128 rows of 16-bit elements, one k-step wide. -/
def mtile (st : TileState) : Tile := { Tile.start with pitch := 16, len := 16, rows := 128, width := 2, st := st }
/-- A signature of wave 0 at accumulator 0, tiles 0 and 1, one k-step, both operands of 16 bits. -/
def signer (lane : Nat) (word : DWord) : Signer := { wave := 0, lane := lane, word := word, fmt := 0xA, tiles := [1], flag := 1 }
def mmaWord : DWord := 0xC800000000000200
def opened (ss : List Signer) : State := State.withBlock tm (fun b => { b with
  convs := updAt b.convs 7 (fun _ => .opened 1 ss), tiles := updAt (updAt b.tiles 0 (fun _ => mtile .ready)) 1 (fun _ => mtile .ready),
  waves := updAt b.waves 0 (fun v => allThreads v (fun t => { t with st := .waiting (.sign 7) })) })
/-- Register 7, the last: free, and open for wave 0; masks of no wave, of an existing wave, and of wave 2, which the block has not. -/
theorem wit_SigningResults : ([0, 1, 3].all (fun m => at_ (State.withScalars (opened []) [(63, m)]) (fun x =>
      x.act != 0 && Ctx.names x [.s 63 1] && (x.blk.convs[7]?) == some (.opened 1 []) && (x.blk.convs[0]?) == some .free && x.scal 63 == m &&
      (List.range 2).all (fun n => (x.blk.waves[n]?).any (fun v => v.threads.any (fun t => t.st != .exited))))) &&
    at_ (State.withScalars tu [(63, 4)]) (fun x => hasLane (x.scal 63) 2 && (x.blk.waves[2]?).isNone) &&
    at_ (opened []) (fun x => let f := ef 3 0 1 255 (7 * 64)
      f.bits 8 6 == 7 && (x.blk.accs[3]?).isSome && hasLane 1 x.w && !hasLane 2 x.w && Ctx.names x [.s 60 4, .v 255 1])) = true := by decide
/-- A complete round that agrees, and one whose words differ. -/
theorem wit_SigningResults_round :
    let ss := [signer 0 mmaWord, signer 31 mmaWord]
    let g := signedOf mmaWord
    ((opened ss).block 0).any (fun p => p.mode == .normal && !p.cancelled && p.aborted == none && (p.convs[7]?) == some (.opened 1 ss) &&
      (p.waves[0]?).any (fun v => v.threads.all (fun t => t.st == .waiting (.sign 7) && !t.owed)) && !fmtReserved 0xA &&
      g.acc == 0 && g.kc == 1 && (p.accs[0]?).any (fun a => a.fault == none && a.queue.isEmpty) && p.operandTrap g 0xA [1] == none &&
      [0, 1].all (fun n => (p.tiles[n]?).any (fun t => t.st == .ready)) && p.waves.all isCalm &&
      (signer 1 mmaWord).word != (signer 1 (mmaWord + 1)).word) = true := by decide
def accCmd (k : AccKind) : AccCmd := { id := 9, kind := k }
def queued (k : AccKind) : State := State.withBlock (opened []) (fun b => { b with
  accs := updAt b.accs 3 (fun a => { a with queue := [accCmd k] }) })
/-- The first k-step of two, and the last; headed operands under an invalid header. -/
theorem wit_MatrixStepResults : ([0, 1].all (fun done =>
      ((queued (.mma 0 [1] false 0xA 0 0 2 0 done)).block 0).any (fun p => p.mode != .saving &&
        (queued (.mma 0 [1] false 0xA 0 0 2 0 done)).engineTurn p 3 &&
        (p.accs[3]?).any (fun a => a.queue.length == 1) &&
        p.badHeader ⟨mtile .ready, [mtile .ready], false, opA 0xA 0, opB 0xA 0, done⟩ == none))) &&
    ((State.withBlock (queued (.mma 0 [1] false 0x1 0 0 1 0 0)) (fun b => { b with spad := [(0, 0xFF), (1, 0xFF)] })).block 0).any (fun p =>
      let t := { mtile .ready with width := 1, hslots := 4 }
      (p.badHeader ⟨t, [t], false, opA 0x1 0, opB 0x1 0, 0⟩).isSome) = true := by decide
/-- An accumulator with room and without a fault, a tile of f32 that suits it; each command at the head of its queue. -/
theorem wit_AccumulatorResults : (at_ tm (fun x => x.act != 0 && (x.blk.accs[3]?).any (fun a => a.fault == none && a.queue.isEmpty) &&
      Ctx.names x [.s 63 1]) && at_ (queued .zero) (fun x => (x.blk.accs[3]?).any (fun a => a.queue.length == 1)) &&
    [TileState.ready, .empty].all (fun st => let t : Tile := { mtile st with width := 3, len := 64, pitch := 64 }
      t.fault == none && t.rows == 128 && tileBits t == 32 && decide (2 * 32 ≤ t.len) && t.st == st) &&
    stqTile 0 { mtile .empty with width := 0, len := 8, hslots := 2 }) = true := by decide
theorem wit_AccumulatorResults_perform : ([AccKind.zero, .ld 0 0, .st 0 1, .stq 0 0, .flg 0 63 false, .fclr 7].all (fun k =>
    ((queued k).block 0).any (fun p => p.mode != .saving && (p.accs[3]?).any (fun a => a.queue == [accCmd k]) && (p.waves[0]?).isSome)) &&
    decide (256 ≤ 8 * (mtile .empty).pitch ∨ (mtile .empty).pitch = 16)) = true := by decide

/-- Group 63: two members, modules 0 and 5; this module has rank 0. -/
def group63 : CollGroup := { cfg := 0x8000000000010000, map := [0x0500] ++ List.replicate 15 0, count := 3, inbox := [] }
def collState : State := { tm with colls := [(63, group63)] }
/-- A buffer of 4,096 bytes, the longest, of the mapped page; a root of rank 1 and of rank 2, beyond the group. -/
theorem wit_CollectiveResults : [1, 2].all (fun root => at_ (State.withScalars collState [(60, 0x10000), (62, 4096), (63, 63 + 65536 * root)]) (fun x =>
    let f := ef 0 60 62 63 0x18000
    x.act != 0 && Ctx.names x [.s 60 2, .s 62 1, .s 63 1] && (x.scal 62).toNat % collBytes (f.bits 12 10) == 0 &&
    (x.scal 63).toNat % 65536 == 63 && collEn group63.cfg && collTen group63.cfg == x.blk.ten && group63.size == 2 && group63.rank == 0 &&
    (collState.queueOf x.blk.core 3).isEmpty && (x.blk.collWaits).isEmpty && Ctx.names x [.s 63 1])) = true := by decide
/-- A command of group 63 at the head of queue 3, its buffer 8 bytes of the mapped page; begun, with the other member's part. -/
def collCmd (begun : Bool) (k : CopyKind) : CopyCmd :=
  { id := 9, blk := 0, wave := 0, kind := k, tile := 0, d := 0x10000, h := 0, ds := 0, hs := 0, idx := 8, pol := 0, group := 63, index := [],
    after := [], afterOps := [], begun := begun, row := 0, moved := 0, fault := none, failed := none, undecided := false, num := 2,
    local_ := List.replicate 8 1, status := 0 }
theorem wit_CollectiveResults_run : ([CopyKind.collAr 0 0, .collBc 0, .collBc 1].all (fun k =>
    let c := collCmd false k
    let s := queues 1 c collState
    s.queueOf 0 3 == [c] && s.cmd 0 9 == some c && c.isColl && s.fencesMet 0 c && (s.block 0).any (fun p => p.mode != .saving &&
      match s.collBuf c p with
      | .ok ps => ps.length == 1
      | _ => false))) = true := by decide
theorem wit_CollectiveResults_end :
    let g : CollGroup := { group63 with inbox := [⟨2, 2, 0, List.replicate 8 3⟩] }
    let s := { queues 1 (collCmd true (.collAr 0 0)) collState with
      colls := [(63, g)], dev := { collState.dev with fabRoute := (List.range 16).map (fun p => (16 * 5 + p, 0x8000)) } }
    (g.size == 2 && g.arrived 2 1 8 == none && g.arrived 2 2 8 == some (List.replicate 8 3) &&
      (g.result (collCmd true (.collAr 0 0))).isSome && !g.disagrees (collCmd true (.collAr 0 0)) && (collCmd true (.collAr 0 0)).row == 0 &&
      s.hasRoute 5 && !g.isRoot (collCmd true (.collAr 0 0)) && !s.collComing (collCmd true (.collAr 0 0)) && s.isOwn 0x10000 && !s.moving 0x10000 && s.roomAt 512 .all &&
      ((s.block 0).any (fun p => match s.collBuf (collCmd true (.collAr 0 0)) p with
        | .ok [⟨e, pa, _⟩] => pa == 0x10000 && decide (e.n ≤ 128)
        | _ => false)) && s.queues.isEmpty &&
      ({ collCmd true (.collAr 0 0) with row := 1 } : CopyCmd).lines.all (fun l => !s.lineHeld l) &&
      ({ collCmd true (.collBc 0) with begun := true } : CopyCmd).begun && g.isRoot (collCmd true (.collBc 0))) = true := by decide

/-! ### Witnesses: placing, ending and preempting blocks -/

def millGrid : Grid := { tGrid false with place := .millrace, release := some 5000, nextIndex := 0, asn := 3 }
/-- Grid 1 in Millrace, released now; tenancy 0 has core 0. -/
def placing (p : GridPlace) (held : List Nat) : State :=
  { tm with blocks := [], cores := [], cur := none, grids := [(1, { millGrid with place := p })],
            dev := { Dev.reset with cset := Dev.reset.cset.set 0 [1, 0, 0, 0, 0, 0, 0, 0, 0, 0] },
            disp := { Dispatcher.reset with held := held, headGrid := held.head? } }
theorem wit_DispatchResults_take : ((placing .millrace []).grids.get 1 == some millGrid && millGrid.place == .millrace &&
    millGrid.release == some (placing .millrace []).clock && (placing .millrace []).disp.held.isEmpty) = true := by decide
theorem wit_DispatchResults_place : (let s := placing .dispatcher [1]
    s.disp.headGrid == s.head && s.head == some 1 && s.placeAssigned.isNone && s.images.isEmpty && (s.grids.get 1).any (fun g =>
      !g.coop && g.flushed.isEmpty && g.early.isEmpty && (s.assigned 1).isEmpty && !g.cancelled && decide (g.nextIndex < g.total)) && (s.placeGrid 1).isSome &&
    s.inSet 0 0) = true := by decide +kernel
/-- The head, grid 2, needs more than a core has left and has waited 4,096 clocks; grid 1 fits. -/
theorem wit_DispatchResults_backfill :
    let s0 := placing .dispatcher [2, 1]
    let s := { s0 with grids := s0.grids.put 2 { millGrid with place := .dispatcher, kern := { putKern with accs := 5 } },
                       disp := { s0.disp with headSince := 904 } }
    (s.head == some 2 && (s.placeGrid 2).isNone && s.disp.headSince + 4096 == s.clock &&
      (s.disp.held.filter (fun n => 0 < s.toPlace n))[1]? == some 1 && (s.placeGrid 1).isSome) = true := by decide +kernel
/-- Wave 0 stands at an unmapped page: not present; at a mapped one that is not executable for its mode: denied. -/
theorem wit_BlockEndResults_fetch : (((State.withWave tm (fun v => allThreads v (fun t => { t with pc := 0x20000 }))).fetchTrouble 0 0).any (fun e =>
      e.2 == .absent) && (tm.block 0).any (fun p => p.live) &&
    ((mapped false).fetchTrouble 0 0).any (fun e => e.2 == .denied)) = true := by decide
/-- Every thread has exited and nothing is left; with and without a fault of an accumulator or of the last tile. -/
theorem wit_BlockEndResults_retire : [(none, none), (some { kstep := 1, addr := 2 }, none), (none, some { code := 4, addr := 8 })].all (fun e =>
    let s := State.withBlock tm (fun b => { b with
      waves := b.waves.map (fun v => allThreads v (fun t => { t with st := .exited })), accs := updAt b.accs 0 (fun a => { a with fault := e.1 }),
      tiles := updAt b.tiles 63 (fun y => { y with fault := e.2 }) })
    (s.block 0).any (fun p => p.over && !s.workLeft 0 p && !p.remoteLeft && !s.marksOut p && !p.cancelled && p.aborted == none &&
      (p.accs.any (fun a => a.fault != none) == (e.1 != none)) && (p.tiles.findSome? (fun y => y.fault)) == e.2 && (s.grids.get p.grid).isSome)) = true := by decide
/-- A grid with no block left, its record in the mapped page. -/
theorem wit_GridCompletionResults :
    let g := { tGrid true with left := 0, recVa := 0x1FFF8, place := .dispatcher, thread := 32 }
    let s := { tm with grids := [(0, g)], blocks := [] }
    (s.grids.get 0 == some g && s.gridClosed 0 g && !s.recordMoving g &&
      (match s.cpAccess { root := g.root, asn := g.asn, ten := g.ten, job := g.job } g.user Need.store g.recVa with
        | .ok pa _ => pa == 0x1FFF8
        | _ => false) && !g.user &&
      s.isOwn 0x1FFF8 && s.queues.isEmpty) = true := by decide
def victim (c : Choice) : Victim := { blocks := [0], choice := c, time := 0, waste := 0, chunks := 0, placeNo := 0 }
/-- A bounded head that no free core fits makes Weir due. -/
theorem wit_PreemptionResults_weir :
    let s0 := placing .dispatcher [2]
    let s := { s0 with grids := s0.grids.put 2 { millGrid with place := .dispatcher, bounded := true, bound := 1 },
                       blocks := [(0, tBlock false)] }
    (s.disp.headGrid == s.head && (s.weirDue).isSome) = true := by decide +kernel
theorem wit_PreemptionResults_victim : [Choice.drain, .flush, .save].all (fun c => (victim c).blocks == [0] &&
    (tm.block 0).any (fun p => (tm.grids.get p.grid).isSome && p.waves.all (fun v => v.mon == none && v.monWait.isEmpty))) = true := by decide
theorem wit_PreemptionResults_save : ((State.withBlock tm (fun b => { b with mode := .saving })).block 0).any (fun p =>
    p.mode == .saving && !p.cancelled && p.aborted == none && !tm.saveWaits 0 p && p.waves.all (fun v => v.mon == none && v.monWait.isEmpty)) =
    true := by decide
theorem wit_PreemptionResults_resume : ((State.withBlock tm (fun b => { b with mode := .resuming, waitCmds := [9] })).block 0).any (fun p =>
    p.mode == .resuming && !p.cancelled && p.aborted == none && p.waitCmds == [9] && (tm.core p.core).queues.all (fun q => q.isEmpty) &&
    p.accs.all (fun a => a.queue.isEmpty) && tm.replays.isEmpty) = true := by decide

/-! ### Witnesses: queues and packets -/

/-- Bytes of eight-byte words at an address. -/
def State.words (s : State) (a : Nat) (ws : List Nat) : State :=
  { s with mem := memWrite s.mem a (ws.flatMap (fun w => bytesOfNat w 8)) }
/-- Queue 5 on service thread 32, bound to tenancy 0 and job 7, with these packet words at the last place of its ring of 256
bytes from which they do not wrap. -/
def tQueue (ws : List Nat) : Queue :=
  { thread := 32, ring := 0x30000, rsize := 8, priv := true, prio := 0, ten := 0, rankprog := 0, ridx := 256 - 8 * ws.length,
    widx := 256, status := 0, lasterr := 0, lasttag := 0, rankfault := false,
    binding := some { root := 0x2000, asn := 0, ten := 0, job := 7, serial := 3 }, pending := none }
def withPacket (ws : List Nat) : State :=
  State.words { tm with queues := [(5, tQueue ws)], jobs := [⟨7, 0, 0, 1, false, 3⟩],
                        dev := { Dev.reset with qdescBase := 0x40000 } } (0x30000 + 256 - 8 * ws.length) ws
/-- The packet stands at the head of a queue that runs and holds none, well formed or not. -/
def atQueue (ws : List Nat) (typ : Nat) (ok : Bool) : Bool :=
  let s := withPacket ws
  (s.queues.get 5).any (fun q => q.status != 2 && q.pending == none && !s.unmapping 5 && q.binding.isSome && match s.atHead q with
    | .packet p => p.typ == typ && p.formOk == ok
    | _ => false)
/-- An access of the command processor to eight bytes of the mapped page. -/
def cpReaches (s : State) (need : Need) (va : Nat) : Bool :=
  (match s.cpAccess { root := 0x2000, asn := 0, ten := 0, job := 7 } false need va with
    | .ok pa _ => pa == va
    | _ => false) && s.isOwn va && !s.moving va &&
  s.queues.all (fun e => decide (va + 8 ≤ s.descOf e.1))
/-- WAIT in each of its four conditions and kinds, SIGNAL in both, CANCEL, TICKALIGN, CLOSE, at the last address of the page. -/
theorem wit_QueuePacketResults : ([0x402, 0x10402, 0x20402, 0x30402, 0x40402, 0x80402, 0xC0402].all (fun h =>
      atQueue [h, 0x1FFF8, 0, 0] 2 true) && atQueue [0x303, 0x1FFF8, 1] 3 true && atQueue [0x10303, 0x1FFF8, 1] 3 true &&
    atQueue [0x204, 0x1FFF8] 4 true && atQueue [0xFF0106] 6 true && atQueue [0x207, 1] 7 true && atQueue [0x10207, 0] 7 true &&
    [Need.load, .store, .rmw].all (fun n => cpReaches (withPacket []) n 0x1FFF8) && ((withPacket []).launchedFrom 5).isEmpty) = true := by
  decide +kernel
/-- A reserved bit in each packet type that has one; a queue held at its packet; a line that stays held when a write comes to it. -/
theorem wit_QueuePacketResults_reserved : (atQueue [0x100402, 0x1FFF8, 0, 0] 2 false && atQueue [0x30204, 0] 4 false &&
    atQueue [0x0106] 6 false && atQueue [0x20207, 0] 7 false &&
    [Pending.wait, .met, .held 512 1].all (fun k => ({ tQueue [0x20402, 1, 0, 0] with pending := some k } : Queue).pending == some k) &&
    !(withPacket []).writeWaits 0x1FFF8 && !(withPacket []).lineHeld 512 && ((withPacket []).graphOf 7 1).isNone &&
    (let s := { withPacket [] with lag := [(512, { committed := List.replicate 128 0, held := true, job := 7, arrival := 0 })] }
     (s.cpWrite 0x10078 0x10078 .all 1 7).lineHeld 512 && (s.store 0x10078 (List.replicate 8 1) 7).lineHeld 512)) = true := by decide +kernel
/-- A kernel descriptor of 64 bytes at 0x10100, an object that holds it, a LAUNCH of one block of one thread with its record at the
end of the page. -/
def launching : State :=
  let s := withPacket [0x701, 0x10100, 0x1000100000001, 0x400801, 0, 0x1FFF8, 3]
  State.words { s with objects := [{ asn := 0, va := 0x10000, size := 0x1000, kdesc := 0x10100, kcount := 1, code := 0x10400, binds := [],
                                     measured := false }] } 0x10100 [0xFFFFFFFF00000000, 0x201, 0, 0x100000001]
theorem wit_LaunchAndBindResults_launch : (atQueue [0x701, 0x10100, 0x1000100000001, 0x400801, 0, 0x1FFF8, 3] 1 true &&
    !launching.launchClosed { root := 0x2000, asn := 0, ten := 0, job := 7, serial := 3 } 3 && dimsOk (1, 1, 1) (1, 1, 1) &&
    (let b : Binding := { root := 0x2000, asn := 0, ten := 0, job := 7 }
     (launching.descRead b false 0x10100 8).isNone && (launching.objectAt 0 0x10100).any (fun o =>
       (kernOf 0x10100 o (launching.descWord b false 0x10100)).isSome)) && cpReaches launching Need.store 0x1FFF8 &&
    decide (launching.millrace.length < 4096)) = true := by decide +kernel
/-- A BIND of tenancy 15, idle and busy, by a privileged queue and another. -/
theorem wit_LaunchAndBindResults_bind : (atQueue [0x305, 0x6000, 0x7F0001] 5 true && !(withPacket []).tenBusy 15 &&
    ({ withPacket [] with grids := [(0, { tGrid true with ten := 15 })] } : State).tenBusy 15 && (tQueue []).priv &&
    (List.range 16).all (fun m => m == 15 || !(tenEnabled ((withPacket []).tenCfg m) && tenAsn ((withPacket []).tenCfg m) == 1)) &&
    ((withPacket []).jobOf 7).any (fun j => j.asn == 0)) = true := by decide +kernel
theorem wit_LaunchAndBindResults_tick : (let s := { tm with clock := tm.lastTick + tm.tickSpacing * 1400 }
    s.startup == 4 && decide (s.lastTick + s.tickSpacing * 1400 ≤ s.clock) && s.queues.isEmpty) = true := by decide +kernel

/-! ### Witnesses: storage, faults, device registers -/

/-- Line 512 is held with zero committed; every pool has room. -/
def held (job : Nat) : State :=
  { tm with lag := [(512, { committed := List.replicate 128 0, held := true, job := job, arrival := 0 })],
            reed := { Reed.reset with poolFree := List.replicate 16 8, poolLow := List.replicate 16 9, poolHigh := List.replicate 16 10,
                                      t2Base := 0x50000, t2Cap := 8, t2Count := 1, working := List.replicate 16 true } }
theorem wit_StorageResults_commit : ((held 7).heldAt 512 && (held 7).commitFits 512 && (held 7).reed.poolFree.length == 16) = true := by
  decide +kernel
/-- The leaf of the page at 0x10000 stands at 0x8008; its frame 1 is marked accessed, or not. -/
theorem wit_StorageResults_demote : (let s := held 7
    s.reedUpdate.reed.working.getD 1 false && decide (0 < s.reed.t2Count ∧ 65536 < s.hbmBytes) && !s.granaryFrame 65536 &&
    !s.moving 65536 && s.backed 0x8008 && moduleOf 0x8008 == s.dev.moduleNum &&
    (let e := s.rd64 (localOf 0x8008)
     e.toNat % 4 == 3 && leafOk e false && !leafNd e && e.toNat / 65536 % 2 ^ 36 == 1) && !s.reed.accessed.contains 1 &&
    [1].contains 1 && s.demotable.all (fun f => decide (s.ahead 1 ≤ s.ahead f))) = true := by decide +kernel
/-- A move to the tier-2 frame at the bottom of tier 2; one whose leaf address is not aligned; one while another is in progress. -/
theorem wit_StorageResults_move :
    let s := fun (pte : Nat) => { held 7 with reed := { (held 7).reed with
      movePte := BitVec.ofNat 64 pte, moveDst := BitVec.ofNat 64 Config.t2Base } }
    let m : Move := { pte := 0x8008, src := 65536, dst := Config.t2Base, large := false, software := true }
    let t := { tm with reed := { Reed.reset with moves := [m] } }
    ((s 0x8008).moveResult == 0 && !(s 0x8008).moveBusy && (s 0x8009).moveResult == 1 && t.moveBusy &&
      t.reed.moves.find? (fun m => m.src = 65536 * 1) == some m && t.moveFits m && moduleOf m.dst == t.dev.moduleNum && Tbl.sorted t.mem &&
      t.queues.isEmpty && decide (m.src + m.size ≤ localOf m.dst ∧ localOf m.pte + 8 ≤ m.src)) = true := by decide +kernel
theorem wit_StorageResults_flush : (!(held 7).reed.flushBusy &&
    ({ held 7 with reed := { (held 7).reed with flushBusy := true, flushAddr := 0x10000, flushLines := 2 ^ 21 - 1 } } : State).reed.flushBusy &&
    (held 7).lag.all (fun e => e.2.held) && !(held 7).flushLine 512) = true := by decide +kernel
/-- The free list is full, the frame is not one of tier 2, and both are in order at the last frame of tier 2. -/
theorem wit_StorageResults_push : ((held 7).region (Config.t2End - 65536) == .tier2 && (Config.t2End - 65536) % 65536 == 0 &&
    (held 7).region 0x10000 != .tier2 && decide ((held 7).reed.t2Count < (held 7).reed.t2Cap) && (held 7).queues.isEmpty) = true := by
  decide +kernel

/-- Fault 3 of a kind, open, of core 0 and the page at 0x10000. -/
def faulted (kind : Nat) : State :=
  { held 7 with faultq := { FaultQ.reset with recs := [⟨3, kind, 0, 0, 0, 7, 4, 0x10000, 0, true, true⟩], nextId := 4 } }
theorem wit_FaultAnswerResults : ([1, 3, 4, 5, 6].all (fun k => ((faulted k).openFault 3).any (fun f => f.kind == k && f.core == 0) &&
      ((faulted k).openFault 4).isNone && (faulted k).replays.isEmpty && decide (lineSectors ((faulted k).rd (128 * 512) 128) ≤ (faulted k).poolFree (stackOf (128 * 512))) &&
      (faulted k).blocks.all (fun e => e.2.waves.all isCalm && !e.2.cancelled)) &&
    ((State.withWave (faulted 6) (fun v => allThreads v (fun t => { t with st := .waiting (.brk 3) }))).wave 0 0).any (fun v =>
      isCalm v && v.threads.all (fun t => t.st == .waiting (.brk 3))) && (faulted 6).faultq.recs.all (fun f => f.written)) = true := by
  decide +kernel

/-- Values that each clause accepts or refuses, at their bounds. -/
theorem wit_DeviceRegisterResults :
    let refusedCfg : DWord := 0x80B0000000000000
    let okCfg : DWord := 0x80A00000000000FF
    (decide (11 ≤ refusedCfg.toNat / 2 ^ 52 % 16) && decide (okCfg.toNat / 2 ^ 52 % 16 = 10) && okCfg.getLsbD 63 && !(0 : DWord).getLsbD 63 &&
      tm.dev.tenCfg.length == 16 && (tm.quotaSum 15 0x8400000000000000 == 1024 && tm.quotaSum 15 0x8401000000000000 == 1025) &&
      tm.tenBusy 0 && !tm.tenBusy 15 && !tm.collBusy 63 && (queues 1 (collCmd false (.collBc 0)) collState).collBusy 63 &&
      (tm.coll 63).map.length == 16 && !tm.collDefOk 0x8000000000010000 (List.replicate 16 0) &&
      tm.collDefOk 0x8000000000000000 (0x80 :: List.replicate 15 0) && tm.images.isEmpty && !tm.fabricOpen && tm.queues.isEmpty &&
      !(withPacket []).queues.isEmpty && !tm.pathBusy 127 15) = true := by decide +kernel

/-! ### Witnesses: reset and health -/

def tCfg : SignedConfig := { mac := 0, etherType := 0, peers := [], pfcMask := 0x80, coreFence := 1, clusterFence := 1, stackFence := 1, portFence := 1 }
/-- Zero bytes from an address on. -/
def zeros : Nat → Nat → Tbl Byte
  | _, 0 => []
  | a, n + 1 => (a, 0) :: zeros (a + 1) n
/-- The header of an image without code: its magic number, type, security version, and its zero fields. -/
def tSlot (typ svn : Nat) : Tbl Byte :=
  [(0, 0x5A), (1, 0x53), (2, 0x49), (3, 0x47), (4, BitVec.ofNat 8 typ), (5, 0), (6, 0), (7, 0), (8, BitVec.ofNat 8 svn), (9, 0), (10, 0), (11, 0)] ++
    zeros 12 (if typ = 2 then 140 else 12) ++ zeros 668 356
def flashed (svnA svnB : Nat) : State := { State.reset with flash := [tSlot 1 svnA, tSlot 1 svnB, tSlot 2 0] }
/-- Slot 0 preferred at equal versions and slot 1 at a higher one; the configuration in slot 2. -/
theorem wit_ResetAndHealthResults_boot : ([(4, 4), (3, 4)].all (fun e => let s := flashed e.1 e.2
    s.resetLow && s.startup == 1 && s.slotSvn 0 == e.1 && s.slotSvn 1 == e.2 && decide (s.secure.rollback ≤ e.1)) &&
    (tm.ports.get 35).isNone && !tm.portFenced 35) = true := by decide +kernel
theorem zeros_get (k : Nat) : ∀ n a, Tbl.get (zeros a n) k = if a ≤ k ∧ k < a + n then some 0 else none
  | 0, a => by simp [zeros, Tbl.get]
  | n + 1, a => by
    simp only [zeros, Tbl.get, zeros_get k n (a + 1)]
    split <;> split <;> (try split) <;> first | rfl | omega
theorem get_append (k : Nat) (u : Tbl Byte) : ∀ t : Tbl Byte, Tbl.get (t ++ u) k = (match Tbl.get t k with | some x => some x | none => Tbl.get u k)
  | [] => rfl
  | (j, x) :: t => by
    simp only [List.cons_append, Tbl.get, get_append k u t]
    split <;> rfl
theorem tSlot_zero (typ svn k : Nat) (h : 668 ≤ k) (g : k < 1024) : (tSlot typ svn).get k = some 0 := by
  have e : ∀ j, j < 12 → k ≠ j := by intro j hj; omega
  have m : ¬ k < 12 + (if typ = 2 then 140 else 12) := by split <;> omega
  simp only [tSlot, get_append, zeros_get, Tbl.get]
  simp [e, m, h, g]
theorem wit_ResetAndHealthResults_headers : (flashed 4 4).headerOk 0 1 = true ∧ (flashed 4 4).headerOk 2 2 = true := by
  have z : ∀ slot, slot = 0 ∨ slot = 2 → ((flashed 4 4).flashRead slot 668 356).all (· == 0) = true := by
    intro slot hs
    rw [List.all_eq_true]
    intro b hb
    simp only [State.flashRead, List.mem_map, List.mem_range] at hb
    obtain ⟨i, hi, rfl⟩ := hb
    rcases hs with rfl | rfl <;>
      simp [State.flashByte, flashed, tSlot_zero _ _ (668 + i) (by omega) (by omega)]
  constructor
  · unfold State.headerOk
    rw [z 0 (.inl rfl)]
    decide +kernel
  · unfold State.headerOk
    rw [z 2 (.inr rfl)]
    decide +kernel
def up : State := { tm with cfg := some tCfg, power := { Power.reset with now := 8001, pacing := true, overSince := some 5000, railsBad := [(3, 5000)] } }
theorem wit_ResetAndHealthResults_fatal : (up.startup == 4 && up.power.overSince == some 5000 && up.power.pacing && decide (up.power.limit < up.power.now) &&
    decide (5000 + 14000000 ≤ ({ up with clock := 14005000 } : State).clock) && up.power.railsBad.contains (3, 5000) && !up.resetLow && up.queues.isEmpty &&
    at_ ts (fun x => x.act != 0 && x.blk.service) && (ts.ctx never).any (fun x => x.act == 0) && up.cfg == some tCfg) = true := by decide +kernel
/-- The last line of presented HBM and the first of tier 2. -/
theorem wit_ResetAndHealthResults_scrub : (up.backed (up.hbmBytes - 128) && (up.hbmBytes - 128) % 128 == 0 && up.backed Config.t2Base &&
    (up.health.counters[1]?).any (fun c => decide (c < 2 ^ 64 - 1)) && (up.health.counters[3]?).isSome) = true := by decide +kernel
/-- One error at each of the last core, cluster, stack and port, with fencing at 1; block 0 runs on core 0. -/
def erring (u : Nat) (n : Nat) : State :=
  { up with health := { Health.reset with unitErrs := [(65536 * u + n, 1)] },
            ports := [(35, { trained := true, lanes := 4, fenced := false, ready := true, peerV := 1, nextSend := 0, nextRecv := 0, discarding := false,
                             unacked := [], credReq := 128, credRep := 128, nakAt := none, retries := 16, sessIn := [], sessOut := [], msg := [],
                             msgLen := 0 })] }
theorem wit_ResetAndHealthResults_port : ((erring 0 0).ports.get 35).any (fun x => !x.fenced && decide (16 ≤ x.retries) && x.lanes == 4 &&
    x.ready) = true := by decide +kernel
theorem wit_ResetAndHealthResults_fence : ((up.unitError 0 639).fenceDue .core 639 && !(up.unitError 0 640).fenceDue .core 640 &&
    (up.unitError 1 159).fenceDue .cluster 159 && (up.unitError 2 15).fenceDue .hbmStack 15 && ((erring 3 35).unitError 3 35).fenceDue .fabricPort 35 &&
    (up.unitError 0 0).fenceDue .core 0 && (up.block 0).any (fun p => p.core == 0 && p.mode != .saving && !p.cancelled && p.aborted == none)) =
    true := by decide +kernel

/-! ### Witnesses: the fabric, sessions, services -/

def fab (typ : Nat) (addr : Nat) (data : List Byte) : FabPacket :=
  { typ := typ, src := 5, dst := 0, path := 15, tag := 9, atop := 0, status := 0, addr := addr, data := data }
def portOf (s : State) (f : FabPort → FabPort) : State := { s with ports := s.ports.mapAll (fun _ x => f x) }
/-- Port 35 expects sequence 0 and waits for the acknowledgement of sequence 4,095. -/
def linked : State := portOf (erring 3 35) (fun x => { x with unacked := [⟨4094, fab 2 0 [], []⟩, ⟨4095, fab 2 0 [], []⟩] })
/-- A sequence with one packet, sealed or not, that acknowledges 4,095. -/
def tSeq (p : FabPacket) (clear : List Byte) (n : Nat) (ctrl : Bool) : List Byte :=
  sequenceBytes (packetHeader p ++ clear ++ packetPlain p)
    { seq := n, ctrl := ctrl, ack := 4095, ackv := true, nak := false, creditReq := 1, creditRep := 255 }
/-- On a port that is not keyed: a good sequence with a SESSION packet of 128 bytes and one with a READ; a damaged one, one that is out
of order, a control sequence. -/
theorem wit_FabricResults_sequence : ((portOf linked (fun x => { x with ready := false })).ports.get 35).any (fun x =>
    x.trained && !x.fenced && x.nextRecv == 0 && x.unacked.any (fun e => e.seq == 4095) &&
    [fab 7 0x800000 (List.replicate 128 3), fab 1 0x10000 (List.replicate 8 0)].all (fun p =>
      let bs := tSeq p [] 0 false
      seqGood bs && !(seqHead bs).ctrl && (seqHead bs).seq == 0 && (match x.parse bs with
        | ([r], rest) => rest.isEmpty && r.formOk && r.packet r.body == p
        | _ => false)) &&
    !seqGood (2 :: (tSeq (fab 1 0 [0]) [] 0 false).drop 1) && (seqHead (tSeq (fab 1 0 [0]) [] 1 false)).seq == 1 &&
    seqGood (tSeq (fab 1 0 [0]) [] 0 true) && (seqHead (tSeq (fab 1 0 [0]) [] 0 true)).ctrl) = true := by decide +kernel
/-- A packet that has arrived and whose turn it is: at this module's memory, and beyond the end of its address space. -/
def arrived (p : FabPacket) : State := { tm with fabIn := [p] }
theorem wit_FabricResults_packets : ([1, 2, 3].all (fun typ => let p := fab typ 0x1FFF8 (List.replicate 8 1)
      let q := fab typ (Config.devEnd) (List.replicate 8 1)
      (arrived p).turn p && (arrived p).homeAddr p.addr 8 && !(arrived p).moving 0x1FFF8 && (arrived q).turn q && !(arrived q).homeAddr q.addr 8 &&
      !(arrived q).homeAddr q.addr 1 && !(arrived q).regAddr q.addr 8 && !(arrived p).packetWaits p && (arrived p).queues.isEmpty &&
      (let r := fab typ Config.devBase (List.replicate 8 1)
       (arrived r).turn r && (arrived r).regAddr r.addr 8)) &&
    (arrived (fab 5 0 [])).markerDue (fab 5 0 []) && (arrived (fab 6 0 [])).fabIn.contains (fab 6 0 [])) = true := by decide +kernel
/-- A reply to a load of another module's line, of each status; one to a write; a SESSION packet at the head of its port. -/
theorem wit_FabricResults_replies :
    let line := lineOf (5 * 2 ^ 45)
    let r := { tReq (.load false 0) 4 [] with line := line, remoteTag := some 9, accs := [⟨0, 0, 5 * 2 ^ 45, 4, []⟩] }
    let s := { arrived (fab 4 0 []) with reqs := [(1, r)] }
    let w := { arrived (fab 4 0 []) with sent := [(9, ⟨0, 0, 0, 7, 0, 2, 0⟩)] }
    (s.fabIn.contains (fab 4 0 []) && s.awaiting (fab 4 0 []) == some (1, r) && r.pol != 3 && w.awaiting (fab 4 0 []) == none &&
      (w.sent.get 9).isSome && ((portOf linked (fun x => { x with sessIn := [fab 7 0 []] })).ports.get 35).any (fun x =>
        x.sessIn.head? == some (fab 7 0 []) && x.message == none)) = true := by decide +kernel

def tHello (lo hi : Nat) (prio : BitVec 8) (fabric : Nat × Nat) : HelloMsg :=
  { head := ⟨0, (msgForm 88).header 0 0⟩, word := 1, nonce := List.replicate 64 1, hostLo := lo, hostHi := hi, fwLo := 1, fwHi := 2,
    fabLo := fabric.1, fabHi := fabric.2, prio := prio, tail := 0 }
def tKey : KeyMsg :=
  { head := ⟨0, (msgForm 1552).header 1 1⟩, word := BitVec.ofNat 64 (natOfBytes (msgWord 3 1)), session := 1, cipher := List.replicate 512 2,
    modulus := List.replicate 512 3, exponent := 65537, tail := 0, signature := List.replicate 512 4 }
def tSession (port : Option Nat) (phase : SessionPhase) : Session :=
  { number := 1, port := port, phase := phase, peerNonce := [], ownNonce := [], hostV := 1, fwV := 2, fabV := 3, prio := 7, lastIn := 0,
    nextOut := 1, keys := [], newKeys := [] }
def tFrame (k : FrameForm) (word counter : Nat) (new : Bool) : FrameHead :=
  { session := 1, head := ⟨0, k.header 1 1⟩, counter := counter, tagOk := true, newKeys := new, word := BitVec.ofNat 64 word }
/-- On port 35, keyed: a WRITE under counter 1, with room for its tag. -/
theorem wit_FabricResults_keyed :
    let s := { linked with sessions := [tSession (some 35) .ready] }
    (s.ports.get 35).any (fun x => x.ready && (s.portSession 35).any (fun k => k.lastIn == 0) &&
      (let bs := tSeq (fab 2 0x10000 (List.replicate 24 7)) (bytesOfNat 1 8) 0 false
       match x.parse bs with
        | ([r], _) => r.formOk && r.counter == 1 && r.body.length == 40
        | _ => false)) = true := by decide +kernel
/-- HELLO at the edges of the version ranges, with priority 7 common and with none; all 16 sessions taken; over the port 35. -/
theorem wit_SessionResults_hello : (decide (¬ max 1 3 ≤ min 2 (tHello 3 4 0x80 (0, 0)).hostHi ∧ max 1 2 ≤ min 2 (tHello 2 9 0x80 (0, 0)).hostHi) &&
    (tHello 1 1 0x80 (0, 0)).prio.getLsbD 7 && (up.cfg.any (fun c => c.pfcMask.getLsbD 7)) && !(tHello 1 1 0x7F (0, 0)).prio.getLsbD 7 &&
    up.startup == 4 && helloOk none (tHello 1 1 0x80 (0, 0)) && !helloOk none (tHello 1 1 0x80 (0, 1)) && !up.foreign (tHello 1 1 0 (0, 0)).head &&
    up.sessions.isEmpty && ((List.replicate 16 (tSession none .ready)).filter (fun x => x.port.isNone)).length == Config.hostSessions &&
    (let m := tHello 1 1 0 (3, 9)
     let s := portOf linked (fun x => { x with msg := [(0, helloBytes m)], msgLen := (helloBytes m).length })
     s.messageIs (some 35) (fun bs => bs == helloBytes m) && helloOk (some 35) m && !helloOk (some 35) { m with tail := 1 } &&
       decide (max 1 m.fabLo ≤ min 3 m.fabHi))) = true := by decide +kernel
theorem wit_SessionResults_key : [none, some 35].all (fun port =>
    (({ up with sessions := [tSession port .offered] } : State).sessions.find? (fun x => x.number = 1 && x.port = port && x.phase == .offered)).isSome) =
    true ∧ up.sessions.find? (fun x => x.number = 1 && x.phase == .offered) = none ∧ keyOk (tSession none .offered) tKey = true ∧
    keyOk (tSession none .offered) { tKey with tail := 1 } = false ∧ up.foreign tKey.head = false ∧
    (let s := portOf linked (fun x => { x with msg := [(0, keyBytes tKey)], msgLen := 1552 })
     s.messageIs (some 35) (fun bs => bs == keyBytes tKey)) = true := by decide +kernel
/-- A peer whose root key hash is in the configuration. -/
theorem wit_SessionResults_known : ∃ c, ({ up with cfg := some { tCfg with peers := [Config.sha512 (peerKey tKey)] } } : State).cfg = some c ∧
    Config.sha512 (peerKey tKey) ∈ c.peers := ⟨_, rfl, List.mem_singleton.2 rfl⟩
/-- Frames whose counter is the next, on a host session: REKEY, CLOSE; one with the last counter, which is not taken. -/
def open_ (s : State) : State := { s with sessions := [tSession none .ready] }
theorem wit_SessionResults_frame : ([(5, 584), (7, 8)].all (fun e =>
      let f := tFrame (msgForm e.2) (natOfBytes (msgWord e.1 1)) 1 false
      (tSession none .ready).takes f ((msgForm e.2).header 1 1) && frameSays f e.1 && !(open_ up).foreign f.head) &&
    !(tSession none .ready).takes (tFrame (msgForm 8) 0 0 false) ((msgForm 8).header 1 1) &&
    ((open_ up).session 1) == some (tSession none .ready) && (up.session 1).isNone && (open_ up).startup == 4 && up.messageIs none (fun _ => false)) =
    true := by decide +kernel
/-- A command frame of 32 words, which fills the ring of queue 5, whose ENABLED bit is set. -/
theorem wit_SessionResults_command :
    let s := State.words (open_ (withPacket [])) (0x40000 + 64 * 5 + 8) [0x20008]
    ((s.queues.get 5).any (fun q => decide (8 * (List.replicate 32 (0 : DWord)).length ≤ 2 ^ q.rsize) && decide (localOf q.ring + 256 ≤ s.descOf 5)) &&
      s.queueEnabled 5 && !(open_ (withPacket [])).queueEnabled 5 && (s.queues.get 6).isNone) = true := by decide +kernel
/-- The services: a session of firmware version 2 without a request; queues that are mapped and not; an object that is loaded, in
use and not, and one that is not there; a hand-over in progress; the bounds of the flash and memory services. -/
theorem wit_ServiceResults : (let s := open_ (withPacket [])
    let o : Object := { asn := 3, va := 0x10000, size := 128, kdesc := 0, kcount := 1, code := 0, binds := [], measured := false }
    let t := { s with objects := [o], dev := { s.dev with tenCfg := s.dev.tenCfg.set 15 0x80000003FFFF0000 },
                      grids := [(0, { tGrid true with asn := 3, kern := { putKern with obj := 0x10000 } })] }
    let asks := fun (r : Service) => (fun (f : FrameHead) => (tSession none .ready).takes f ((FrameForm.mk 3 0 0 (r.length f)).header 1 1) &&
      decide (r.length f ≤ 8192) && f.word.toNat == requestWord 2 r.number && !s.foreign f.head)
      (tFrame ⟨3, 0, 0, r.length (tFrame ⟨3, 0, 0, 16⟩ 0 0 false)⟩ (requestWord 2 r.number) 1 false)
    [Service.attest [], .mapQueue 1023, .unmapQueue 5, .load 3 0x10000 128, .unload 3 0x10000, .registerEmulation 3 7 0x10000 0 1 1, .handover 1,
      .flashWrite 1 0 (List.replicate 33 1), .regRead 0, .regWrite 0 0, .memWrite 0x10000 (List.replicate 16 1), .memRead 0x10000 8,
      .notOffered 0, .notOffered 13].all asks &&
    (s.queues.get 5).any (fun q => q.pending == none && !s.waitFaulted { q with pending := some (.cancel []) }) &&
    s.startup == 4 && s.services.isEmpty && (tSession none .ready).fwV == 2 && (s.queues.get 5).isSome && (s.queues.get 6).isNone &&
    (s.holderOf 3).isNone && (t.holderOf 3) == some 15 && (s.loaded 3 0x10000).isNone && (t.loaded 3 0x10000) == some o &&
    t.grids.any (fun e => !e.2.ended && t.usesObject e.2 o) && !({ tGrid true with asn := 4 } : Grid).ended &&
    !t.usesObject { tGrid true with asn := 4 } o &&
    !s.secure.handover && s.secure.slot == 0 && s.flash.length == 3 && s.svcMem 0x1E018 8160 && !s.svcMem 0x1E018 8168 && (linesFrom 0x1E018 8160).all (fun l => !s.writeWaits (128 * l)) &&
    !s.svcMem 0x1E01C 8 && s.svcMem (s.hbmBytes - 8) 8 && !s.svcMem (s.hbmBytes - 8) 16 && moduleOf 0x1E018 == s.dev.moduleNum &&
    ([0, 13].all (fun n => decide (n = 0 ∨ 12 < n)))) = true := by decide +kernel
/-- Queue 40's descriptor has a ring of 4,096 bytes; every thread is free, and every thread is taken; queue 41's descriptor is zero. -/
theorem wit_ServiceResults_map :
    let s := State.words (open_ (withPacket [])) (0x40000 + 64 * 40) [0x30000, 0x2000C, 0, 0]
    let t := { s with queues := (List.range 32).map (fun i => (i, { tQueue [] with thread := i })) }
    ((s.queueFrom 40 0).isSome && (s.queueFrom 40 31).isSome && (s.queues.get 40).isNone && s.queues.all (fun e => 31 < e.2.thread) &&
      (t.queues.get 40).isNone && (List.range 32).all (fun th => t.queues.any (fun e => e.2.thread == th)) && (s.queueFrom 41 0).isNone) = true := by
  decide +kernel
/-- A hand-over to slot 1 has been accepted, and no packet is in progress. -/
theorem wit_ServiceResults_handover :
    let w : ServiceReq := { session := 1, id := 2, req := .handover 1, begun := true, tags := [] }
    let s := { open_ up with services := [w], secure := { Secure.reset with handover := true } }
    (s.services == [w] && s.secure.handover && s.queues.all (fun e => e.2.pending == none)) = true := by decide +kernel

/-! ### Witnesses: where the forms complete -/

/-- The conditions that no witness of a result statement above shows: a collective's command in another block's queue, a wave that
takes, an event of each kind that waits for a turn, at the ends of their ranges. -/
theorem wit_FormsComplete :
    (tm.ctx never).isSome && at_ tu (fun x => Ctx.names x (trapUses (yf 0 62 0x1FF)) && Ctx.names x [.s 60 1]) &&
    (let s := queues 1 (collCmd false (.collBc 0)) collState
     (s.canBegin 0 3 (fun c => c.isColl && c.fault.isNone)).isSome && (s.canBegin 0 3 (fun c => !c.isColl)).isNone &&
     ((queues 1 { collCmd false (.collBc 0) with kind := .hint 0 0 } collState).canBegin 0 3 (fun c => !c.isColl)).isSome) &&
    (State.withWave { grouped 1 with sheafs := [(63, { sheaf63 1 with lists := [(255, [7])] })] } (fun v =>
      { v with take := [⟨63, 255, 254, 63, 1⟩] })).blocks.all (fun e => e.2.waves.any (fun v => v.take.any (fun k =>
        ({ sheaf63 1 with lists := [(255, [7])] } : Sheaf).takeReady k))) &&
    (grouped 1).quiet 63 && (let r := tReq (.load true 0) 4 []
     (withReq r).loadReady 1 r && (withReq r).myTurn r && ({ withReq r with refillDue := true } : State).refillDue) &&
    ({ up with clock := 14005000 } : State).overlimitDue && ({ up with clock := 1405001 } : State).railDue 3 &&
    (let m : Move := { pte := 0x8008, src := 65536, dst := Config.t2Base, large := false, software := true }
     m.covers 0x1FFFF) && up.up && up.portOf 1 == none && (up.session 1).isNone = true := by decide +kernel

/-! ### Witnesses: the step and the encoding -/

/-- `movi` to v4 of 0xFFFFFFFF, loaded as `withFetchWord` loads it: the wave takes its first slot. -/
def fetched : State := ({ State.reset with startup := 4 } : State).withFetchWord 64 0x3F000002FFFFFFFF
theorem wit_StepRunsDecoded : (!fetched.tickDue && !fetched.fatalDue && ({ fetched with agenda := [] } : State).yielding 1 0 == some [] &&
    !fetched.subBusy 1 0 && !fetched.stays 1 0 && fetched.agenda == [.issue 1 0] && (fetched.block 1).any (fun b => b.live &&
    (fetched.wave 1 0).any (fun v => v.hold == .none && v.issue.isNone && v.heldThread.isNone && v.sleep.isNone && v.trapSet.isNone &&
      v.threads.all (fun t => !t.inHandler && t.st == .running && !t.owed) &&
      match v.positions with
      | [p] => p.slot == 0 && (match fetched.fetch b p.pc with
        | .packet k => packetOk k && groupSlots k.words 0 == [0] && (decode (k.words.getD 0 0)).isSome && v.eligible p (controlOf k.ctl) != 0
        | _ => false)
      | _ => false)) && !(fetched.core 0).fenced && (decode 0).isSome && (decode 0xFF00000000000000).isNone) = true := by decide +kernel
/-- An instruction with an encoding, every operand at its highest value. -/
theorem wit_DecodeOfEncode : (Instr.movi { guard := some { neg := true, p := 3 }, chain := true }
    { d := 254, a := 1, k := true, imm := 0xFFFFFFFF }).wf = true ∧
    (encode (.movi { guard := some { neg := true, p := 3 }, chain := true } { d := 254, a := 1, k := true, imm := 0xFFFFFFFF })).isSome = true := by
  decide
theorem wit_EncodeOfDecode : (decode 0x3F000802FFFFFFFF).isSome = true := by decide
theorem wit_StepKeepsMemoryForm : (tm.memOk && fetched.memOk && (match Machine.step fetched with | .next _ => true | _ => false)) = true := by
  decide +kernel
theorem wit_StepEndsAtRest : fetched.atRest = true := by decide +kernel

/-! ### Decoding: words written out from Tables 3-5 to 3-15 and 4-2 to 4-9 -/

theorem test_decode_engine : decode 0xCA00000800000000 = some (.convDecl plain (ef 0 4 0 0 0)) ∧
    decode 0xE600140408000005 = some (.shfPut plain (ef 10 2 4 0 5)) ∧ decode 0xE700180A000C0005 = some (.shfTake plain (ef 12 5 0 6 5)) ∧
    decode 0xEA00000000000045 = some (.shfDone plain (ef 0 0 0 0 0x45)) ∧ decode 0xC400061014008000 = some (.cpLd plain (ef 3 8 10 0 0x8000)) := by
  decide +kernel
theorem test_decode_system : decode 0xE100000800060000 = some (.barn plain (yf 0 4 3)) ∧ decode 0x0D00000000020000 = some (.rteNext plain (yf 0 0 1)) ∧
    decode 0x10000C0000020000 = some (.sysRd plain (yf 6 0 1)) ∧ decode 0x0B00000000420000 = some (.trap plain (yf 0 0 0x21)) := by decide +kernel
theorem test_decode_memory : decode 0xA000080400590010 = some (.ld plain (mf 4 2 0 false 1 3 1 0x10)) ∧
    decode 0xA4000C040E510000 = some (.atomAdd plain (mf 6 2 7 false 1 2 1 0)) ∧
    decode 0xAD0010040E520040 = some (.red plain (mf 8 2 7 false 1 2 2 0x40)) ∧ decode 0xB100000000000003 = some (.fenceQ plain (mf 0 0 0 false 0 0 0 3)) := by
  decide +kernel
theorem test_decode_control : decode 0x0800000CFFFFFFFE = some (.loop plain (cf 0 6 (-2))) ∧
    decode 0x0184000000000003 = some (.br { guard := some { neg := false, p := 1 }, chain := false } (cf 0 0 3)) ∧
    decode 0 = some (.nop false) := by decide +kernel
theorem test_decode_register : decode 0x2002080A06000400 =
      some (.iadd { plain with chain := true } { d := 4, a := 5, b := .imm 3, c := 0, ty := 0, rm := .rne, sat := false }) ∧
    decode 0x88001008001E0000 =
      some (.qblk plain { d := 8, a := 4, b := .vec 0 .none 0, c := 15, ty := 0, rm := .rne, sat := false }) := by decide +kernel
/-- Unassigned and retired OPs are no instruction but for the two that route to a routine; a reserved lane pattern is refused. -/
theorem test_decode_reserved : decode 0xFF00000000000000 = none ∧ decode 0x1A00000000000000 = none ∧
    (decode 0x1800000000000000).isSome = true ∧ (decode 0xD800000000000000).isSome = true := by decide +kernel

/-! ### WellFormed refuses: one field wrong in each term -/

def vb : A3 := { d := 4, a := 4, b := .vec 4 .none 0, c := 0, ty := 0, rm := .rne, sat := false }
def sb : A3 := { vb with b := .scal 4 }
theorem test_wellformed_refuses_register : ([
    .iadd plain { vb with d := 5, ty := 2 }, .iadd plain { vb with c := 1 }, .iadd plain { vb with rm := .rz },
    .iadd plain { vb with b := .vec 4 .none 1 }, .iadd plain { vb with b := .scal 64 }, .iadd plain { vb with b := .vec 4 .mirror 6 },
    .imulh plain { vb with ty := 2 }, .imulh plain { vb with sat := true }, .iaddc plain { vb with ty := 1, c := 16 },
    .lea plain { vb with c := 64 }, .bfi plain { vb with b := .imm 1 }, .shl plain { vb with ty := 1 },
    .ltab plain { d := 4, a := 4, b := 4, c := 4, ty := 1, scalB := false, tab := 0 },
    .sltab plain { d := 4, a := 4, b := 4, c := 4, ty := 0, scalB := false, tab := 0 },
    .movi plain { d := 5, a := 1, k := false, imm := 0 }, .movi plain { d := 5, a := 0, k := true, imm := 0 },
    .smovi plain { d := 64, a := 0, k := false, imm := 0 }, .icmp plain { vb with c := 6 }, .icmp plain { vb with d := 16 },
    .pand plain { vb with b := .vec 16 .none 0 }, .pand plain { vb with c := 4 }, .movs plain { vb with b := .vec 0 .none 0, c := 32 },
    .sadd plain vb, .sadd plain { sb with d := 64 }, .spec plain (yf 4 1 3), .spec plain (yf 5 0 0x11), .tickRd plain (yf 2 0 0),
    .clk plain (yf 3 1 0), .fadd plain { vb with ty := 5 }, .fadd plain { vb with sat := true }, .fsqrt plain { vb with b := .imm 0 },
    .fdot2 plain { vb with ty := 0 }, .cvtFf plain { vb with b := .vec 0 .none 0, c := 3 }, .qblk plain { vb with b := .vec 0 .none 0, c := 96 },
    .dqblk plain { vb with c := 1 }] : List Instr).all (fun i => !i.wf) = true := by decide
theorem test_wellformed_refuses_memory : ([
    .ld plain (mf 4 2 1 false 1 2 0 0), .ld plain (mf 4 3 0 false 1 2 0 0), .ld plain (mf 5 2 0 false 1 3 0 0), .ld plain (mf 4 2 0 false 0 2 0 0),
    .ld plain (mf 4 2 0 false 1 5 0 0), .ld plain (mf 4 2 0 false 1 2 5 0), .ld plain (mf 64 2 0 true 1 2 0 0),
    .ldBlk plain (mf 4 2 2 false 1 5 0 0), .ldBlk plain (mf 4 2 2 true 1 5 0 0xA000), .st plain (mf 1 2 4 false 1 2 0 0),
    .st plain (mf 0 2 4 false 1 2 1 0), .stBlk plain (mf 0 2 4 true 1 5 0 0), .lds plain (mf 4 2 0 false 1 2 0 0), .sts plain (mf 0 2 4 false 0 2 1 0),
    .atomAdd plain (mf 4 2 4 false 1 1 0 0), .atomAdd plain (mf 4 2 4 false 1 2 4 0), .atomAdd plain (mf 4 2 4 false 3 2 0 0),
    .atomCas plain (mf 4 2 3 false 1 2 0 0), .atomFadd plain (mf 4 2 4 false 1 3 0 0), .red plain (mf 6 2 4 false 1 2 0 0),
    .red plain (mf 0 2 4 false 1 2 1 0), .satom plain (mf 4 2 4 false 0 2 0 0x9000), .phaseCl plain (mf 0 0 0 false 3 0 0 0),
    .phaseOp plain (mf 0 0 0 false 1 0 0 1), .fenceQ plain (mf 0 0 0 false 0 0 0 16), .fenceQ plain (mf 0 0 0 false 0 0 0 32),
    .cinv plain (mf 0 3 0 false 1 0 0 0), .cinvAll plain (mf 0 0 0 false 1 0 0 0), .prefetch plain (mf 0 2 2 false 1 0 0 0),
    .mprobe plain (mf 4 2 0 false 1 1 0 0), .iclLock plain (mf 4 2 4 false 0 0 0 0), .iclFree plain (mf 1 2 4 true 0 0 0 0),
    .iclCount plain (mf 64 0 0 false 0 0 0 0), .monArm plain (mf 0 2 0 true 0 0 0 0), .monWait plain (mf 4 1 4 true 0 0 0 0)] :
    List Instr).all (fun i => !i.wf) = true := by decide
theorem test_wellformed_refuses_engine : ([
    .tileDef plain (ef 64 0 0 0 0), .tileDef plain (ef 0 0 0 0 0x10000), .tileDef plain (ef 0 0 0 0 1), .tileRel plain (ef 0 1 0 0 0),
    .tileWait plain (ef 0 0 0 0 2), .tileQ plain (ef 0 64 0 0 0), .cpLd plain (ef 0 2 2 1 0), .cpLd plain (ef 0 2 2 0 0x1000), .cpGth plain (ef 0 2 2 64 0),
    .cpHint plain (ef 1 2 2 0 0), .cpSet plain (ef 0 2 0 0 2), .collAr plain (ef 0 2 2 2 0x6000), .collAr plain (ef 0 2 2 2 0x1400),
    .collBc plain (ef 0 2 2 2 1), .collWait plain (ef 64 0 0 0 0), .convDecl plain (ef 8 0 0 0 0), .mma plain (ef 4 0 0 0 0), .mma plain (ef 0 0 0 0 0x18001),
    .mmaG plain (ef 0 0 2 0 0), .mmaWait plain (ef 0 0 0 0 1), .accZero plain (ef 0 0 1 0 0), .accLd plain (ef 0 64 0 0 0), .accSt plain (ef 0 0 0 0 3),
    .accStq plain (ef 0 0 64 0 0), .accFlg plain (ef 0 64 0 0 0), .accFclr plain (ef 0 0 0 0 0), .shfPut plain (ef 0 1 0 0 0),
    .shfTake plain (ef 1 0 0 0 0), .shfWait plain (ef 0 0 0 0 64), .shfOpen plain (ef 1 0 0 0 0), .shfDone plain (ef 0 0 0 0 128)] :
    List Instr).all (fun i => !i.wf) = true := by decide
theorem test_wellformed_refuses_system : ([
    .br plain (cf 1 0 0), .brx plain (cf 0 1 0), .brx plain (cf 0 0 2), .call plain (cf 1 0 0), .ret plain (cf 1 0 0), .exit plain (cf 0 0 1),
    .loop plain (cf 0 64 0), .brany plain (cf 0 16 0), .sleep plain (cf 0 0 1048576), .trap plain (yf 0 0 512), .trap plain (yf 0 2 1),
    .brk plain (yf 0 1 0x100), .rte plain (yf 0 0 1), .sysRd plain (yf 0 0 5), .sysRd plain (yf 1 0 1), .sysWr plain (yf 0 0 0),
    .sysWr plain (yf 0 64 0x32), .tlbInvPage plain (yf 0 1 0), .tlbInvAsn plain (yf 0 2 2), .tlbInvAll plain (yf 1 0 3),
    .errRdCounter plain (yf 1 0 0), .halt plain (yf 1 0 0), .bar plain (yf 0 0 1), .barn plain (yf 0 0 16), .barw plain (yf 0 1 0),
    .progAdd plain { d := 0, a := 0, k := true, imm := 1 }, .idemEnd plain (yf 0 0 1), .cancelJob plain (yf 0 0 2), .wvote 0, .mma8 0] :
    List Instr).all (fun i => !i.wf) = true := by decide

/-! ### Single steps, with results worked out by hand -/

/-- A register of lane 0 after an instruction on v4 = `a` and v6 = `b` (v8 = `c`) in lane 0. -/
def gives (i : Instr) (a b c : Word) (r : Nat) : Option Word :=
  match exec i (State.withVectors tu [(128, a), (192, b), (256, c)]) with
  | .next t => vreg t 0 0 r 0
  | _ => none
def op3 (ty : BitVec 3) (sat : Bool) : A3 := { d := 10, a := 4, b := .vec 6 .none 0, c := 0, ty := ty, rm := .rne, sat := sat }

/-- R108, R124: a sum that leaves i32 wraps, or saturates with SA. -/
theorem test_iadd : gives (.iadd plain (op3 0 false)) 0x7FFFFFFF 1 0 10 = some 0x80000000 ∧
    gives (.iadd plain (op3 0 true)) 0x7FFFFFFF 1 0 10 = some 0x7FFFFFFF := by decide +kernel
/-- R125: −1 × 1 = −1, whose high half is all ones; at n32 it is zero. -/
theorem test_imulh : gives (.imulh plain (op3 0 false)) 0xFFFFFFFF 1 0 10 = some 0xFFFFFFFF ∧
    gives (.imulh plain (op3 1 false)) 0xFFFFFFFF 1 0 10 = some 0 := by decide +kernel
/-- R127: −7 / 2 = −3 with remainder −1; a zero divisor gives all ones and the dividend. -/
theorem test_idiv : gives (.idiv plain (op3 0 false)) 0xFFFFFFF9 2 0 10 = some 0xFFFFFFFD ∧
    gives (.idiv plain (op3 0 false)) 7 0 0 10 = some 0xFFFFFFFF := by decide +kernel
theorem test_irem : gives (.irem plain (op3 0 false)) 0xFFFFFFF9 2 0 10 = some 0xFFFFFFFF ∧
    gives (.irem plain (op3 0 false)) 7 0 0 10 = some 7 := by decide +kernel
/-- R126: the carry out of 0xFFFFFFFF + 1 goes to the predicate, the sum is 0. -/
theorem test_iaddc : gives (.iaddc plain { op3 1 false with c := 3 }) 0xFFFFFFFF 1 0 10 = some 0 ∧
    (match exec (.iaddc plain { op3 1 false with c := 3 }) (State.withVectors tu [(128, 0xFFFFFFFF), (192, 1)]) with
      | .next t => pbit t 0 0 0 3 == some true && pbit t 0 0 1 3 == some false
      | _ => false) = true := by decide +kernel
/-- R130: shifts by 32 or more clear, or fill with the sign; a rotation is by the amount mod 32. -/
theorem test_shifts : gives (.shl plain (op3 0 false)) 1 32 0 10 = some 0 ∧ gives (.shr plain (op3 0 false)) 0x80000000 31 0 10 = some 1 ∧
    gives (.sar plain (op3 0 false)) 0x80000000 40 0 10 = some 0xFFFFFFFF ∧ gives (.rot plain (op3 0 false)) 0x80000000 33 0 10 = some 1 := by
  decide +kernel
/-- R131: position 28, length 8: the field is cut at bit 31 and its sign, bit 31, extended. -/
theorem test_bfe : gives (.bfe plain (op3 0 false)) 0xA0000000 0x081C 0 10 = some 0xFFFFFFFA ∧
    gives (.bfe plain (op3 1 false)) 0xA0000000 0x081C 0 10 = some 0xA := by decide +kernel
/-- R128: (1 × 1) + (2 × 2) + (3 × 3) + (−1 × −1) + 5 = 20 at i8. -/
theorem test_idot4 : gives (.idot4 plain { op3 6 false with c := 8 }) 0xFF030201 0xFF030201 5 10 = some 20 := by decide +kernel
/-- R286: 1 + 2^−24 is a tie and rounds to the even 1; the next number up rounds up. Infinity times zero is the canonical NaN. -/
theorem test_fadd : gives (.fadd plain (op3 0 false)) 0x3F800000 0x33800000 0 10 = some 0x3F800000 ∧
    gives (.fadd plain (op3 0 false)) 0x3F800001 0x33800000 0 10 = some 0x3F800002 := by decide +kernel
theorem test_fmul : gives (.fmul plain (op3 0 false)) 0x7F800000 0 0 10 = some 0x7FC00000 ∧
    gives (.fmul plain (op3 0 false)) 0x40000000 0xC0400000 0 10 = some 0xC0C00000 := by decide +kernel
/-- R287: −0 is below +0, and a NaN gives the other operand. -/
theorem test_fmin : gives (.fmin plain (op3 0 false)) 0 0x80000000 0 10 = some 0x80000000 ∧
    gives (.fmin plain (op3 0 false)) 0x7FC00000 0x3F800000 0 10 = some 0x3F800000 := by decide +kernel
/-- R300: 2.5 to an integer rounds to the even 2; −1 to n32 clamps to 0. -/
theorem test_cvtFi : gives (.cvtFi plain { op3 0 false with b := .vec 0 .none 0 }) 0x40200000 0 0 10 = some 2 ∧
    gives (.cvtFi plain { op3 1 false with b := .vec 0 .none 0 }) 0xBF800000 0 0 10 = some 0 := by decide +kernel
/-- R115, R116: `br` by 3 packets from 0x10000 pends a transfer to 0x10060; the guarded form of no lane does nothing. -/
theorem test_br : (match exec (.br plain (cf 0 0 3)) tu with
    | .next t => (t.wave 0 0).any (fun v => v.threads.all (fun y => y.next == some 0x10060))
    | _ => false) = true ∧ (match exec (.br never (cf 0 0 3)) tu with | .next t => t == tu | _ => false) = true := by decide +kernel
/-- R98, R474: v4 of a kernel that declares 4 vector registers is REG_BOUND, with cause 3 and address 4, for every thread. -/
theorem test_reg_bound : (match exec (.iadd plain { op3 0 false with a := 4, d := 3, b := .imm 1 })
      (State.withBlock handled (fun b => { b with kern := { b.kern with vregs := 4 } })) with
    | .next t => (t.wave 0 0).any (fun v => v.cause == 3 && v.taddr == 4 && v.tpc == 0x10008 && v.trapSet == some 0xFFFFFFFF &&
        v.threads.all (fun y => y.pc == 0x11000 && y.inHandler))
    | _ => false) = true := by decide +kernel
/-- R481: `trap 3` of lane 0 alone: cause 0x0D with SUB 3. -/
theorem test_trap : (match exec (.trap { guard := some { neg := false, p := 1 }, chain := false } (yf 0 0 3))
      { handled with cur := some { tCur false 0 with preds := 2 :: List.replicate 31 0 } } with
    | .next t => (t.wave 0 0).any (fun v => v.cause == 0x30D && v.trapSet == some 1 && v.tlanes == 1 &&
        (v.threads.map (fun y => y.inHandler)) == true :: List.replicate 31 false)
    | _ => false) = true := by decide +kernel
/-- R232: a store of 0xAABBCCDD at 0x1007C leaves DD at the lowest address; a load of one byte there, signed, extends it. -/
theorem test_store : (match exec (.writePerform 1 .clean) (withReq (tReq .store 4 [0xDD, 0xCC, 0xBB, 0xAA])) with
    | .next t => byteAt t 0x1007C == 0xDD && byteAt t 0x1007F == 0xAA && byteAt t 0x10080 == 0 && byteAt t 0x1007B == 0
    | _ => false) = true := by decide +kernel
theorem test_load : (match exec (.loadResult 1 .clean) { withReq (tReq (.load true 0) 1 []) with mem := memWrite tm.mem 0x1007C [0x80] } with
    | .next t => vreg t 0 0 255 31 == some 0xFFFFFF80
    | _ => false) = true := by decide +kernel
/-- R195: an atomic add of 5 to 0xFFFFFFFE leaves 3 and keeps the old value. -/
theorem test_atom : (match exec (.writePerform 1 .clean)
      { withReq (tReq (.atomic 0 false) 4 [5, 0, 0, 0]) with mem := memWrite tm.mem 0x1007C [0xFE, 0xFF, 0xFF, 0xFF] } with
    | .next t => t.rd 0x1007C 4 == [3, 0, 0, 0] && (t.reqs.get 1).any (fun r => r.olds == [(31, [0xFE, 0xFF, 0xFF, 0xFF])])
    | _ => false) = true := by decide +kernel
/-- The instruction that `withFetchWord` places is the first one to run: `movi` writes v0 of every lane. -/
theorem test_first_step : (match Machine.step (({ State.reset with startup := 4 } : State).withFetchWord 64 0x3F000000FFFFFFFF) with
    | .next t => vreg t 1 0 0 0 == some 0xFFFFFFFF && vreg t 1 0 0 31 == some 0xFFFFFFFF
    | _ => false) = true := by decide +kernel
/-- The same from reset itself, by the names the host probes. -/
theorem test_probe : decodeTableWord 64 0 = some (.nop false) ∧
    (match Machine.step (State.reset.withFetchWord 64 0) with | .next _ => true | _ => false) = true := by decide +kernel

end Sys2Proof.Tests
end

/-! The module (spec/01, spec/22): the registers after reset (R21) and the fences that fail (R499, R501). -/

namespace Sys2Proof.Proofs

open Sys2Proof.Machine

/-! ### Device registers after reset (R21, R512) -/

theorem devRead_of_regAt {s : State} {o : Nat} {r : DevReg} (h : regAt (o / 8 * 8) = some r) : s.devRead o = s.devValue r := by
  simp [State.devRead, h]

/-- Where the banks of 16 registers stand that Tables 18-5 and 6-4 give a reset value. -/
theorem regAt_banks : ∀ n < 16, regAt (8 * n / 8 * 8) = some (.tenCfg n) ∧
    regAt ((0x2080 + 8 * n) / 8 * 8) = some (.poolLow n) ∧ regAt ((0x2100 + 8 * n) / 8 * 8) = some (.poolHigh n) := by
  decide

theorem reset_tenCfg {n : Nat} (h : n < 16) : State.reset.devValue (.tenCfg n) = 0xFFFF0000 :=
  List.getD_replicate _ h

theorem reset_poolLow {n : Nat} (h : n < 16) : State.reset.devValue (.poolLow n) = 0 :=
  congrArg (BitVec.ofNat 64) (List.getD_replicate _ h)

theorem reset_poolHigh {n : Nat} (h : n < 16) : State.reset.devValue (.poolHigh n) = 1 :=
  congrArg (BitVec.ofNat 64) (List.getD_replicate _ h)

theorem reset_fencedCores : State.reset.fencedCores = 0 := by
  simp [State.fencedCores, State.reset, Health.reset, Tbl.get]

/-- Nothing is fenced, no dump is held and no port runs narrow (Table 22-4; notes/assumptions/5.md). -/
theorem reset_devHealth : State.reset.devHealth = 0 := by
  rw [State.devHealth, reset_fencedCores]
  rfl

/-- Settles O58: the fields by definition, the memory as the empty list that is in canonical form (notes/assumptions/2.md), each
register read as the value of the register that stands at its offset. -/
theorem resetState : Obligations.ResetState := by
  unfold Obligations.ResetState
  refine ⟨rfl, rfl, rfl, rfl, rfl, rfl, rfl, rfl, rfl, rfl, State.reset_wf, rfl, fun n hn => ?banks,
    devRead_of_regAt (r := .powerLimit) rfl, devRead_of_regAt (r := .moduleNum) rfl, devRead_of_regAt (r := .paceActive) rfl,
    devRead_of_regAt (r := .weirDispatch) rfl, devRead_of_regAt (r := .fqSize) rfl, devRead_of_regAt (r := .reedStatus) rfl,
    devRead_of_regAt (r := .moveCtl) rfl, (devRead_of_regAt (r := .devHealth) rfl).trans reset_devHealth⟩
  case banks =>
    obtain ⟨hcfg, hlow, hhigh⟩ := regAt_banks n hn
    exact ⟨(devRead_of_regAt hcfg).trans (reset_tenCfg hn), (devRead_of_regAt hlow).trans (reset_poolLow hn),
      (devRead_of_regAt hhigh).trans (reset_poolHigh hn)⟩

/-! ### The fence of a stack whose neighbour is fenced (R499, R501; notes/assumptions/72.md) -/

/-- A dump goes into tier-2 memory only (R185; notes/assumptions/24.md). -/
theorem dumpFits_below_tier2 {s : State} {base n : Nat} (h : base < Config.t2Base) : s.dumpFits base n = false := by
  simp [State.dumpFits, Nat.not_le.2 h]

theorem fatal_without_dump_area {s : State} {reason arg : Nat} (h : localOf s.health.dumpBase.toNat < Config.t2Base) :
    s.fatal reason arg = s.toReset := by
  simp [State.fatal, dumpFits_below_tier2 h]

theorem fence_stack_of_fenced_neighbour {s : State} {n : Nat} (h : Nat.xor n 1 ∈ s.health.fencedStacks) :
    s.fence .hbmStack n = s.fatal 5 0 := by
  have hfit : s.stackFits n = false := by
    simp only [State.stackFits, List.contains_iff_mem.2 h, Bool.not_true, Bool.false_and]
  simp [State.fence, hfit]

/-- A running module whose stack 1 is fenced, the uncorrectable errors of whose stack 0 have reached the threshold, and whose
DUMP_BASE names no dump area. -/
def neighbourFenced : State :=
  { State.reset with
    startup := 4, resetLow := false,
    cfg := some { mac := 0, etherType := 0, peers := [], pfcMask := 0, coreFence := 1, clusterFence := 1, stackFence := 1, portFence := 1 },
    health := { Health.reset with replace := true, fencedStacks := [1], unitErrs := [(unitKey 2 0, 1)] } }

theorem neighbourFenced_fenceDue : neighbourFenced.fenceDue .hbmStack 0 = true := by decide

theorem neighbourFenced_fence : exec (.unitFence .hbmStack 0) neighbourFenced = .next neighbourFenced.toReset :=
  calc exec (.unitFence .hbmStack 0) neighbourFenced
    _ = .next (neighbourFenced.fence .hbmStack 0) := event_next "UNIT_FENCE" _ _ neighbourFenced_fenceDue
    _ = .next (neighbourFenced.fatal 5 0) := by rw [fence_stack_of_fenced_neighbour (by decide)]
    _ = .next neighbourFenced.toReset := by rw [fatal_without_dump_area (by decide)]

/-- Refutes O49: its clause of UNIT_FENCE says that every stack that is due is fenced and memory kept, but the lines of a stack move
into the pool of its neighbour (Table 22-3), so the fence of stack 0 fails where stack 1 is fenced already, and a failed fence takes
the fatal-error path (R501). -/
theorem not_resetAndHealthResults : ¬ Obligations.ResetAndHealthResults := by
  unfold Obligations.ResetAndHealthResults
  intro h
  obtain ⟨-, -, -, -, -, -, -, -, -, -, -, hfences, -⟩ := h neighbourFenced
  obtain ⟨-, -, hstack, -⟩ := hfences 0
  obtain ⟨t, ht, -, hfenced, -⟩ := hstack neighbourFenced_fenceDue
  obtain rfl : neighbourFenced.toReset = t := by simpa [neighbourFenced_fence] using ht
  exact absurd hfenced (by decide)

end Sys2Proof.Proofs

/-! The execution model (spec/02): a step leaves no issue in progress (notes/assumptions/19.md). -/

namespace Sys2Proof.Proofs

open Sys2Proof.Machine

theorem atRest_iff {s : State} : s.atRest = true ↔ s.cur = none ∧ s.note = .fine := by
  simp [State.atRest]

/-- Two states with one issue context rest together. -/
theorem atRest_of_same_issue {s t : State} (hs : s.atRest = true) (hc : t.cur = s.cur) (hn : t.note = s.note) : t.atRest = true := by
  obtain ⟨hcur, hnote⟩ := atRest_iff.1 hs
  exact atRest_iff.2 ⟨hc.trans hcur, hn.trans hnote⟩

/-- What the module does after an action clears the issue context. -/
theorem atRest_rest (s : State) (h : DWord) : (s.rest h).atRest = true := atRest_iff.2 ⟨rfl, rfl⟩

theorem atRest_toReset (s : State) : s.toReset.atRest = true := atRest_iff.2 ⟨rfl, rfl⟩

theorem setPart_keeps_issue {s t : State} {id : Nat} {m : Lanes} (h : s.setPart id m = some t) : t.cur = s.cur ∧ t.note = s.note := by
  unfold State.setPart at h
  split at h
  · cases h
  · simp only [Option.ite_none_right_eq_some, Option.some.injEq] at h
    obtain ⟨-, rfl⟩ := h
    exact ⟨rfl, rfl⟩

theorem powerCut_atRest {s t : State} (h : s.powerCut = .next t) : t.atRest = true := by
  unfold State.powerCut at h
  split at h
  · cases h
  · obtain ⟨-, rfl⟩ := (event_eq_next _ _ _ _).1 h
    exact atRest_toReset _

/-- An action answers a state that `rest` ends in, or one after reset, or one that an eviction or the choice of lanes of a request
leaves the issue context of. -/
theorem act_atRest {s t : State} {a : Action} (hs : s.atRest = true) (h : s.act a = .next t) : t.atRest = true := by
  cases a with
  | event i =>
    simp only [State.act] at h
    split at h
    · exact Host.Outcome.next.inj h ▸ atRest_rest _ _
    · rename_i hnext; exact absurd h (hnext t)
  | issue b w =>
    simp only [State.act] at h
    split at h
    · exact Host.Outcome.next.inj h ▸ atRest_rest _ _
    · cases h
  | evict c asn v => cases h; exact atRest_of_same_issue hs rfl rfl
  | evictCode c asn v => cases h; exact atRest_of_same_issue hs rfl rfl
  | writeback line => exact Host.Outcome.next.inj h ▸ atRest_rest _ _
  | part id m =>
    simp only [State.act] at h
    split at h
    · rename_i u hu
      cases h
      obtain ⟨hc, hn⟩ := setPart_keeps_issue hu
      exact atRest_of_same_issue hs hc hn
    · cases h
  | decay c corrected => exact Host.Outcome.next.inj h ▸ atRest_rest _ _
  | powerCut => exact powerCut_atRest h
  | clocks n => exact Host.Outcome.next.inj h ▸ atRest_rest _ _

/-- Settles O60: by the branches of a step, each of which ends in `rest` or is an action. -/
theorem stepEndsAtRest : Obligations.StepEndsAtRest := by
  unfold Obligations.StepEndsAtRest
  intro s t hs h
  unfold Machine.step State.stepOf at h
  split at h
  · exact Host.Outcome.next.inj h ▸ atRest_rest _ _
  · split at h
    · exact act_atRest hs h
    · split at h
      · exact Host.Outcome.next.inj h ▸ atRest_rest _ _
      · rename_i rest _
        exact act_atRest (s := { s with agenda := rest }) (atRest_of_same_issue hs rfl rfl) h

end Sys2Proof.Proofs

/-! The execution model (spec/02, spec/07): the requests that a global access presents, and the atomics (R195 to R197, R444). -/

namespace Sys2Proof.Proofs

open Sys2Proof.Machine Sys2Proof.Claims

/-! ### Requests up to what their data may fill (Table 8-2) -/

/-- `t` is `s` but for the caches of its cores and the mark of requests whose data may fill no cache. -/
def FillFrame (s t : State) : Prop :=
  t.reqs.map bareFill = s.reqs.map bareFill ∧ { t with cores := s.cores, reqs := s.reqs } = s

theorem FillFrame.refl (s : State) : FillFrame s s := ⟨rfl, rfl⟩

theorem FillFrame.trans {s t u : State} (h : FillFrame s t) (k : FillFrame t u) : FillFrame s u := by
  obtain ⟨hr, hs⟩ := h
  obtain ⟨kr, ks⟩ := k
  refine ⟨kr.trans hr, ?_⟩
  rw [← hs, ← ks]

/-- The requests of two such states are the same, one by one. -/
theorem FillFrame.get {s t : State} (h : FillFrame s t) (id : Nat) :
    (t.reqs.get id).map (fun r => bareFill (id, r)) = (s.reqs.get id).map (fun r => bareFill (id, r)) := by
  have hmap (a : Tbl Req) : (a.get id).map (fun r => bareFill (id, r)) =
      (Tbl.get (a.map bareFill) id).map (fun r => (id, r)) := by
    rw [show a.map bareFill = Tbl.mapAll a (fun _ r => { r with noFill := false }) from rfl, Tbl.get_mapAll, Option.map_map]
    rfl
  rw [hmap, hmap, h.1]

theorem stale_fillFrame (s : State) (p : Req → Bool) : FillFrame s (s.stale p) := by
  refine ⟨?_, rfl⟩
  simp only [State.stale, Tbl.mapAll, List.map_map]
  refine List.map_congr_left fun e _ => ?_
  simp only [Function.comp, bareFill]
  split <;> rfl

theorem updCore_fillFrame (s : State) (c : Nat) (f : Core → Core) : FillFrame s (s.updCore c f) := ⟨rfl, rfl⟩

theorem l1Drop_fillFrame (s : State) (core : Nat) (p : L1Line → Bool) : FillFrame s (s.l1Drop core p) :=
  (stale_fillFrame _ _).trans (updCore_fillFrame _ _ _)

theorem l1Store_fillFrame (s : State) (core pline off : Nat) (bs : List Byte) : FillFrame s (s.l1Store core pline off bs) := by
  unfold State.l1Store
  simp only []
  split
  · exact (stale_fillFrame _ _).trans (updCore_fillFrame _ _ _)
  · exact stale_fillFrame _ _

theorem foldl_fillFrame {α : Type} (xs : List α) (f : State → α → State) (hf : ∀ t x, FillFrame t (f t x)) (s : State) :
    FillFrame s (xs.foldl f s) := by
  induction xs generalizing s with
  | nil => exact .refl s
  | cons x xs ih => exact (hf s x).trans (ih _)

theorem l1Write_fillFrame (s : State) (core : Nat) (r : Req) : FillFrame s (s.l1Write core r) := by
  unfold State.l1Write
  split
  · exact foldl_fillFrame _ _ (fun t a => l1Store_fillFrame t _ _ _ _) s
  · exact foldl_fillFrame _ _ (fun t a => l1Store_fillFrame t _ _ _ _) s
  · exact l1Drop_fillFrame _ _ _
  · exact l1Drop_fillFrame _ _ _
  · exact l1Drop_fillFrame _ _ _
  · exact .refl s

theorem openAt_fillFrame (s : State) (core scope : Nat) : FillFrame s (s.openAt core scope) := by
  unfold State.openAt
  split
  · exact .refl s
  · exact l1Drop_fillFrame _ _ _

/-! ### Presenting requests (R444) -/

/-- A request that waits in the core joins the requests under the next number; of the rest only the port's counts change. -/
theorem present_unsent (s : State) (r : Req) (h : r.sent = false) :
    FillFrame { s with reqs := s.reqs.put s.nextId r, nextId := s.nextId + 1 } (s.present r) ∧
      (s.present r).reqs = s.reqs.put s.nextId r := by
  unfold State.present
  simp only [h, Bool.false_eq_true, if_false]
  split <;> exact ⟨⟨rfl, rfl⟩, rfl⟩

/-- `t` is `s` with more requests, from number `s.nextId` on, in the caches' and the port's state they leave. -/
structure MoreReqs (s t : State) : Prop where
  next_le : s.nextId ≤ t.nextId
  older : ∀ id, id < s.nextId → (t.reqs.get id).map (fun r => bareFill (id, r)) = (s.reqs.get id).map (fun r => bareFill (id, r))
  rest : { t with cores := s.cores, reqs := s.reqs, nextId := s.nextId } = s

theorem MoreReqs.refl (s : State) : MoreReqs s s := ⟨le_refl _, fun _ _ => rfl, rfl⟩

theorem MoreReqs.trans {s t u : State} (h : MoreReqs s t) (k : MoreReqs t u) : MoreReqs s u where
  next_le := h.next_le.trans k.next_le
  older id hid := (k.older id (hid.trans_le h.next_le)).trans (h.older id hid)
  rest := by rw [← h.rest, ← k.rest]

/-- `t` holds the request `r`, or `r` with the mark that its data fill no cache, under a number from `n` on. -/
def HasReq (t : State) (n : Nat) (r : Req) : Prop :=
  ∃ id, n ≤ id ∧ id < t.nextId ∧ (t.reqs.get id).map (fun q => bareFill (id, q)) = some (bareFill (id, r))

theorem HasReq.of_older {t u : State} {n : Nat} {r : Req} (h : HasReq t n r) (hle : t.nextId ≤ u.nextId)
    (hold : ∀ id, id < t.nextId → (u.reqs.get id).map (fun r => bareFill (id, r)) = (t.reqs.get id).map (fun r => bareFill (id, r))) :
    HasReq u n r := by
  obtain ⟨id, hn, hid, hr⟩ := h
  exact ⟨id, hn, hid.trans_le hle, (hold id hid).trans hr⟩

theorem HasReq.mono {t : State} {m n : Nat} {r : Req} (h : HasReq t n r) (hm : m ≤ n) : HasReq t m r := by
  obtain ⟨id, hn, rest⟩ := h
  exact ⟨id, hm.trans hn, rest⟩

/-- The request that `t` holds differs from `r` in the mark only. -/
theorem HasReq.elim {t : State} {n : Nat} {r : Req} (h : HasReq t n r) : ∃ id q m, t.reqs.get id = some q ∧ n ≤ id ∧ q = { r with noFill := m } := by
  obtain ⟨id, hn, -, hr⟩ := h
  obtain ⟨q, hq, hb⟩ := Option.map_eq_some_iff.1 hr
  refine ⟨id, q, q.noFill, hq, hn, ?_⟩
  have hb : ({ q with noFill := false } : Req) = { r with noFill := false } := congrArg Prod.snd hb
  calc q = { ({ q with noFill := false } : Req) with noFill := q.noFill } := rfl
    _ = _ := by rw [hb]

/-- Presenting one request, with the L1 after it. -/
theorem present_l1Write (s : State) (core : Nat) (r : Req) (h : r.sent = false) :
    MoreReqs s ((s.present r).l1Write core r) ∧ HasReq ((s.present r).l1Write core r) s.nextId r := by
  obtain ⟨hp, hreqs⟩ := present_unsent s r h
  have hf := hp.trans (l1Write_fillFrame (s.present r) core r)
  have hn : ((s.present r).l1Write core r).nextId = s.nextId + 1 := congrArg State.nextId hf.2
  refine ⟨⟨by omega, fun id hid => ?_, ?_⟩, s.nextId, le_refl _, by omega, ?_⟩
  · rw [hf.get, Tbl.get_put_ne _ _ _ _ (by omega)]
  · exact congrArg (fun t : State => { t with reqs := s.reqs, nextId := s.nextId }) hf.2
  · rw [hf.get, Tbl.get_put_self]
    rfl

/-- The groups of accesses that make a request each (R187, R189, R190). -/
def requestGroups (o : OpInfo) (gs : List Got) : List (List Got) :=
  if gs.isEmpty then [] else if o.kind.isBlk then [gs] else if o.kind.isWrite then byHome gs else byLine gs

/-- The request that `presentAll` makes of a group. -/
def groupReq (s : State) (b : Block) (bn wn : Nat) (o : OpInfo) (replayed : Bool) (g : List Got) : Req :=
  let m := mkReq b bn wn o g
  { m with replayed := replayed, pol := if s.region (128 * m.line) = .dev then 3 else m.pol }

theorem mem_groupBy (key : Got → Nat) {gs : List Got} {g : Got} (h : g ∈ gs) : ∃ grp ∈ groupBy key gs, g ∈ grp := by
  refine ⟨gs.filter (fun e => key e = key g), List.mem_map.2 ⟨key g, ?_, rfl⟩, by simp [h]⟩
  exact List.mem_eraseDups.2 (List.mem_map_of_mem h)

theorem mem_requestGroups (o : OpInfo) {gs : List Got} {g : Got} (h : g ∈ gs) : ∃ grp ∈ requestGroups o gs, g ∈ grp := by
  have hne : gs.isEmpty = false := by cases gs <;> simp_all
  simp only [requestGroups, hne, Bool.false_eq_true, if_false]
  split
  · exact ⟨gs, List.mem_singleton_self _, h⟩
  · split
    · exact mem_groupBy _ h
    · exact mem_groupBy _ h

/-- Requests presented one after the other all wait in the core, under numbers from `s.nextId` on. -/
theorem foldl_present (core : Nat) (req : List Got → Req) (hs : ∀ g, (req g).sent = false) (groups : List (List Got)) (s : State) :
    MoreReqs s (groups.foldl (fun t g => (t.present (req g)).l1Write core (req g)) s) ∧
      ∀ g ∈ groups, HasReq (groups.foldl (fun t g => (t.present (req g)).l1Write core (req g)) s) s.nextId (req g) := by
  induction groups generalizing s with
  | nil => exact ⟨.refl s, by simp⟩
  | cons g gs ih =>
    obtain ⟨hmore, hhas⟩ := present_l1Write s core (req g) (hs g)
    obtain ⟨imore, ihas⟩ := ih ((s.present (req g)).l1Write core (req g))
    refine ⟨hmore.trans imore, fun e he => ?_⟩
    rcases List.mem_cons.1 he with rfl | he
    · exact hhas.of_older imore.next_le imore.older
    · exact (ihas e he).mono hmore.next_le

theorem presentAll_more (s : State) (b : Block) (bn wn : Nat) (o : OpInfo) (replayed : Bool) (gs : List Got) :
    MoreReqs s (s.presentAll b bn wn o replayed gs) ∧
      ∀ g ∈ requestGroups o gs, HasReq (s.presentAll b bn wn o replayed gs) s.nextId (groupReq s b bn wn o replayed g) :=
  foldl_present b.core (groupReq s b bn wn o replayed) (fun _ => rfl) (requestGroups o gs) s

/-! ### The translations of an access (R188, R429 to R434) -/

/-- A walk reads memory and the map of modules alone. -/
theorem walkFrom_of_issue (s : State) (bs : Tbl Block) (n va table : Nat) (sb : Bool) (lvl fuel : Nat) :
    ({ s with blocks := bs, nextId := n } : State).walkFrom va table sb lvl fuel = s.walkFrom va table sb lvl fuel := by
  induction fuel generalizing table sb lvl with
  | zero => rfl
  | succ fuel ih =>
    simp only [State.walkFrom, ih]
    rfl

theorem xlateFor_of_issue (s : State) (bs : Tbl Block) (n : Nat) (b : Block) (need : Need) (dev : Bool) (va : Nat) :
    ({ s with blocks := bs, nextId := n } : State).xlateFor b need dev va = s.xlateFor b need dev va := by
  simp only [State.xlateFor, State.xlate, State.leafFor, State.walk, walkFrom_of_issue]
  rfl

/-- What an access is translated to. -/
def GotOf (s : State) (b : Block) (need : Need) (dev : Want → Bool) (w : Want) (g : Got) : Prop :=
  s.xlateFor b need (dev w) w.va.toNat = .ok g.acc.pa g.leaf g.stable ∧ g.acc = w.at_ g.acc.pa

/-- Accesses that all translate leave nothing absent, denied or fatal. -/
theorem checkAll_of_got {s : State} {b : Block} {need : Need} {dev : Want → Bool} {ws : List Want} {gs : List Got}
    (h : List.Forall₂ (GotOf s b need dev) ws gs) :
    s.checkAll b need dev ws = { got := gs, absent := [], denied := [], fatal := [], need := need } := by
  suffices ∀ pre : List Got, ws.foldl (fun (c : Checked) w =>
      match s.xlateFor b need (dev w) w.va.toNat with
      | .ok pa e st => { c with got := c.got ++ [⟨w.at_ pa, e, st⟩] }
      | .absent => { c with absent := c.absent ++ [w] }
      | .denied sub => { c with denied := c.denied ++ [(w, sub)] }
      | .fatal => { c with fatal := c.fatal ++ [w] }) { got := pre, absent := [], denied := [], fatal := [], need := need } =
      { got := pre ++ gs, absent := [], denied := [], fatal := [], need := need } from this []
  induction h with
  | nil => simp
  | cons hg _ ih =>
    intro pre
    simp only [List.foldl_cons, hg.1, ← hg.2, ih, List.append_assoc, List.singleton_append]

theorem translates_got {s : State} {x : Ctx} {need : Need} {dev : Want → Bool} {ws : List Want} {gs : List Got}
    (h : Translates s x need dev ws gs) : List.Forall₂ (GotOf s x.blk need dev) ws gs := by
  obtain ⟨-, -, hlen, hgot⟩ := h
  refine List.forall₂_iff_get.2 ⟨hlen.symm, fun i hw hg => ?_⟩
  obtain ⟨hx, hacc, -⟩ := hgot i ws[i] gs[i] (List.getElem?_eq_getElem hw) (List.getElem?_eq_getElem hg)
  exact ⟨hx, hacc⟩

theorem translates_of_issue {s : State} {x : Ctx} {need : Need} {dev : Want → Bool} {ws : List Want} {gs : List Got}
    (h : Translates s x need dev ws gs) (bs : Tbl Block) (n : Nat) :
    Translates { s with blocks := bs, nextId := n } x need dev ws gs := by
  obtain ⟨hva, hpark, hlen, hgot⟩ := h
  refine ⟨hva, hpark, hlen, fun i w g hw hg => ?_⟩
  rw [xlateFor_of_issue]
  exact hgot i w g hw hg

theorem addressTrap_none {x : Ctx} {scalar : Bool} {ws : List Want}
    (h : ∀ w ∈ ws, canonicalInt w.va = true ∧ canonicalInt (w.va + w.n - 1) = true ∧ w.va % (w.align : Int) = 0) :
    x.addressTrap scalar ws = none := by
  have hbad : ws.filter (fun w => !(canonicalInt w.va && canonicalInt (w.va + w.n - 1))) = [] :=
    List.filter_eq_nil_iff.2 fun w hw => by simp [(h w hw).1, (h w hw).2.1]
  have hodd : ws.filter (fun w => w.va % (w.align : Int) ≠ 0) = [] :=
    List.filter_eq_nil_iff.2 fun w hw => by simp [(h w hw).2.2]
  simp only [Ctx.addressTrap, hbad, hodd]
  rfl

theorem lineParked_of_apart {s : State} {b w lane va : Nat} {scalar : Bool}
    (h : ∀ r ∈ s.replays, r.blk = b → r.wave = w → ∀ a ∈ r.accs, a.va / 128 ≠ va / 128) :
    s.lineParked b w scalar lane va = false := by
  simp only [State.lineParked, List.any_eq_false, Bool.and_eq_true, decide_eq_true_eq, not_and, and_imp, Bool.not_eq_true]
  intro r hr hb hw a ha _ hl
  exact h r hr hb hw a ha hl

/-- A global access all of whose checks pass, a load where it hits no L1 line, is performed. -/
theorem globalAccess_of_translates {s : State} {x : Ctx} {scalar : Bool} {o : OpInfo} {dev : Want → Bool}
    {parks : List Want → List (Int × List Want)} {ws : List Want} {gs : List Got} (h : Translates s x o.need dev ws gs)
    (hmiss : ∀ sgn hint, o.kind = .load sgn hint → ∀ w ∈ ws, s.l1Hit x.blk w.va.toNat = none) (hparks : parks [] = []) :
    s.globalAccess x scalar o dev parks ws =
      s.performGlobal x scalar o [] { got := gs, absent := [], denied := [], fatal := [], need := o.need } [] := by
  have hpark : ∀ w ∈ ws, s.lineParked x.b x.w scalar w.lane w.va.toNat = false :=
    fun w hw => lineParked_of_apart (h.2.1 w hw)
  have hpart : ws.partition (fun w => s.lineParked x.b x.w scalar w.lane w.va.toNat) = ([], ws) := by
    rw [List.partition_eq_filter_filter, List.filter_eq_nil_iff.2 fun w hw => by simp [hpark w hw],
      List.filter_eq_self.2 fun w hw => by simp [hpark w hw]]
  have hgot := checkAll_of_got (translates_got h)
  unfold State.globalAccess
  rw [addressTrap_none h.1]
  simp only [hpart]
  cases hk : o.kind with
  | load sgn hint =>
    have hm := hmiss sgn hint hk
    rw [List.filterMap_eq_nil_iff.2 fun w hw => by simp [hm w hw], List.filter_eq_self.2 fun w hw => by simp [hm w hw], hgot]
    simp [State.checkedAccess, hparks]
  | _ => simp [hgot, State.checkedAccess, hparks]

/-! ### What the issue of a global access keeps (R188) -/

/-- `u` is `s` with more requests from number `s.nextId` on, and with changes of the caches, the TLB, the port's counts and wave `w` of
block `b`, in which only the flags, IDEM and the acquires differ. -/
structure IssueKeeps (b w : Nat) (s u : State) : Prop where
  next_le : s.nextId ≤ u.nextId
  older : ∀ id, id < s.nextId → (u.reqs.get id).map (fun r => bareFill (id, r)) = (s.reqs.get id).map (fun r => bareFill (id, r))
  rest : { u with blocks := s.blocks, reqs := s.reqs, cores := s.cores, tlb := s.tlb, nextId := s.nextId } = s
  block : ∀ c, c ≠ b → u.block c = s.block c
  wave : ∀ v, s.wave b w = some v → ∃ v', u.wave b w = some v' ∧ { v' with busy := v.busy, idem := v.idem, acq := v.acq } = v

theorem IssueKeeps.trans {b w : Nat} {s t u : State} (h : IssueKeeps b w s t) (k : IssueKeeps b w t u) : IssueKeeps b w s u where
  next_le := h.next_le.trans k.next_le
  older id hid := (k.older id (hid.trans_le h.next_le)).trans (h.older id hid)
  rest := by rw [← h.rest, ← k.rest]
  block c hc := (k.block c hc).trans (h.block c hc)
  wave v hv := by
    obtain ⟨v', hv', he⟩ := h.wave v hv
    obtain ⟨v'', hv'', he'⟩ := k.wave v' hv'
    exact ⟨v'', hv'', by rw [← he, ← he']⟩

theorem MoreReqs.blocks {s t : State} (h : MoreReqs s t) : t.blocks = s.blocks := by rw [← h.rest]

theorem MoreReqs.wave_eq {s t : State} (h : MoreReqs s t) (b w : Nat) : t.wave b w = s.wave b w := by
  simp only [State.wave, State.block, h.blocks]

theorem MoreReqs.issueKeeps {s t : State} (h : MoreReqs s t) (b w : Nat) : IssueKeeps b w s t where
  next_le := h.next_le
  older := h.older
  rest := by rw [← h.rest]
  block c _ := congrArg (fun bs : Tbl Block => bs.get c) h.blocks
  wave v hv := ⟨v, (h.wave_eq b w).trans hv, rfl⟩

theorem FillFrame.moreReqs {s t : State} (h : FillFrame s t) : MoreReqs s t where
  next_le := (congrArg State.nextId h.2).ge
  older id _ := h.get id
  rest := congrArg (fun t : State => { t with nextId := s.nextId }) h.2

theorem newId_moreReqs (s : State) : MoreReqs s s.newId.2 := ⟨Nat.le_succ _, fun _ _ => rfl, rfl⟩

theorem ite_tlb_eq (s : State) (c : Prop) [Decidable c] (l : List TlbEntry) :
    ∃ tl, (if c then s else { s with tlb := l }) = { s with tlb := tl } := by
  split
  · exact ⟨s.tlb, rfl⟩
  · exact ⟨l, rfl⟩

theorem tlbFill_eq (s : State) (cl asn root va : Nat) : ∃ tl, s.tlbFill cl asn root va = { s with tlb := tl } := by
  unfold State.tlbFill
  split
  · exact ite_tlb_eq s _ _
  · exact ⟨s.tlb, rfl⟩

theorem fillAll_eq (s : State) (b : Block) (gs : List Got) : ∃ tl, s.fillAll b gs = { s with tlb := tl } := by
  unfold State.fillAll
  generalize s.rootOf b = root
  induction gs generalizing s with
  | nil => exact ⟨s.tlb, rfl⟩
  | cons g gs ih =>
    obtain ⟨tl, ht⟩ := tlbFill_eq s (clusterOf b.core) b.asn root g.acc.va
    obtain ⟨tl', ht'⟩ := ih { s with tlb := tl }
    exact ⟨tl', by rw [List.foldl_cons, ht, ht']⟩

theorem issueKeeps_tlb (s : State) (tl : List TlbEntry) (b w : Nat) : IssueKeeps b w s { s with tlb := tl } :=
  ⟨le_refl _, fun _ _ => rfl, rfl, fun _ _ => rfl, fun v hv => ⟨v, hv, rfl⟩⟩

theorem issueKeeps_updWave (s : State) (b w : Nat) (f : Wave → Wave)
    (hf : ∀ v, { f v with busy := v.busy, idem := v.idem, acq := v.acq } = v) : IssueKeeps b w s (s.updWave b w f) where
  next_le := le_refl _
  older _ _ := rfl
  rest := rfl
  block c hc := s.block_updWave_ne b w c f hc
  wave v hv := ⟨f v, by rw [State.wave_updWave_self, hv]; rfl, hf v⟩

/-- An operation one of whose results is outstanding is not over. -/
theorem finishOp_of_outstanding {s : State} {b w op core id : Nat} {r : Req} (hr : s.reqs.get id = some r)
    (h : r.op = op ∧ r.blk = b ∧ r.wave = w ∧ r.cmd = none ∧ r.kind.returns = true ∧ r.replayed = false) :
    s.finishOp b w op core = s := by
  obtain ⟨hop, hb, hw, hcmd, hret, hrep⟩ := h
  have hmem := Tbl.mem_of_get _ _ _ hr
  have hout : s.reqs.any (fun e => e.2.op = op && e.2.blk = b && e.2.wave = w && e.2.kind.returns && !e.2.replayed) = true :=
    List.any_eq_true.2 ⟨_, hmem, by simp [hop, hb, hw, hret, hrep]⟩
  have hreads : s.readsOut b w = true := by
    unfold State.readsOut
    rw [List.any_eq_true.2 ⟨_, hmem, by simp [hb, hw, hcmd, hret]⟩, Bool.true_or]
  simp only [State.finishOp, hout, Bool.true_or, if_true, State.settleAcq, hreads, Bool.or_true]
  split <;> rfl

theorem settleAcq_issueKeeps (s : State) (b w core : Nat) : IssueKeeps b w s (s.settleAcq b w core) ∧
    ∀ v, s.wave b w = some v → ∃ as_, (s.settleAcq b w core).wave b w = some { v with acq := as_ } := by
  unfold State.settleAcq
  split
  · exact ⟨(MoreReqs.refl s).issueKeeps b w, fun v hv => ⟨v.acq, hv⟩⟩
  · rename_i v hv
    split
    · exact ⟨(MoreReqs.refl s).issueKeeps b w, fun v hv => ⟨v.acq, hv⟩⟩
    · have hopen := (foldl_fillFrame v.acq (fun t e => t.openAt core e.2) (fun t e => openAt_fillFrame t core e.2) s).moreReqs
      refine ⟨(hopen.issueKeeps b w).trans (issueKeeps_updWave _ b w _ fun _ => rfl), fun v hv => ⟨[], ?_⟩⟩
      rw [State.wave_updWave_self, hopen.wave_eq, hv]
      rfl

/-- Whatever the end of an operation does to its wave, the IDEM bit stays. -/
theorem finishOp_issueKeeps (s : State) (b w op core : Nat) : IssueKeeps b w s (s.finishOp b w op core) ∧
    ∀ v, s.wave b w = some v → ∃ bs as_, (s.finishOp b w op core).wave b w = some { v with busy := bs, acq := as_ } := by
  unfold State.finishOp
  simp only []
  split
  · obtain ⟨hk, hv⟩ := settleAcq_issueKeeps s b w core
    exact ⟨hk, fun v h => ⟨v.busy, hv v h⟩⟩
  · obtain ⟨hk, hv⟩ := settleAcq_issueKeeps (s.clearFlag b w op) b w core
    refine ⟨(issueKeeps_updWave s b w (fun v => { v with busy := v.busy.filter (fun e => e.2 ≠ op) }) fun _ => rfl).trans hk, fun v h => ?_⟩
    obtain ⟨as_, h'⟩ := hv _ (by rw [State.clearFlag, State.wave_updWave_self, h]; rfl)
    exact ⟨_, as_, h'⟩

/-- The wave that an operation of the kind of `o` leaves as its requests are presented: the slot's flag, where it returns a value, and
its acquire. -/
def beginsOp (x : Ctx) (o : OpInfo) (v : Wave) : Wave :=
  { v with busy := (if o.kind.returns then (if x.c.flag = 0 then v.busy else v.busy ++ [(x.c.flag, o.op)]) else v.busy),
           acq := (if o.acqScope = 0 then v.acq else v.acq ++ [(o.op, o.acqScope)]) }

theorem setFlag_issueKeeps (s : State) (x : Ctx) (op : Nat) : IssueKeeps x.b x.w s (x.setFlag op s) ∧
    (x.setFlag op s).nextId = s.nextId ∧ ∀ v, s.wave x.b x.w = some v →
      (x.setFlag op s).wave x.b x.w = some { v with busy := if x.c.flag = 0 then v.busy else v.busy ++ [(x.c.flag, op)] } := by
  unfold Ctx.setFlag State.setFlag
  split
  · exact ⟨(MoreReqs.refl s).issueKeeps _ _, rfl, fun v hv => hv⟩
  · refine ⟨issueKeeps_updWave s _ _ _ fun _ => rfl, rfl, fun v hv => ?_⟩
    rw [State.wave_updWave_self, hv]
    rfl

/-- A performed access that clears no IDEM bit and parks no lane: its flag and its acquire are noted, its requests are presented, then
its operation may be over at once. -/
theorem performGlobal_begins {s : State} {x : Ctx} (scalar : Bool) {o : OpInfo} {gs : List Got} (need : Need)
    (hidem : ∀ t : State, t.storeIdem x.b x.w o.kind gs = t) :
    ∃ t : State, s.performGlobal x scalar o [] { got := gs, absent := [], denied := [], fatal := [], need := need } [] =
        ((t.presentAll x.blk x.b x.w o false gs).finishOp x.b x.w o.op x.blk.core).sendDue x.b x.w ∧
      IssueKeeps x.b x.w s t ∧ t.nextId = s.nextId ∧ ∀ v, s.wave x.b x.w = some v → t.wave x.b x.w = some (beginsOp x o v) := by
  obtain ⟨tl, htl⟩ := fillAll_eq s x.blk gs
  have hfill := issueKeeps_tlb s tl x.b x.w
  obtain ⟨t₁, ht₁, hk₁, hn₁, hw₁⟩ : ∃ t₁ : State,
      (if o.kind.returns then x.setFlag o.op { s with tlb := tl } else { s with tlb := tl }) = t₁ ∧ IssueKeeps x.b x.w s t₁ ∧
      t₁.nextId = s.nextId ∧ ∀ v, s.wave x.b x.w = some v → t₁.wave x.b x.w =
        some { v with busy := if o.kind.returns then (if x.c.flag = 0 then v.busy else v.busy ++ [(x.c.flag, o.op)]) else v.busy } := by
    refine ⟨_, rfl, ?_⟩
    split
    · obtain ⟨hk, hn, hw⟩ := setFlag_issueKeeps { s with tlb := tl } x o.op
      exact ⟨hfill.trans hk, hn, hw⟩
    · exact ⟨hfill, rfl, fun v hv => hv⟩
  obtain ⟨t₂, ht₂, hk₂, hn₂, hw₂⟩ : ∃ t₂ : State,
      (if o.acqScope = 0 then t₁ else t₁.updWave x.b x.w (fun v => { v with acq := v.acq ++ [(o.op, o.acqScope)] })) = t₂ ∧
      IssueKeeps x.b x.w s t₂ ∧ t₂.nextId = s.nextId ∧ ∀ v, s.wave x.b x.w = some v → t₂.wave x.b x.w = some (beginsOp x o v) := by
    refine ⟨_, rfl, ?_⟩
    split
    · rename_i ha
      exact ⟨hk₁, hn₁, fun v hv => by simpa [beginsOp, ha] using hw₁ v hv⟩
    · rename_i ha
      refine ⟨hk₁.trans (issueKeeps_updWave _ _ _ _ fun _ => rfl), hn₁, fun v hv => ?_⟩
      rw [State.wave_updWave_self, hw₁ v hv]
      simp [beginsOp, ha]
  refine ⟨t₂, ?_, hk₂, hn₂, hw₂⟩
  unfold State.performGlobal
  simp only [htl, hidem, ht₁, ht₂]
  rfl

/-- THE REQUESTS OF A GLOBAL ACCESS whose checks have all passed, from the state `s` in which it takes its operation's number. -/
theorem performGlobal_presented {s s₁ : State} {x : Ctx} (scalar : Bool) {o : OpInfo} {gs : List Got} (need : Need) {v : Wave}
    (hidem : ∀ t : State, t.storeIdem x.b x.w o.kind gs = t) (hs : IssueKeeps x.b x.w s s₁) (hn : s₁.nextId = s.nextId + 1)
    (hop : o.op = s.nextId) (hx : s.wave x.b x.w = some x.wv) (hv : s₁.wave x.b x.w = some v) (hbusy : v.busy = x.wv.busy)
    (hgs : gs ≠ []) :
    ∃ u v', s₁.performGlobal x scalar o [] { got := gs, absent := [], denied := [], fatal := [], need := need } [] = u.sendDue x.b x.w ∧
      Presented s u x o.kind o.dst o.after o.acqScope o.rel gs ∧ u.wave x.b x.w = some v' ∧ v'.idem = v.idem := by
  obtain ⟨t, ht, hkt, hnt, hwt⟩ := performGlobal_begins (s := s₁) scalar need hidem
  obtain ⟨hmore, hhas⟩ := presentAll_more t x.blk x.b x.w o false gs
  obtain ⟨hkf, hwf⟩ := finishOp_issueKeeps (t.presentAll x.blk x.b x.w o false gs) x.b x.w o.op x.blk.core
  have hw : (t.presentAll x.blk x.b x.w o false gs).wave x.b x.w = some (beginsOp x o v) := (hmore.wave_eq _ _).trans (hwt v hv)
  obtain ⟨bs, as_, hwu⟩ := hwf _ hw
  have hkeeps := ((hs.trans hkt).trans (hmore.issueKeeps _ _)).trans hkf
  obtain ⟨v', hv', hrest⟩ := hkeeps.wave _ hx
  refine ⟨_, v', ht, ⟨fun g hg => ?_, hkeeps.older, hkeeps.rest, hkeeps.block, v', hv', hrest, fun hret => ?_⟩, hv', ?_⟩
  · obtain ⟨grp, hgrp, hmem⟩ := mem_requestGroups o hg
    obtain ⟨id, r, m, hr, hid, rfl⟩ := ((hhas grp hgrp).of_older hkf.next_le hkf.older).elim
    exact ⟨id, _, hr, by omega, hop, rfl, rfl, rfl, rfl, rfl, rfl, rfl, rfl, rfl, List.mem_map_of_mem hmem⟩
  · obtain ⟨g, hg⟩ := List.exists_mem_of_ne_nil gs hgs
    obtain ⟨grp, hgrp, -⟩ := mem_requestGroups o hg
    obtain ⟨id, r, m, hr, -, rfl⟩ := (hhas grp hgrp).elim
    have hover := finishOp_of_outstanding (b := x.b) (w := x.w) (op := o.op) (core := x.blk.core) hr ⟨rfl, rfl, rfl, rfl, hret, rfl⟩
    rw [hover, hw] at hv'
    cases hv'
    simp [beginsOp, hret, hbusy, hop]
  · rw [hwu] at hv'
    cases hv'
    rfl

/-! ### Atomics and reductions (R46, R195 to R197) -/

theorem any_of_act {x : Ctx} (h : x.act ≠ 0) : x.any = true := bne_iff_ne.2 h

theorem accessLanes_ne_nil {x : Ctx} {f : MFmt} (h : x.act ≠ 0) : x.accessLanes f ≠ [] := by
  unfold Ctx.accessLanes
  split
  · simp [any_of_act h]
  · obtain ⟨l, hl, hbit⟩ : ∃ l, ∃ hl : l < 32, x.act[l] = true := by
      by_contra hno
      refine h (BitVec.eq_of_getElem_eq fun l hl => ?_)
      simpa using fun hb => hno ⟨l, hl, hb⟩
    exact List.ne_nil_of_mem (List.mem_filter.2 ⟨List.mem_range.2 hl, by simpa [hasLane, hl] using hbit⟩)

theorem wave_of_ctx {s : State} {h : Head} {x : Ctx} (hx : s.ctx h = some x) : s.wave x.b x.w = some x.wv := by
  obtain ⟨-, hb, hw, -⟩ := s.ctx_some h x hx
  rw [State.wave, show s.block x.b = some x.blk from hb]
  exact hw

theorem wants_ne_nil {x : Ctx} {f : MFmt} (h : x.act ≠ 0) (n data r : Nat) : x.wants f n data r ≠ [] := by
  simpa [Ctx.wants] using accessLanes_ne_nil h

theorem gots_ne_nil {s : State} {x : Ctx} {need : Need} {dev : Want → Bool} {ws : List Want} {gs : List Got}
    (h : Translates s x need dev ws gs) (hws : ws ≠ []) : gs ≠ [] := by
  rw [← List.length_pos_iff] at hws ⊢
  exact h.2.2.1 ▸ hws

/-- The kind of an `atom` or a `red`. -/
def atomicKind (op : Nat) (uns returns : Bool) : ReqKind := if returns then .atomic op uns else .red op uns

/-- The operation of an `atom` or `red`, under the number it takes (R195 to R197). -/
def atomicInfo (s : State) (x : Ctx) (f : MFmt) (op : Nat) (returns : Bool) : OpInfo :=
  { x.info f (opInfo s.nextId (atomicKind op f.uns returns) (if returns then f.dst else .none) 0 Need.rmw) with
    afterLines := (if f.ht.getLsbD 1 then x.wv.closeLines else []),
    after := (if f.ht.getLsbD 1 then s.writesOut x.b x.w else []),
    rel := (if f.ht.getLsbD 1 then f.scope else 0), acqScope := (if f.ht.getLsbD 0 then f.scope else 0) }

theorem atomicInfo_fields (s : State) (x : Ctx) (f : MFmt) (op : Nat) (returns : Bool) :
    (atomicInfo s x f op returns).op = s.nextId ∧ (atomicInfo s x f op returns).kind = atomicKind op f.uns returns ∧
      (atomicInfo s x f op returns).dst = (if returns then f.dst else .none) ∧ (atomicInfo s x f op returns).need = Need.rmw := by
  unfold atomicInfo Ctx.info
  split <;> exact ⟨rfl, rfl, rfl, rfl⟩

theorem storeIdem_atomicKind (s : State) (b w op : Nat) (uns returns : Bool) (gs : List Got) :
    s.storeIdem b w (atomicKind op uns returns) gs = s := by
  cases returns <;> rfl

theorem atomicKind_not_load (op : Nat) (uns returns sgn : Bool) (hint : Nat) : atomicKind op uns returns ≠ .load sgn hint := by
  cases returns <;> nofun

/-- An atomic or reduction whose accesses all pass clears IDEM and presents its requests. -/
theorem atomic_presented {s : State} {x : Ctx} {f : MFmt} {op : Nat} {gs : List Got} (returns : Bool)
    (hx : s.wave x.b x.w = some x.wv) (hact : x.act ≠ 0)
    (h : Translates s x Need.rmw (fun _ => false) (x.wants f f.n (opBytes op f.n) f.b.toNat) gs) :
    ∃ u v', x.atomic f op returns s = u.sendDue x.b x.w ∧
      Presented s u x (atomicKind op f.uns returns) (if returns then f.dst else .none)
        (if f.ht.getLsbD 1 then s.writesOut x.b x.w else []) (if f.ht.getLsbD 0 then f.scope else 0)
        (if f.ht.getLsbD 1 then f.scope else 0) gs ∧
      u.wave x.b x.w = some v' ∧ v'.idem = false := by
  obtain ⟨hop, hkind, hdst, hneed⟩ := atomicInfo_fields s x f op returns
  have hgo : x.atomic f op returns s = (x.clearIdem s.newId.2).globalAccess x f.ak (atomicInfo s x f op returns) (fun _ => false)
      parkEach (x.wants f f.n (opBytes op f.n) f.b.toNat) := rfl
  have htr : Translates (x.clearIdem s.newId.2) x (atomicInfo s x f op returns).need (fun _ => false)
      (x.wants f f.n (opBytes op f.n) f.b.toNat) gs := hneed ▸ translates_of_issue h _ _
  have hidem (t : State) : t.storeIdem x.b x.w (atomicInfo s x f op returns).kind gs = t := hkind ▸ storeIdem_atomicKind t _ _ _ _ _ _
  have hkeeps : IssueKeeps x.b x.w s (x.clearIdem s.newId.2) :=
    ((newId_moreReqs s).issueKeeps _ _).trans (issueKeeps_updWave _ _ _ _ fun _ => rfl)
  have hwave : (x.clearIdem s.newId.2).wave x.b x.w = some { x.wv with idem := false } := by
    rw [Ctx.clearIdem, State.wave_updWave_self, (newId_moreReqs s).wave_eq, hx]
    rfl
  obtain ⟨u, v', hu, hp, hw, hi⟩ := performGlobal_presented f.ak (atomicInfo s x f op returns).need hidem hkeeps rfl hop hx hwave rfl
    (gots_ne_nil h (wants_ne_nil hact _ _ _))
  rw [hkind, hdst] at hp
  refine ⟨u, v', ?_, hp, hw, hi⟩
  rw [hgo, globalAccess_of_translates htr (fun sgn hint he => absurd (hkind.symm.trans he) (atomicKind_not_load _ _ _ _ _)) rfl, hu]

/-- One `atom` of Table 7-3: with no active thread it only clears IDEM, else it presents its requests. -/
theorem atomOp_results {s : State} {h : Head} {f : MFmt} {x : Ctx} {gs : List Got} (name : String) (op : Nat) (hx : s.ctx h = some x)
    (hu : firstBeyond x.blk.kern (f.uses (wdRegs f.wd) 2 (opBytes op (wdRegs f.wd))) = none) :
    (x.act = 0 → atomOp name op h f s = .next (s.updWave x.b x.w (fun v => { v with idem := false }))) ∧
    (x.act ≠ 0 → x.wv.acq = [] →
      Translates s x Need.rmw (fun _ => false) (x.wants f f.n (opBytes op f.n) f.b.toNat) gs →
      ∃ u v', atomOp name op h f s = .next (u.sendDue x.b x.w) ∧
        Presented s u x (.atomic op f.uns) f.dst (if f.ht.getLsbD 1 then s.writesOut x.b x.w else [])
          (if f.ht.getLsbD 0 then f.scope else 0) (if f.ht.getLsbD 1 then f.scope else 0) gs ∧
        u.wave x.b x.w = some v' ∧ v'.idem = false) := by
  have hgo := issueOp_next name h false _ (fun x s => if x.any then x.afterAcq (x.atomic f op true) s else x.clearIdem s) s x hx
    (by simp) hu
  refine ⟨fun hact => ?_, fun hact hacq htr => ?_⟩
  · have hany : x.any = false := by simp [Ctx.any, hact]
    rw [atomOp, hgo, hany]
    rfl
  · obtain ⟨u, v', hu, hp, hw, hi⟩ := atomic_presented true (wave_of_ctx hx) hact htr
    refine ⟨u, v', ?_, hp, hw, hi⟩
    rw [atomOp, hgo]
    simp only [any_of_act hact, if_true, Ctx.afterAcq, hacq, List.isEmpty_nil, hu]

/-- Settles O22: each form is `atomOp` or the reduction, whose requests `atomic_presented` gives. -/
theorem atomicIssue : Obligations.AtomicIssue := by
  unfold Obligations.AtomicIssue
  intro s h f x gs hx
  refine ⟨atomOp_results _ 0 hx, atomOp_results _ 1 hx, atomOp_results _ 2 hx, atomOp_results _ 3 hx, atomOp_results _ 4 hx,
    atomOp_results _ 5 hx, atomOp_results _ 6 hx, atomOp_results _ 7 hx, atomOp_results _ 8 hx, fun hu hact hacq htr => ?_⟩
  obtain ⟨u, v', hu', hp, hw, hi⟩ := atomic_presented false (wave_of_ctx hx) hact htr
  have hgo := issueOp_next "RED" h false _ (fun x s => if x.any then x.atomic f f.d.toNat false s else x.clearIdem s) s x hx (by simp) hu
  rw [hacq] at hp
  refine ⟨u, v', Eq.trans (show exec (.red h f) s = _ from hgo) ?_, hp, hw, hi⟩
  simp only [any_of_act hact, if_true, hu']

end Sys2Proof.Proofs

/-! The execution model (spec/02): waits and sleeps begin and end (R35, R36, R121, R122). -/

namespace Sys2Proof.Proofs

open Sys2Proof.Machine Sys2Proof.Claims

/-! ### Sets of lanes -/

theorem foldl_lanes_testBit (p : Nat → Bool) (n : Nat) :
    (List.range n).foldl (fun a l => if p l then a + 2 ^ l else a) 0 < 2 ^ n ∧
      ∀ i, ((List.range n).foldl (fun a l => if p l then a + 2 ^ l else a) 0).testBit i = (decide (i < n) && p i) := by
  induction n with
  | zero => simp
  | succ n ih =>
    obtain ⟨hlt, hbit⟩ := ih
    rw [List.range_succ, List.foldl_append]
    simp only [List.foldl_cons, List.foldl_nil]
    have hpow : 2 ^ (n + 1) = 2 ^ n + 2 ^ n := by ring
    refine ⟨by split <;> omega, fun i => ?_⟩
    have hn : (n < n) = False := by simp
    rcases Nat.lt_trichotomy i n with h | rfl | h
    · split
      · rw [Nat.add_comm, Nat.testBit_two_pow_add_gt h, hbit]
        simp [h, Nat.lt_succ_of_lt h]
      · rw [hbit]
        simp [h, Nat.lt_succ_of_lt h]
    · split
      · rename_i hp
        rw [Nat.add_comm, Nat.testBit_two_pow_add_eq, hbit]
        simp [hp]
      · rename_i hp
        rw [hbit]
        simp [hp]
    · have hi : ¬ i < n + 1 := by omega
      have hbig : 2 ^ (n + 1) ≤ 2 ^ i := Nat.pow_le_pow_right (by decide) h
      rw [Nat.testBit_lt_two_pow (lt_of_lt_of_le (by split <;> omega) hbig)]
      simp [hi]

theorem hasLane_lanesOf (p : Nat → Bool) (l : Nat) : hasLane (lanesOf p) l = (decide (l < 32) && p l) := by
  rw [hasLane, lanesOf, BitVec.getLsbD_ofNat, laneList, (foldl_lanes_testBit p 32).2]
  cases decide (l < 32) <;> simp

theorem hasLane_lanesWith (v : Wave) (p : Thread → Bool) (l : Nat) :
    hasLane (v.lanesWith p) l = true ↔ l < 32 ∧ ∃ t, v.threads[l]? = some t ∧ p t = true := by
  rw [Wave.lanesWith, hasLane_lanesOf]
  cases v.threads[l]? <;> simp

/-! ### Threads whose wait ends (R35, R36) -/

theorem resume_of_calm {t : Thread} (h : t.exiting = false ∧ t.ret = none ∧ t.owed = false) : t.resume = resumed t := by
  obtain ⟨hexit, hret, howed⟩ := h
  have hwake : t.wake = { t with st := .running } := by simp [Thread.wake, howed]
  unfold Thread.resume resumed
  rw [hwake]
  by_cases hslot : t.slot < 3
  · simp [hslot, Nat.not_le.2 hslot]
  · simp [hslot, Nat.not_lt.1 hslot, Thread.leave, hexit, hret]

theorem resumed_st (y : Thread) : (resumed y).st = .running := by
  unfold resumed
  split <;> rfl

theorem endTrap_eq (v : Wave) : ∃ ts, v.endTrap = { v with trapSet := ts } := by
  unfold Wave.endTrap
  split
  · exact ⟨v.trapSet, rfl⟩
  · split
    · exact ⟨none, rfl⟩
    · exact ⟨v.trapSet, rfl⟩

theorem wave_updBlock_noteBarriers (s : State) (b w : Nat) : (s.updBlock b Block.noteBarriers).wave b w = s.wave b w := by
  rw [State.wave, State.block_updBlock_self, State.wave]
  cases s.block b <;> rfl

/-- The wave once threads have left a packet, or waits, of it: its trap may have ended. -/
def settled (m : Lanes) (v : Wave) : Wave := { v.endTrap with cancels := v.cancels.map (fun e => (e.1, e.2 &&& ~~~m)) }

/-- The block with the barriers looked at, once the threads `m` of a wave have left a packet, or wait, of it. -/
def looked (s : State) (b w : Nat) (m : Lanes) : State := (s.updWave b w (settled m)).updBlock b Block.noteBarriers

theorem wave_looked {s : State} {b w : Nat} {v : Wave} (m : Lanes) (hv : s.wave b w = some v) :
    (looked s b w m).wave b w = some (settled m v) := by
  rw [looked, wave_updBlock_noteBarriers, State.wave_updWave_self, hv]
  rfl

theorem runCancels_of_none {s : State} {b w : Nat} {v : Wave} (hv : s.wave b w = some v) (hc : v.cancels = []) :
    s.runCancels b w = s.updWave b w (fun x => { x with cancels := x.cancels.filter (fun e => e.2 ≠ 0) }) := by
  obtain ⟨p, hp, -⟩ := Option.bind_eq_some_iff.1 hv
  simp only [State.runCancels, hv, hp, hc, List.filter_nil, List.foldl_nil]

/-- Of a wave that has asked for no cancellation and has not finished, only the trap and the barriers of its block are looked at. -/
theorem settle_of_calm {s : State} {b w : Nat} {v : Wave} (m : Lanes) (hv : s.wave b w = some v) (hc : v.cancels = [])
    (hf : v.finished = false) :
    s.settle b w m = (looked s b w m).updWave b w (fun x => { x with cancels := x.cancels.filter (fun e => e.2 ≠ 0) }) := by
  obtain ⟨ts, hts⟩ := endTrap_eq v
  have hw := wave_looked m hv
  have hfin : (settled m v).finished = false := by simpa [settled, hts, Wave.finished] using hf
  have hcan : (settled m v).cancels = [] := by simp [settled, hc]
  change State.runCancels (match (looked s b w m).wave b w with
    | some wv => if wv.finished then ((looked s b w m).dropSheafBits b w).breakConvs b w else looked s b w m
    | none => looked s b w m) b w = _
  simp only [hw, hfin, Bool.false_eq_true, if_false]
  exact runCancels_of_none hw hcan

/-- What `settle` leaves of such a wave and of the module. -/
theorem settle_calm_keeps {s : State} {b w : Nat} {v : Wave} (m : Lanes) (hv : s.wave b w = some v) (hc : v.cancels = [])
    (hf : v.finished = false) : ∃ ts, (s.settle b w m).wave b w = some { v with trapSet := ts } ∧
      (s.settle b w m).mem = s.mem ∧ (s.settle b w m).reqs = s.reqs ∧ ∀ c, c ≠ b → (s.settle b w m).block c = s.block c := by
  obtain ⟨ts, hts⟩ := endTrap_eq v
  rw [settle_of_calm m hv hc hf]
  refine ⟨ts, ?_, rfl, rfl, fun c hne => ?_⟩
  · rw [State.wave_updWave_self, wave_looked m hv]
    simp [settled, hts, hc]
  · rw [State.block_updWave_ne _ _ _ _ _ hne, looked, State.block_updBlock_ne _ _ _ _ hne, State.block_updWave_ne _ _ _ _ _ hne]

theorem resumeLanes_calm {s : State} {b w : Nat} {v : Wave} (m : Lanes) (hv : s.wave b w = some v) (hcalm : Calm v)
    (hlive : ∃ t ∈ v.threads, t.st ≠ .exited) :
    ∃ ts, (s.resumeLanes b w m).wave b w =
        some { v with threads := v.threads.mapIdx (fun l y => if hasLane m l then resumed y else y), trapSet := ts } ∧
      (s.resumeLanes b w m).mem = s.mem ∧ (s.resumeLanes b w m).reqs = s.reqs ∧
      ∀ c, c ≠ b → (s.resumeLanes b w m).block c = s.block c := by
  obtain ⟨hcan, -, hthreads⟩ := hcalm
  have hmap : v.updLanes m Thread.resume =
      { v with threads := v.threads.mapIdx (fun l y => if hasLane m l then resumed y else y) } := by
    have hts : v.threads.mapIdx (fun l y => if hasLane m l then y.resume else y) =
        v.threads.mapIdx (fun l y => if hasLane m l then resumed y else y) :=
      List.ext_getElem (by simp) fun i hi _ => by
        simp only [List.getElem_mapIdx, resume_of_calm (hthreads _ (List.getElem_mem (by simpa using hi)))]
    rw [Wave.updLanes, hts]
  have hw : (s.updWave b w (fun x => x.updLanes m Thread.resume)).wave b w = some (v.updLanes m Thread.resume) := by
    rw [State.wave_updWave_self, hv]
    rfl
  have hf : (v.updLanes m Thread.resume).finished = false := by
    obtain ⟨t, ht, hst⟩ := hlive
    obtain ⟨i, hi, rfl⟩ := List.getElem_of_mem ht
    rw [hmap]
    refine List.all_eq_false.2 ⟨if hasLane m i then resumed v.threads[i] else v.threads[i], List.mem_mapIdx.2 ⟨i, hi, rfl⟩, ?_⟩
    split
    · simp [resumed_st]
    · simpa using hst
  obtain ⟨ts, hwave, hmem, hreqs, hblock⟩ := settle_calm_keeps (v.atEnd m) hw hcan hf
  simp only [State.resumeLanes, hv]
  exact ⟨ts, by rw [hwave, hmap], hmem, hreqs, fun c hne => (hblock c hne).trans (s.block_updWave_ne _ _ _ _ hne)⟩

/-- R35, R36: waits end, and RCV_RELEASE ends those of a wave all of whose non-exited threads wait at an `rcv`. -/
theorem waitsEnd : WaitsEnd := by
  intro s b w v hv hcalm hlive
  refine ⟨fun m => ?_, fun hall => ⟨v.lanesWith (fun t => t.st == .waiting .rcv), fun l hl => ?_, ?_⟩⟩
  · obtain ⟨ts, hwave, hmem, hreqs, hblock⟩ := resumeLanes_calm m hv hcalm hlive
    exact ⟨_, hwave, rfl, rfl, rfl, rfl, rfl, hmem, hreqs, hblock⟩
  · rw [hasLane_lanesWith]
    simp [hl]
  · obtain ⟨t, ht, hst⟩ := hlive
    have hfin : v.finished = false := List.all_eq_false.2 ⟨t, ht, by simpa using hst⟩
    have hready : v.rcvReady = true := by
      simp only [Wave.rcvReady, hfin, Bool.not_false, Bool.true_and, List.all_eq_true]
      intro y hy
      rcases hall y hy with h | h
      · simp [h]
      · simp [h, (hcalm.2.2 y hy).2.2]
    show execRcvRelease b w s = _
    simp only [execRcvRelease, hv]
    exact event_next _ _ _ hready

/-! ### `rcv`, `yield` and `sleep` (R35, R121, R122) -/

/-- A form of an active wave that reads no register has its effect. -/
theorem waveOp_next {s : State} {h : Head} {x : Ctx} (hx : s.ctx h = some x) (name : String) (body : Ctx → State → State) :
    issueOp name h false [] (waveOp body) s = .next (if x.act = 0 then s else body x s) := by
  rw [issueOp_next name h false [] (waveOp body) s x hx (by simp) rfl]
  by_cases hact : x.act = 0 <;> simp [waveOp, Ctx.any, hact]

theorem waitAndSleepResults : WaitAndSleepResults := by
  intro s h f x hx
  have hyield : exec (.yield h f) s = _ := waveOp_next hx "YIELD" fun x => x.endRun
  have hsleep : exec (.sleep h f) s = _ := waveOp_next hx "SLEEP" fun x s =>
    if f.offp = 0 then x.endRun s else s.updWave x.b x.w (fun w => w.nap (s.clock + f.offp.toNat) x.c.pc)
  refine ⟨issueOp_next "RCV" h false [] (fun x => x.makeWait x.act .rcv) s x hx (by simp) rfl, fun hact => ?_, fun hact => ?_,
    fun b w v n hv hn hle => ?_⟩
  · rw [hyield, hsleep, if_pos hact, if_pos hact]
    exact ⟨rfl, rfl⟩
  · rw [hyield, hsleep, if_neg hact, if_neg hact]
    exact ⟨rfl, fun hz => by rw [if_pos hz]; rfl, fun hz => by rw [if_neg hz]; rfl⟩
  · show execSleepEnd b w s = _
    simp only [execSleepEnd, hv, Option.bind_some, hn]
    exact event_next _ _ _ (decide_eq_true hle)

/-- Settles O27. -/
theorem waitResults : Obligations.WaitResults := ⟨waitAndSleepResults, waitsEnd⟩

end Sys2Proof.Proofs

/-! The execution model (spec/02, spec/14): what a write at the home leaves of the module, and a grid's completion (R31, R359, R365). -/

namespace Sys2Proof.Proofs

open Sys2Proof.Machine Sys2Proof.Claims

/-! ### Writes at the home (R163 to R174, R232) -/

/-- Waves of `s` stand in `t` as they were, but for what their monitors saw. -/
def SameWaves (s t : State) : Prop := ∀ b w v, s.wave b w = some v → ∃ m, t.wave b w = some { v with mon := m }

theorem SameWaves.of_blocks {s t : State} (h : t.blocks = s.blocks) : SameWaves s t := fun b w v hv =>
  ⟨v.mon, by simpa only [State.wave, State.block, h] using hv⟩

theorem SameWaves.trans {s t u : State} (h : SameWaves s t) (k : SameWaves t u) : SameWaves s u := fun b w v hv => by
  obtain ⟨m, hm⟩ := h b w v hv
  obtain ⟨m', hm'⟩ := k b w _ hm
  exact ⟨m', hm'⟩

/-- `t` is `s` but for memory with its caches and controllers, and the monitors of waves, which saw the write. -/
structure HomeFrame (s t : State) : Prop where
  rest : { t with mem := s.mem, lag := s.lag, l2 := s.l2, reed := s.reed, fresh := s.fresh, blocks := s.blocks } = s
  keys : t.blocks.map Prod.fst = s.blocks.map Prod.fst
  waves : SameWaves s t

theorem HomeFrame.of_blocks {s t : State}
    (h : { t with mem := s.mem, lag := s.lag, l2 := s.l2, reed := s.reed, fresh := s.fresh, blocks := s.blocks } = s)
    (hb : t.blocks = s.blocks) : HomeFrame s t := ⟨h, by rw [hb], .of_blocks hb⟩

theorem HomeFrame.refl (s : State) : HomeFrame s s := .of_blocks rfl rfl

theorem HomeFrame.trans {s t u : State} (h : HomeFrame s t) (k : HomeFrame t u) : HomeFrame s u where
  rest := by rw [← h.rest, ← k.rest]
  keys := k.keys.trans h.keys
  waves := h.waves.trans k.waves

theorem HomeFrame.queues {s t : State} (h : HomeFrame s t) : t.queues = s.queues := by rw [← h.rest]
theorem HomeFrame.dev {s t : State} (h : HomeFrame s t) : t.dev = s.dev := by rw [← h.rest]
theorem HomeFrame.grids {s t : State} (h : HomeFrame s t) : t.grids = s.grids := by rw [← h.rest]
theorem HomeFrame.graphs {s t : State} (h : HomeFrame s t) : t.graphs = s.graphs := by rw [← h.rest]
theorem HomeFrame.disp {s t : State} (h : HomeFrame s t) : t.disp = s.disp := by rw [← h.rest]

theorem ite_homeFrame {s t u : State} (c : Prop) [Decidable c] (ht : HomeFrame s t) (hu : HomeFrame s u) :
    HomeFrame s (if c then t else u) := by
  split
  · exact ht
  · exact hu

theorem mem_homeFrame (s : State) (m : List Host.Cell) : HomeFrame s { s with mem := m } := .of_blocks rfl rfl

theorem reed_homeFrame (s : State) (f : Reed → Reed) : HomeFrame s (s.setReed f) := .of_blocks rfl rfl

theorem lag_homeFrame (s : State) (lag : Tbl Lag) (fresh : Nat) : HomeFrame s { s with lag := lag, fresh := fresh } := .of_blocks rfl rfl

theorem commitLine_homeFrame (s : State) (line job : Nat) : HomeFrame s (s.commitLine line job) := by
  unfold State.commitLine
  simp only []
  have htouch : HomeFrame s (s.touchFrame line) := reed_homeFrame s _
  refine HomeFrame.trans ?_ (reed_homeFrame _ _)
  split
  · exact (htouch.trans (reed_homeFrame _ _)).trans (lag_homeFrame _ _ _)
  · split
    · exact (htouch.trans (reed_homeFrame _ _)).trans (lag_homeFrame _ _ _)
    · exact htouch.trans (lag_homeFrame _ _ _)

theorem writeBack_homeFrame (s : State) (line : Nat) : HomeFrame s (s.writeBack line) := by
  unfold State.writeBack
  split
  · exact ite_homeFrame _ (.refl s) (commitLine_homeFrame s _ _)
  · exact .refl s

theorem l2Put_homeFrame (s : State) (line way : Nat) (a : Alloc) : HomeFrame s (s.l2Put line way a) := .of_blocks rfl rfl

theorem l2Evict_homeFrame {s t : State} {line : Nat} (h : s.l2Evict line = some t) : HomeFrame s t := by
  unfold State.l2Evict at h
  split at h
  · cases h
  · obtain rfl := Option.some.inj h
    exact (writeBack_homeFrame s line).trans (.of_blocks rfl rfl)

theorem l2Alloc_homeFrame (s : State) (line : Nat) (a : Alloc) : HomeFrame s (s.l2Alloc line a) := by
  unfold State.l2Alloc
  simp only []
  split
  · exact l2Put_homeFrame s _ _ a
  · split
    · split
      · rename_i t ht
        exact (l2Evict_homeFrame ht).trans (l2Put_homeFrame t _ _ a)
      · exact .refl s
    · exact .refl s

theorem l2Access_homeFrame (s : State) (line : Nat) (a : Alloc) : HomeFrame s (s.l2Access line a) := by
  have ht : HomeFrame s (s.touchFrame line) := .of_blocks rfl rfl
  unfold State.l2Access
  split
  · exact .of_blocks rfl rfl
  · exact ite_homeFrame _ ht (ht.trans (l2Alloc_homeFrame _ line a))

theorem l2Touch_homeFrame (s : State) (pa : Nat) (a : Alloc) : HomeFrame s (s.l2Touch pa a) :=
  ite_homeFrame _ (l2Access_homeFrame s _ a) (.refl s)

theorem putDirty_homeFrame (s : State) (line job : Nat) (before : List Byte) (lagging : Bool) :
    HomeFrame s (s.putDirty line job before lagging) := by
  unfold State.putDirty
  exact ite_homeFrame _ ((lag_homeFrame s _ _).trans (commitLine_homeFrame _ _ _)) (lag_homeFrame s _ _)

theorem mapAll_keys {α : Type} (t : Tbl α) (f : Nat → α → α) : (t.mapAll f).map Prod.fst = t.map Prod.fst := by
  simp [Tbl.mapAll]

theorem wave_monSees (v : Wave) (line : Nat) (self : Bool) : ∃ m, v.monSees line self = { v with mon := m } := by
  unfold Wave.monSees
  split
  · split
    · exact ⟨_, rfl⟩
    · exact ⟨v.mon, rfl⟩
  · exact ⟨v.mon, rfl⟩

theorem monSees_waves (s : State) (line : Nat) (who : Option (Nat × Nat)) : SameWaves s (s.monSees line who) := fun b w v hv => by
  obtain ⟨p, hp, hw⟩ := Option.bind_eq_some_iff.1 hv
  obtain ⟨m, hm⟩ := wave_monSees v line (who == some (b, w))
  refine ⟨m, ?_⟩
  rw [State.wave, State.block, State.monSees, Tbl.get_mapAll, show s.blocks.get b = some p from hp]
  have hw : p.waves[w]? = some v := hw
  simp [Block.wave, List.getElem?_mapIdx, hw, hm]

theorem monSees_homeFrame (s : State) (line : Nat) (who : Option (Nat × Nat)) : HomeFrame s (s.monSees line who) :=
  ⟨rfl, by simp only [State.monSees, mapAll_keys], monSees_waves s line who⟩

theorem rawWrite_homeFrame (s : State) (pa : Nat) (bs : List Byte) (a : Alloc) (who : Option (Nat × Nat)) (job : Nat) :
    HomeFrame s (s.rawWrite pa bs a who job) := by
  have hm : HomeFrame s { s.l2Touch pa a with mem := memWrite (s.l2Touch pa a).mem pa bs } :=
    (l2Touch_homeFrame s pa a).trans (mem_homeFrame _ _)
  unfold State.rawWrite
  exact (ite_homeFrame _ (hm.trans (putDirty_homeFrame _ _ _ _ _)) hm).trans (monSees_homeFrame _ _ _)

/-- A write that overlaps no mapped queue's descriptor. -/
theorem homeWrite_apart {s : State} {pa : Nat} {bs : List Byte} (a : Alloc) (who : Option (Nat × Nat)) (job : Nat)
    (h : ∀ e ∈ s.queues, pa + bs.length ≤ s.descOf e.1 ∨ s.descOf e.1 + 64 ≤ pa) :
    s.homeWrite pa bs a who job = s.rawWrite pa bs a who (s.chargedJob pa job) := by
  have hf := rawWrite_homeFrame s pa bs a who (s.chargedJob pa job)
  have hq : (s.rawWrite pa bs a who (s.chargedJob pa job)).queues = s.queues := hf.queues
  have hd : (s.rawWrite pa bs a who (s.chargedJob pa job)).dev = s.dev := hf.dev
  unfold State.homeWrite
  simp only [ite_eq_left_iff, State.descWritten]
  intro _
  rw [List.filter_eq_nil_iff.2 ?_]
  · rfl
  · intro e he
    have := h e (hq ▸ he)
    simp only [State.descOf, hd, Bool.and_eq_true, decide_eq_true_eq, not_and, not_lt] at this ⊢
    omega

/-! ### The command processor's accesses (R359) -/

theorem region_congr {s t : State} (hd : t.dev = s.dev) (hp : t.ports = s.ports) (hc : t.presented = s.presented) (pa : Nat) :
    t.region pa = s.region pa := by
  unfold State.region State.hasRoute State.paths State.portFenced State.hbmBytes
  rw [hd, hp, hc]

/-- A translation outside every cluster reads memory, the map of modules and the presented capacity alone. -/
theorem cpAccess_congr {s t : State} (hm : t.mem = s.mem) (hd : t.dev = s.dev) (hp : t.ports = s.ports) (hc : t.presented = s.presented)
    (b : Binding) (user : Bool) (need : Need) (va : Nat) : t.cpAccess b user need va = s.cpAccess b user need va := by
  have hregion := region_congr hd hp hc
  have hbacked (pa : Nat) : t.backed pa = s.backed pa := by unfold State.backed; rw [hregion]
  have hread (a : Nat) : t.rd64 a = s.rd64 a := by unfold State.rd64 State.rdNat State.rd; rw [hm]
  have hwalk (table : Nat) (sb : Bool) (lvl fuel : Nat) : t.walkFrom va table sb lvl fuel = s.walkFrom va table sb lvl fuel := by
    induction fuel generalizing table sb lvl with
    | zero => rfl
    | succ fuel ih => simp only [State.walkFrom, hbacked, hread, ih]
  have hx : t.xlate none b.asn b.root user need va = s.xlate none b.asn b.root user need va := by
    unfold State.xlate State.leafFor State.walk
    simp only [Option.bind_none, hwalk, hregion]
  unfold State.cpAccess
  simp only [hx, hregion, State.allocIn, State.tenCfg, hd]

/-! ### The counters of graphs and jobs (R28, R360) -/

theorem meetWaits_eq (s : State) : ∃ qs, s.meetWaits = { s with queues := qs } ∧ qs.map Prod.fst = s.queues.map Prod.fst :=
  ⟨_, rfl, mapAll_keys _ _⟩

theorem reapJobs_eq (s : State) : ∃ qs js,
    s.reapJobs = { s with queues := qs, graphs := s.graphs.filter (fun g => !(g.closed && g.left = 0)), jobs := js } ∧
      qs.map Prod.fst = s.queues.map Prod.fst := by
  unfold State.reapJobs
  obtain ⟨qs, hqs, hkeys⟩ := meetWaits_eq s
  simp only [hqs]
  generalize hu : State.meetWaits _ = u
  obtain ⟨qs', hqs', hkeys'⟩ := hu ▸ meetWaits_eq _
  exact ⟨qs', _, by rw [hqs'], hkeys'.trans hkeys⟩

/-- A grid that ends lowers the counters of its graph and job; the queues stay where they are. -/
theorem leaveGraph_eq (s : State) (job graph : Nat) : ∃ qs gs js, s.leaveGraph job graph = { s with queues := qs, graphs := gs, jobs := js } ∧
    qs.map Prod.fst = s.queues.map Prod.fst ∧
    ∀ k ∈ s.graphs, k.job = job → k.number = graph → k.closed = false → { k with left := k.left - 1 } ∈ gs := by
  unfold State.leaveGraph
  obtain ⟨qs, js, h, hkeys⟩ := reapJobs_eq { s with graphs := s.graphs.map (fun g =>
    if g.job = job && g.number = graph then { g with left := g.left - 1 } else g) }
  refine ⟨qs, _, js, h, hkeys, fun k hk hjob hnum hopen => List.mem_filter.2 ⟨List.mem_map.2 ⟨k, hk, ?_⟩, ?_⟩⟩
  · simp [hjob, hnum]
  · simp [hopen]

/-! ### GRID_COMPLETE (R31, R359, R365) -/

theorem noteHead_eq (s : State) : ∃ d : Dispatcher, s.noteHead = { s with disp := d } ∧ d.held = s.disp.held := by
  unfold State.noteHead
  split
  · exact ⟨s.disp, rfl, rfl⟩
  · exact ⟨_, rfl, rfl⟩

theorem bytesOfNat_length (n k : Nat) : (bytesOfNat n k).length = k := by
  induction k generalizing n with
  | zero => rfl
  | succ k ih => simp [bytesOfNat, ih]

/-- A write of the command processor in this module, apart from the mapped queues' descriptors. -/
theorem cpWrite_own {s : State} {pa : Nat} (va : Nat) (al : Alloc) (v : DWord) (job : Nat) (hown : s.isOwn pa = true)
    (hq : ∀ e ∈ s.queues, localOf pa + 8 ≤ s.descOf e.1 ∨ s.descOf e.1 + 64 ≤ localOf pa) :
    HomeFrame s (s.cpWrite pa va al v job) ∧ (s.cpWrite pa va al v job).mem = memWrite s.mem (localOf pa) (bytesOfNat v.toNat 8) := by
  have hlen := bytesOfNat_length v.toNat 8
  unfold State.cpWrite
  rw [if_pos hown, homeWrite_apart al none job (by rw [hlen]; exact hq)]
  exact ⟨rawWrite_homeFrame _ _ _ _ _ _, State.rawWrite_mem _ _ _ _ _ _⟩

/-- The grid with the miss of its bound noted as it completes. -/
def missNoted (s : State) (gr : Grid) : Grid := { gr with missed := gr.missed || s.overBound gr }

/-- The status word of a finished grid is written where its record stands in this module (Table 2-3). -/
theorem writeRecord_own {s : State} {g : Nat} {gr : Grid} {pa : Nat} {al : Alloc} (hg : s.grids.get g = some gr)
    (hpa : s.cpAccess { root := gr.root, asn := gr.asn, ten := gr.ten, job := gr.job } gr.user Need.store gr.recVa = .ok pa al)
    (hown : s.isOwn pa = true) (hq : ∀ e ∈ s.queues, localOf pa + 8 ≤ s.descOf e.1 ∨ s.descOf e.1 + 64 ≤ localOf pa) :
    ∃ u f, s.writeRecord g = u.forgetGrid g ∧ HomeFrame (s.updGrid g f) u ∧
      u.mem = memWrite s.mem (localOf pa) (bytesOfNat (missNoted s gr).status.toNat 8) := by
  have hacc : (s.updGrid g (fun _ => { missNoted s gr with recFault := none })).cpAccess
      { root := gr.root, asn := gr.asn, ten := gr.ten, job := gr.job } gr.user Need.store gr.recVa = .ok pa al :=
    (cpAccess_congr rfl rfl rfl rfl _ _ _ _).trans hpa
  obtain ⟨hframe, hmem⟩ := cpWrite_own (s := s.updGrid g (fun _ => { missNoted s gr with recFault := none })) gr.recVa al
    (missNoted s gr).status gr.job hown hq
  refine ⟨_, _, ?_, hframe, hmem⟩
  unfold State.writeRecord
  simp only [hg]
  change (match (s.updGrid g (fun _ => { missNoted s gr with recFault := none })).cpAccess
      { root := gr.root, asn := gr.asn, ten := gr.ten, job := gr.job } gr.user Need.store gr.recVa with
    | .ok pa al => _ | .refused => _ | .fatal => _ | .absent => _) = _
  rw [hacc]
  rfl

theorem missNoted_status (s : State) (gr : Grid) : (missNoted s gr).status = BitVec.ofNat 64 (gr.trapcode * 2 ^ 24 + gr.aborts * 2 ^ 16 +
    gr.preempted.toNat * 2 ^ 6 + (gr.missed || (gr.bounded && gr.release.elim false (fun r => gr.bound * 1400 < s.clock - r))).toNat * 2 ^ 5 +
    gr.dataLoss.toNat * 2 ^ 4 + (if gr.cancelled then 2 else if gr.anyAbort then 3 else 1)) := by
  have hb (b : Bool) : b2n b = b.toNat := by cases b <;> rfl
  simp only [Grid.status, missNoted, State.overBound, hb]
  rfl

/-- The machine once a grid is done and no longer the dispatcher's. -/
def takenOut (s : State) (g : Nat) : State :=
  (s.updDisp (fun d => { d with held := d.held.filter (· ≠ g), reserves := d.reserves.filter (fun r => r.grid ≠ g) })).updGrid g
    (fun x => { x with place := .done })

theorem takenOut_get (s : State) (g : Nat) : (takenOut s g).grids.get g = (s.grids.get g).map (fun x => { x with place := .done }) :=
  Tbl.get_upd_self s.grids g _

theorem takenOut_get_ne (s : State) {g n : Nat} (h : n ≠ g) : (takenOut s g).grids.get n = s.grids.get n :=
  Tbl.get_upd_ne s.grids g n _ h

/-- What the writing of a record in this module leaves, up to the dispatcher's view of its head. -/
theorem recordWritten {s : State} {g : Nat} {gr : Grid} {pa : Nat} {al : Alloc} (hg : s.grids.get g = some gr)
    (hpa : s.cpAccess { root := gr.root, asn := gr.asn, ten := gr.ten, job := gr.job } gr.user Need.store gr.recVa = .ok pa al)
    (hown : s.isOwn pa = true) (hq : ∀ e ∈ s.queues, localOf pa + 8 ≤ s.descOf e.1 ∨ s.descOf e.1 + 64 ≤ localOf pa) :
    ∃ t, (s.writeRecord g).noteHead = t ∧ t.grids.get g = none ∧ (∀ n, n ≠ g → t.grids.get n = s.grids.get n) ∧
      t.disp.held = s.disp.held ∧ t.blocks.map Prod.fst = s.blocks.map Prod.fst ∧ t.graphs = s.graphs ∧
      t.mem = memWrite s.mem (localOf pa) (bytesOfNat (missNoted s gr).status.toNat 8) := by
  obtain ⟨u, f, hwrite, hframe, hmem⟩ := writeRecord_own hg hpa hown hq
  obtain ⟨d, hnote, hheld⟩ := noteHead_eq (u.forgetGrid g)
  refine ⟨{ u.forgetGrid g with disp := d }, by rw [hwrite, hnote], Tbl.get_del_self _ _, fun n hn => ?_, ?_, hframe.keys,
    hframe.graphs, hmem⟩
  · calc (u.grids.del g).get n = u.grids.get n := Tbl.get_del_ne _ _ _ hn
      _ = (s.grids.upd g f).get n := by rw [hframe.grids]; rfl
      _ = s.grids.get n := Tbl.get_upd_ne _ _ _ _ hn
  · exact hheld.trans (congrArg Dispatcher.held hframe.disp)

/-- The grid's own counters fall before its record is written, with the other units as they were. -/
theorem leaveGraph_takenOut (s : State) (g job graph : Nat) : ∃ t, (takenOut s g).leaveGraph job graph = t ∧
    t.grids = (takenOut s g).grids ∧ t.disp = (takenOut s g).disp ∧ t.blocks = s.blocks ∧ t.mem = s.mem ∧ t.dev = s.dev ∧
    t.ports = s.ports ∧ t.presented = s.presented ∧ t.clock = s.clock ∧ t.queues.map Prod.fst = s.queues.map Prod.fst ∧
    ∀ k ∈ s.graphs, k.job = job → k.number = graph → k.closed = false → { k with left := k.left - 1 } ∈ t.graphs := by
  obtain ⟨qs, gs, js, hleave, hkeys, hgraphs⟩ := leaveGraph_eq (takenOut s g) job graph
  exact ⟨_, hleave, rfl, rfl, rfl, rfl, rfl, rfl, rfl, rfl, hkeys, hgraphs⟩

/-- A finished grid whose record stands in this module leaves the machine. -/
theorem finishGrid_own {s : State} {g : Nat} {gr : Grid} {pa : Nat} {al : Alloc} (hg : s.grids.get g = some gr)
    (hpa : s.cpAccess { root := gr.root, asn := gr.asn, ten := gr.ten, job := gr.job } gr.user Need.store gr.recVa = .ok pa al)
    (hown : s.isOwn pa = true) (hq : ∀ e ∈ s.queues, localOf pa + 8 ≤ s.descOf e.1 ∨ s.descOf e.1 + 64 ≤ localOf pa) :
    ∃ t, s.finishGrid g gr = t ∧ t.grids.get g = none ∧ (∀ n, n ≠ g → t.grids.get n = s.grids.get n) ∧
      g ∉ t.disp.held ∧ t.blocks.map Prod.fst = s.blocks.map Prod.fst ∧
      t.mem = memWrite s.mem (localOf pa) (bytesOfNat (missNoted s gr).status.toNat 8) ∧
      ∀ k ∈ s.graphs, k.job = gr.job → k.number = gr.graph → k.closed = false → { k with left := k.left - 1 } ∈ t.graphs := by
  obtain ⟨u, hleave, hgrids, hdisp, hblocks, hmem, hdev, hports, hpres, hclock, hkeys, hgraphs⟩ :=
    leaveGraph_takenOut s g gr.job gr.graph
  have hg' : u.grids.get g = some { gr with place := .done } := by rw [hgrids, takenOut_get, hg]; rfl
  have hdesc (n : Nat) : u.descOf n = s.descOf n := by rw [State.descOf, State.descOf, hdev]
  have hq' : ∀ e ∈ u.queues, localOf pa + 8 ≤ u.descOf e.1 ∨ u.descOf e.1 + 64 ≤ localOf pa := fun e he => by
    obtain ⟨e', he', hkey⟩ := List.mem_map.1 (hkeys ▸ List.mem_map_of_mem he : e.1 ∈ s.queues.map Prod.fst)
    rw [hdesc, ← hkey]
    exact hq e' he'
  have hown' : u.isOwn pa = true := by rw [State.isOwn, hdev]; exact hown
  obtain ⟨t, ht, hnone, hothers, hheld, hkeep, hgr, htmem⟩ := recordWritten hg' ((cpAccess_congr hmem hdev hports hpres _ _ _ _).trans hpa)
    hown' hq'
  have hnoted : (missNoted u { gr with place := .done }).status = (missNoted s gr).status := by
    rw [missNoted_status, missNoted_status, hclock]
  refine ⟨t, ?_, hnone, fun n hn => ?_, ?_, by rw [hkeep, hblocks], by rw [htmem, hnoted, hmem], fun k hk hjob hnum hopen => ?_⟩
  · rw [← ht, ← hleave]
    rfl
  · rw [hothers n hn, hgrids, takenOut_get_ne s hn]
  · rw [hheld, hdisp]
    simp [takenOut, State.updDisp]
  · rw [hgr]
    exact hgraphs k hk hjob hnum hopen

/-- Settles O42: the event is enabled, and the grid leaves with its status word written. -/
theorem gridCompletionResults : Obligations.GridCompletionResults := by
  unfold Obligations.GridCompletionResults
  intro s g gr pa al hg hplace hleft hclosed hmoving hpa hown hapart _
  have hq : ∀ e ∈ s.queues, localOf pa + 8 ≤ s.descOf e.1 ∨ s.descOf e.1 + 64 ≤ localOf pa := fun e he =>
    (hapart e he).imp_left fun h => by omega
  have hexec : exec (.gridComplete g) s = .next (s.finishGrid g gr) := by
    show execGridComplete g s = _
    simp only [execGridComplete, hg]
    exact event_next _ _ _ (by simp [hplace, hleft, hclosed, hmoving])
  obtain ⟨t, ht, hrest⟩ := finishGrid_own hg hpa hown hq
  rw [missNoted_status] at hrest
  exact ⟨t, hexec.trans (congrArg _ ht), hrest⟩

end Sys2Proof.Proofs

/-! The execution model (spec/02, spec/14, spec/21): fault reports (R481 to R483), fetch faults (R479) and the end of blocks (R29, R30,
R341, R395). -/

namespace Sys2Proof.Proofs

open Sys2Proof.Machine Sys2Proof.Claims

/-! ### Writes that may cover a descriptor, and fault reports (R351, R481 to R483) -/

theorem showWord_homeFrame (s : State) (a v : Nat) : HomeFrame s (s.showWord a v) :=
  ite_homeFrame _ (.refl s) (rawWrite_homeFrame s _ _ _ _ _)

theorem showQueue_homeFrame (s : State) (n : Nat) : HomeFrame s (s.showQueue n) := by
  unfold State.showQueue
  split
  · exact .refl s
  · iterate 5 refine HomeFrame.trans ?_ (showWord_homeFrame _ _ _)
    exact showWord_homeFrame s _ _

/-- `t` is `s` but for what a write at the home changes, the descriptors of queues that it may cover among it. -/
structure WriteFrame (s t : State) : Prop where
  rest : { t with mem := s.mem, lag := s.lag, l2 := s.l2, reed := s.reed, fresh := s.fresh, blocks := s.blocks, queues := s.queues } = s
  waves : SameWaves s t

theorem HomeFrame.writeFrame {s t : State} (h : HomeFrame s t) : WriteFrame s t where
  rest := by rw [← h.rest]
  waves := h.waves

theorem WriteFrame.trans {s t u : State} (h : WriteFrame s t) (k : WriteFrame t u) : WriteFrame s u where
  rest := by rw [← h.rest, ← k.rest]
  waves := h.waves.trans k.waves

theorem queues_writeFrame (s : State) (qs : Tbl Queue) : WriteFrame s { s with queues := qs } := ⟨rfl, .of_blocks rfl⟩

theorem foldl_writeFrame {α : Type} (xs : List α) (f : State → α → State) (hf : ∀ t x, WriteFrame t (f t x)) (s : State) :
    WriteFrame s (xs.foldl f s) := by
  induction xs generalizing s with
  | nil => exact (HomeFrame.refl s).writeFrame
  | cons x xs ih => exact (hf s x).trans (ih _)

theorem descWritten_writeFrame (s : State) (pa : Nat) (bs : List Byte) : WriteFrame s (s.descWritten pa bs) :=
  foldl_writeFrame _ _ (fun t _ => (queues_writeFrame t _).trans (showQueue_homeFrame _ _).writeFrame) s

theorem homeWrite_writeFrame (s : State) (pa : Nat) (bs : List Byte) (a : Alloc) (who : Option (Nat × Nat)) (job : Nat) :
    WriteFrame s (s.homeWrite pa bs a who job) := by
  have hraw := (rawWrite_homeFrame s pa bs a who (s.chargedJob pa job)).writeFrame
  unfold State.homeWrite
  simp only []
  split
  · exact hraw
  · exact hraw.trans (descWritten_writeFrame _ _ _)

theorem WriteFrame.faultq {s t : State} (h : WriteFrame s t) : t.faultq = s.faultq := by rw [← h.rest]

/-- Open fault records stay, whether or not their entries are written meanwhile. -/
def KeepsOpen (s t : State) : Prop :=
  ∀ f ∈ s.faultq.recs, f.open_ = true → ∃ f' ∈ t.faultq.recs, { f' with written := f.written } = f

theorem KeepsOpen.trans {s t u : State} (h : KeepsOpen s t) (k : KeepsOpen t u) : KeepsOpen s u := fun f hf ho => by
  obtain ⟨f', hf', he⟩ := h f hf ho
  obtain ⟨f'', hf'', he'⟩ := k f' hf' (by rw [← he] at ho; exact ho)
  exact ⟨f'', hf'', by rw [← he, ← he']⟩

theorem writeFault_keeps (s : State) : SameWaves s s.writeFault ∧ KeepsOpen s s.writeFault := by
  unfold State.writeFault
  split
  · exact ⟨.of_blocks rfl, fun f hf _ => ⟨f, hf, rfl⟩⟩
  · rename_i g _
    split
    · simp only []
      generalize hu : s.homeWrite _ _ _ _ _ = u
      have hw : WriteFrame s u := hu ▸ homeWrite_writeFrame s _ _ _ _ _
      refine ⟨hw.waves.trans (.of_blocks rfl), fun f hf ho => ?_⟩
      refine ⟨if f.id = g.id then { f with written := true } else f, List.mem_filter.2 ⟨List.mem_map.2 ⟨f, ?_, rfl⟩, ?_⟩, ?_⟩
      · exact hw.faultq ▸ hf
      · split <;> simp [ho]
      · split <;> rfl
    · exact ⟨.of_blocks rfl, fun f hf _ => ⟨f, hf, rfl⟩⟩

theorem writeFaults_keeps (s : State) : SameWaves s s.writeFaults ∧ KeepsOpen s s.writeFaults := by
  unfold State.writeFaults
  generalize List.range s.faultq.recs.length = ns
  induction ns generalizing s with
  | nil => exact ⟨.of_blocks rfl, fun f hf _ => ⟨f, hf, rfl⟩⟩
  | cons n ns ih =>
    obtain ⟨hw, hk⟩ := writeFault_keeps s
    obtain ⟨hw', hk'⟩ := ih s.writeFault
    exact ⟨hw.trans hw', hk.trans hk'⟩

/-- A reported fault of kinds 1 to 3 that is to be answered is open: itself, or the one that it joins. -/
theorem report_open (s : State) {kind core asn ten job need addr grid : Nat} (hk : 1 ≤ kind ∧ kind ≤ 3) (ha : addr < 2 ^ 64) :
    SameWaves s (s.report kind core asn ten job need addr grid true).2 ∧
      ∃ f ∈ (s.report kind core asn ten job need addr grid true).2.faultq.recs, f.open_ = true ∧ 1 ≤ f.kind ∧ f.kind ≤ 3 ∧
        f.core = core ∧ f.asn = asn ∧ f.addr / 65536 = addr / 65536 := by
  unfold State.report
  split
  · rename_i id hj
    simp only [State.joined, hk, and_self, if_true, Option.map_eq_some_iff] at hj
    obtain ⟨f, hf, -⟩ := hj
    have hp := List.find?_some hf
    simp only [Bool.and_eq_true, decide_eq_true_eq] at hp
    obtain ⟨⟨⟨⟨⟨ho, hlo⟩, hhi⟩, hc⟩, hasn⟩, haddr⟩ := hp
    exact ⟨.of_blocks rfl, f, List.mem_of_find?_eq_some hf, ho, hlo, hhi, hc, hasn, haddr⟩
  · obtain ⟨hw, hkeep⟩ := writeFaults_keeps (s.setFq (fun q => { q with nextId := (s.faultq.nextId + 1) % 2 ^ 32, recs := q.recs ++ [
      { id := s.faultq.nextId % 2 ^ 32, kind := kind, core := core, asn := asn, ten := ten, job := job, need := need,
        addr := addr % 2 ^ 64, grid := grid, written := false, open_ := true }] }))
    obtain ⟨f, hf, he⟩ := hkeep _ (List.mem_append_right _ (List.mem_singleton_self _)) rfl
    refine ⟨SameWaves.trans (.of_blocks rfl) hw, f, hf, ?_⟩
    have hkind : f.kind = kind := congrArg FaultRec.kind he
    have haddr : f.addr = addr % 2 ^ 64 := congrArg FaultRec.addr he
    exact ⟨congrArg FaultRec.open_ he, hkind ▸ hk.1, hkind ▸ hk.2, congrArg FaultRec.core he, congrArg FaultRec.asn he,
      by rw [haddr, Nat.mod_eq_of_lt ha]⟩

/-! ### FETCH_FAULT (R479) -/

theorem fetchFault_denied {s : State} {b w : Nat} {p : Block} {v : Wave} {pos : Pos} (hp : s.block b = some p) (hv : s.wave b w = some v)
    (hlive : p.live = true) (ht : s.fetchTrouble b w = some (pos, .denied)) :
    ∃ i, exec (.fetchFault b w) s = .next (s.takeTrap b w i) ∧ i.code = 0x08 ∧ i.sub = 2 ∧ i.pc = pos.pc ∧ i.addr = pos.pc ∧
      i.set = v.atPacket pos.pc := by
  refine ⟨{ code := 0x08, sub := 2, pc := pos.pc, addr := pos.pc, kstep := 0, lanes := v.atPacket pos.pc, set := v.atPacket pos.pc,
            whole := true, feat := 0, defer := false }, ?_, rfl, rfl, rfl, rfl, rfl⟩
  show execFetchFault b w s = _
  simp only [execFetchFault, hp, ht, hlive, hv, Bool.not_true, Bool.false_eq_true, if_false]
  rfl

theorem fetchFault_absent {s : State} {b w : Nat} {p : Block} {v : Wave} {pos : Pos} (hp : s.block b = some p) (hv : s.wave b w = some v)
    (hlive : p.live = true) (ht : s.fetchTrouble b w = some (pos, .absent)) :
    ∃ t v', exec (.fetchFault b w) s = .next t ∧ t.wave b w = some v' ∧
      { v' with mon := v.mon } = { v with threads := v.threads.mapIdx (fun l y =>
        if hasLane (v.atPacket pos.pc) l then { y with fetchHeld := true } else y) } ∧
      ∃ f ∈ t.faultq.recs, f.open_ = true ∧ 1 ≤ f.kind ∧ f.kind ≤ 3 ∧ f.core = p.core ∧ f.asn = p.asn ∧
        f.addr / 65536 = pos.pc.toNat / 65536 := by
  obtain ⟨hwaves, hopen⟩ := report_open s (kind := 3) (core := p.core) (asn := p.asn) (ten := p.ten) (job := p.job) (need := 4)
    (addr := pos.pc.toNat) (grid := (s.grids.get p.grid).elim 0 (fun g => g.recVa)) ⟨by decide, by decide⟩ pos.pc.isLt
  obtain ⟨m, hm⟩ := hwaves b w v hv
  refine ⟨State.updWave (s.report _ _ _ _ _ _ _ _ _).2 b w (fun x => x.updLanes (x.atPacket pos.pc) (fun t => { t with fetchHeld := true })),
    ({ v with mon := m } : Wave).updLanes (v.atPacket pos.pc) (fun t => { t with fetchHeld := true }), ?_, ?_, rfl, hopen⟩
  · show execFetchFault b w s = _
    simp only [execFetchFault, hp, ht, hlive, Bool.not_true, Bool.false_eq_true, if_false]
  · rw [State.wave_updWave_self, hm]
    rfl

/-! ### BLOCK_RETIRE (R29, R30, R341, R395) -/

theorem core_updCore_self (s : State) (c : Nat) (f : Core → Core) : (s.updCore c f).core c = f (s.core c) := by
  simp [State.updCore, State.core, Tbl.get_put_self]

section
variable {s : State} {b : Nat} {p : Block}

/-- A block that has nothing left to wait for (R29). -/
def Ready (s : State) (b : Nat) (p : Block) : Prop :=
  s.block b = some p ∧ p.over = true ∧ s.workLeft b p = false ∧ p.remoteLeft = false ∧ s.marksOut p = false

/-- A fault record that nothing delivered aborts the block (R219, R341). -/
theorem blockRetire_fault {code : Nat} (h : Ready s b p) (hc : p.cancelled = false) (ha : p.aborted = none)
    (hf : p.faultLeft = some code) : exec (.blockRetire b) s = .next (s.abortBlock b code) := by
  obtain ⟨hp, hover, hwork, hremote, hmarks⟩ := h
  show execBlockRetire b s = _
  simp [execBlockRetire, hp, hover, hwork, hremote, hmarks, hc, ha, hf]

theorem blockRetire_clean (h : Ready s b p) (hf : p.cancelled = true ∨ p.aborted ≠ none ∨ p.faultLeft = none) :
    exec (.blockRetire b) s = .next (s.retireBlock b p).noteHead := by
  obtain ⟨hp, hover, hwork, hremote, hmarks⟩ := h
  have hnone : (if p.cancelled || p.aborted.isSome then none else p.faultLeft) = none := by
    rcases hf with hc | ha | hf
    · simp [hc]
    · simp [Option.isSome_iff_ne_none.2 ha]
    · simp [hf]
  show execBlockRetire b s = _
  simp only [execBlockRetire, hp, hover, hwork, hremote, hmarks, hnone, Bool.not_true, Bool.or_self, Bool.false_eq_true, if_false]

theorem faultLeft_of_acc (h : ∃ a ∈ p.accs, a.fault ≠ none) : p.faultLeft = some 0x05 := by
  obtain ⟨a, ha, hf⟩ := h
  have hany : p.accs.any (fun a => a.fault.isSome) = true := List.any_eq_true.2 ⟨a, ha, Option.isSome_iff_ne_none.2 hf⟩
  simp only [Block.faultLeft, hany, if_true]

theorem faultLeft_of_accs_clean (h : ∀ a ∈ p.accs, a.fault = none) :
    p.faultLeft = (p.tiles.findSome? (fun t => t.fault)).map (fun f => f.code) := by
  have hany : p.accs.any (fun a => a.fault.isSome) = false := by simpa using h
  simp only [Block.faultLeft, hany, Bool.false_eq_true, if_false]

theorem block_dropSheafBits {q : Block} (w : Nat) (hq : s.block b = some q) : ∃ q', (s.dropSheafBits b w).block b = some q' := by
  unfold State.dropSheafBits
  split
  · exact ⟨q, hq⟩
  · exact ⟨_, (State.block_updBlock_self _ b _).trans (congrArg _ hq)⟩

theorem block_stopBlock (hp : s.block b = some p) : ∃ q, (s.stopBlock b).block b = some q := by
  have hbits (ws : List Nat) : ∀ {t : State} {q : Block}, t.block b = some q →
      ∃ q', (ws.foldl (fun (t : State) w => t.dropSheafBits b w) t).block b = some q' := by
    induction ws with
    | nil => exact fun hq => ⟨_, hq⟩
    | cons w ws ih => exact fun hq => (block_dropSheafBits w hq).elim fun _ h => ih h
  obtain ⟨q, hq⟩ := hbits (List.range p.waves.length) hp
  unfold State.stopBlock
  rw [hp]
  exact ⟨_, (State.block_updBlock_self _ b _).trans (congrArg _ hq)⟩

theorem abortBlock_aborted (code : Nat) (hp : s.block b = some p) (hc : p.cancelled = false) (ha : p.aborted = none) :
    ∃ q, (s.abortBlock b code).block b = some q ∧ q.aborted = some code := by
  obtain ⟨q, hq⟩ := block_stopBlock hp
  refine ⟨{ q with aborted := some code }, ?_, rfl⟩
  simp only [State.abortBlock, hp, hc, ha, Option.isSome_none, Bool.or_self, Bool.false_eq_true, if_false]
  exact (State.block_updBlock_self _ b _).trans (congrArg _ hq)

/-- What R395 makes of a grid's estimate, and R174 of the lines it waits for, as a block of it retires. -/
def retiredFrom (s : State) (p : Block) (g : Grid) : Grid :=
  let h := if !p.cancelled && p.aborted.isNone then g.learn (p.resident + (s.clock - p.placedAt)) p.prog else g
  { h with left := h.left - 1, lines := (h.lines ++ s.lagLines p).eraseDups }

theorem retiredFrom_eq (s : State) (p : Block) (g : Grid) : ∃ c, retiredFrom s p g =
    { g with cpu := c, left := g.left - 1, lines := (g.lines ++ s.lagLines p).eraseDups } ∧
    c = (if p.cancelled = false ∧ p.aborted = none
      then (3 * g.cpu + (p.resident + (s.clock - p.placedAt)) / max p.prog 1) / 4 else g.cpu) := by
  cases hc : p.cancelled <;> cases ha : p.aborted <;> exact ⟨_, by simp [retiredFrom, hc, ha, Grid.learn]; rfl, by simp⟩

theorem retireBlock_keeps : (s.retireBlock b p).block b = none ∧ (∀ c, c ≠ b → (s.retireBlock b p).block c = s.block c) ∧
    (s.retireBlock b p).mem = s.mem ∧ (∀ l ∈ ((s.retireBlock b p).core p.core).locked, b ∉ l.holders) ∧
    (s.retireBlock b p).grids.get p.grid = (s.grids.get p.grid).map (retiredFrom s p) := by
  refine ⟨Tbl.get_del_self _ _, fun c hc => Tbl.get_del_ne _ _ _ hc, rfl, fun l hl => ?_, ?_⟩
  · have hcore : (s.retireBlock b p).core p.core = (s.dropLocks b p.core).core p.core := rfl
    rw [hcore, State.dropLocks, core_updCore_self] at hl
    obtain ⟨k, -, rfl⟩ := List.mem_map.1 (List.mem_filter.1 hl).1
    simp
  · exact Tbl.get_upd_self s.grids p.grid _

theorem mem_retired_lines (ls : List Nat) (l : Nat) :
    l ∈ (ls ++ s.lagLines p).eraseDups ↔ l ∈ ls ∨ (s.lagging l = true ∧ ∃ v ∈ p.waves, l ∈ v.wrote) := by
  simp only [State.lagLines, List.mem_eraseDups, List.mem_append, List.mem_filter, List.mem_flatMap]
  tauto

end

/-- Settles O41: fetch faults by what the fetch found, the end of a block by the fault record that is left. -/
theorem blockEndResults : Obligations.BlockEndResults := by
  unfold Obligations.BlockEndResults
  intro s b p hp
  refine ⟨fun w v pos r hv hlive ht => ⟨?denied, ?absent⟩, fun hover hwork hremote hmarks => ?_⟩
  case denied =>
    rintro rfl
    exact fetchFault_denied hp hv hlive ht
  case absent =>
    rintro rfl
    exact fetchFault_absent hp hv hlive ht
  have hready : Ready s b p := ⟨hp, hover, hwork, hremote, hmarks⟩
  refine ⟨fun hc ha hf => ?_, fun f hc ha hclean hf => ?_, fun hclean => ?_⟩
  · obtain ⟨q, hq, hcode⟩ := abortBlock_aborted 0x05 hp hc ha
    exact ⟨_, q, blockRetire_fault hready hc ha (faultLeft_of_acc hf), hq, hcode⟩
  · obtain ⟨q, hq, hcode⟩ := abortBlock_aborted f.code hp hc ha
    exact ⟨_, q, blockRetire_fault hready hc ha (by rw [faultLeft_of_accs_clean hclean, hf]; rfl), hq, hcode⟩
  · have hleft : p.cancelled = true ∨ p.aborted ≠ none ∨ p.faultLeft = none := by
      rcases hclean with ⟨haccs, htiles⟩ | hc | ha
      · exact .inr (.inr (by rw [faultLeft_of_accs_clean haccs, List.findSome?_eq_none_iff.2 htiles]; rfl))
      · exact .inl hc
      · exact .inr (.inl ha)
    obtain ⟨d, hnote, -⟩ := noteHead_eq (s.retireBlock b p)
    obtain ⟨hgone, hblocks, hmem, hlocks, hgrid⟩ := retireBlock_keeps (s := s) (b := b) (p := p)
    refine ⟨_, (blockRetire_clean hready hleft).trans (congrArg _ hnote), hgone, hblocks, hmem, hlocks, fun gr hgr => ?_⟩
    obtain ⟨c, hret, hc⟩ := retiredFrom_eq s p gr
    rw [hgr, Option.map_some, hret] at hgrid
    exact ⟨_, hgrid, rfl, rfl, mem_retired_lines gr.lines, hc⟩

end Sys2Proof.Proofs

/-! The dispatcher (spec/14): taking a grid from Millrace, placing its next block, backfill (R25 to R27, R363 to R367). -/

namespace Sys2Proof.Proofs

open Sys2Proof.Machine Sys2Proof.Claims

/-! ### Taking the first entry of Millrace (R363) -/

/-- `x` comes before `e`: a lower rank, or the same rank and a lower arrival number. -/
def Before (x e : Nat × Grid) : Prop := x.2.rank < e.2.rank ∨ (x.2.rank = e.2.rank ∧ x.2.arrival < e.2.arrival)

/-- The better of the best entry so far and the next one. -/
def pickEntry (best : Option (Nat × Grid)) (e : Nat × Grid) : Option (Nat × Grid) :=
  match best with
  | none => some e
  | some x => if e.2.rank < x.2.rank || (e.2.rank = x.2.rank && e.2.arrival < x.2.arrival) then some e else some x

theorem nextFromMillrace_eq (s : State) : s.nextFromMillrace =
    ((s.millrace.filter (fun e => e.2.release.elim false (fun r => r ≤ s.clock))).foldl pickEntry none).map Prod.fst := rfl

theorem pickEntry_before {x e : Nat × Grid} (h : Before x e) : pickEntry (some x) e = some x ∧ pickEntry (some e) x = some x := by
  unfold Before at h
  constructor <;> simp only [pickEntry, Bool.or_eq_true, Bool.and_eq_true, decide_eq_true_eq]
  · exact if_neg (by omega)
  · exact if_pos (by omega)

theorem pickEntry_self (x : Nat × Grid) : pickEntry (some x) x = some x := by
  unfold pickEntry
  exact ite_self _

theorem pickEntry_or (x e : Nat × Grid) : pickEntry (some x) e = some e ∨ pickEntry (some x) e = some x := by
  unfold pickEntry
  exact ite_eq_or_eq _ _ _

/-- The fold finds an entry that comes before all others, wherever it stands. -/
theorem foldl_pickEntry (x : Nat × Grid) (xs : List (Nat × Grid)) (best : Option (Nat × Grid))
    (hxs : ∀ e ∈ xs, e ≠ x → Before x e) (hbest : ∀ y, best = some y → y = x ∨ Before x y) (hx : x ∈ xs ∨ best = some x) :
    xs.foldl pickEntry best = some x := by
  induction xs generalizing best with
  | nil => exact hx.resolve_left (List.not_mem_nil)
  | cons e xs ih =>
    have hrest : ∀ y ∈ xs, y ≠ x → Before x y := fun y hy => hxs y (List.mem_cons_of_mem _ hy)
    rw [List.foldl_cons]
    by_cases he : e = x
    · have hpick : pickEntry best e = some x := by
        subst he
        cases best with
        | none => rfl
        | some y =>
          rcases hbest y rfl with rfl | hy
          · exact pickEntry_self y
          · exact (pickEntry_before hy).2
      exact ih _ hrest (fun y hy => .inl (Option.some.inj (hy.symm.trans hpick))) (.inr hpick)
    · have hbe : Before x e := hxs e List.mem_cons_self he
      cases best with
      | none =>
        refine ih _ hrest (fun y hy => .inr (Option.some.inj hy ▸ hbe)) (.inl ?_)
        exact (List.mem_cons.1 (hx.resolve_right nofun)).resolve_left (Ne.symm he)
      | some y =>
        rcases hbest y rfl with rfl | hy
        · have hpick := (pickEntry_before hbe).1
          exact ih _ hrest (fun z hz => .inl (Option.some.inj (hz.symm.trans hpick))) (.inr hpick)
        · have hin : x ∈ xs := by
            rcases hx with hx | hx
            · exact (List.mem_cons.1 hx).resolve_left (Ne.symm he)
            · cases Option.some.inj hx
              exact absurd hy (by unfold Before; omega)
          refine ih _ hrest (fun z hz => .inr ?_) (.inl hin)
          rcases pickEntry_or y e with h | h
          · exact Option.some.inj (h.symm.trans hz) ▸ hbe
          · exact Option.some.inj (h.symm.trans hz) ▸ hy

/-- A released entry of Millrace. -/
def ReleasedIn (s : State) (gr : Grid) : Prop := gr.place = .millrace ∧ ∃ r, gr.release = some r ∧ r ≤ s.clock

theorem mem_released {s : State} {e : Nat × Grid} :
    e ∈ s.millrace.filter (fun e => e.2.release.elim false (fun r => r ≤ s.clock)) ↔ e ∈ s.grids ∧ ReleasedIn s e.2 := by
  unfold State.millrace ReleasedIn
  cases hr : e.2.release <;> simp [List.mem_filter, hr, and_comm]

theorem nextFromMillrace_least {s : State} {g : Nat} {gr : Grid} (hm : (g, gr) ∈ s.grids) (hr : ReleasedIn s gr)
    (hleast : ∀ e ∈ s.grids, e ≠ (g, gr) → ReleasedIn s e.2 → Before (g, gr) e) : s.nextFromMillrace = some g := by
  have hfold := foldl_pickEntry (g, gr) (s.millrace.filter (fun e => e.2.release.elim false (fun r => r ≤ s.clock))) none
    (fun e he hne => hleast e (mem_released.1 he).1 hne (mem_released.1 he).2) (fun _ h => absurd h nofun)
    (.inl (mem_released.2 ⟨hm, hr⟩))
  rw [nextFromMillrace_eq, hfold]
  rfl

theorem heldGrids_of_few {s : State} (h : (s.disp.held.filter (fun n => 0 < s.toPlace n)).length < 4) : ¬ 4 ≤ s.heldGrids.length := by
  unfold State.heldGrids
  rw [List.length_take]
  omega

/-- The dispatcher takes a grid: it is its last one, and no longer in Millrace. -/
theorem dispatchTakeGrid_takes {s : State} {g : Nat} {gr : Grid} (hg : s.grids.get g = some gr) (hroom : ¬ 4 ≤ s.heldGrids.length)
    (hnext : s.nextFromMillrace = some g) : ∃ t, exec .dispatchTakeGrid s = .next t ∧
      t.grids.get g = some { gr with place := .dispatcher } ∧ t.disp.held = s.disp.held ++ [g] ∧
      (∀ n, n ≠ g → t.grids.get n = s.grids.get n) ∧ { t with grids := s.grids, disp := s.disp } = s := by
  obtain ⟨d, hnote, hheld⟩ := noteHead_eq ((s.updGrid g (fun x => { x with place := .dispatcher })).updDisp
    (fun d => { d with held := d.held ++ [g] }))
  have hexec : exec .dispatchTakeGrid s = .next ((s.updGrid g (fun x => { x with place := .dispatcher })).updDisp
      (fun d => { d with held := d.held ++ [g] })).noteHead := by
    show execDispatchTakeGrid s = _
    unfold execDispatchTakeGrid
    rw [if_neg hroom, hnext]
  rw [hnote] at hexec
  exact ⟨_, hexec, (Tbl.get_upd_self _ _ _).trans (by rw [hg]; rfl), hheld, fun n hn => Tbl.get_upd_ne _ _ _ _ hn, rfl⟩

/-! ### The next block of a grid (R366) -/

/-- A grid whose blocks are all still to be placed for the first time, in order. -/
def InOrder (s : State) (g : Nat) (gr : Grid) : Prop :=
  s.grids.get g = some gr ∧ gr.coop = false ∧ (∀ i ∈ s.images, i.blk.grid ≠ g) ∧ gr.flushed = [] ∧ gr.early = [] ∧
    s.assigned g = [] ∧ gr.cancelled = false ∧ gr.nextIndex < gr.total

section
variable {s : State} {g : Nat} {gr : Grid}

theorem images_of_inOrder (h : InOrder s g gr) : s.images.filter (fun i => i.blk.grid = g) = [] := by
  obtain ⟨-, -, himg, -⟩ := h
  exact List.filter_eq_nil_iff.2 fun i hi hgi => himg i hi (of_decide_eq_true hgi)

theorem unassigned_of_inOrder (h : InOrder s g gr) : s.unassigned g 1 = [gr.nextIndex] := by
  have himg : s.imagesOf g = [] := by rw [State.imagesOf, images_of_inOrder h]; rfl
  obtain ⟨hg, hcoop, -, hflushed, hearly, hassigned, hcancelled, htotal⟩ := h
  simp [State.unassigned, hg, himg, hcoop, hflushed, hearly, hassigned, hcancelled, htotal]

theorem blockAt_of_inOrder (h : InOrder s g gr) : s.blockAt g gr.nextIndex = some (.new gr.nextIndex) := by
  have hfind : s.images.find? (fun i => i.blk.grid = g && i.blk.index = gr.nextIndex) = none := by
    obtain ⟨-, -, himg, -⟩ := h
    exact List.find?_eq_none.2 fun i hi => by simp [himg i hi]
  obtain ⟨hg, -, -, hflushed, hearly, -, hcancelled, htotal⟩ := h
  simp [State.blockAt, hg, hfind, hflushed, hearly, hcancelled, htotal]

theorem nextBlockOf_of_inOrder (h : InOrder s g gr) : s.nextBlockOf g = some (.new gr.nextIndex) := by
  rw [State.nextBlockOf, unassigned_of_inOrder h]
  exact blockAt_of_inOrder h

theorem endReserves_eq (s : State) (g : Nat) : ∃ d, s.endReserves g = { s with disp := d } := by
  unfold State.endReserves
  split
  · exact ⟨_, rfl⟩
  · exact ⟨s.disp, rfl⟩

/-- A core chosen for a block is one of the tenancy's core set, not fenced. -/
theorem chooseCore_open {n : NextBlock} {core row : Nat} (h : s.chooseCore g gr n = some (core, row)) : core ∈ s.openCores gr.ten := by
  have hfit : ∀ e ∈ (s.openCores gr.ten).filterMap (fun c =>
      if s.replayRoom n c then (s.fitOn c gr.kern gr.waves ((s.reservesOn c).filter (fun r => !(gr.coop && r.grid = g)))).map (fun r => (c, r))
      else none), e.1 ∈ s.openCores gr.ten := by
    intro e he
    obtain ⟨c, hc, hce⟩ := List.mem_filterMap.1 he
    split at hce
    · obtain ⟨r, -, rfl⟩ := Option.map_eq_some_iff.1 hce
      exact hc
    · exact absurd hce nofun
  unfold State.chooseCore at h
  dsimp only at h
  split at h
  · split at h
    next e hfind =>
      have he := hfit e (List.mem_of_find?_eq_some hfind)
      rwa [Option.some.inj h] at he
    next => exact hfit _ (List.mem_of_head? h)
  · obtain ⟨k, -, hfind⟩ := List.exists_of_findSome?_eq_some h
    exact hfit _ (List.mem_of_find?_eq_some hfind)

/-- Placing the next block of a grid in order puts it on an open core. -/
theorem placeGrid_of_inOrder {t : State} (h : InOrder s g gr) (ht : s.placeGrid g = some t) :
    ∃ core row d, core ∈ s.openCores gr.ten ∧ t = { s.placeNext g (.new gr.nextIndex) core row with disp := d } := by
  have hone : s.placeOne g = (s.chooseCore g gr (.new gr.nextIndex)).map (fun e => s.placeNext g (.new gr.nextIndex) e.1 e.2) := by
    simp only [State.placeOne, h.1, nextBlockOf_of_inOrder h]
  obtain ⟨hg, hcoop, -⟩ := h
  simp only [State.placeGrid, hg, hcoop, Bool.false_and, Bool.false_eq_true, if_false] at ht
  split at ht
  · exact absurd ht nofun
  · rw [hone, Option.map_map] at ht
    obtain ⟨⟨core, row⟩, hcore, rfl⟩ := Option.map_eq_some_iff.1 ht
    obtain ⟨d, hd⟩ := endReserves_eq (s.placeNext g (.new gr.nextIndex) core row) g
    exact ⟨core, row, d, chooseCore_open hcore, hd⟩

end

/-! ### A block as it starts (R25, R44, R47, R251) -/

/-- A block of the grid at its start: its place, and its waves as `Wave.start` makes them, with wave slots of their own. -/
structure StartedBlock (g : Nat) (gr : Grid) (i core : Nat) (nb : Block) : Prop where
  core : nb.core = core
  grid : nb.grid = g
  index : nb.index = i
  kern : nb.kern = gr.kern
  ten : nb.ten = gr.ten
  bid : nb.bid = bidOf gr.gdim i
  length : nb.waves.length = wavesFor (gr.bdim.1 * gr.bdim.2.1 * gr.bdim.2.2)
  waves : ∀ w v, nb.waves[w]? = some v → ∃ f sc k slot, sc.cells = argCells gr.args gr.kern.sregs ∧
    v = { Wave.start gr.kern.entry k w gr.kern.idem f sc with wslot := slot } ∧ k = gr.bdim.1 * gr.bdim.2.1 * gr.bdim.2.2

theorem withSlots_get {s : State} {core w : Nat} {ws : List Wave} {v : Wave} (h : (s.withSlots core ws)[w]? = some v) :
    ∃ y slot, ws[w]? = some y ∧ v = { y with wslot := slot } := by
  rw [State.withSlots, List.getElem?_mapIdx] at h
  obtain ⟨y, hy, rfl⟩ := Option.map_eq_some_iff.1 h
  exact ⟨y, _, hy, rfl⟩

theorem startedBlock (s : State) (g : Nat) (gr : Grid) (index : Nat) (p : Placement) (clock : Nat) :
    StartedBlock g gr index p.core { Block.start g gr index p clock with
      waves := s.withSlots p.core (Block.start g gr index p clock).waves } where
  core := rfl
  grid := rfl
  index := rfl
  kern := rfl
  ten := rfl
  bid := rfl
  length := by simp [State.withSlots, Block.start]
  waves := fun w v hv => by
    obtain ⟨y, slot, hy, rfl⟩ := withSlots_get hv
    obtain ⟨k, hk, rfl⟩ : ∃ k, (List.range (wavesFor (gr.bdim.1 * gr.bdim.2.1 * gr.bdim.2.2)))[w]? = some k ∧ _ = y :=
      Option.map_eq_some_iff.1 ((List.getElem?_map ..).symm.trans hy)
    obtain ⟨hw, rfl⟩ := List.getElem?_eq_some_iff.1 hk
    rw [List.getElem_range]
    exact ⟨_, _, _, slot, rfl, rfl, rfl⟩

theorem start_thread {entry k w l : Nat} {idem : Bool} {f sc : RegFile} {y : Thread} (h : (Wave.start entry k w idem f sc).threads[l]? = some y) :
    y = Thread.start entry (32 * w + l < k) := by
  obtain ⟨j, hj, rfl⟩ := Option.map_eq_some_iff.1 ((List.getElem?_map ..).symm.trans h)
  obtain ⟨hl, rfl⟩ := List.getElem?_eq_some_iff.1 hj
  rw [show laneList[l] = l from List.getElem_range _]

theorem get_mapIdx {α : Type} (xs : List α) (i n : Nat) : Tbl.get (xs.mapIdx (fun j x => (j + n, x))) (i + n) = xs[i]? := by
  induction xs generalizing i n with
  | nil => rfl
  | cons x xs ih =>
    rw [List.mapIdx_cons, Tbl.get]
    cases i with
    | zero => simp
    | succ i =>
      rw [if_neg (by omega)]
      have := ih i (n + 1)
      simpa [Nat.add_assoc, Nat.add_comm 1 n] using this

/-- The argument words stand in the first scalar registers (R251). -/
theorem scal_argCells {sc : RegFile} {args : List Word} {sregs i : Nat} {x : Word} (hsc : sc.cells = argCells args sregs) (hi : i < sregs)
    (hx : args[i]? = some x) : sc.scal i = x := by
  have hget : Tbl.get (argCells args sregs) i = some x := by
    rw [← hx, ← List.getElem?_take_of_lt hi]
    exact get_mapIdx _ i 0
  rw [RegFile.scal, RegFile.read, hsc, hget]

/-! ### What a placement changes (R47, R162, R366) -/

theorem core_l1Drop (s : State) (core : Nat) (p : L1Line → Bool) : ((s.l1Drop core p).core core).l1 = (s.core core).l1.filter (fun l => !p l) :=
  congrArg Core.l1 (core_updCore_self _ _ _)

theorem firstVisit_keeps (s : State) (g : Nat) (gr : Grid) (core : Nat) (hg : s.grids.get g = some gr) :
    ∃ u vs, s.firstVisit g gr core = u ∧ u.grids.get g = some { gr with visited := vs } ∧ core ∈ vs ∧ u.blocks = s.blocks ∧
      u.nextBlock = s.nextBlock ∧ u.mem = s.mem ∧ (core ∉ gr.visited → ∀ l ∈ (u.core core).l1, l.stable = false) := by
  unfold State.firstVisit
  split
  next hv => exact ⟨s, gr.visited, rfl, hg, by simpa using hv, rfl, rfl, rfl, fun hn => absurd (by simpa using hv) hn⟩
  next hv =>
    refine ⟨_, gr.visited ++ [core], rfl, ?_, by simp, rfl, rfl, rfl, fun _ l hl => ?_⟩
    · exact (Tbl.get_upd_self _ _ _).trans (congrArg _ hg)
    · have hl' : l ∈ ((s.l1Drop core (fun l => l.stable)).core core).l1 := hl
      rw [core_l1Drop] at hl'
      simpa using (List.mem_filter.1 hl').2

theorem startBlock_keeps (s : State) (g : Nat) (gr : Grid) (index core row : Nat) : ∃ t nb, s.startBlock g gr index none core row = t ∧
    StartedBlock g gr index core nb ∧ t.blocks = s.blocks.put s.nextBlock nb ∧ t.nextBlock = s.nextBlock + 1 ∧ t.mem = s.mem ∧
    t.grids = s.grids ∧ (∀ l ∈ (t.core core).l1, l.stable = true ∧ l ∈ (s.core core).l1) := by
  have hgrant := fun ten gt => congrArg Core.l1 (core_updCore_self s core (fun c => { c with
    vTen := setTen c.vTen ten (vUnits gt).flatten, sTen := setTen c.sTen ten (sUnits gt).flatten,
    rowTen := setTen c.rowTen ten (rowUnits gt), accTen := setTen c.accTen ten gt.accs }))
  refine ⟨_, _, rfl, startedBlock _ g gr index (s.placement core _ _ _ gr.ten (s.grantOn core gr.kern gr.waves row)) _, rfl, rfl, rfl, rfl,
    fun l hl => ?_⟩
  unfold State.startBlock at hl
  dsimp only at hl
  rw [core_l1Drop] at hl
  obtain ⟨hmem, hstable⟩ := List.mem_filter.1 hl
  exact ⟨by simpa using hstable, (hgrant _ _) ▸ hmem⟩

theorem took_next (gr : Grid) (h : gr.early = []) : gr.took gr.nextIndex = { gr with nextIndex := gr.nextIndex + 1 } := by
  simp [Grid.took, h]

/-- Placing a grid's next block in order: what the state has then. -/
theorem placeNext_new {s : State} {g : Nat} {gr : Grid} (h : InOrder s g gr) (core row : Nat) :
    ∃ t nb vs, s.placeNext g (.new gr.nextIndex) core row = t ∧ StartedBlock g gr gr.nextIndex core nb ∧
      t.blocks = s.blocks.put s.nextBlock nb ∧ t.nextBlock = s.nextBlock + 1 ∧ t.mem = s.mem ∧
      t.grids.get g = some { gr with nextIndex := gr.nextIndex + 1, visited := vs } ∧ core ∈ vs ∧
      (∀ l ∈ (t.core core).l1, l.stable = true) ∧ (core ∉ gr.visited → (t.core core).l1 = []) := by
  obtain ⟨hg, -, -, -, hearly, -⟩ := h
  obtain ⟨u, vs, hu, hugrid, hvs, hublocks, hunext, humem, hul1⟩ := firstVisit_keeps s g gr core hg
  obtain ⟨t, nb, ht, hnb, htblocks, htnext, htmem, htgrids, htl1⟩ := startBlock_keeps u g gr gr.nextIndex core row
  have heq : s.placeNext g (.new gr.nextIndex) core row = { t.updGrid g (fun x => x.took gr.nextIndex) with
      disp := { t.disp with lastCluster := t.disp.lastCluster.put gr.ten (clusterOf core) } } := by
    simp only [State.placeNext, hg, hu, ht]
    rfl
  refine ⟨_, nb, vs, heq, hnb, ?_, htnext.trans (by rw [hunext]), htmem.trans humem, ?_, hvs, fun l hl => (htl1 l hl).1, fun hnew => ?_⟩
  · exact htblocks.trans (by rw [hublocks, hunext])
  · have htook : ({ gr with visited := vs } : Grid).took gr.nextIndex = { gr with nextIndex := gr.nextIndex + 1, visited := vs } :=
      took_next { gr with visited := vs } hearly
    exact (Tbl.get_upd_self _ _ _).trans (by rw [htgrids, hugrid, ← htook]; rfl)
  · refine List.eq_nil_iff_forall_not_mem.2 fun l hl => ?_
    obtain ⟨hstable, hmem⟩ := htl1 l hl
    exact absurd hstable (by rw [hul1 hnew l hmem]; exact Bool.false_ne_true)

/-- A thread of a block at its start. -/
theorem StartedBlock.thread {g : Nat} {gr : Grid} {i core : Nat} {nb : Block} (h : StartedBlock g gr i core nb) {w l : Nat} {v : Wave}
    {y : Thread} (hv : nb.waves[w]? = some v) (hy : v.threads[l]? = some y) :
    y = Thread.start gr.kern.entry (32 * w + l < gr.bdim.1 * gr.bdim.2.1 * gr.bdim.2.2) := by
  obtain ⟨f, sc, k, slot, -, rfl, rfl⟩ := h.waves w v hv
  exact start_thread (idem := gr.kern.idem) (f := f) (sc := sc) hy

/-- A wave of a block at its start. -/
theorem StartedBlock.wave {g : Nat} {gr : Grid} {i core : Nat} {nb : Block} (h : StartedBlock g gr i core nb) {w : Nat} {v : Wave}
    (hv : nb.waves[w]? = some v) : v.idem = gr.kern.idem ∧ v.trapSet = none ∧
      ∀ i x, i < gr.kern.sregs → gr.args[i]? = some x → v.s.scal i = x := by
  obtain ⟨f, sc, k, slot, hsc, rfl, rfl⟩ := h.waves w v hv
  exact ⟨rfl, rfl, fun i x hi hx => scal_argCells hsc hi hx⟩

/-! ### BLOCK_PLACE and BACKFILL (R367) -/

theorem noteHead_of_head {s : State} (h : s.disp.headGrid = s.head) : s.noteHead = s := if_pos h

theorem headPlaced_keeps (t : State) : { t.headPlaced with disp := t.disp } = t ∧ t.headPlaced.disp.headSince = t.clock := by
  unfold State.headPlaced State.noteHead
  split <;> exact ⟨rfl, rfl⟩

theorem blockPlace_head {s t : State} {g : Nat} (hnote : s.disp.headGrid = s.head) (hnone : s.placeAssigned = none)
    (hhead : s.head = some g) (ht : s.placeGrid g = some t) :
    ∃ u, exec .blockPlace s = .next u ∧ { u with disp := t.disp } = t ∧ u.disp.headSince = t.clock := by
  refine ⟨t.headPlaced, ?_, headPlaced_keeps t⟩
  show execBlockPlace s = _
  simp only [execBlockPlace, noteHead_of_head hnote, hnone, hhead, ht]

theorem heldGrids_get {s : State} {k : Nat} (hk : k ≤ 3) : s.heldGrids[k]? = (s.disp.held.filter (fun n => 0 < s.toPlace n))[k]? :=
  List.getElem?_take_of_lt (by omega)

theorem backfill_places {s t : State} {g k n : Nat} (hnote : s.disp.headGrid = s.head) (hnone : s.placeAssigned = none)
    (hhead : s.head = some g) (hg : s.placeGrid g = none) (hwait : s.disp.headSince + 4096 ≤ s.clock) (h1 : 1 ≤ k) (h3 : k ≤ 3)
    (hk : s.heldGrids[k]? = some n) (hbefore : ∀ j m, 1 ≤ j → j < k → s.heldGrids[j]? = some m → s.placeGrid m = none)
    (ht : s.placeGrid n = some t) : exec (.backfill k) s = .next t := by
  have hmay : s.mayBackfill g = true := by simp [State.mayBackfill, hg, hnone, hwait]
  have hany : ((s.heldGrids.take k).drop 1).any (fun m => (s.placeGrid m).isSome) = false := by
    refine List.any_eq_false.2 fun m hm => ?_
    obtain ⟨j, hj⟩ := List.mem_iff_getElem?.1 hm
    rw [List.getElem?_drop, List.getElem?_take] at hj
    split at hj
    next hlt => rw [hbefore (1 + j) m (by omega) hlt hj]; exact Bool.false_ne_true
    next => exact absurd hj nofun
  show execBackfill k s = _
  simp only [execBackfill, noteHead_of_head hnote, hhead, hk, hmay, hany, ht]
  rw [if_neg (by simp; omega)]

/-- Settles O40: the fold over Millrace finds the entry that comes first; a grid whose blocks are placed in order has one next
block, which starts at the next free number on an open core; BLOCK_PLACE and BACKFILL go through `placeGrid`. -/
theorem dispatchResults : Obligations.DispatchResults := by
  intro s
  refine ⟨?_, ?_, ?_⟩
  · intro g gr hg hm hplace hrelease hfew hleast
    exact dispatchTakeGrid_takes hg (heldGrids_of_few hfew)
      (nextFromMillrace_least hm ⟨hplace, hrelease⟩ fun e he hne hr => hleast e he hne hr.1 hr.2)
  · intro g gr t hg hcoop himages hflushed hearly hassigned hcancelled htotal ht
    have horder : InOrder s g gr := ⟨hg, hcoop, himages, hflushed, hearly, hassigned, hcancelled, htotal⟩
    obtain ⟨core, row, d, hopen, rfl⟩ := placeGrid_of_inOrder horder ht
    obtain ⟨u, nb, vs, hu, hnb, hblocks, hnext, hmem, hgrid, hvs, hstable, hnew⟩ := placeNext_new horder core row
    rw [hu]
    obtain ⟨hset, husable⟩ := List.mem_filter.1 hopen
    have hfenced : (s.core core).fenced = false := by
      simpa using (Bool.and_eq_true_iff.1 husable).1
    refine ⟨nb, core, ?_, hnext, hnb.core, (List.mem_filter.1 hset).2, hfenced, hnb.grid, hnb.index, hnb.kern, hnb.ten, hnb.bid, hnb.length,
      fun w v l y hv hy => ?_, fun w v hv => hnb.wave hv, ⟨_, hgrid, rfl, rfl, hvs⟩, hnew, hstable, fun b hb => ?_, hmem⟩
    · exact (congrArg (Tbl.get · s.nextBlock) hblocks).trans (Tbl.get_put_self _ _ _)
    · rw [hnb.thread hv hy]
      refine ⟨rfl, rfl, rfl, rfl, ?_⟩
      simp [Thread.start]
    · exact (congrArg (Tbl.get · b) hblocks).trans (Tbl.get_put_ne _ _ _ _ hb)
  · intro hnote hnone g hhead
    refine ⟨fun t ht => blockPlace_head hnote hnone hhead ht, fun hg hwait k n t h1 h3 hk hbefore ht => ?_⟩
    exact backfill_places hnote hnone hhead hg hwait h1 h3 ((heldGrids_get h3).trans hk)
      (fun j m hj hjk hm => hbefore j m hj hjk ((heldGrids_get (by omega)).symm.trans hm)) ht

end Sys2Proof.Proofs

/-! LAUNCH, BIND and tick boundaries (spec/14): R28, R355 to R364, R441. -/

namespace Sys2Proof.Proofs

open Sys2Proof.Machine Sys2Proof.Claims

/-! ### A queue moves on (R351, R352, R355) -/

section
variable {s t : State}
theorem HomeFrame.jobs (h : HomeFrame s t) : t.jobs = s.jobs := by rw [← h.rest]
theorem HomeFrame.nextGrid (h : HomeFrame s t) : t.nextGrid = s.nextGrid := by rw [← h.rest]
theorem HomeFrame.arrivals (h : HomeFrame s t) : t.arrivals = s.arrivals := by rw [← h.rest]
theorem HomeFrame.clock (h : HomeFrame s t) : t.clock = s.clock := by rw [← h.rest]

theorem HomeFrame.withQueues (h : HomeFrame s t) (qs : Tbl Queue) : HomeFrame { s with queues := qs } { t with queues := qs } :=
  ⟨by rw [← h.rest], h.keys, h.waves⟩
end

/-- Bytes outside the words of queue `n`'s descriptor that the device writes are the same in `t` as in `s`. -/
def SameOutside (s t : State) (n : Nat) : Prop := ∀ a, (a < s.descOf n + 8 ∨ s.descOf n + 64 ≤ a) → byteAt t a = byteAt s a

theorem showWord_mem {s : State} {a v k : Nat} (h : k < a ∨ a + 8 ≤ k) : byteAt (s.showWord a v) k = byteAt s k := by
  unfold State.showWord
  split
  · rfl
  · unfold byteAt
    rw [State.rawWrite_mem]
    exact memGet_memWrite_out _ _ _ _ (by rw [bytesOfNat_length]; exact h)

theorem showQueue_mem (s : State) (n : Nat) : SameOutside s (s.showQueue n) n := by
  intro k hk
  unfold State.showQueue
  split
  · rfl
  · dsimp only
    iterate 6 rw [showWord_mem (by omega)]

/-- `t` is `s` but for the entry of queue `n`, now `q`, and the words of its descriptor that the device writes. -/
structure QueueMoved (s t : State) (n : Nat) (q : Queue) : Prop where
  frame : HomeFrame { s with queues := t.queues } t
  queue : t.queues.get n = some q
  others : ∀ m, m ≠ n → t.queues.get m = s.queues.get m
  mem : SameOutside s t n

section
variable {s t u : State} {n : Nat} {q q₂ : Queue}

theorem QueueMoved.dev (h : QueueMoved s t n q) : t.dev = s.dev := h.frame.dev
theorem QueueMoved.grids (h : QueueMoved s t n q) : t.grids = s.grids := h.frame.grids
theorem QueueMoved.jobs (h : QueueMoved s t n q) : t.jobs = s.jobs := h.frame.jobs
theorem QueueMoved.nextGrid (h : QueueMoved s t n q) : t.nextGrid = s.nextGrid := h.frame.nextGrid
theorem QueueMoved.arrivals (h : QueueMoved s t n q) : t.arrivals = s.arrivals := h.frame.arrivals

theorem updQueue_moved (hq : s.queues.get n = some q) (f : Queue → Queue) :
    QueueMoved s (s.updQueue n f) n (f q) where
  frame := .refl _
  queue := (Tbl.get_upd_self _ _ _).trans (by rw [hq]; rfl)
  others := fun m hm => Tbl.get_upd_ne _ _ _ _ hm
  mem := fun _ _ => rfl

theorem showQueue_moved (hq : s.queues.get n = some q) : QueueMoved s (s.showQueue n) n q := by
  have hframe := showQueue_homeFrame s n
  have hqueues : (s.showQueue n).queues = s.queues := hframe.queues
  refine ⟨?_, by rw [hqueues, hq], fun m _ => by rw [hqueues], showQueue_mem s n⟩
  rw [hqueues]
  exact hframe

theorem QueueMoved.trans (h : QueueMoved s t n q) (k : QueueMoved t u n q₂) : QueueMoved s u n q₂ where
  frame := HomeFrame.trans (s := { s with queues := u.queues }) (h.frame.withQueues u.queues) k.frame
  queue := k.queue
  others := fun m hm => (k.others m hm).trans (h.others m hm)
  mem := fun a ha => (k.mem a (by rwa [State.descOf, h.dev])).trans (h.mem a ha)

theorem settleQueue_moved (hq : s.queues.get n = some q) : ∃ st, QueueMoved s (s.settleQueue n) n { q with status := st } := by
  refine ⟨s.statusOf q, ?_⟩
  have hup := updQueue_moved hq (fun x => { x with status := s.statusOf q })
  have hsettle : s.settleQueue n = (s.updQueue n (fun x => { x with status := s.statusOf q })).showQueue n := by
    simp only [State.settleQueue, hq]
  rw [hsettle]
  exact hup.trans (showQueue_moved hup.queue)

theorem endPacket_moved (hq : s.queues.get n = some q) (len : Nat) :
    ∃ st, QueueMoved s (s.endPacket n len) n { q with ridx := (q.ridx + 8 * len) % 2 ^ 32, pending := none, status := st } := by
  have hup := updQueue_moved hq (fun q => { q with ridx := (q.ridx + 8 * len) % 2 ^ 32, pending := none })
  obtain ⟨st, hst⟩ := settleQueue_moved hup.queue
  exact ⟨st, hup.trans hst⟩

theorem holdPacket_moved (hq : s.queues.get n = some q) (p : Pending) :
    ∃ st, QueueMoved s (s.holdPacket n p) n { q with pending := some p, status := st } := by
  have hup := updQueue_moved hq (fun q => { q with pending := some p })
  obtain ⟨st, hst⟩ := settleQueue_moved hup.queue
  exact ⟨st, hup.trans hst⟩

theorem sendFrame_queues (s : State) (n : Nat) (o : OutFrame) : (s.sendFrame n o).queues = s.queues := by
  unfold State.sendFrame
  split
  · rfl
  · unfold State.emit
    dsimp only
    split <;> rfl

/-- A refusal that does not stop its queue passes over the packet (R357). -/
theorem refusePacket_passes (hq : s.queues.get n = some q) {code : Nat} (h1 : code ≠ 1) (h6 : code ≠ 6) (tag len : Nat) (w : DWord) :
    ∃ q', (s.refusePacket n tag len code w).queues.get n = some q' ∧ q'.lasterr = code ∧ q'.ridx = (q.ridx + 8 * len) % 2 ^ 32 := by
  have hup := (updQueue_moved hq (fun q => { q with lasterr := code, lasttag := tag })).queue
  unfold State.refusePacket
  dsimp only
  rw [if_neg (by simp [h1, h6])]
  obtain ⟨st, hst⟩ := endPacket_moved (s := (s.updQueue n (fun q => { q with lasterr := code, lasttag := tag })).queueReport n 1 tag
    (BitVec.ofNat 64 (((s.queues.get n).elim 0 (fun q => q.ridx)) * 2 ^ 32 + code)) w)
    ((congrArg (Tbl.get · n) (sendFrame_queues _ _ _)).trans hup) len
  exact ⟨_, hst.queue, rfl, rfl⟩

/-- The packet at the head of a queue that runs and holds none is its next one. -/
theorem packetFor_of_atQueue {typ : Nat} {p : Pkt} (h : AtQueue s n typ q p) (again : Pending → Bool) : s.packetFor n typ again = some (q, p) := by
  obtain ⟨hq, hstatus, hpending, hunmap, hhead, htyp⟩ := h
  have heq : ({ q with pending := none } : Queue) = q := by rw [← hpending]
  simp [State.packetFor, hq, hstatus, hpending, hunmap, hhead, htyp, heq]

end

theorem fld_toNat (w : DWord) (lo n : Nat) : (fld w lo n).toNat = w.toNat / 2 ^ lo % 2 ^ n := by
  rw [fld, BitVec.extractLsb'_toNat, Nat.shiftRight_eq_div_pow]

/-! ### BIND (R360, R441) -/

/-- The tenancy's configuration with a new address space. -/
def boundCfg (old : DWord) (asn : Nat) : DWord := (old &&& ~~~0xFFFF00000000#64) ||| BitVec.ofNat 64 (asn * 2 ^ 32)

theorem toNat_append_add {m n : Nat} (x : BitVec m) (y : BitVec n) : (x ++ y).toNat = x.toNat * 2 ^ n + y.toNat := by
  rw [BitVec.toNat_append, ← Nat.shiftLeft_add_eq_or_of_lt y.isLt, Nat.shiftLeft_eq]

theorem boundCfg_append (old : DWord) (asn : BitVec 16) :
    boundCfg old asn.toNat = (old.extractLsb' 48 16 ++ asn ++ old.extractLsb' 0 32 : BitVec (16 + 16 + 32)) := by
  have hasn : BitVec.ofNat 64 (asn.toNat * 2 ^ 32) = asn.setWidth 64 <<< 32 := by
    apply BitVec.eq_of_toNat_eq
    rw [BitVec.toNat_ofNat, BitVec.toNat_shiftLeft, BitVec.toNat_setWidth, Nat.shiftLeft_eq]
    omega
  rw [boundCfg, hasn]
  apply BitVec.eq_of_getLsbD_eq
  intro i hi
  simp only [BitVec.getLsbD_or, BitVec.getLsbD_and, BitVec.getLsbD_not, BitVec.getLsbD_shiftLeft, BitVec.getLsbD_append,
    BitVec.getLsbD_extractLsb', BitVec.getLsbD_setWidth]
  interval_cases i <;> simp

theorem boundCfg_toNat (old : DWord) (asn : BitVec 16) :
    (boundCfg old asn.toNat).toNat = old.toNat / 2 ^ 48 * 2 ^ 48 + asn.toNat * 2 ^ 32 + old.toNat % 2 ^ 32 := by
  rw [boundCfg_append, toNat_append_add, toNat_append_add, BitVec.extractLsb'_toNat, BitVec.extractLsb'_toNat, Nat.shiftRight_eq_div_pow]
  have := old.isLt
  omega

theorem root_append (w : DWord) : w &&& 0xFFFFFFFFFE000#64 = (0#12 ++ w.extractLsb' 13 39 ++ 0#13 : BitVec (12 + 39 + 13)) := by
  apply BitVec.eq_of_getLsbD_eq
  intro i hi
  simp only [BitVec.getLsbD_and, BitVec.getLsbD_append, BitVec.getLsbD_extractLsb']
  interval_cases i <;> simp

theorem root_toNat (w : DWord) : (w &&& 0xFFFFFFFFFE000#64).toNat = w.toNat / 2 ^ 13 % 2 ^ 39 * 2 ^ 13 := by
  rw [root_append, toNat_append_add, toNat_append_add, BitVec.extractLsb'_toNat, Nat.shiftRight_eq_div_pow]
  simp

/-- The binding of another queue after the tenancy has taken a new root and address space. -/
def reboundTo (ten root asn : Nat) (q : Queue) : Queue :=
  { q with binding := q.binding.map (fun b : Binding => if b.ten = ten then { b with root := root, asn := asn } else b) }

/-- No other tenancy has the address space, and a job of this number is of this address space and tenancy (R360). -/
def BindFree (s : State) (asn ten job : Nat) : Prop :=
  (∀ m, m < 16 → m ≠ ten → tenEnabled (s.tenCfg m) = true → tenAsn (s.tenCfg m) ≠ asn) ∧
    ∀ j, s.jobOf job = some j → j.asn = asn ∧ j.ten = ten

/-- The machine when a BIND gives the queue its binding: the tenancy and its queues have the new root and address space, and the job is known. -/
structure Rebound (s u : State) (asn ten job root : Nat) (j : Job) : Prop where
  queues : u.queues = s.queues.mapAll (fun _ => reboundTo ten root asn)
  tenCfg : u.dev.tenCfg = s.dev.tenCfg.set ten (boundCfg (s.tenCfg ten) asn)
  job : u.jobOf job = some j
  asn : j.asn = asn
  ten : j.ten = ten

theorem rebind_keeps (s : State) (asn ten : Nat) (cfg root : DWord) :
    ∃ r, ((if tenAsn (s.tenCfg ten) = asn then s.dropAsn asn else s).setTen ten cfg root).rebind ten root.toNat asn = r ∧
      r.queues = s.queues.mapAll (fun _ => reboundTo ten root.toNat asn) ∧ r.dev.tenCfg = s.dev.tenCfg.set ten cfg ∧ r.jobs = s.jobs := by
  split
  · exact ⟨_, rfl, rfl, rfl, rfl⟩
  · exact ⟨_, rfl, rfl, rfl, rfl⟩

/-- The job that a BIND makes when no queue was bound to its number before. -/
def firstBound (s : State) (job asn ten : Nat) : Job :=
  { number := job, asn := asn, ten := ten, left := 0, closed := false, serial := s.nextId }

/-- The machine with that job. -/
def withJob (s : State) (j : Job) : State := { s with jobs := s.jobs ++ [j], nextId := s.nextId + 1 }

theorem bindPerform_bound {s : State} {n : Nat} {p : Pkt} {asn ten job : Nat} (hasn : (fld (p.w 2) 0 16).toNat = asn)
    (hten : (fld (p.w 2) 16 4).toNat = ten) (hjob : (fld (p.w 2) 20 16).toNat = job) (h : BindFree s asn ten job) :
    ∃ u j, Rebound s u asn ten job (p.w 1 &&& 0xFFFFFFFFFE000#64).toNat j ∧ s.bindPerform n p = (u.updQueue n (fun q => { q with
      binding := some { root := (p.w 1 &&& 0xFFFFFFFFFE000#64).toNat, asn := asn, ten := ten, job := job, serial := j.serial } })).endPacket n p.len := by
  subst hasn hten hjob
  obtain ⟨hfree, hown⟩ := h
  have htaken : (List.range 16).any (fun m => m ≠ (fld (p.w 2) 16 4).toNat && tenEnabled (s.tenCfg m) &&
      tenAsn (s.tenCfg m) = (fld (p.w 2) 0 16).toNat) = false :=
    List.any_eq_false.2 fun m hm => by
      have := hfree m (List.mem_range.1 hm)
      simp only [Bool.and_eq_true, decide_eq_true_eq, not_and]
      exact fun hc => this hc.1 hc.2
  have hother : (s.jobOf (fld (p.w 2) 20 16).toNat).elim false
      (fun j => j.asn ≠ (fld (p.w 2) 0 16).toNat || j.ten ≠ (fld (p.w 2) 16 4).toNat) = false := by
    cases hj : s.jobOf (fld (p.w 2) 20 16).toNat with
    | none => rfl
    | some j => simp [hown j hj]
  obtain ⟨r, hr, hqueues, hcfg, hjobs⟩ := rebind_keeps s (fld (p.w 2) 0 16).toNat (fld (p.w 2) 16 4).toNat
    ((s.tenCfg (fld (p.w 2) 16 4).toNat &&& ~~~0xFFFF00000000#64) ||| BitVec.ofNat 64 ((fld (p.w 2) 0 16).toNat * 2 ^ 32))
    (p.w 1 &&& 0xFFFFFFFFFE000#64)
  have hjobOf : r.jobOf (fld (p.w 2) 20 16).toNat = s.jobOf (fld (p.w 2) 20 16).toNat := by rw [State.jobOf, State.jobOf, hjobs]
  unfold State.bindPerform
  dsimp only
  rw [if_neg (by rw [htaken, hother]; exact Bool.false_ne_true), hr, hjobOf]
  cases hj : s.jobOf (fld (p.w 2) 20 16).toNat with
  | some j => exact ⟨r, j, ⟨hqueues, hcfg, hjobOf.trans hj, (hown j hj).1, (hown j hj).2⟩, rfl⟩
  | none =>
    refine ⟨withJob r (firstBound r (fld (p.w 2) 20 16).toNat (fld (p.w 2) 0 16).toNat (fld (p.w 2) 16 4).toNat),
      firstBound r (fld (p.w 2) 20 16).toNat (fld (p.w 2) 0 16).toNat (fld (p.w 2) 16 4).toNat, ⟨hqueues, hcfg, ?_, rfl, rfl⟩, rfl⟩
    have hnone := hjobOf.trans hj
    unfold State.jobOf at hnone ⊢
    rw [withJob, List.find?_append, hnone]
    simp [firstBound]

/-- What a BIND that passes its checks does. -/
theorem exec_bind {s : State} {n : Nat} {q : Queue} {p : Pkt} (h : AtQueue s n 5 q p) (hf : p.formOk = true) :
    exec (.bind n) s = .next (if !q.priv then s.refusePacket n p.tag p.len 3 0
      else if s.tenBusy (fld (p.w 2) 16 4).toNat then s.holdPacket n .bind else s.bindPerform n p) := by
  have hpending : q.pending = none := h.2.2.1
  show execBind n s = _
  simp only [execBind, packetFor_of_atQueue h, hpending, hf, Option.isSome_none, Bool.false_and, Bool.not_true, Bool.false_eq_true, if_false]

/-- Once a BIND has performed, its queue has the binding, the tenancy its new configuration, and its other queues the new root and
address space. -/
theorem bindPerform_results {s : State} {n : Nat} {q : Queue} {p : Pkt} {asn ten job root : Nat} (hq : s.queues.get n = some q)
    (hasn : (p.w 2).toNat % 2 ^ 16 = asn) (hten : (p.w 2).toNat / 2 ^ 16 % 2 ^ 4 = ten) (hjob : (p.w 2).toNat / 2 ^ 20 % 2 ^ 16 = job)
    (hroot : (p.w 1).toNat / 2 ^ 13 % 2 ^ 39 * 2 ^ 13 = root) (h : BindFree s asn ten job) :
    ∃ t q', s.bindPerform n p = t ∧ t.queues.get n = some q' ∧ q'.ridx = past q p ∧
      (ten < s.dev.tenCfg.length → (t.tenCfg ten).toNat = ((s.tenCfg ten).toNat / 2 ^ 48) * 2 ^ 48 + asn * 2 ^ 32 +
        (s.tenCfg ten).toNat % 2 ^ 32) ∧
      (∃ j, t.jobOf job = some j ∧ j.asn = asn ∧ j.ten = ten ∧
        q'.binding = some { root := root, asn := asn, ten := ten, job := job, serial := j.serial }) ∧
      (∀ m q2 b2, m ≠ n → s.queues.get m = some q2 → q2.binding = some b2 → b2.ten = ten → ∃ q3, t.queues.get m = some q3 ∧
        q3.binding = some { b2 with root := root, asn := asn }) := by
  have hasn' : (fld (p.w 2) 0 16).toNat = asn := by rw [fld_toNat, ← hasn, pow_zero, Nat.div_one]
  have hten' : (fld (p.w 2) 16 4).toNat = ten := by rw [fld_toNat, hten]
  have hjob' : (fld (p.w 2) 20 16).toNat = job := by rw [fld_toNat, hjob]
  obtain ⟨u, j, hu, heq⟩ := bindPerform_bound hasn' hten' hjob' h
  rw [root_toNat, hroot] at hu heq
  have huq : u.queues.get n = some (reboundTo ten root asn q) := by rw [hu.queues, Tbl.get_mapAll, hq]; rfl
  have hup := updQueue_moved huq (fun q => { q with binding := some { root := root, asn := asn, ten := ten, job := job, serial := j.serial } })
  obtain ⟨st, hend⟩ := endPacket_moved hup.queue p.len
  have hmoved := hup.trans hend
  refine ⟨_, _, heq, hmoved.queue, rfl, fun hlen => ?_, ⟨j, ?_, hu.asn, hu.ten, rfl⟩, fun m q2 b2 hm hq2 hb2 hten2 => ?_⟩
  · have hcfg : ∀ d : DWord, (s.dev.tenCfg.set ten d).getD ten 0 = d := fun d => by simp [List.getD, hlen]
    rw [State.tenCfg, hmoved.dev, hu.tenCfg, hcfg, ← hasn']
    exact boundCfg_toNat _ _
  · rw [State.jobOf, hmoved.jobs]
    exact hu.job
  · refine ⟨reboundTo ten root asn q2, ?_, ?_⟩
    · rw [hmoved.others m hm, hu.queues, Tbl.get_mapAll, hq2]
      rfl
    · simp [reboundTo, hb2, hten2]

/-! ### Tick boundaries (R364) -/

/-- What a tick boundary does to a grid. -/
def tickReleased (at_ : Nat) (gr : Grid) : Grid :=
  if gr.place = .millrace && gr.release.isNone then { gr with release := some at_ } else gr

theorem tickReleased_eq (at_ : Nat) (gr : Grid) :
    tickReleased at_ gr = if gr.place = .millrace ∧ gr.release = none then { gr with release := some at_ } else gr := by
  unfold tickReleased
  simp only [Bool.and_eq_true, decide_eq_true_eq, Option.isNone_iff_eq_none]

/-- The fields that a boundary has set when its TICKALIGN packets are performed. -/
structure TickFields (s t : State) : Prop where
  tick : t.tick = s.tick + 1
  lastTick : t.lastTick = s.lastTick + s.tickSpacing * 1400
  tickSpacing : t.tickSpacing = s.tickPeriod
  grids : t.grids = s.grids.mapAll (fun _ => tickReleased (s.lastTick + s.tickSpacing * 1400))

theorem HomeFrame.tickFields {s t u : State} (h : HomeFrame t u) (k : TickFields s t) : TickFields s u where
  tick := by rw [← k.tick, ← h.rest]
  lastTick := by rw [← k.lastTick, ← h.rest]
  tickSpacing := by rw [← k.tickSpacing, ← h.rest]
  grids := h.grids.trans k.grids

theorem endPacket_tickFields {s t : State} (n len : Nat) (k : TickFields s t) : TickFields s (t.endPacket n len) := by
  have hup : TickFields s (t.updQueue n (fun q => { q with ridx := (q.ridx + 8 * len) % 2 ^ 32, pending := none })) :=
    ⟨k.tick, k.lastTick, k.tickSpacing, k.grids⟩
  unfold State.endPacket State.settleQueue
  split
  · exact hup
  · exact (showQueue_homeFrame _ _).tickFields ⟨k.tick, k.lastTick, k.tickSpacing, k.grids⟩

theorem tickFalls_fields (s : State) : TickFields s s.tickFalls := by
  unfold State.tickFalls
  refine List.foldlRecOn _ _ ⟨rfl, rfl, rfl, rfl⟩ fun t ht e _ => ?_
  split
  · split
    · exact endPacket_tickFields _ _ ht
    · exact ht
  · exact ht

/-- Without a TICKALIGN packet that waits, a boundary touches no queue and no memory. -/
theorem tickFalls_without {s : State} (h : ∀ e ∈ s.queues, ∀ m, e.2.pending ≠ some (.tickalign m)) :
    s.tickFalls.queues = s.queues ∧ s.tickFalls.mem = s.mem := by
  unfold State.tickFalls
  refine List.foldlRecOn (motive := fun t => State.queues t = s.queues ∧ State.mem t = s.mem) _ _ ⟨rfl, rfl⟩ fun t ht e he => ?_
  split
  next m hm => exact absurd hm (h e he m)
  next => exact ht

theorem tickBoundary_results {s : State} (hup : s.startup = 4) (hdue : s.lastTick + s.tickSpacing * 1400 ≤ s.clock) :
    exec .tickBoundary s = .next s.tickFalls := by
  have htick : s.tickDue = true := by
    rw [State.tickDue, Bool.and_eq_true, decide_eq_true_eq, decide_eq_true_eq]
    exact ⟨hup, hdue⟩
  show event "TICK_BOUNDARY" s.tickDue s.tickFalls = _
  exact event_next _ _ _ htick

/-! ### LAUNCH (R28, R357 to R362) -/

theorem joinGraph_eq (s : State) (job graph : Nat) : ∃ gs js, s.joinGraph job graph = { s with graphs := gs, jobs := js } := by
  unfold State.joinGraph
  split
  · exact ⟨_, s.jobs, rfl⟩
  · exact ⟨_, _, rfl⟩

theorem measureFor_eq (s : State) (b : Binding) (k : Kern) : ∃ x os, s.measureFor b k = { s with secure := x, objects := os } := by
  unfold State.measureFor
  split
  · exact ⟨s.secure, s.objects, rfl⟩
  · dsimp only
    split
    · exact ⟨s.secure, s.objects, rfl⟩
    · exact ⟨_, _, rfl⟩

/-- Counting a launch in its graph and job, and SERVICE's measuring of its object, leave queues, grids and memory as they were. -/
theorem joinGraph_measured {s u : State} {job graph : Nat} {b : Binding} {k : Kern} {c : Bool}
    (h : (if c then (s.joinGraph job graph).measureFor b k else s.joinGraph job graph) = u) :
    u.grids = s.grids ∧ u.nextGrid = s.nextGrid ∧ u.arrivals = s.arrivals ∧ u.mem = s.mem ∧ u.dev = s.dev ∧ u.queues = s.queues := by
  obtain ⟨gs, js, hgraph⟩ := joinGraph_eq s job graph
  rw [hgraph] at h
  subst h
  split
  · obtain ⟨x, os, hmeasure⟩ := measureFor_eq { s with graphs := gs, jobs := js } b k
    rw [hmeasure]
    exact ⟨rfl, rfl, rfl, rfl, rfl, rfl⟩
  · exact ⟨rfl, rfl, rfl, rfl, rfl, rfl⟩

/-- The grid of a LAUNCH as it enters Millrace, but for its rank. -/
def enteringGrid (s : State) (n : Nat) (q : Queue) (p : Pkt) (b : Binding) (k : Kern) : Grid :=
  { p.grid n b k 0 (s.arrivalFor q.thread) s.clock with thread := q.thread }

/-- The entries of this clock of higher queue threads move back by one. -/
def movedBack (s : State) (thread : Nat) (g : Grid) : Grid :=
  if s.enteredAfter thread g then { g with arrival := g.arrival + 1 } else g

theorem enterMillrace_enters (s : State) (n : Nat) (q : Queue) (p : Pkt) (b : Binding) (k : Kern) :
    ∃ (u : State) (rank : Nat) (bad : Bool), s.enterMillrace n q p b k = u.endPacket n p.len ∧
      u.grids = (s.grids.mapAll (fun _ => movedBack s q.thread)).put s.nextGrid { enteringGrid s n q p b k with rank := rank } ∧
      u.nextGrid = s.nextGrid + 1 ∧ u.arrivals = s.arrivals + 1 ∧ u.mem = s.mem ∧ u.dev = s.dev ∧
      u.queues = s.queues.upd n (fun x => { x with rankfault := x.rankfault || bad }) := by
  unfold State.enterMillrace
  dsimp only
  generalize s.rankOf _ _ _ _ _ = r
  generalize hu : ite (Grid.service _ = true) (State.measureFor _ b k) _ = u
  obtain ⟨hgrids, hnext, harrivals, hmem, hdev, hqueues⟩ := joinGraph_measured hu
  refine ⟨_, r.1, r.2, rfl, ?_, ?_, ?_, hmem, hdev, hqueues⟩
  · dsimp only
    rw [hgrids, hnext]
    rfl
  · exact congrArg (· + 1) hnext
  · exact congrArg (· + 1) harrivals

theorem enteredAfter_congr {s u : State} (h : u.clock = s.clock) (thread : Nat) (g : Grid) : u.enteredAfter thread g = s.enteredAfter thread g := by
  rw [State.enteredAfter, State.enteredAfter, h]

/-- Without entries that the new one comes before, it takes the next arrival number. -/
theorem arrivalFor_none {s : State} {thread : Nat} (h : ∀ e ∈ s.grids, s.enteredAfter thread e.2 = false) :
    s.arrivalFor thread = s.arrivals := by
  rw [State.arrivalFor, List.filter_eq_nil_iff.2 fun e he => by rw [h e he]; exact Bool.false_ne_true]
  rfl

theorem arrivalFor_le {s : State} {thread : Nat} {e : Nat × Grid} (he : e ∈ s.grids) (h : s.enteredAfter thread e.2 = true) :
    s.arrivalFor thread ≤ e.2.arrival :=
  List.min?_getD_le_of_mem (List.mem_map_of_mem (List.mem_filter.2 ⟨he, h⟩))

/-- A LAUNCH that every check of R357 accepts writes its record and enters Millrace. -/
theorem launchPacket_enters {s : State} {n : Nat} {q : Queue} {p : Pkt} {b : Binding} {o : Object} {k : Kern} {pa : Nat} {al : Alloc}
    (hf : p.formOk = true) (hb : q.binding = some b) (hsvc : p.flags / 8 % 2 = 1 → q.user = false)
    (hclosed : s.launchClosed b (fld (p.w 6) 0 16).toNat = false)
    (hdims : dimsOk ((fld (p.w 2) 0 32).toNat, (fld (p.w 2) 32 16).toNat, (fld (p.w 2) 48 16).toNat)
      ((fld (p.w 3) 0 11).toNat, (fld (p.w 3) 11 11).toNat, (fld (p.w 3) 22 11).toNat) = true)
    (hdesc : s.descRead b q.user (p.w 1).toNat 8 = none) (hobj : s.objectAt b.asn (p.w 1).toNat = some o)
    (hkern : kernOf (p.w 1).toNat o (s.descWord b q.user (p.w 1).toNat) = some k) (hcoop : p.flags % 2 = 0)
    (hacc : s.cpAccess b q.user Need.store (p.w 5).toNat = .ok pa al)
    (hroom : (s.cpWrite pa (p.w 5).toNat al 0 b.job).millrace.length < 4096) :
    s.launchPacket n q p = (s.cpWrite pa (p.w 5).toNat al 0 b.job).enterMillrace n q p b k := by
  have hservice : ¬ (decide (p.flags / 8 % 2 = 1) && q.user) = true := by
    simp only [Bool.and_eq_true, decide_eq_true_eq, not_and]
    exact fun h => by rw [hsvc h]; exact Bool.false_ne_true
  have hplain : (p.grid n b k 0 0 0).coop = false := by simp [Pkt.grid, hcoop]
  have hcap : ¬ Config.millraceCap ≤ (s.cpWrite pa (p.w 5).toNat al 0 b.job).millrace.length := by
    rw [show Config.millraceCap = 4096 from rfl]
    omega
  have hrecord : s.launchRecord n q p b k = (s.cpWrite pa (p.w 5).toNat al 0 b.job).enterMillrace n q p b k := by
    unfold State.launchRecord
    dsimp only
    rw [hacc]
    dsimp only
    rw [hplain, Bool.false_and, if_neg Bool.false_ne_true, if_neg hcap]
  unfold State.launchPacket
  rw [hf, if_neg (by simp), hb]
  dsimp only
  rw [if_neg hservice, hclosed, if_neg Bool.false_ne_true, hdims, if_neg (by simp), hdesc, hobj]
  dsimp only
  rw [Option.bind_some, hkern]
  exact hrecord

/-- What a LAUNCH does whose record does not wait for a page move or for room. -/
theorem exec_launch {s : State} {n : Nat} {q : Queue} {p : Pkt} {b : Binding} {pa : Nat} {al : Alloc} (h : AtQueue s n 1 q p)
    (hb : q.binding = some b) (hacc : s.cpAccess b q.user Need.store (p.w 5).toNat = .ok pa al) (hwaits : s.writeWaits pa = false) :
    exec (.launch n) s = .next (s.launchPacket n q p) := by
  have hmoving : s.cpMoving q (p.w 5).toNat = false := by simp only [State.cpMoving, hb, hacc, hwaits, Bool.and_false]
  show execLaunch n s = _
  unfold execLaunch
  rw [packetFor_of_atQueue h]
  exact event_next _ _ _ (by rw [hmoving]; rfl)

/-- Bytes apart from a descriptor are read as before. -/
theorem SameOutside.rd {s t : State} {n a k : Nat} (h : SameOutside s t n) (ha : a + k ≤ s.descOf n ∨ s.descOf n + 64 ≤ a) : t.rd a k = s.rd a k := by
  refine List.map_congr_left fun i hi => h (a + i) ?_
  have := List.mem_range.1 hi
  omega

/-- What the machine shows of a LAUNCH once it has performed: its grid, its queue, its record. -/
theorem launch_results {s : State} {n : Nat} {q : Queue} {p : Pkt} {b : Binding} {k : Kern} {pa : Nat} {al : Alloc} (hq : s.queues.get n = some q)
    (hapart : Apart s pa) :
    ∃ t g q', (s.cpWrite pa (p.w 5).toNat al 0 b.job).enterMillrace n q p b k = t ∧
      (∃ rank, g = { enteringGrid s n q p b k with rank := rank }) ∧ t.grids.get s.nextGrid = some g ∧ t.nextGrid = s.nextGrid + 1 ∧
      t.arrivals = s.arrivals + 1 ∧ t.queues.get n = some q' ∧ q'.ridx = past q p ∧ q'.pending = none ∧
      t.rd (localOf pa) 8 = bytesOfNat 0 8 ∧ MemBut s t n (fun a => localOf pa ≤ a ∧ a < localOf pa + 8) ∧
      (∀ m, m ≠ s.nextGrid → t.grids.get m = (s.grids.get m).map (movedBack s q.thread)) := by
  obtain ⟨hown, -, hdescs⟩ := hapart
  obtain ⟨hframe, hmem⟩ := cpWrite_own (p.w 5).toNat al 0 b.job hown hdescs
  generalize s.cpWrite pa (p.w 5).toNat al 0 b.job = u at hframe hmem
  obtain ⟨v, rank, bad, heq, hgrids, hnext, harrivals, hvmem, hvdev, hqueues⟩ := enterMillrace_enters u n q p b k
  have hback : movedBack u q.thread = movedBack s q.thread := funext fun g => by
    rw [movedBack, movedBack, enteredAfter_congr hframe.clock]
  have hentering : enteringGrid u n q p b k = enteringGrid s n q p b k := by
    have harrival : u.arrivalFor q.thread = s.arrivalFor q.thread := by
      simp only [State.arrivalFor, hframe.grids, hframe.arrivals, enteredAfter_congr hframe.clock]
    rw [enteringGrid, enteringGrid, harrival, hframe.clock]
  rw [hback, hentering, hframe.grids, hframe.nextGrid] at hgrids
  have hvq : v.queues.get n = some { q with rankfault := q.rankfault || bad } := by
    rw [hqueues, hframe.queues, Tbl.get_upd_self, hq]
    rfl
  obtain ⟨st, hend⟩ := endPacket_moved hvq p.len
  have hdesc : v.descOf n = s.descOf n := by rw [State.descOf, State.descOf, hvdev, hframe.dev]
  have hvbytes : v.mem = memWrite s.mem (localOf pa) (bytesOfNat 0 8) := hvmem.trans hmem
  refine ⟨_, { enteringGrid s n q p b k with rank := rank }, _, heq, ⟨rank, rfl⟩, ?_, ?_, ?_, hend.queue, rfl, rfl, ?_, fun a ha hd => ?_,
    fun m hm => ?_⟩
  · rw [hend.grids, hgrids, Tbl.get_put_self]
  · rw [hend.nextGrid, hnext, hframe.nextGrid]
  · rw [hend.arrivals, harrivals, hframe.arrivals]
  · rw [hend.mem.rd (by rw [hdesc]; exact hdescs _ (Tbl.mem_of_get _ _ _ hq)), State.rd, hvbytes]
    exact memRead_memWrite s.mem (localOf pa) (bytesOfNat 0 8)
  · refine (hend.mem a (by rwa [hdesc])).trans ?_
    rw [byteAt, hvbytes]
    exact memGet_memWrite_out _ _ _ _ (by rw [bytesOfNat_length]; omega)
  · rw [hend.grids, hgrids, Tbl.get_put_ne _ _ _ _ hm, Tbl.get_mapAll]

/-- The dimensions that words 2 and 3 of a LAUNCH give (Table 14-3). -/
def launchDims (p : Pkt) : Nat × Nat × Nat := ((p.w 2).toNat % 2 ^ 32, (p.w 2).toNat / 2 ^ 32 % 2 ^ 16, (p.w 2).toNat / 2 ^ 48)
def launchBlock (p : Pkt) : Nat × Nat × Nat :=
  ((p.w 3).toNat % 2 ^ 11, (p.w 3).toNat / 2 ^ 11 % 2 ^ 11, (p.w 3).toNat / 2 ^ 22 % 2 ^ 11)

theorem fld_low (w : DWord) (n : Nat) : (fld w 0 n).toNat = w.toNat % 2 ^ n := by rw [fld_toNat, pow_zero, Nat.div_one]

theorem dims_fld (p : Pkt) : ((fld (p.w 2) 0 32).toNat, (fld (p.w 2) 32 16).toNat, (fld (p.w 2) 48 16).toNat) = launchDims p := by
  have htop : (fld (p.w 2) 48 16).toNat = (p.w 2).toNat / 2 ^ 48 := by
    have := (p.w 2).isLt
    rw [fld_toNat]
    omega
  rw [fld_low, fld_toNat, htop, launchDims]

theorem block_fld (p : Pkt) : ((fld (p.w 3) 0 11).toNat, (fld (p.w 3) 11 11).toNat, (fld (p.w 3) 22 11).toNat) = launchBlock p := by
  rw [fld_low, fld_toNat, fld_toNat, launchBlock]

/-- The fields that the packet's words give its grid. -/
theorem enteringGrid_fields (s : State) (n : Nat) (q : Queue) (p : Pkt) (b : Binding) (k : Kern) :
    (enteringGrid s n q p b k).gdim = launchDims p ∧ (enteringGrid s n q p b k).bdim = launchBlock p ∧
      (enteringGrid s n q p b k).left = (launchDims p).1 * (launchDims p).2.1 * (launchDims p).2.2 ∧
      (enteringGrid s n q p b k).release = (if p.flags / 4 % 2 = 1 then none else some s.clock) := by
  have hgdim : (enteringGrid s n q p b k).gdim = launchDims p := dims_fld p
  refine ⟨hgdim, block_fld p, ?_, ?_⟩
  · rw [← hgdim]
    rfl
  · simp [enteringGrid, Pkt.grid]

/-- The argument words of a LAUNCH, two in each word from word 7 on. -/
theorem enteringGrid_args (s : State) (n : Nat) (q : Queue) (p : Pkt) (b : Binding) (k : Kern) : (enteringGrid s n q p b k).args =
    (List.range ((p.w 3).toNat / 2 ^ 33 % 2 ^ 5)).map (fun i => if i % 2 = 0 then loOf (p.w (7 + i / 2)) else hiOf (p.w (7 + i / 2))) := by
  rw [← fld_toNat]
  rfl

/-- Settles O45: a LAUNCH passes every check of R357 and enters Millrace, a BIND binds its queue and its tenancy's other queues, and
a boundary releases the TICK grids of Millrace before it performs TICKALIGN packets. -/
theorem launchAndBindResults : Obligations.LaunchAndBindResults := by
  intro s
  refine ⟨?_, ?_, ?_⟩
  · intro n q p b o k pa al hat hf hb hsvc hclosed dims block hdims hdesc hobj hkern hcoop hacc hapart hwaits hroom
    obtain ⟨t, g, q', ht, ⟨rank, rfl⟩, hgrid, hnext, harrivals, hq', hridx, hpending, hrd, hmem, hothers⟩ :=
      launch_results (p := p) (b := b) (k := k) (al := al) hat.1 hapart
    have hgrids := (cpWrite_own (p.w 5).toNat al 0 b.job hapart.1 hapart.2.2).1.grids
    have hlaunch := launchPacket_enters (n := n) hf hb hsvc (by rwa [fld_low]) (by rw [dims_fld, block_fld]; exact hdims) hdesc hobj hkern
      hcoop hacc (by rwa [State.millrace, hgrids])
    obtain ⟨hgdim, hbdim, hleft, hrelease⟩ := enteringGrid_fields s n q p b k
    have hargs := enteringGrid_args s n q p b k
    refine ⟨t, _, q', by rw [exec_launch hat hb hacc hwaits, hlaunch, ht], hgrid, hnext, harrivals, hq', hridx, hpending, hrd, hmem, rfl, rfl,
      rfl, rfl, rfl, fld_low _ _, rfl, hgdim, hbdim, rfl, rfl, arrivalFor_none, fun e he h => arrivalFor_le he h, rfl, hleft, rfl, hrelease,
      ?_, fun i hi => ?_, hothers⟩
    · rw [hargs, List.length_map, List.length_range]
    · rw [hargs, List.getElem?_map, List.getElem?_range hi]
      rfl
  · intro n q p hat hf asn ten job
    have hten : (fld (p.w 2) 16 4).toNat = ten := fld_toNat _ _ _
    rw [exec_bind hat hf, hten]
    refine ⟨fun hpriv => ?_, fun hpriv hbusy => ?_, fun hpriv hbusy hfree hown => ?_⟩
    · obtain ⟨q', hq', herr, hridx⟩ := refusePacket_passes hat.1 (code := 3) (by decide) (by decide) p.tag p.len 0
      exact ⟨_, q', by rw [hpriv]; rfl, hq', herr, hridx⟩
    · obtain ⟨st, hmoved⟩ := holdPacket_moved hat.1 .bind
      exact ⟨_, by rw [hpriv, hbusy]; rfl, _, hmoved.queue, rfl, rfl, rfl⟩
    · obtain ⟨t, q', ht, hres⟩ := bindPerform_results (root := (p.w 1).toNat / 2 ^ 13 % 2 ^ 39 * 2 ^ 13) hat.1 rfl rfl rfl rfl ⟨hfree, hown⟩
      exact ⟨t, q', by rw [hpriv, hbusy, ← ht]; rfl, hres⟩
  · intro hup hdue
    have hfields := tickFalls_fields s
    refine ⟨s.tickFalls, tickBoundary_results hup hdue, hfields.tick, hfields.lastTick, hfields.tickSpacing, fun g gr hg => ?_, tickFalls_without⟩
    rw [hfields.grids, Tbl.get_mapAll, hg, ← tickReleased_eq]
    rfl

end Sys2Proof.Proofs

/-! A step that issues (spec/02, spec/04): R33, R54, R64 to R68, R368, R369. -/

namespace Sys2Proof.Proofs

open Sys2Proof.Machine Sys2Proof.Claims

/-! ### The issue of a chain group of one slot (R54, R66) -/

/-- The machine as the slot `p.slot` begins that wave `v` issues. -/
def issueContext (u : State) (b w : Nat) (v : Wave) (p : Issue) : State :=
  { u with fresh := u.fresh + 1, note := .fine, cur := some ((v.sources p).curFor b w p p.slot p.lanes u.nextId (u.pending b w)) }

section
variable {u t : State} {b w : Nat} {v : Wave} {p : Issue}

/-- The one slot of a group whose word decodes is `exec` of its instruction. -/
theorem runSlots_decoded {i : Instr} {base : Nat} {pend : List (Nat × Option Word)} (hv : u.wave b w = some v) (hi : v.issue = some p)
    (hl : p.lanes ≠ 0) (hd : decode (p.words.getD p.slot 0) = some i)
    (he : exec i { u with cur := some ((v.sources p).curFor b w p p.slot p.lanes base pend), note := .fine } = .next t) (hn : t.note = .fine) :
    u.runSlots b w (v.sources p) p base pend [p.slot] p.slot = (t, p.slot + 1) := by
  simp only [State.runSlots, hv, Option.bind_some, hi, hl, if_false, hd, he, hn]

theorem runGroup_decoded {i : Instr} (fuel : Nat) (hv : u.wave b w = some v) (hi : v.issue = some p) (hl : p.lanes ≠ 0)
    (hk : groupSlots p.words p.slot = [p.slot]) (hd : decode (p.words.getD p.slot 0) = some i)
    (he : exec i (issueContext u b w v p) = .next t) (hn : t.note = .fine) :
    u.runGroup b w (fuel + 1) = .issued ({ t with cur := none }.endGroup b w (v.sources p) p (p.slot + 1) false) := by
  have hslots := runSlots_decoded (u := { u with fresh := u.fresh + 1, note := .fine }) (base := u.nextId) (pend := u.pending b w)
    hv hi hl hd he hn
  simp only [State.runGroup, hv, hi, hk, hslots, hn]

/-! ### A word that decodes to nothing (R68, R473) -/

theorem ite_note {c : Prop} [Decidable c] {s₁ s₂ : State} {n : GroupNote} (h₁ : s₁.note = n) (h₂ : s₂.note = n) :
    (if c then s₁ else s₂).note = n := by
  split
  · exact h₁
  · exact h₂

/-- A trap of threads outside their handler, in a wave that holds none, is taken. -/
theorem takeTrap_raised {blk : Block} (i : TrapInfo) (hb : u.block b = some blk) (hv : u.wave b w = some v) (ht : v.trapSet = none)
    (hh : ∀ y ∈ v.threads, y.inHandler = false) : (u.takeTrap b w i).note = .raised i := by
  unfold State.takeTrap
  simp only [hb, hv]
  rw [if_neg (by rw [ht]; simp), if_neg ?outside]
  case outside =>
    refine Bool.not_eq_true _ ▸ List.any_eq_false.2 fun l _ => ?_
    split
    next y hy => simp [hh y (List.mem_of_getElem? hy)]
    next => exact Bool.false_ne_true
  split
  · exact ite_note rfl rfl
  · rfl

theorem runSlots_illegal {base : Nat} {pend : List (Nat × Option Word)} {i : TrapInfo} (hv : u.wave b w = some v) (hi : v.issue = some p)
    (hl : p.lanes ≠ 0) (hd : decode (p.words.getD p.slot 0) = none)
    (ht : ({ u with cur := some ((v.sources p).curFor b w p p.slot p.lanes base pend), note := .fine } : State).takeTrap b w
      (illegalWord p p.slot p.lanes) = t) (hn : t.note = .raised i) :
    u.runSlots b w (v.sources p) p base pend [p.slot] p.slot = (t, p.slot + 1) := by
  simp only [State.runSlots, hv, Option.bind_some, hi, hl, if_false, hd, ht, hn]

theorem parked_none (h : ∀ y ∈ v.threads, y.st = .running ∧ y.owed = false) : v.lanesWith Thread.parked = 0 := by
  apply BitVec.eq_of_getLsbD_eq
  intro l _
  refine Eq.trans (Bool.eq_false_iff.2 ?_) BitVec.getLsbD_zero.symm
  intro hlane
  obtain ⟨-, y, hy, hp⟩ := (hasLane_lanesWith v Thread.parked l).1 hlane
  obtain ⟨hst, howed⟩ := h y (List.mem_of_getElem? hy)
  rw [Thread.parked, hst, howed] at hp
  exact absurd hp (by decide)

/-- A word that decodes to nothing makes the threads that issue it take ILLEGAL_ENCODING. -/
theorem runGroup_illegal {blk : Block} (fuel : Nat) (hb : u.block b = some blk) (hv : u.wave b w = some v) (hi : v.issue = some p)
    (hl : p.lanes ≠ 0) (hk : groupSlots p.words p.slot = [p.slot]) (hd : decode (p.words.getD p.slot 0) = none) (ht : v.trapSet = none)
    (hy : ∀ y ∈ v.threads, y.inHandler = false ∧ y.st = .running ∧ y.owed = false) :
    u.runGroup b w (fuel + 1) = .issued { ({ u with fresh := u.fresh + 1, note := .fine, cur := none } : State).takeTrap b w
      (illegalWord p p.slot p.lanes) with note := .fine, cur := none } := by
  have hh : ∀ y ∈ v.threads, y.inHandler = false := fun y h => (hy y h).1
  have hparked := parked_none fun y h => (hy y h).2
  have hslot : ∀ c : State, c.block b = some blk → c.wave b w = some v →
      (c.takeTrap b w (illegalWord p p.slot p.lanes)).note = .raised (illegalWord p p.slot p.lanes) :=
    fun c hcb hcv => takeTrap_raised _ hcb hcv ht hh
  have hnote := hslot { u with fresh := u.fresh + 1, note := .fine, cur := some ((v.sources p).curFor b w p p.slot p.lanes u.nextId (u.pending b w)) }
    hb hv
  have hslots := runSlots_illegal (u := { u with fresh := u.fresh + 1, note := .fine }) (base := u.nextId) (pend := u.pending b w) hv hi hl hd rfl
    hnote
  generalize State.takeTrap _ b w (illegalWord p p.slot p.lanes) = t at hslots hnote
  have hset : (illegalWord p p.slot p.lanes).set ||| ((v.sources p).curFor b w p p.slot p.lanes 0 []).activeOf p.words [p.slot] = p.lanes := by
    simp only [Cur.activeOf, List.foldl_cons, List.foldl_nil, hd]
    exact BitVec.or_self
  have htaken := hslot { u with fresh := u.fresh + 1, note := .fine, cur := none } hb hv
  have hfree : ¬ ((v.lanesWith Thread.parked &&& p.lanes) != 0) = true := by rw [hparked]; simp
  simp only [State.runGroup, hv, hi, hk, hslots, hnote, hset]
  rw [if_neg hfree]
  split
  next h => exact absurd (htaken.symm.trans h) nofun
  next => rfl

end

/-! ### The bookkeeping of an issue (R368) -/

/-- `t` is `s` but for the runs of waves, so that wave `w` of block `b` is now `v`, and what cores have issued. -/
structure Counted (s t : State) (b w : Nat) (blk : Block) (v : Wave) : Prop where
  rest : { t with blocks := s.blocks, cores := s.cores } = s
  block : ∃ ws, t.block b = some { blk with waves := ws }
  wave : t.wave b w = some v
  icache : (t.core blk.core).icache = (s.core blk.core).icache

/-- The wave `i` of block `c`, of a core where wave `w` of block `b` issues. -/
def countedWave (s : State) (b w : Nat) (packet : Bool) (c i : Nat) (y : Wave) : Wave :=
  if c = b && i = w then y.ranOn packet (s.fresh + 1) else if i % 4 = w % 4 then { y with run := 0 } else y

def countedBlock (s : State) (b w core : Nat) (packet : Bool) (c : Nat) (x : Block) : Block :=
  if x.core = core then { x with waves := x.waves.mapIdx (countedWave s b w packet c) } else x

theorem core_of_put {t : State} {cs : Tbl Core} {c : Nat} {k : Core} (h : t.cores = cs.put c k) : t.core c = k := by
  rw [State.core, h, Tbl.get_put_self]
  rfl

theorem countRun_eq {s : State} {b : Nat} {blk : Block} (hb : s.block b = some blk) (w : Nat) (packet : Bool) :
    s.countRun b w packet = { s with
      blocks := s.blocks.mapAll (countedBlock s b w blk.core packet),
      cores := s.cores.put blk.core { s.core blk.core with issued := (b, w) :: (s.core blk.core).issued } } := by
  unfold State.countRun
  rw [hb]
  rfl

theorem countRun_counted {s : State} {b w : Nat} {blk : Block} {v : Wave} (hb : s.block b = some blk) (hv : s.wave b w = some v) (packet : Bool) :
    Counted s (s.countRun b w packet) b w blk (v.ranOn packet (s.fresh + 1)) := by
  have hwave : blk.waves[w]? = some v := by simpa [State.wave, hb, Block.wave] using hv
  have hget : (s.blocks.mapAll (countedBlock s b w blk.core packet)).get b =
      some { blk with waves := blk.waves.mapIdx (countedWave s b w packet b) } := by
    rw [Tbl.get_mapAll, show s.blocks.get b = some blk from hb, Option.map_some, countedBlock, if_pos rfl]
  have hcore : (s.countRun b w packet).core blk.core = { s.core blk.core with issued := (b, w) :: (s.core blk.core).issued } :=
    core_of_put (congrArg State.cores (countRun_eq hb w packet))
  refine ⟨by rw [countRun_eq hb], ⟨_, by rw [countRun_eq hb]; exact hget⟩, ?_, by rw [hcore]⟩
  rw [countRun_eq hb]
  rw [State.wave, State.block, hget]
  simp [Block.wave, countedWave, hwave]

/-- A translation reads memory, the map of modules, the presented capacity and the TLB alone. -/
theorem xlate_congr {s t : State} (hm : t.mem = s.mem) (hd : t.dev = s.dev) (hp : t.ports = s.ports) (hc : t.presented = s.presented)
    (hl : t.tlb = s.tlb) (cluster : Option Nat) (asn root : Nat) (user : Bool) (need : Need) (va : Nat) :
    t.xlate cluster asn root user need va = s.xlate cluster asn root user need va := by
  have hregion := region_congr hd hp hc
  have hbacked (pa : Nat) : t.backed pa = s.backed pa := by unfold State.backed; rw [hregion]
  have hread (a : Nat) : t.rd64 a = s.rd64 a := by unfold State.rd64 State.rdNat State.rd; rw [hm]
  have hwalk (table : Nat) (sb : Bool) (lvl fuel : Nat) : t.walkFrom va table sb lvl fuel = s.walkFrom va table sb lvl fuel := by
    induction fuel generalizing table sb lvl with
    | zero => rfl
    | succ fuel ih => simp only [State.walkFrom, hbacked, hread, ih]
  unfold State.xlate State.leafFor State.walk
  simp only [hwalk, hregion, hl]

section
variable {s t : State} {b w : Nat} {blk : Block} {v : Wave}

theorem Counted.xlate (h : Counted s t b w blk v) (cluster : Option Nat) (asn root : Nat) (user : Bool) (need : Need) (va : Nat) :
    t.xlate cluster asn root user need va = s.xlate cluster asn root user need va := by
  apply xlate_congr <;> rw [← h.rest]

theorem Counted.region (h : Counted s t b w blk v) (pa : Nat) : t.region pa = s.region pa := by
  apply region_congr <;> rw [← h.rest]

theorem Counted.grids (h : Counted s t b w blk v) : t.grids = s.grids := by rw [← h.rest]

/-- A wave fetches the same whether or not its issue has been counted. -/
theorem Counted.fetch (h : Counted s t b w blk v) (ws : List Wave) (pc : DWord) : t.fetch { blk with waves := ws } pc = s.fetch blk pc := by
  simp only [State.fetch, h.xlate, h.region, h.grids, h.icache]

end

/-! ### Beginning a packet (R33, R34, R59) -/

theorem upd_eq_self {α : Type} (t : Tbl α) (k : Nat) (f : α → α) (h : ∀ x, f x = x) : t.upd k f = t := by
  induction t with
  | nil => rfl
  | cons e t ih =>
    rw [Tbl.upd, ih, h]
    exact ite_self _

theorem mapIdx_self {α : Type} (xs : List α) : xs.mapIdx (fun _ x => x) = xs := List.ext_getElem? fun j => by simp

theorem updAt_eq_self {α : Type} (xs : List α) (i : Nat) (f : α → α) (h : ∀ x, f x = x) : updAt xs i f = xs := by
  simp [updAt, h, mapIdx_self]

theorem updLanes_zero (v : Wave) (f : Thread → Thread) : v.updLanes 0 f = v := by
  simp [Wave.updLanes, hasLane, mapIdx_self]

/-- No lane is passed over where one position alone may be chosen. -/
theorem updWave_no_lanes (s : State) (b w : Nat) (f : Thread → Thread) : s.updWave b w (fun x => x.updLanes 0 f) = s := by
  have hblock : ∀ x : Block, x.updWave w (fun x => x.updLanes 0 f) = x := fun x => by
    rw [Block.updWave, updAt_eq_self _ _ _ fun v => updLanes_zero v f]
  rw [State.updWave, State.updBlock, upd_eq_self _ _ _ hblock]

theorem upd_upd {α : Type} (t : Tbl α) (k : Nat) (f g : α → α) : (t.upd k f).upd k g = t.upd k (fun x => g (f x)) := by
  induction t with
  | nil => rfl
  | cons e t ih =>
    obtain ⟨j, x⟩ := e
    by_cases h : k = j
    · subst h
      simp [Tbl.upd, ih]
    · simp [Tbl.upd, h, ih]

theorem updAt_updAt {α : Type} (xs : List α) (i : Nat) (f g : α → α) : updAt (updAt xs i f) i g = updAt xs i (fun x => g (f x)) := by
  apply List.ext_getElem?
  intro j
  simp only [updAt_get]
  split
  · rw [Option.map_map]
    rfl
  · rfl

theorem updWave_updWave (s : State) (b w : Nat) (f g : Wave → Wave) : (s.updWave b w f).updWave b w g = s.updWave b w (fun x => g (f x)) := by
  simp only [State.updWave, State.updBlock, upd_upd, Block.updWave, updAt_updAt]

section
variable {s t : State} {b w : Nat} {blk : Block} {v : Wave} {q : Pos} {pk : Packet} {m : Lanes}

/-- The packet that the lanes `m` begin at a position. -/
def begunIssue (q : Pos) (pk : Packet) (m : Lanes) : Issue := { pc := q.pc, ctl := pk.ctl, words := pk.words, slot := q.slot, lanes := m }

/-- The wave as it begins that packet. -/
def begunWave (q : Pos) (pk : Packet) (m : Lanes) (x : Wave) : Wave :=
  { x.updLanes m (fun y => { y with recheck := false, starve := 0 }) with issue := some (begunIssue q pk m) }

theorem beginAt_begins (hv : s.wave b w = some v) (hok : packetOk pk = true) :
    s.beginAt b w q pk m = (s.updWave b w (begunWave q pk m)).runGroup b w 40 := by
  unfold State.beginAt
  simp only [hv, hok, Bool.not_true, Bool.and_false, Bool.false_eq_true, if_false]
  rw [updWave_updWave]
  rfl

/-- A wave with one position, awake, has one candidate if its group issues. -/
theorem candidates_single (hb : s.block b = some blk) (hv : s.wave b w = some v) (hpos : v.positions = [q]) (hsleep : v.sleep = none)
    (hfetch : s.fetch blk q.pc = .packet pk) (hm : v.eligible q (controlOf pk.ctl) ≠ 0)
    (ht : s.beginAt b w q pk (v.eligible q (controlOf pk.ctl)) = .issued t) :
    s.candidates b w = [⟨q, pk, v.eligible q (controlOf pk.ctl), .issued t⟩] := by
  have hawake : v.awake q = true := by rw [Wave.awake, hsleep]; rfl
  simp only [State.candidates, hb, hv, hpos, List.filter_cons, hawake, if_true, List.filter_nil, List.filterMap_cons, hfetch, hm, if_false, ht,
    List.filterMap_nil]

theorem head_starved {c : Candidate} (p : Candidate → Bool) : (if ([c].filter p).isEmpty then [c] else [c].filter p).head? = some c := by
  cases h : p c <;> simp [h]

/-- A wave with one candidate begins its packet. -/
theorem beginPacket_single {c : Candidate} {x : Wave} (hv : s.wave b w = some x) (hc : (s.countRun b w true).candidates b w = [c])
    (ht : (s.countRun b w true).beginAt b w c.pos c.pk c.lanes = .issued t) : s.beginPacket b w = some t := by
  unfold State.beginPacket
  simp only [hv, hc, head_starved, List.foldl_cons, List.foldl_nil, if_true, updWave_no_lanes, ht]

/-- A wave whose only position holds a packet, and that has no trap recorded, goes on to begin it. -/
theorem issueFresh_begins (hb : s.block b = some blk) (hv : s.wave b w = some v) (hheld : v.heldThread = none) (hpos : v.positions = [q])
    (hslot : q.slot = 0) (hfetch : s.fetch blk q.pc = .packet pk) : s.issueFresh b w = s.beginPacket b w := by
  have hdeliver : s.deliverHeld b w = none := by simp only [State.deliverHeld, hv, hheld]
  have hchains : s.readChains b w = s := by
    simp [State.readChains, hb, hv, hpos, hslot, unreadSlot]
  have hfetching : s.fetching b w = false := by
    simp [State.fetching, State.fetchTrouble, hb, hv, hpos, hfetch]
  simp only [State.issueFresh, hdeliver, hchains, hfetching, Bool.false_eq_true, if_false]

end

/-! ### The step (R33, R368, R369) -/

/-- Wave `w` of block `b` may issue in `s`: its block lives on a core that is not fenced, its sub-core has not issued in this clock,
and nothing holds the wave. -/
structure MayIssue (s : State) (b w : Nat) (blk : Block) (v : Wave) : Prop where
  block : s.block b = some blk
  wave : s.wave b w = some v
  live : blk.live = true
  fenced : (s.core blk.core).fenced = false
  free : s.subBusy b w = false
  stays : s.stays b w = false

section
variable {s t : State} {b w : Nat} {blk : Block} {v : Wave}

theorem MayIssue.issueWave_eq (h : MayIssue s b w blk v) {p : Issue} (hi : v.issue = some p)
    (ht : (s.countRun b w false).runGroup b w 40 = .issued t) : s.issueWave b w = some t := by
  simp only [State.issueWave, h.block, h.wave, h.live, h.fenced, h.stays, Bool.not_true, Bool.or_self, Bool.false_eq_true, if_false, hi, ht]

theorem MayIssue.issueWave_fresh (h : MayIssue s b w blk v) (hi : v.issue = none) : s.issueWave b w = s.issueFresh b w := by
  simp only [State.issueWave, h.block, h.wave, h.live, h.fenced, h.stays, Bool.not_true, Bool.or_self, Bool.false_eq_true, if_false, hi]

theorem sources_ranOn (v : Wave) (packet : Bool) (now : Nat) (p : Issue) : (v.ranOn packet now).sources p = (v.sources p).ranOn packet now := by
  unfold Wave.sources
  rw [show (v.ranOn packet now).late = v.late from rfl]
  split <;> rfl

/-- The run of a wave is none of what its slots read. -/
theorem issueContext_ranOn (u : State) (b w : Nat) (v : Wave) (packet : Bool) (now : Nat) (p : Issue) :
    issueContext u b w (v.ranOn packet now) p = issueContext u b w v p := by
  rw [issueContext, sources_ranOn]
  rfl

/-- With nothing else due, a step whose action is a wave's issue is that issue, where R368 and R369 let the wave go. -/
theorem step_issues {rest : List Action} {es : List (Nat × Nat)} (hfatal : s.fatalDue = false) (htick : s.tickDue = false)
    (hagenda : s.agenda = .issue b w :: rest) (hyield : { s with agenda := rest }.yielding b w = some es)
    (h : MayIssue ({ s with agenda := rest }.keepBack es 1) b w blk v) (ht : ({ s with agenda := rest }.keepBack es 1).issueWave b w = some t) :
    Machine.step s = .next (t.rest s.devHealth) := by
  have hchosen : { s with agenda := rest }.issueChosen b w = some t := by
    rw [State.issueChosen, hyield, Option.bind_some, State.issueNow, h.free, if_neg Bool.false_ne_true, ht]
  show s.stepOf = _
  simp only [State.stepOf, hfatal, htick, Bool.false_eq_true, if_false, hagenda, State.act, hchosen]
  rfl

/-- The packet goes on with its next slot. -/
theorem MayIssue.next_slot (h : MayIssue s b w blk v) {p : Issue} {i : Instr} (hi : v.issue = some p) (hl : p.lanes ≠ 0)
    (hk : groupSlots p.words p.slot = [p.slot]) (hd : decode (p.words.getD p.slot 0) = some i)
    (he : exec i (issueContext (s.countRun b w false) b w v p) = .next t) (hn : t.note = .fine) :
    s.issueWave b w = some ({ t with cur := none }.endGroup b w v p (p.slot + 1) false) := by
  have hcounted := countRun_counted h.block h.wave false
  exact h.issueWave_eq hi (runGroup_decoded 39 hcounted.wave hi hl hk hd ((issueContext_ranOn ..).symm ▸ he) hn)

/-- The word of the packet's next slot decodes to nothing. -/
theorem MayIssue.next_illegal (h : MayIssue s b w blk v) {p : Issue} (hi : v.issue = some p) (hl : p.lanes ≠ 0)
    (hk : groupSlots p.words p.slot = [p.slot]) (hd : decode (p.words.getD p.slot 0) = none) (htrap : v.trapSet = none)
    (hy : ∀ y ∈ v.threads, y.inHandler = false ∧ y.st = .running ∧ y.owed = false) :
    s.issueWave b w = some { ({ s.countRun b w false with fresh := (s.countRun b w false).fresh + 1, note := .fine, cur := none } : State).takeTrap
      b w (illegalWord p p.slot p.lanes) with note := .fine, cur := none } := by
  have hcounted := countRun_counted h.block h.wave false
  obtain ⟨ws, hblock⟩ := hcounted.block
  exact h.issueWave_eq hi (runGroup_illegal 39 hblock hcounted.wave hi hl hk hd htrap hy)

/-- The wave begins the packet at its one position. -/
theorem MayIssue.next_packet (h : MayIssue s b w blk v) {q : Pos} {pk : Packet} {i : Instr} (hi : v.issue = none) (hheld : v.heldThread = none)
    (hsleep : v.sleep = none) (hpos : v.positions = [q]) (hslot : q.slot = 0) (hfetch : s.fetch blk q.pc = .packet pk)
    (hok : packetOk pk = true) (hk : groupSlots pk.words 0 = [0]) (hd : decode (pk.words.getD 0 0) = some i)
    (hm : v.eligible q (controlOf pk.ctl) ≠ 0)
    (he : exec i (issueContext ((s.countRun b w true).updWave b w (begunWave q pk (v.eligible q (controlOf pk.ctl)))) b w
      (begunWave q pk (v.eligible q (controlOf pk.ctl)) v) (begunIssue q pk (v.eligible q (controlOf pk.ctl)))) = .next t)
    (hn : t.note = .fine) :
    s.issueWave b w = some ({ t with cur := none }.endGroup b w v (begunIssue q pk (v.eligible q (controlOf pk.ctl))) 1 false) := by
  have hcounted := countRun_counted h.block h.wave true
  obtain ⟨ws, hblock⟩ := hcounted.block
  generalize hlanes : v.eligible q (controlOf pk.ctl) = m at hm he
  have hbegun : ((s.countRun b w true).updWave b w (begunWave q pk m)).wave b w =
      some ((begunWave q pk m v).ranOn true (s.fresh + 1)) := by
    rw [State.wave_updWave_self, hcounted.wave]
    rfl
  have hgroup : (s.countRun b w true).beginAt b w q pk m = .issued ({ t with cur := none }.endGroup b w v (begunIssue q pk m) 1 false) := by
    rw [beginAt_begins hcounted.wave hok]
    have hslot' : (begunIssue q pk m).slot = 0 := hslot
    have hrun := runGroup_decoded 39 hbegun rfl hm (by rw [hslot']; exact hk) (by rw [hslot']; exact hd) ((issueContext_ranOn ..).symm ▸ he) hn
    rw [hslot'] at hrun
    exact hrun
  subst hlanes
  have hcandidates := candidates_single hblock hcounted.wave hpos hsleep ((hcounted.fetch ws q.pc).trans hfetch) hm hgroup
  rw [h.issueWave_fresh hi, issueFresh_begins h.block h.wave hheld hpos hslot hfetch, beginPacket_single h.wave hcandidates hgroup]

end

/-- Settles O54: a step whose action is a wave's issue runs the one slot of its group as `exec` of the decoded instruction, in the packet
that the wave stands in or in the one it begins; a word without a meaning is a trap of the threads that issue it. -/
theorem stepRunsDecoded : Obligations.StepRunsDecoded := by
  intro s b w rest es blk wv hfatal htick hagenda hyield a hblock hwave hlive hfenced hfree hstays issuing advance
  have h : MayIssue a b w blk wv := ⟨hblock, hwave, hlive, hfenced, hfree, hstays⟩
  have hend : ∀ p t k, ({ t with cur := none } : State).endGroup b w wv p k false = advance p t k := by
    intro p t k
    simp only [State.endGroup, Bool.false_and, Bool.false_eq_true, if_false]
    rfl
  refine ⟨?_, ?_, ?_⟩
  · intro p i t hi hl hk hd he hn
    rw [← hend]
    exact step_issues hfatal htick hagenda hyield h (h.next_slot hi hl hk hd he hn)
  · intro p hi hl hk hd htrap hy
    exact ⟨illegalWord p p.slot p.lanes, rfl, rfl, rfl, step_issues hfatal htick hagenda hyield h (h.next_illegal hi hl hk hd htrap hy)⟩
  · intro q pk i t hi hheld hsleep hpos hslot hfetch hok hk hd m p begun hm he hn
    have hp : begunIssue q pk m = p := by rw [begunIssue, hslot]
    have hbegun : begunWave q pk m = begun := funext fun x => by rw [begunWave, hp]
    rw [← hend, ← hp]
    refine step_issues hfatal htick hagenda hyield h (h.next_packet hi hheld hsleep hpos hslot hfetch hok hk hd hm ?_ hn)
    show exec i (issueContext ((a.countRun b w true).updWave b w (begunWave q pk m)) b w (begunWave q pk m wv) (begunIssue q pk m)) = _
    rw [hbegun, hp]
    exact he

end Sys2Proof.Proofs

/-! The encoding (spec/03, spec/04): the decoder and the encoder read one relation of instructions and words, `Coded`, in its two
directions (R69, R70, R92). -/

namespace Sys2Proof.Proofs

/-! ### Fields of a word (Table 3-5) -/

/-- Two fields that touch are one field. -/
theorem fld_append_fld (w : DWord) {hi lo m n : Nat} (h : hi = lo + n) : fld w hi m ++ fld w lo n = fld w lo (m + n) :=
  BitVec.extractLsb'_append_extractLsb'_eq_extractLsb' h

/-- A one-bit field is the flag it is read as. -/
theorem ofBool_beq_one (b : BitVec 1) : BitVec.ofBool (b == 1) = b := by
  revert b; decide

@[simp] theorem beq_one_ofBool (b : Bool) : (BitVec.ofBool b == 1#1) = b := by
  cases b <;> rfl

theorem bit_eq_zero {b : BitVec 1} (h : (b == 1) = false) : b = 0 := by
  revert b; decide

/-- A field below bit 49 is one of the format's. -/
theorem fld_wordOf_low (op : Nat) (h : Head) (x : BitVec 49) {lo n : Nat} (hn : lo + n ≤ 49) :
    fld (wordOf op h x) lo n = x.extractLsb' lo n :=
  BitVec.extractLsb'_append_eq_of_add_le hn

/-- A field of bits 55 to 49 is one of the common fields. -/
theorem fld_wordOf_head (op : Nat) (h : Head) (x : BitVec 49) {lo n : Nat} (hlo : 49 ≤ lo) (hn : lo + n ≤ 56) :
    fld (wordOf op h x) lo n = h.pack.extractLsb' (lo - 49) n :=
  (BitVec.extractLsb'_append_eq_of_le hlo).trans (BitVec.extractLsb'_append_eq_of_add_le (by omega))

/-- A word is made of its OP, its common fields and its format's fields. -/
theorem wordOf_fields {w : DWord} {h : Head} {x : BitVec 49} (hh : h.pack = fld w 49 7) (hx : x = fld w 0 49) :
    wordOf (opOfWord w) h x = w := by
  have hop : BitVec.ofNat 8 (opOfWord w) = fld w 56 8 := BitVec.ofNat_toNat _ _
  rw [wordOf, hop, hh, hx, fld_append_fld w (by rfl), fld_append_fld w (by rfl)]
  exact BitVec.extractLsb'_eq_self

section

open BitVec (extractLsb'_append_eq_of_le extractLsb'_append_eq_of_add_le)

/-! ### The common fields (R70) -/

theorem headOf_wordOf (op : Nat) (h : Head) (x : BitVec 49) : headOf (wordOf op h x) = some h := by
  obtain ⟨_ | ⟨neg, p⟩, chain⟩ := h
  · simp (disch := omega) only [headOf, fld_wordOf_head, Head.pack, extractLsb'_append_eq_of_le, extractLsb'_append_eq_of_add_le]
    simp
  · simp (disch := omega) only [headOf, fld_wordOf_head, Head.pack, extractLsb'_append_eq_of_le, extractLsb'_append_eq_of_add_le]
    simp

theorem pack_of_headOf {w : DWord} {h : Head} (hh : headOf w = some h) : h.pack = fld w 49 7 := by
  simp only [headOf] at hh
  split at hh
  · rename_i hge
    cases hh
    have hge : 1#1 = fld w 55 1 := (beq_iff_eq.1 hge).symm
    simp (disch := omega) only [Head.pack, ofBool_beq_one, hge, fld_append_fld]
  · rename_i hge
    split at hh
    · rename_i hz
      cases hh
      obtain ⟨hgn, hgp⟩ : (fld w 54 1 == 1) = false ∧ fld w 50 4 = 0 := by simpa using hz
      have hz : 0#6 = fld w 55 1 ++ fld w 54 1 ++ fld w 50 4 := by
        rw [bit_eq_zero (eq_false_of_ne_true hge), bit_eq_zero hgn, hgp]; rfl
      simp (disch := omega) only [Head.pack, ofBool_beq_one, hz, fld_append_fld]
    · cases hh

/-! ### The formats (Tables 3-6 to 3-15): reading what was packed, and packing what was read -/

theorem Pat.ofCode_code (p : Pat) : Pat.ofCode p.code = some p := by
  cases p <;> rfl

theorem Pat.code_of_ofCode {c : BitVec 3} {p : Pat} : Pat.ofCode c = some p → p.code = c := by
  revert c p; decide

theorem RM.ofCode_code (m : RM) : RM.ofCode m.code = m := by
  cases m <;> rfl

theorem RM.code_ofCode (c : BitVec 2) : (RM.ofCode c).code = c := by
  revert c; decide

theorem srcBOf_wordOf (op : Nat) (h : Head) (f : A3) : srcBOf (wordOf op h f.pack) = some f.b := by
  obtain ⟨d, a, b, c, ty, rm, sat⟩ := f
  cases b <;>
    simp (disch := omega) only [srcBOf, fld_wordOf_low, A3.pack, SrcB.low, SrcB.field, extractLsb'_append_eq_of_le,
      extractLsb'_append_eq_of_add_le] <;>
    simp [Pat.ofCode_code]

theorem a3Of_wordOf (op : Nat) (h : Head) (f : A3) : a3Of (wordOf op h f.pack) = some f := by
  have hlow : f.b.low.extractLsb' 0 1 = 0#1 := by
    cases f.b <;> simp (disch := omega) only [SrcB.low, extractLsb'_append_eq_of_add_le] <;> rfl
  rw [a3Of, srcBOf_wordOf]
  simp (disch := omega) only [fld_wordOf_low, A3.pack, extractLsb'_append_eq_of_le, extractLsb'_append_eq_of_add_le, hlow]
  simp [RM.ofCode_code]

theorem low_of_srcBOf {w : DWord} {b : SrcB} (hz : fld w 0 1 = 0#1) (hb : srcBOf w = some b) :
    b.field = fld w 25 8 ∧ b.low = fld w 0 11 := by
  have hzero {x : SrcB} (h : (if fld w 6 3 == 0 && fld w 1 5 == 0 then some x else none) = some b) :
      b = x ∧ 0#9 = fld w 0 9 := by
    simp only [Option.ite_none_right_eq_some, Bool.and_eq_true, beq_iff_eq, Option.some.injEq] at h
    obtain ⟨⟨hpp, hpa⟩, hx⟩ := h
    refine ⟨hx.symm, ?_⟩
    have hw : fld w 0 9 = fld w 6 3 ++ fld w 1 5 ++ fld w 0 1 := by simp (disch := omega) only [fld_append_fld]
    rw [hw, hpp, hpa, hz]
    rfl
  have hkind {k : Nat} (h : (fld w 9 2).toNat = k) : BitVec.ofNat 2 k = fld w 9 2 := h ▸ BitVec.ofNat_toNat _ _
  simp only [srcBOf] at hb
  split at hb
  case h_1 hk =>
    obtain ⟨p, hp, rfl⟩ := Option.map_eq_some_iff.1 hb
    have hk := hkind hk
    simp (disch := omega) only [SrcB.field, SrcB.low, Pat.code_of_ofCode hp, hk, ← hz, fld_append_fld, and_self]
  case h_2 hk =>
    obtain ⟨rfl, h0⟩ := hzero hb
    simp (disch := omega) only [SrcB.field, SrcB.low, hkind hk, h0, fld_append_fld, and_self]
  case h_3 hk =>
    obtain ⟨rfl, h0⟩ := hzero hb
    simp (disch := omega) only [SrcB.field, SrcB.low, hkind hk, h0, fld_append_fld, and_self]
  case h_4 => cases hb

theorem pack_of_a3Of {w : DWord} {f : A3} (hf : a3Of w = some f) : f.pack = fld w 0 49 := by
  unfold a3Of at hf
  split at hf
  · cases hf
  · rename_i hz
    obtain ⟨b, hb, rfl⟩ := Option.map_eq_some_iff.1 hf
    obtain ⟨hfield, hlow⟩ := low_of_srcBOf (bit_eq_zero (by simpa using hz)) hb
    simp (disch := omega) only [A3.pack, RM.code_ofCode, ofBool_beq_one, hfield, hlow, fld_append_fld]

theorem tabOf_wordOf (op : Nat) (h : Head) (f : Tab3) : tabOf (wordOf op h f.pack) = some f := by
  simp (disch := omega) only [tabOf, fld_wordOf_low, Tab3.pack, extractLsb'_append_eq_of_le, extractLsb'_append_eq_of_add_le]
  have htab : f.tab.extractLsb' 5 3 ++ f.tab.extractLsb' 0 5 = f.tab :=
    (BitVec.extractLsb'_append_extractLsb'_eq_extractLsb' rfl).trans BitVec.extractLsb'_eq_self
  simp [htab]

theorem pack_of_tabOf {w : DWord} {f : Tab3} (hf : tabOf w = some f) : f.pack = fld w 0 49 := by
  unfold tabOf at hf
  split at hf
  · cases hf
  · rename_i hz
    cases hf
    simp only [Bool.or_eq_true, not_or, bne_iff_ne, not_not, Bool.not_eq_true] at hz
    obtain ⟨⟨h0, h6⟩, h10⟩ := hz
    have hw : fld w 0 49 = fld w 41 8 ++ fld w 33 8 ++ fld w 25 8 ++ fld w 17 8 ++ fld w 14 3 ++ fld w 11 3 ++ fld w 10 1 ++
        fld w 9 1 ++ fld w 6 3 ++ fld w 1 5 ++ fld w 0 1 := by
      simp (disch := omega) only [fld_append_fld]
    rw [hw, bit_eq_zero h10, h6, bit_eq_zero h0]
    simp (disch := omega) only [Tab3.pack, ofBool_beq_one, extractLsb'_append_eq_of_le, extractLsb'_append_eq_of_add_le]
    simp

theorem aiOf_wordOf (op : Nat) (h : Head) (f : AI) : aiOf (wordOf op h f.pack) = some f := by
  simp (disch := omega) only [aiOf, fld_wordOf_low, AI.pack, extractLsb'_append_eq_of_le, extractLsb'_append_eq_of_add_le]
  simp

theorem pack_of_aiOf {w : DWord} {f : AI} (hf : aiOf w = some f) : f.pack = fld w 0 49 := by
  cases hf
  simp (disch := omega) only [AI.pack, ofBool_beq_one, fld_append_fld]

theorem mOf_wordOf (op : Nat) (h : Head) (f : MFmt) : mOf (wordOf op h f.pack) = some f := by
  simp (disch := omega) only [mOf, fld_wordOf_low, MFmt.pack, extractLsb'_append_eq_of_le, extractLsb'_append_eq_of_add_le]
  simp

theorem pack_of_mOf {w : DWord} {f : MFmt} (hf : mOf w = some f) : f.pack = fld w 0 49 := by
  cases hf
  simp (disch := omega) only [MFmt.pack, ofBool_beq_one, fld_append_fld]

theorem eOf_wordOf (op : Nat) (h : Head) (f : EFmt) : eOf (wordOf op h f.pack) = some f := by
  simp (disch := omega) only [eOf, fld_wordOf_low, EFmt.pack, extractLsb'_append_eq_of_le, extractLsb'_append_eq_of_add_le]
  simp

theorem pack_of_eOf {w : DWord} {f : EFmt} (hf : eOf w = some f) : f.pack = fld w 0 49 := by
  cases hf
  simp (disch := omega) only [EFmt.pack, fld_append_fld]

theorem cOf_wordOf (op : Nat) (h : Head) (f : CFmt) : cOf (wordOf op h f.pack) = some f := by
  simp (disch := omega) only [cOf, fld_wordOf_low, CFmt.pack, extractLsb'_append_eq_of_le, extractLsb'_append_eq_of_add_le]
  simp

theorem pack_of_cOf {w : DWord} {f : CFmt} (hf : cOf w = some f) : f.pack = fld w 0 49 := by
  unfold cOf at hf
  split at hf
  · cases hf
  · rename_i hz
    cases hf
    have hz : 0#1 = fld w 32 1 := (bit_eq_zero (by simpa using hz)).symm
    simp (disch := omega) only [CFmt.pack, hz, fld_append_fld]

theorem yOf_wordOf (op : Nat) (h : Head) (f : YFmt) : yOf (wordOf op h f.pack) = some f := by
  simp (disch := omega) only [yOf, fld_wordOf_low, YFmt.pack, extractLsb'_append_eq_of_le, extractLsb'_append_eq_of_add_le]
  simp

theorem pack_of_yOf {w : DWord} {f : YFmt} (hf : yOf w = some f) : f.pack = fld w 0 49 := by
  unfold yOf at hf
  split at hf
  · cases hf
  · rename_i hz
    cases hf
    have hz : 0#17 = fld w 0 17 := (not_not.1 (mt bne_iff_ne.2 hz)).symm
    simp (disch := omega) only [YFmt.pack, hz, fld_append_fld]

end

/-! ### The relation of instructions and words (R69, R92) -/

/-- The formats (Tables 3-6 to 3-15; `tab` is A3 with a truth table, R129). -/
inductive Form where
  | a3 | tab | ai | m | e | c | y

abbrev Form.Fields : Form → Type
  | .a3 => A3
  | .tab => Tab3
  | .ai => AI
  | .m => MFmt
  | .e => EFmt
  | .c => CFmt
  | .y => YFmt

/-- The instructions of the format, by OP. -/
def Form.build : (F : Form) → Nat → Option (Head → F.Fields → Instr)
  | .a3 => buildA3
  | .tab => buildTab
  | .ai => buildAI
  | .m => buildM
  | .e => buildE
  | .c => buildC
  | .y => buildY

def Form.read : (F : Form) → DWord → Option F.Fields
  | .a3 => a3Of
  | .tab => tabOf
  | .ai => aiOf
  | .m => mOf
  | .e => eOf
  | .c => cOf
  | .y => yOf

def Form.pack : (F : Form) → F.Fields → BitVec 49
  | .a3 => A3.pack
  | .tab => Tab3.pack
  | .ai => AI.pack
  | .m => MFmt.pack
  | .e => EFmt.pack
  | .c => CFmt.pack
  | .y => YFmt.pack

theorem Form.read_wordOf (F : Form) (op : Nat) (h : Head) (f : F.Fields) : F.read (wordOf op h (F.pack f)) = some f := by
  cases F with
  | a3 => exact a3Of_wordOf op h f
  | tab => exact tabOf_wordOf op h f
  | ai => exact aiOf_wordOf op h f
  | m => exact mOf_wordOf op h f
  | e => exact eOf_wordOf op h f
  | c => exact cOf_wordOf op h f
  | y => exact yOf_wordOf op h f

theorem Form.pack_of_read (F : Form) {w : DWord} {f : F.Fields} (hf : F.read w = some f) : F.pack f = fld w 0 49 := by
  cases F with
  | a3 => exact pack_of_a3Of hf
  | tab => exact pack_of_tabOf hf
  | ai => exact pack_of_aiOf hf
  | m => exact pack_of_mOf hf
  | e => exact pack_of_eOf hf
  | c => exact pack_of_cOf hf
  | y => exact pack_of_yOf hf

/-- The word `w` stands for `i`: its OP names a format, whose fields follow the common fields; `nop` and the two retired forms have
no format of their own. -/
inductive Coded : Instr → DWord → Prop where
  | nop (chain : Bool) : Coded (.nop chain) (wordOf 0 ⟨none, chain⟩ 0)
  | wvote {w : DWord} (hop : opOfWord w = 0x18) : Coded (.wvote w) w
  | mma8 {w : DWord} (hop : opOfWord w = 0xD8) : Coded (.mma8 w) w
  | form (F : Form) {op : Nat} {k : Head → F.Fields → Instr} {i : Instr} {h : Head} {f : F.Fields} (hk : F.build op = some k)
    (hi : k h f = i) (hop : op < 256) : Coded i (wordOf op h (F.pack f))

/-! ### The decoder reads the relation -/

/-- An OP has one format at most, and those of `nop` and the retired forms have none. -/
theorem one_format : ∀ op < 256, [op == 0 || op == 0x18 || op == 0xD8, (buildA3 op).isSome, (buildTab op).isSome, (buildAI op).isSome,
    (buildM op).isSome, (buildE op).isSome, (buildC op).isSome, (buildY op).isSome].Pairwise (fun p q => (p && q) = false) := by
  decide +kernel

theorem parse_wordOf (F : Form) {op : Nat} {k : Head → F.Fields → Instr} (hk : F.build op = some k) (hop : op < 256) (h : Head)
    (f : F.Fields) : parse (wordOf op h (F.pack f)) = some (k h f) := by
  have hone := one_format op hop
  have hread := F.read_wordOf op h f
  rw [parse, Laws.OpByte.opOfWord_wordOf op h _ hop, headOf_wordOf]
  cases F
  all_goals
    simp only [Form.build, Form.read] at hk hread
    simp [hk] at hone
    simp [hone, hk, hread]

theorem parse_of_coded {i : Instr} {w : DWord} (hc : Coded i w) : parse w = some i := by
  cases hc with
  | nop chain => cases chain <;> rfl
  | wvote hop => simp [parse, hop]
  | mma8 hop => simp [parse, hop]
  | form F hk hi hop => exact hi ▸ parse_wordOf F hk hop _ _

theorem coded_of_read (F : Form) {w : DWord} {h : Head} {i : Instr} {k : Head → F.Fields → Instr} (hk : F.build (opOfWord w) = some k)
    (hh : headOf w = some h) (hi : (F.read w).map (k h) = some i) : Coded i w := by
  obtain ⟨f, hf, hi⟩ := Option.map_eq_some_iff.1 hi
  rw [← wordOf_fields (pack_of_headOf hh) (F.pack_of_read hf)]
  exact .form F hk hi (fld w 56 8).isLt

/-- A word of OP 0 whose other bits but CH are zero is a `nop` (R94). -/
theorem coded_nop {w : DWord} (hop : opOfWord w = 0) (hhead : fld w 50 6 = 0) (hrest : fld w 0 49 = 0) :
    Coded (.nop (fld w 49 1 == 1)) w := by
  have hpack : (Head.pack ⟨none, fld w 49 1 == 1⟩) = fld w 49 7 := by
    have hhead : 0#6 = fld w 50 6 := hhead.symm
    simp (disch := omega) only [Head.pack, ofBool_beq_one, hhead, fld_append_fld]
  have hw := wordOf_fields hpack hrest.symm
  rw [hop] at hw
  have hn := Coded.nop (fld w 49 1 == 1)
  rwa [hw] at hn

theorem coded_of_parse {i : Instr} {w : DWord} (hp : parse w = some i) : Coded i w := by
  simp only [parse] at hp
  split at hp
  · rename_i hop
    simp only [Option.ite_none_right_eq_some, Bool.and_eq_true, beq_iff_eq, Option.some.injEq] at hp
    obtain ⟨⟨hhead, hrest⟩, rfl⟩ := hp
    exact coded_nop hop hhead hrest
  split at hp
  · rename_i hop; cases hp; exact .wvote hop
  split at hp
  · rename_i hop; cases hp; exact .mma8 hop
  obtain ⟨h, hh, hp⟩ := Option.bind_eq_some_iff.1 hp
  split at hp
  · rename_i hk; exact coded_of_read .a3 hk hh hp
  split at hp
  · rename_i hk; exact coded_of_read .tab hk hh hp
  split at hp
  · rename_i hk; exact coded_of_read .ai hk hh hp
  split at hp
  · rename_i hk; exact coded_of_read .m hk hh hp
  split at hp
  · rename_i hk; exact coded_of_read .e hk hh hp
  split at hp
  · rename_i hk; exact coded_of_read .c hk hh hp
  split at hp
  · rename_i hk; exact coded_of_read .y hk hh hp
  · cases hp

/-! ### The encoder writes the relation -/

theorem encode_ite {c : Prop} [Decidable c] {i j : Instr} {o : Option DWord} (hi : encode i = o) (hj : encode j = o) :
    encode (if c then i else j) = o := by
  split
  · exact hi
  · exact hj

theorem encode_build (F : Form) {op : Nat} {k : Head → F.Fields → Instr} (hk : F.build op = some k) (h : Head) (f : F.Fields) :
    encode (k h f) = some (wordOf op h (F.pack f)) := by
  cases F with
  | a3 => simp only [Form.build, buildA3] at hk; split at hk <;> cases hk <;> rfl
  | tab => simp only [Form.build, buildTab] at hk; split at hk <;> cases hk <;> rfl
  | ai => simp only [Form.build, buildAI] at hk; split at hk <;> cases hk <;> rfl
  | m =>
    simp only [Form.build, buildM] at hk
    split at hk <;> cases hk <;> repeat' apply encode_ite
    all_goals rfl
  | e => simp only [Form.build, buildE] at hk; split at hk <;> cases hk <;> rfl
  | c => simp only [Form.build, buildC] at hk; split at hk <;> cases hk <;> rfl
  | y =>
    simp only [Form.build, buildY] at hk
    split at hk <;> cases hk <;> repeat' apply encode_ite
    all_goals rfl

theorem encode_of_coded {i : Instr} {w : DWord} (hc : Coded i w) : encode i = some w := by
  cases hc with
  | nop chain => rfl
  | wvote hop => rfl
  | mma8 hop => rfl
  | form F hk hi hop => exact hi ▸ encode_build F hk _ _

theorem sysno_of_yZero {f : YFmt} {n : Nat} (h : yZero f n = true) : f.sysno = BitVec.ofNat 16 n := by
  simp only [yZero, Bool.and_eq_true, beq_iff_eq] at h
  exact BitVec.eq_of_toNat_eq (by rw [← h.2]; simp)

theorem not_block_width {wd : BitVec 3} (h : wd.toNat ≤ 4) : ¬ wd = 5#3 := by
  rintro rfl; exact absurd h (by decide)

/-- The forms that share an OP differ in SYSNO, WD or B. -/
theorem coded_of_encode {i : Instr} {w : DWord} (hwf : i.wf = true) (he : encode i = some w) : Coded i w := by
  cases i
  case nop => cases he; exact .nop _
  case wvote =>
    cases he; exact .wvote (Option.some.inj (Laws.OpByte.wvote w w hwf rfl)).symm
  case mma8 =>
    cases he; exact .mma8 (Option.some.inj (Laws.OpByte.mma8 w w hwf rfl)).symm
  case iadd | isub | iadd64 | imul | imulh | imad | imadw | iaddc | isubb | idiv | irem | imin | imax | iabs | isad | idot4 |
    and | or | xor | andn | shl | shr | sar | rot | bfe | bfi | popc | clz | brev | lea | icmp | fcmp | pand | por | pxor | pmov |
    sel | ballot | vany | vall | vmatch | lanes | mov | movs | smov | sadd | ssub | smul | sand | sor | sxor | sshl | sshr |
    scmp | smin | smax | movri | movwi | xperm | fadd | fsub | fmul | ffma | fmin | fmax | fabs | fneg | frcp | fsqrt | frsq |
    fexp2 | flog2 | fsinp | fcosp | fdiv | frnd | fclass | fscale | fdot2 | ftwosum | fcpysgn | fmadFtz | cvtFf | cvtFi | cvtIf |
    cvtIi | cvtE8 | cvtE4 | dcvtE8 | dcvtE4 | qblk | dqblk | qhdr | hchk | pack4 | pack8 | unpk4 | unpk8 | fpk2 | fupk2 =>
    cases he; exact .form .a3 rfl rfl (by decide)
  case ltab | sltab =>
    cases he; exact .form .tab rfl rfl (by decide)
  case movi | smovi | progAdd =>
    cases he; exact .form .ai rfl rfl (by decide)
  case iclLock | iclFree | iclCount | lds | sts | atomAdd | atomMin | atomMax | atomAnd | atomOr | atomXor | atomXch | atomCas |
    atomFadd | red | satom | phaseCl | phaseOp | fenceQ | prefetch | mprobe | monArm | monWait =>
    cases he; exact .form .m rfl rfl (by decide)
  case tileDef | tileRel | tileWait | tileQ | cpLd | cpSt | cpGth | cpSct | cpHint | cpSet | collAr | collBc | collWait |
    convDecl | mma | mmaG | mmaWait | accZero | accLd | accSt | accStq | accFlg | accFclr | shfPut | shfTake | shfWait | shfOpen |
    shfDone =>
    cases he; exact .form .e rfl rfl (by decide)
  case br | brx | call | callx | ret | exit | rcv | loop | brany | brall | yield | sleep =>
    cases he; exact .form .c rfl rfl (by decide)
  case trap | brk | sysRd | sysWr | halt | spec | bar | barn | bara | barw | idemEnd | tickRd | clk =>
    cases he; exact .form .y rfl rfl (by decide)
  case rte | rteNext | tlbInvAll | cancelBlk | cancelGrid | cancelGraph | cancelJob =>
    cases he; exact .form .y rfl (by simp [sysno_of_yZero hwf]) (by decide)
  case tlbInvPage | tlbInvLarge | tlbInvAsn | errRdCounter | errRdLog | errRdRetire =>
    simp only [Instr.wf, Bool.and_eq_true, beq_iff_eq] at hwf
    cases he; exact .form .y rfl (by simp [hwf]) (by decide)
  case ld | st =>
    simp only [Instr.wf, ldOk, stOk, Bool.and_eq_true, decide_eq_true_eq] at hwf
    cases he; exact .form .m rfl (by simp [not_block_width, hwf]) (by decide)
  case ldBlk | stBlk | cinv | cinvAll =>
    simp only [Instr.wf, ldBlkOk, stBlkOk, cinvOk, cinvAllOk, Bool.and_eq_true, beq_iff_eq] at hwf
    cases he; exact .form .m rfl (by simp [hwf]) (by decide)
  all_goals cases he

/-! ### The statements -/

/-- Settles O56: the encoder writes, and the decoder reads, the words of `Coded`. -/
theorem decodeOfEncode : Obligations.DecodeOfEncode := by
  intro i w hwf he
  exact Option.filter_eq_some_iff.2 ⟨parse_of_coded (coded_of_encode hwf he), hwf⟩

/-- Settles O57: the decoder reads, and the encoder writes, the words of `Coded`. -/
theorem encodeOfDecode : Obligations.EncodeOfDecode := by
  intro i w hd
  exact encode_of_coded (coded_of_parse (Option.filter_eq_some_iff.1 hd).1)

/-- Settles O55: each word is the encoding of its instruction, so it decodes to it (O56). -/
theorem decodesKnownWords : Obligations.DecodesKnownWords := by
  refine ⟨?_, ?_, ?_, ?_, ?_, ?_, ?_⟩ <;> exact decodeOfEncode _ _ rfl rfl

end Sys2Proof.Proofs

/-! Registers (spec/02, spec/03, spec/05): how a thread leaves its packet (R67, R118, R480, R484), and the long-latency results of the
SFU and `xperm` (R58, R142, R289, R290). -/

namespace Sys2Proof.Proofs

open Sys2Proof.Machine Sys2Proof.Claims

/-! ### Leaving a packet -/

theorem leave_of_return {t : Thread} {pk : DWord} {k : Nat} (h : t.ret = some (pk, k)) : t.leave = t.returnTo pk k := by
  rw [Thread.leave, h]

/-- Where a thread goes that does not return from a handler (R67). -/
theorem leave_place {t : Thread} (h : t.ret = none) :
    t.leave.pc = t.next.getD (t.pc + 32) ∧ t.leave.slot = 0 ∧ t.leave.next = none ∧ t.leave.preds = t.preds ∧
      t.leave.inHandler = t.inHandler := by
  rw [Thread.leave, h]
  exact ⟨rfl, rfl, rfl, rfl, rfl⟩

/-- What becomes of its state, and of an exit that the trap of a denied access holds back (R118, R484). -/
theorem leave_state {t : Thread} (h : t.ret = none) :
    t.leave.st = (if (t.exiting && t.st ≠ .parked) && t.heldTrap.isNone then .exited else t.st) ∧
      t.leave.gone = (if (t.exiting && t.st ≠ .parked) && t.heldTrap.isSome then some t.leave.pc else t.gone) := by
  rw [Thread.leave, h]
  exact ⟨rfl, rfl⟩

/-- Settles O13: by whether the thread returns from a handler. -/
theorem packetEnd : Obligations.PacketEnd := by
  intro t
  refine ⟨fun hret => ?_, fun pk k hret => ?_⟩
  · obtain ⟨hpc, hslot, hnext, hpreds, hin⟩ := leave_place hret
    obtain ⟨hst, hgone⟩ := leave_state hret
    refine ⟨?_, hslot, hnext, ?exits, ?held, ?stays, hpreds, hin⟩
    · rw [hpc]; cases t.next <;> rfl
    case exits => intro hexit hpark htrap; simp [hst, hexit, hpark, htrap]
    case held =>
      intro hexit hpark htrap
      have htrap := Option.isSome_iff_ne_none.2 htrap
      simp [hst, hgone, hexit, hpark, htrap, ← Option.not_isSome]
    case stays => intro hexit; simp [hst, hexit]
  · rw [leave_of_return hret]
    exact ⟨rfl, rfl, rfl, rfl, rfl, rfl, fun hgone => if_neg hgone, fun hgone => if_pos hgone⟩

/-! ### A long-latency result is queued -/

/-- The result joins the wave's operations and the slot's flag is set, if a lane performs it. -/
theorem longResult_eq (x : Ctx) (d regs : Nat) (f : Nat → DWord) (s : State) :
    x.longResult d regs f s = if x.act = 0 then s else
      ({ s with nextId := s.nextId + 1 } : State).updWave x.b x.w (fun v =>
        { v with
          sfu := v.sfu ++ [{ id := s.nextId, dst := d, regs := regs, lanes := x.act, vals := (lanesIn x.act).map (fun l => (l, f l)),
                             clobbered := [] }],
          busy := if x.c.flag = 0 then v.busy else v.busy ++ [(x.c.flag, s.nextId)] }) := by
  by_cases hflag : x.c.flag = 0
  · simp [Ctx.longResult, Ctx.any, Ctx.setFlag, State.setFlag, hflag, State.newId, Ctx.lanes]
  · simp [Ctx.longResult, Ctx.any, Ctx.setFlag, State.setFlag, hflag, State.newId, Ctx.lanes, updWave_updWave]

/-- An instruction whose effect is a long-latency result. -/
theorem longDone_of_longResult {s : State} {i : Instr} {name : String} {h : Head} {us : List RegUse} {regs : Nat} {d : BitVec 8}
    {val : Ctx → Nat → DWord} (he : exec i s = issueOp name h false us (fun x => x.longResult d.toNat regs (val x)) s) :
    LongDone s i h us regs d val := by
  intro x ⟨hx, hu⟩
  rw [he, issueOp_next name h false us _ s x hx (by simp) hu, longResult_eq]
  exact ⟨fun hact => by rw [if_pos hact], fun hact => by rw [if_neg hact]⟩

/-! ### SFU_RESULT -/

/-- Where no other instruction wrote the destination, every lane's result is written: a register, or a pair (R51, R60). -/
theorem writes_unclobbered {o : SfuOp} (hc : o.clobbered = []) (hr : o.regs = 1 ∨ o.regs = 2) (seed : Nat) :
    o.writes seed = o.vals.flatMap (fun e => wrV (o.regs = 2) o.dst e.1 e.2) := by
  unfold SfuOp.writes
  obtain hr | hr := hr
  · simp [hc, hr, wrV]
  · simp [hc, hr, wrV, List.range_succ]

/-- The vector registers with the result `x` of lane `l` at `d`, a pair when `wide`. -/
def writeLane (wide : Bool) (d l : Nat) (x : DWord) (f : RegFile) : RegFile :=
  if wide then (f.write (vkey d l) (loOf x)).write (vkey (d + 1) l) (hiOf x) else f.write (vkey d l) (loOf x)

/-- The vector registers with the results of several lanes. -/
def writeLanes (wide : Bool) (d : Nat) (vals : List (Nat × DWord)) (f : RegFile) : RegFile :=
  vals.foldl (fun g e => writeLane wide d e.1 e.2 g) f

theorem foldl_wr_wrV (wide : Bool) (d l : Nat) (x : DWord) (v : Wave) :
    (wrV wide d l x).foldl Wave.wr v = { v with v := writeLane wide d l x v.v } := by
  cases wide <;> rfl

theorem foldl_wr_lanes (wide : Bool) (d : Nat) (vals : List (Nat × DWord)) (v : Wave) :
    (vals.flatMap (fun e => wrV wide d e.1 e.2)).foldl Wave.wr v = { v with v := writeLanes wide d vals v.v } := by
  induction vals generalizing v with
  | nil => rfl
  | cons e vals ih => rw [List.flatMap_cons, List.foldl_append, foldl_wr_wrV, ih]; rfl

theorem writeLane_self (wide : Bool) (d : Nat) {l : Nat} (x : DWord) (f : RegFile) (hl : l < 32) :
    (writeLane wide d l x f).vec d l = loOf x ∧ (wide = true → (writeLane wide d l x f).vec (d + 1) l = hiOf x) := by
  cases wide <;> simp [writeLane, RegFile.vec_write, hl]

theorem writeLane_other {wide : Bool} {d l r k : Nat} (x : DWord) (f : RegFile) (hl : l < 32) (hk : k < 32)
    (h : k ≠ l ∨ (r ≠ d ∧ (wide = false ∨ r ≠ d + 1))) : (writeLane wide d l x f).vec r k = f.vec r k := by
  have hlo : ¬ (r = d ∧ k = l) := by omega
  cases wide
  · simp [writeLane, RegFile.vec_write, hl, hk, hlo]
  · have hhi : ¬ (r = d + 1 ∧ k = l) := by simp at h; omega
    simp [writeLane, RegFile.vec_write, hl, hk, hlo, hhi]

theorem writeLanes_other {wide : Bool} {d r k : Nat} {vals : List (Nat × DWord)} (f : RegFile) (hl : ∀ e ∈ vals, e.1 < 32)
    (hk : k < 32) (h : k ∉ vals.map Prod.fst ∨ (r ≠ d ∧ (wide = false ∨ r ≠ d + 1))) : (writeLanes wide d vals f).vec r k = f.vec r k := by
  induction vals generalizing f with
  | nil => rfl
  | cons e vals ih =>
    simp only [List.forall_mem_cons] at hl
    simp only [List.map_cons, List.mem_cons, not_or] at h
    exact (ih _ hl.2 (h.imp_left And.right)).trans (writeLane_other e.2 f hl.1 hk (h.imp_left And.left))

theorem writeLanes_self {wide : Bool} {d : Nat} {vals : List (Nat × DWord)} (f : RegFile) (hl : ∀ e ∈ vals, e.1 < 32)
    (hd : (vals.map Prod.fst).Nodup) {e : Nat × DWord} (he : e ∈ vals) :
    (writeLanes wide d vals f).vec d e.1 = loOf e.2 ∧ (wide = true → (writeLanes wide d vals f).vec (d + 1) e.1 = hiOf e.2) := by
  induction vals generalizing f with
  | nil => cases he
  | cons a vals ih =>
    simp only [List.forall_mem_cons] at hl
    obtain ⟨hfresh, hd⟩ := List.nodup_cons.1 hd
    obtain rfl | he := List.mem_cons.1 he
    · have hkeep (r : Nat) := writeLanes_other (wide := wide) (d := d) (r := r) (writeLane wide d e.1 e.2 f) hl.2 hl.1 (.inl hfresh)
      obtain ⟨hlo, hhi⟩ := writeLane_self wide d e.2 f hl.1
      exact ⟨(hkeep d).trans hlo, fun hw => (hkeep (d + 1)).trans (hhi hw)⟩
    · exact ih _ hl.2 hd he

/-- The registers and flags of the wave after register writes are those that the writes leave: R60 marks pending results only. -/
theorem wave_commit {s : State} {b w : Nat} {v : Wave} (hv : s.wave b w = some v) (ws : List Wr) :
    ∃ u, (s.commit b w ws).wave b w = some u ∧ u.v = (ws.foldl Wave.wr v).v ∧ u.s = (ws.foldl Wave.wr v).s ∧
      u.busy = (ws.foldl Wave.wr v).busy := by
  obtain ⟨p, hb, hw⟩ := Option.bind_eq_some_iff.1 hv
  have hw : p.waves[w]? = some v := hw
  refine ⟨?wave, ?hwave, ?keeps⟩
  case hwave =>
    show (((s.updWave b w (fun v => ws.foldl Wave.wr v)).updBlock b _).block b).bind (fun x => x.wave w) = _
    rw [State.block_updBlock_self, State.updWave, State.block_updBlock_self, hb]
    simp only [Block.updWave, Block.clobberEngine, Block.wave, updAt_get, hw, Option.map_some, Option.bind_some, if_true]
    rfl
  case keeps => exact ⟨rfl, rfl, rfl⟩

/-- The wave's operation `op` is taken off its pending results. -/
def takeResult (s : State) (b w op : Nat) : State := s.updWave b w (fun v => { v with sfu := v.sfu.filter (fun p => p.id ≠ op) })

/-- What SFU_RESULT answers for a result that no other instruction overwrote. -/
theorem exec_sfuResult {s : State} {b w op : Nat} {v : Wave} {o : SfuOp} (hv : s.wave b w = some v)
    (ho : v.sfu.find? (fun p => p.id = op) = some o) (hc : o.clobbered = []) (hr : o.regs = 1 ∨ o.regs = 2) :
    ∃ t v', exec (.sfuResult b w op) s = .next t ∧ t.wave b w = some v' ∧
      v'.v = writeLanes (o.regs = 2) o.dst o.vals v.v ∧ v'.busy = v.busy.filter (fun e => e.2 ≠ op) ∧ v'.s = v.s ∧
      { t with blocks := s.blocks, reqs := s.reqs } = s ∧ ∀ c, c ≠ b → t.block c = s.block c := by
  have hexec : exec (.sfuResult b w op) s = .next (((takeResult s b w op).commit b w (o.writes s.fresh)).clearFlag b w op) := by
    show execSfuResult b w op s = _
    rw [execSfuResult, hv, Option.bind_some, ho]
    rfl
  have htaken : (takeResult s b w op).wave b w = some { v with sfu := v.sfu.filter (fun p => p.id ≠ op) } := by
    rw [takeResult, State.wave_updWave_self, hv, Option.map_some]
  obtain ⟨u, hwave, hvec, hscal, hbusy⟩ := wave_commit htaken (o.writes s.fresh)
  rw [writes_unclobbered hc hr, foldl_wr_lanes] at hvec hscal hbusy
  have hkeep := (takeResult s b w op).commit_keeps b w (o.writes s.fresh)
  refine ⟨_, _, hexec, (State.wave_updWave_self ..).trans (congrArg (Option.map _) hwave), hvec, ?busy, hscal, ?keeps,
    fun c hne => ?_⟩
  case busy => exact congrArg (List.filter _) hbusy
  case keeps => exact congrArg (fun x : State => { x with blocks := s.blocks, reqs := s.reqs }) hkeep.1
  · exact (State.block_updWave_ne _ b w c _ hne).trans ((hkeep.2 c hne).trans (State.block_updWave_ne s b w c _ hne))

/-- SFU_RESULT writes every performing lane's result and nothing else of the registers, and clears the flag. -/
theorem sfuResult_results {s : State} {b w op : Nat} {v : Wave} {o : SfuOp} (hv : s.wave b w = some v)
    (ho : v.sfu.find? (fun p => p.id = op) = some o) (hc : o.clobbered = []) (hr : o.regs = 1 ∨ o.regs = 2)
    (hd : (o.vals.map Prod.fst).Nodup) (hl : ∀ e ∈ o.vals, e.1 < 32) :
    ∃ t v', exec (.sfuResult b w op) s = .next t ∧ t.wave b w = some v' ∧
      (∀ e ∈ o.vals, v'.v.vec o.dst e.1 = loOf e.2 ∧ (o.regs = 2 → v'.v.vec (o.dst + 1) e.1 = hiOf e.2)) ∧
      (∀ r l, l < 32 → (l ∉ o.vals.map Prod.fst ∨ (r ≠ o.dst ∧ (o.regs = 1 ∨ r ≠ o.dst + 1))) → v'.v.vec r l = v.v.vec r l) ∧
      v'.busy = v.busy.filter (fun e => e.2 ≠ op) ∧ v'.s = v.s ∧ { t with blocks := s.blocks, reqs := s.reqs } = s ∧
      (∀ c, c ≠ b → t.block c = s.block c) := by
  obtain ⟨t, v', hexec, hwave, hvec, hbusy, hs, hkeep, hblock⟩ := exec_sfuResult hv ho hc hr
  refine ⟨t, v', hexec, hwave, fun e he => ?_, fun r l hlt h => ?_, hbusy, hs, hkeep, hblock⟩
  · rw [hvec]
    simpa using writeLanes_self (wide := o.regs = 2) (d := o.dst) v.v hl hd he
  · rw [hvec]
    refine writeLanes_other v.v hl hlt (h.imp_right (And.imp_right (Or.imp_left fun h1 => ?_)))
    simp [h1]

/-- Settles O10: the instructions by `longResult`, which each of them is; SFU_RESULT by the writes of its lanes. -/
theorem longLatencyResults : Obligations.LongLatencyResults := by
  intro s
  refine ⟨fun h f => ?_, fun b w op v o hv ho hc hr hd hl => sfuResult_results hv ho hc hr hd hl⟩
  refine ⟨?_, ?_, ?_, ?_, ?_, ?_, ?_, ?_⟩ <;> exact longDone_of_longResult rfl

end Sys2Proof.Proofs

/-! Control flow (spec/05): what register writes leave of the state, and control transfers (R94, R115 to R118, R120). -/

namespace Sys2Proof.Proofs

open Sys2Proof.Machine Sys2Proof.Claims

/-! ### The frame of register writes (R60) -/

/-- The write goes to a register of `V` or `S`, or to a predicate of `P`. -/
def Within (V : Nat → Nat → Prop) (S : Nat → Prop) (P : Nat → Nat → Prop) : Wr → Prop
  | .v r l _ => l < 32 ∧ V r l
  | .s r _ => S r
  | .p l k _ => P l k

section

variable {V : Nat → Nat → Prop} {S : Nat → Prop} {P : Nat → Nat → Prop}

theorem waveKeeps_refl (v : Wave) : WaveKeeps v v V S P :=
  ⟨rfl, rfl, rfl, fun _ _ _ _ => rfl, fun _ _ => rfl, fun _ _ _ => rfl⟩

theorem waveKeeps_trans {u v x : Wave} (h : WaveKeeps u v V S P) (k : WaveKeeps v x V S P) : WaveKeeps u x V S P := by
  obtain ⟨hrest, hsfu, hthreads, hv, hs, hp⟩ := h
  obtain ⟨krest, ksfu, kthreads, kv, ks, kp⟩ := k
  refine ⟨?rest, ksfu.trans hsfu, kthreads.trans hthreads, fun r l hl hn => (kv r l hl hn).trans (hv r l hl hn),
    fun r hn => (ks r hn).trans (hs r hn), fun l k hn => (kp l k hn).trans (hp l k hn)⟩
  case rest => exact (congrArg (fun y : Wave => { y with threads := u.threads, v := u.v, s := u.s, sfu := u.sfu }) krest).trans hrest

theorem getLsbD_setPred_ne (ps : BitVec 16) {j k : Nat} (b : Bool) (h : k ≠ j) :
    (setPred ps j b).getLsbD k = ps.getLsbD k := by
  by_cases hk : k < 16
  · cases b <;> simp [setPred, hk] <;> omega
  · rw [BitVec.getLsbD_of_ge _ _ (by omega), BitVec.getLsbD_of_ge _ _ (by omega)]

theorem waveKeeps_wr (v : Wave) {a : Wr} (h : Within V S P a) : WaveKeeps v (v.wr a) V S P := by
  cases a with
  | v r l x =>
    obtain ⟨hl, hV⟩ := h
    refine ⟨rfl, rfl, rfl, fun q k hk hn => ?_, fun _ _ => rfl, fun _ _ _ => rfl⟩
    exact (v.v.vec_write r l q k x hl hk).trans (if_neg fun hsame => hn (by rwa [hsame.1, hsame.2]))
  | s r x =>
    refine ⟨rfl, rfl, rfl, fun _ _ _ _ => rfl, fun q hn => ?_, fun _ _ _ => rfl⟩
    exact (v.s.scal_write r q x).trans (if_neg fun hq => hn (by rwa [hq]))
  | p l k b =>
    have hget (m : Nat) : (v.wr (.p l k b)).threads[m]? =
        if m = l then (v.threads[m]?).map (fun t => { t with preds := setPred t.preds k b }) else v.threads[m]? :=
      updAt_get v.threads l m _
    refine ⟨rfl, rfl, List.ext_getElem? fun m => ?_, fun _ _ _ _ => rfl, fun _ _ => rfl, fun m j hn => ?_⟩
    · rw [List.getElem?_map, List.getElem?_map, hget]
      split
      · rw [Option.map_map]; rfl
      · rfl
    · rw [hget]
      split
      · rename_i hm
        have hj : j ≠ k := fun hj => hn (hm ▸ hj ▸ h)
        rw [Option.map_map]
        exact congrArg (fun f => Option.map f _) (funext fun t => getLsbD_setPred_ne t.preds b hj)
      · rfl

theorem waveKeeps_foldl_wr (v : Wave) {ws : List Wr} (h : ∀ a ∈ ws, Within V S P a) : WaveKeeps v (ws.foldl Wave.wr v) V S P := by
  induction ws generalizing v with
  | nil => exact waveKeeps_refl v
  | cons a ws ih =>
    rw [List.forall_mem_cons] at h
    exact waveKeeps_trans (waveKeeps_wr v h.1) (ih _ h.2)

/-- The marks of R60 are all that register writes leave on the engines' commands. -/
theorem clobberEngine_keeps (p : Block) (w : Nat) (ks : List Nat) :
    (p.clobberEngine w ks).accs.map bareAcc = p.accs.map bareAcc ∧
      (p.clobberEngine w ks).collWaits.map bareWait = p.collWaits.map bareWait := by
  refine ⟨?accs, ?waits⟩
  case accs =>
    refine List.map_map.trans (List.map_congr_left fun a _ => congrArg (fun q => { a with queue := q }) ?_)
    refine List.map_map.trans (List.map_congr_left fun c _ => ?_)
    simp only [Function.comp]
    split
    · rename_i hk
      split <;> simp [bareCmd, hk]
    · rfl
  case waits =>
    refine List.map_map.trans (List.map_congr_left fun c _ => ?_)
    simp only [Function.comp]
    split <;> rfl

/-- The wave with the results of the SFU marked that the keys `ks` will not take (R60). -/
def markSfu (ks : List Nat) (v : Wave) : Wave :=
  { v with sfu := v.sfu.map (fun o => { o with clobbered := o.clobbered ++ ks.filter (fun k => o.keys.contains k) }) }

theorem waveKeeps_markSfu (ks : List Nat) (v : Wave) : WaveKeeps v (markSfu ks v) V S P :=
  ⟨rfl, List.map_map, rfl, fun _ _ _ _ => rfl, fun _ _ => rfl, fun _ _ _ => rfl⟩

/-- The block of a wave whose registers are written. -/
def writtenBlock (w : Nat) (ws : List Wr) (p : Block) : Block :=
  ((p.updWave w (fun v => ws.foldl Wave.wr v)).clobberEngine w (ws.flatMap Wr.keys)).updWave w (markSfu (ws.flatMap Wr.keys))

theorem block_commit (s : State) (b w : Nat) (ws : List Wr) : (s.commit b w ws).block b = (s.block b).map (writtenBlock w ws) := by
  show ((s.updWave b w (fun v => ws.foldl Wave.wr v)).updBlock b _).block b = _
  rw [State.block_updBlock_self, State.updWave, State.block_updBlock_self, Option.map_map]
  rfl

theorem writtenBlock_wave (w i : Nat) (ws : List Wr) (p : Block) : (writtenBlock w ws p).waves[i]? =
    if i = w then (p.waves[i]?).map (fun v => markSfu (ws.flatMap Wr.keys) (ws.foldl Wave.wr v)) else p.waves[i]? := by
  show (updAt (updAt p.waves w (fun v => ws.foldl Wave.wr v)) w _)[i]? = _
  rw [updAt_get, updAt_get]
  split
  · rw [Option.map_map]; rfl
  · rfl

theorem blockKeeps_written (p : Block) (w : Nat) {ws : List Wr} (h : ∀ a ∈ ws, Within V S P a) :
    BlockKeeps p (writtenBlock w ws p) w V S P := by
  obtain ⟨haccs, hwaits⟩ := clobberEngine_keeps (p.updWave w (fun v => ws.foldl Wave.wr v)) w (ws.flatMap Wr.keys)
  refine ⟨rfl, haccs, hwaits, (updAt_length ..).trans (updAt_length ..), fun i hi => ?_, fun u v hu hv => ?_⟩
  · rw [writtenBlock_wave, if_neg hi]
  · rw [writtenBlock_wave, if_pos rfl, hu] at hv
    cases hv
    exact waveKeeps_trans (waveKeeps_foldl_wr u h) (waveKeeps_markSfu _ _)

/-- Register writes change the registers that they name, and nothing else but the marks of R60. -/
theorem regFrame_commit (s : State) (b w : Nat) {ws : List Wr} (h : ∀ a ∈ ws, Within V S P a) :
    RegFrame s (s.commit b w ws) b w V S P := by
  obtain ⟨hrest, hother⟩ := s.commit_keeps b w ws
  refine ⟨hrest, ?reqs, hother, fun p q hp hq => ?_⟩
  case reqs =>
    refine List.map_map.trans (List.map_congr_left fun e _ => ?_)
    simp only [Function.comp, bareReq]
    split <;> rfl
  · rw [block_commit, hp] at hq
    cases hq
    exact blockKeeps_written p w h

end

/-! ### Vector and scalar results -/

theorem mem_lanesIn (m : Lanes) (l : Nat) : l ∈ lanesIn m ↔ hasLane m l = true := by
  rw [lanesIn, List.mem_filter, laneList, List.mem_range]
  exact ⟨And.right, fun h => ⟨BitVec.lt_of_getLsbD h, h⟩⟩

theorem lanesIn_nodup (m : Lanes) : (lanesIn m).Nodup := List.nodup_range.filter _

theorem mem_wrV {wide : Bool} {d l : Nat} {y : DWord} {a : Wr} (h : a ∈ wrV wide d l y) :
    ∃ r z, a = .v r l z ∧ (r = d ∨ (wide = true ∧ r = d + 1)) := by
  cases wide
  · obtain rfl := List.mem_singleton.1 h
    exact ⟨d, _, rfl, .inl rfl⟩
  · obtain rfl | h := List.mem_cons.1 h
    · exact ⟨d, _, rfl, .inl rfl⟩
    · obtain rfl := List.mem_singleton.1 h
      exact ⟨d + 1, _, rfl, .inr ⟨rfl, rfl⟩⟩

/-- A vector result stands in every active lane, and nothing else has changed. -/
theorem vecResult_done {s : State} {h : Head} {x : Ctx} (hx : s.ctx h = some x) (wide : Bool) (d : Nat) (f : Nat → DWord) :
    (∀ l, hasLane x.act l = true → vreg (x.vecResult wide d f s) x.b x.w d l = some (loOf (f l)) ∧
      (wide = true → vreg (x.vecResult wide d f s) x.b x.w (d + 1) l = some (hiOf (f l)))) ∧
    RegFrame s (x.vecResult wide d f s) x.b x.w (lanesOfV x wide d) noS noP := by
  refine ⟨fun l hl => ?value, regFrame_commit s x.b x.w fun a ha => ?within⟩
  case value =>
    obtain ⟨u, hu, hvec, -⟩ := wave_commit (wave_of_ctx hx) (x.lanes.flatMap fun l => wrV wide d l (f l))
    have hvals : x.lanes.flatMap (fun l => wrV wide d l (f l)) =
        (x.lanes.map (fun l => (l, f l))).flatMap (fun e => wrV wide d e.1 e.2) := by
      rw [List.flatMap_map]
    rw [hvals, foldl_wr_lanes] at hvec
    obtain ⟨hlo, hhi⟩ := writeLanes_self (wide := wide) (d := d) (vals := x.lanes.map (fun l => (l, f l))) x.wv.v
      (List.forall_mem_map.2 fun l hl => BitVec.lt_of_getLsbD ((mem_lanesIn x.act l).1 hl))
      (by simpa [List.map_map, Function.comp_def, Ctx.lanes] using lanesIn_nodup x.act)
      (List.mem_map_of_mem ((mem_lanesIn x.act l).2 hl))
    have hreg (r : Nat) : vreg (x.vecResult wide d f s) x.b x.w r l = some (u.v.vec r l) := congrArg (Option.map _) hu
    rw [hreg, hreg, hvec]
    exact ⟨congrArg some hlo, fun hw => congrArg some (hhi hw)⟩
  case within =>
    obtain ⟨l, hl, ha⟩ := List.mem_flatMap.1 ha
    obtain ⟨r, y, rfl, hr⟩ := mem_wrV ha
    have hl := (mem_lanesIn _ _).1 hl
    exact ⟨BitVec.lt_of_getLsbD hl, hl, hr⟩

/-- A write of one scalar register. -/
theorem commit_scal_done {s : State} {h : Head} {x : Ctx} (hx : s.ctx h = some x) (r : Nat) (y : Word) :
    sreg (x.commit [.s r y] s) x.b x.w r = some y ∧ RegFrame s (x.commit [.s r y] s) x.b x.w noV (fun q => q = r) noP := by
  refine ⟨?value, regFrame_commit s x.b x.w (List.forall_mem_singleton.2 rfl)⟩
  case value =>
    obtain ⟨u, hu, -, hscal, -⟩ := wave_commit (wave_of_ctx hx) [.s r y]
    refine (congrArg (Option.map _) hu).trans (congrArg some ?_)
    exact (congrArg (RegFile.scal · r) hscal).trans ((RegFile.scal_write _ r r y).trans (if_pos rfl))

/-! ### Transfers (R94, R115 to R118) -/

theorem failing_eq_zero {m : Lanes} {p : Nat → Bool} (h : ∀ l, hasLane m l = true → p l = true) : failing m p = 0 := by
  refine BitVec.eq_of_getLsbD_eq fun l _ => ?_
  have hl : (hasLane m l && !p l) = false := by
    cases hm : hasLane m l
    · rfl
    · rw [h l hm]; rfl
  exact (hasLane_lanesOf _ l).trans (by simp [hl])

theorem canonicalInt_of_good {a : Int} (h : goodTarget a) : canonicalInt a = true := by
  obtain ⟨h0, hrange, -⟩ := h
  simp only [canonicalInt, canonicalNat, Bool.and_eq_true, Bool.or_eq_true, decide_eq_true_eq]
  omega

/-- With good targets the checks of R115 pass and the transfer pends. -/
theorem transfer_of_good {m : Lanes} {tgt : Nat → Int} (hgood : ∀ l, hasLane m l = true → goodTarget (tgt l)) (x : Ctx)
    (also : State → State) (s : State) : x.transfer m tgt also s = (also s).updWave x.b x.w (willGo m tgt) := by
  have hbad : failing m (fun l => canonicalInt (tgt l)) = 0 := failing_eq_zero fun l hl => canonicalInt_of_good (hgood l hl)
  have hodd : failing m (fun l => tgt l % 32 == 0) = 0 := failing_eq_zero fun l hl => beq_iff_eq.2 (hgood l hl).2.2
  simp only [Ctx.transfer, hbad, hodd, bne_self_eq_false, Bool.false_eq_true, if_false]
  rfl

theorem voteAny_eq (x : Ctx) (p : Nat) : x.voteAny p = (List.range 32).any (fun l => hasLane x.act l && x.pred p l) := by
  rw [Bool.eq_iff_iff, Ctx.voteAny, bne_iff_ne, List.any_eq_true, ← not_iff_not, not_not]
  refine ⟨fun hz => fun ⟨l, hl, hp⟩ => ?_, fun hno => BitVec.eq_of_getLsbD_eq fun l hl => ?_⟩
  · have hbit := hasLane_lanesOf (fun l => hasLane x.act l && x.pred p l) l
    rw [show lanesOf _ = 0 from hz] at hbit
    simp only [hp, List.mem_range.1 hl] at hbit
    exact absurd hbit (by simp [hasLane])
  · refine (hasLane_lanesOf _ l).trans ?_
    have hp : ¬ (hasLane x.act l && x.pred p l) = true := fun hp => hno ⟨l, List.mem_range.2 hl, hp⟩
    simpa [hl] using hp

theorem voteAll_eq (x : Ctx) (p : Nat) : x.voteAll p = (List.range 32).all (fun l => !hasLane x.act l || x.pred p l) := by
  rw [Bool.eq_iff_iff, Ctx.voteAll, beq_iff_eq, List.all_eq_true]
  have hbit (l : Nat) (hl : l < 32) : hasLane (x.ballotOf p) l = (hasLane x.act l && x.pred p l) :=
    (hasLane_lanesOf _ l).trans (by simp [hl])
  refine ⟨fun he l hl => ?_, fun hall => BitVec.eq_of_getLsbD_eq fun l hl => ?_⟩
  · have hl := hbit l (List.mem_range.1 hl)
    rw [he] at hl
    cases h : hasLane x.act l <;> simp_all
  · have hl' := hall l (List.mem_range.2 hl)
    refine (hbit l hl).trans ?_
    show _ = hasLane x.act l
    cases h : hasLane x.act l <;> simp_all

theorem branchIf_of_good {x : Ctx} {f : CFmt} (hgood : ∀ l, hasLane x.act l = true → goodTarget (relTarget x f)) (vote : Bool)
    (s : State) : x.branchIf f vote s =
      if vote = true then s.updWave x.b x.w (willGo x.act (fun _ => relTarget x f)) else s := by
  cases vote
  · rfl
  · exact transfer_of_good hgood x id s

theorem link_linked {s : State} {h : Head} {x : Ctx} (hx : s.ctx h = some x) (f : CFmt) : Linked s (x.link f s) x f.d := by
  obtain ⟨hvals, hframe⟩ := vecResult_done hx true f.d.toNat (fun _ => x.c.pc + 32)
  exact ⟨fun l hl => ⟨(hvals l hl).1, (hvals l hl).2 rfl⟩, hframe⟩

theorem transferResults : TransferResults := by
  intro s h f x hx
  have hissue (name : String) (us : List RegUse) (body : Ctx → State → State) (hu : firstBeyond x.blk.kern us = none) :
      issueOp name h false us body s = .next (body x s) := issueOp_next name h false us body s x hx (by simp) hu
  refine ⟨fun hgood => ⟨?br, ?brany, ?brall, fun hu => ⟨x.link f s, link_linked hx f, ?call⟩⟩,
    fun hgood hu => ⟨?brx, ?ret, fun hu => ⟨x.link f s, link_linked hx f, ?callx⟩⟩, ?exit, fun c y hy => ?nop⟩
  case br => exact (hissue "BR" [] _ rfl).trans (congrArg _ (transfer_of_good hgood x id s))
  case brany =>
    rw [← voteAny_eq]
    exact (hissue "BRANY" [] _ rfl).trans (congrArg _ (branchIf_of_good hgood _ s))
  case brall =>
    rw [← voteAll_eq]
    exact (hissue "BRALL" [] _ rfl).trans (congrArg _ (branchIf_of_good hgood _ s))
  case call => exact (hissue "CALL" _ _ hu).trans (congrArg _ (transfer_of_good hgood x (x.link f) s))
  case brx => exact (hissue "BRX" _ _ hu).trans (congrArg _ (transfer_of_good hgood x id s))
  case ret => exact (hissue "RET" _ _ hu).trans (congrArg _ (transfer_of_good hgood x id s))
  case callx => exact (hissue "CALLX" _ _ hu).trans (congrArg _ (transfer_of_good hgood x (x.link f) s))
  case exit =>
    exact hissue "EXIT" [] (fun x s => s.updWave x.b x.w (fun w => w.updLanes x.act (fun t => { t with exiting := true }))) rfl
  case nop => exact issueOp_next "NOP" ⟨none, c⟩ false [] (fun _ s => s) s y hy (by simp) rfl

theorem loopResults : LoopResults := by
  intro s h f x ⟨hx, hu⟩
  have hloop : exec (.loop h f) s = _ := issueOp_next "LOOP" h false [.s f.a.toNat 1] _ s x hx (by simp) hu
  refine ⟨fun hact => ?idle, fun hact hgood => ?loops⟩
  case idle => rw [hloop, waveOp, Ctx.any, hact]; rfl
  case loops =>
    obtain ⟨hval, hframe⟩ := commit_scal_done hx f.a.toNat (x.scal f.a.toNat - 1)
    refine ⟨_, hval, hframe, ?_⟩
    have hcount : x.scal f.a.toNat - 1 = 0 ↔ x.scal f.a.toNat = 1 := sub_eq_zero
    rw [hloop, waveOp, if_pos (any_of_act hact)]
    simp only [hcount]
    split
    · rfl
    · exact congrArg _ (transfer_of_good (fun _ _ => hgood) x _ s)

/-- Settles O11: a transfer whose targets pass both checks pends, after the register writes of its instruction. -/
theorem controlTransferResults : Obligations.ControlTransferResults := ⟨transferResults, loopResults⟩

end Sys2Proof.Proofs

/-! Traps that instructions take (spec/21, spec/04): the decode outcomes of Table 4-10, the retired encodings (R101) and software traps
(R481), and how the trapping set enters a handler (R474 to R477). -/

namespace Sys2Proof.Proofs

open Sys2Proof.Machine Sys2Proof.Claims

/-! ### Decode outcomes (R98, rows 5 and 6 of Table 4-10) -/

theorem issueOp_privilege {s : State} {h : Head} {x : Ctx} (hx : s.ctx h = some x) (hs : x.blk.service = false) (name : String)
    (us : List RegUse) (body : Ctx → State → State) :
    issueOp name h true us body s = .next (x.raise (x.decodeTrap 0x0F 0 0) s) := by
  obtain ⟨hcur, -⟩ := s.ctx_some h x hx
  simp [issueOp, hcur, hx, hs]

theorem issueOp_beyond {s : State} {h : Head} {x : Ctx} (hx : s.ctx h = some x) {us : List RegUse} {r : Nat}
    (hr : firstBeyond x.blk.kern us = some r) (name : String) (body : Ctx → State → State) :
    issueOp name h false us body s = .next (x.raise (x.decodeTrap 0x03 (BitVec.ofNat 64 r) 0) s) := by
  obtain ⟨hcur, -⟩ := s.ctx_some h x hx
  simp [issueOp, hcur, hx, hr]

/-- The register that the first field names is the first to fail when it lies beyond the declared count. -/
theorem firstBeyond_vector {k : Kern} {r n : Nat} (hr : k.vregs ≤ r) (hn : n ≠ 0) (us : List RegUse) :
    firstBeyond k (.v r n :: us) = some r := by
  have hno : ¬ r + n ≤ k.vregs := by omega
  simp [firstBeyond, RegUse.beyond, hno, hr]

theorem firstBeyond_scalar {k : Kern} {r n : Nat} (hr : k.sregs ≤ r) (hn : n ≠ 0) (us : List RegUse) :
    firstBeyond k (.s r n :: us) = some r := by
  have hno : ¬ r + n ≤ k.sregs := by omega
  simp [firstBeyond, RegUse.beyond, hno, hr]

/-- The fields of an integer or floating-point form begin with D, a single register of type 0. -/
theorem intUses_single {row : A3Row} {f : A3} (hrow : row.d = .vT) (hty : f.ty.toNat = 0) :
    ∃ us, intUses row f = .v f.d.toNat 1 :: us := by
  have hwide : wideTy f.ty = false := by rw [BitVec.eq_of_toNat_eq (y := 0#3) hty]; rfl
  simp [intUses, a3Uses, hrow, hwide, Opd.uses]

theorem fltUses_single {row : A3Row} {f : A3} (hrow : row.d = .v) : ∃ us, fltUses row f = .v f.d.toNat 1 :: us := by
  simp [fltUses, a3Uses, hrow, Opd.uses]

/-- Rows 5 and 6 of Table 4-10. -/
theorem decodeTraps : DecodeTraps := by
  intro s h x hx
  refine ⟨fun hs f => ?privilege, fun f hn hd => ?scalar, fun f hty hd => ?vector, fun f hak ha => ?access⟩
  case privilege =>
    have htrap {i : Instr} {name : String} {us : List RegUse} {body : Ctx → State → State}
        (hi : exec i s = issueOp name h true us body s) := hi.trans (issueOp_privilege hx hs name us body)
    exact ⟨htrap rfl, htrap rfl, htrap rfl, htrap (us := []) rfl, htrap rfl, htrap rfl, htrap rfl, htrap (us := []) rfl⟩
  case scalar =>
    have hn : f.sysno = 0#16 := BitVec.eq_of_toNat_eq hn
    exact issueOp_beyond hx (by rw [hn]; exact firstBeyond_scalar hd (by decide) _) "SYS_RD" _
  case vector =>
    have hint {row : A3Row} (hrow : row.d = .vT) : firstBeyond x.blk.kern (intUses row f) = some f.d.toNat := by
      obtain ⟨us, hus⟩ := intUses_single hrow hty
      rw [hus]
      exact firstBeyond_vector hd (by decide) us
    have hflt {row : A3Row} (hrow : row.d = .v) : firstBeyond x.blk.kern (fltUses row f) = some f.d.toNat := by
      obtain ⟨us, hus⟩ := fltUses_single (f := f) hrow
      rw [hus]
      exact firstBeyond_vector hd (by decide) us
    exact ⟨issueOp_beyond hx (hint rfl) "IADD" _, issueOp_beyond hx (hflt rfl) "FADD" _, issueOp_beyond hx (hint rfl) "MOV" _⟩
  case access =>
    have huses : f.uses 0 2 0 = [.v f.a.toNat 2] := by simp [MFmt.uses, mUse, hak]
    exact issueOp_beyond hx (by rw [huses]; exact firstBeyond_vector ha (by decide) _) "CINV" _

/-! ### Entering the handler (R474 to R477) -/

theorem unfinished_of_running {v : Wave} {l : Nat} {y : Thread} (hy : v.threads[l]? = some y) (hst : y.st = .running) :
    v.finished = false := List.all_eq_false.2 ⟨y, List.mem_of_getElem? hy, by simp [hst]⟩

/-- A trap goes on while a running thread of its trapping set is in the handler (R476, R480). -/
theorem endTrap_of_inside {v : Wave} {m : Lanes} {l : Nat} {y : Thread} (hset : v.trapSet = some m) (hl : hasLane m l = true)
    (hy : v.threads[l]? = some y) (hst : y.st = .running) (hin : y.inHandler = true) : v.endTrap = v := by
  rw [Wave.endTrap]
  simp only [hset]
  refine if_neg fun hall => ?_
  have hend := List.all_eq_true.1 hall l ((mem_lanesIn m l).2 hl)
  simp [hy, hst, hin] at hend

/-- The threads of the trapping set stand at the entry, the others as before. -/
theorem enterTrap_thread {v : Wave} {i : TrapInfo} (entry : DWord) {l : Nat} {y : Thread} (hy : v.threads[l]? = some y) :
    (v.enterTrap i entry).threads[l]? = some (if hasLane i.set l then y.enter entry else y) := by
  show (v.threads.mapIdx _)[l]? = _
  rw [List.getElem?_mapIdx, hy, Option.map_some]

/-- `t` has the memory, the requests, the device's registers and the other blocks of `s`. -/
structure TrapKeeps (b : Nat) (s t : State) : Prop where
  mem : t.mem = s.mem
  reqs : t.reqs = s.reqs
  dev : t.dev = s.dev
  block : ∀ c, c ≠ b → t.block c = s.block c

theorem TrapKeeps.trans {b : Nat} {s t u : State} (h : TrapKeeps b s t) (k : TrapKeeps b t u) : TrapKeeps b s u :=
  ⟨k.mem.trans h.mem, k.reqs.trans h.reqs, k.dev.trans h.dev, fun c hc => (k.block c hc).trans (h.block c hc)⟩

theorem trapKeeps_updWave (s : State) (b w : Nat) (f : Wave → Wave) : TrapKeeps b s (s.updWave b w f) :=
  ⟨rfl, rfl, rfl, fun c hc => s.block_updWave_ne b w c f hc⟩

/-- A trap disarms the monitor of a wave of which no thread waits on it, and changes nothing else (R384). -/
theorem loseMonitor_unwaited {s : State} {b w : Nat} {v : Wave} (hv : s.wave b w = some v) (hm : v.monWait = []) :
    ∃ mon lost, (s.loseMonitor b w false).wave b w = some { v with mon := mon, monLost := lost } ∧
      TrapKeeps b s (s.loseMonitor b w false) := by
  have hcase (c : Bool) : ∃ mon lost,
      (if c = true then s.updWave b w (fun x => { x with mon := none, monLost := true }) else s).wave b w =
        some { v with mon := mon, monLost := lost } ∧
      TrapKeeps b s (if c = true then s.updWave b w (fun x => { x with mon := none, monLost := true }) else s) := by
    cases c
    · exact ⟨v.mon, v.monLost, hv, rfl, rfl, rfl, fun _ _ => rfl⟩
    · exact ⟨none, true, by rw [if_pos rfl, State.wave_updWave_self, hv]; rfl, trapKeeps_updWave ..⟩
  simp only [State.loseMonitor, hv, hm, List.isEmpty_nil, if_true]
  rw [← hm]
  exact hcase _

/-- Of a wave whose trap has not ended, which has not finished and asks for no cancellation, `settle` leaves everything. -/
theorem settle_of_trapped {s : State} {b w : Nat} {v : Wave} (m : Lanes) (hv : s.wave b w = some v) (hc : v.cancels = [])
    (hf : v.finished = false) (he : v.endTrap = v) : (s.settle b w m).wave b w = some v ∧ TrapKeeps b s (s.settle b w m) := by
  rw [settle_of_calm m hv hc hf]
  refine ⟨?wave, rfl, rfl, rfl, fun c hne => ?_⟩
  case wave =>
    rw [State.wave_updWave_self, wave_looked m hv]
    simp only [settled, he, hc, List.map_nil, List.filter_nil, Option.map_some]
    rw [← hc]
  · rw [State.block_updWave_ne _ _ _ _ _ hne, looked, State.block_updBlock_ne _ _ _ _ hne, State.block_updWave_ne _ _ _ _ _ hne]

/-- Threads outside the handler, of a wave that holds no trap, enter at the entry (R476, R477). -/
theorem takeTrap_of_mayTrap {s : State} {b w : Nat} {p : Block} {v : Wave} {i : TrapInfo} {entry : Nat} (hb : s.block b = some p)
    (hv : s.wave b w = some v) (hmay : MayTrap v i.set) (he : s.entryFor p i = some entry) (hr : i.record = .none) :
    s.takeTrap b w i =
      { (((if i.code = 2 then s.retireUse i.feat else s).updWave b w
          (fun x => x.enterTrap i (BitVec.ofNat 64 entry))).loseMonitor b w false).settle b w i.set with note := .raised i } := by
  obtain ⟨hset, -, -, -, houtside⟩ := hmay
  have hentry : (if i.code = 2 then s.retireUse i.feat else s).entryFor p i = some entry := by
    split
    · exact he
    · exact he
  simp only [State.takeTrap, hb, hv, hset, Option.isSome_none, Bool.and_false, Bool.false_eq_true, if_false]
  rw [if_neg fun hinside => ?outside]
  case outside =>
    obtain ⟨l, hl, hin⟩ := List.any_eq_true.1 hinside
    cases hy : v.threads[l]? with
    | none => simp [hy] at hin
    | some y => simp [hy, houtside l y ((mem_lanesIn _ _).1 hl) hy] at hin
  simp only [hentry, State.clearRecord, hr]

/-- What the trapping set finds: the wave with the trap registers written, the threads at the entry, all else as before. -/
theorem takeTrap_enters {s : State} {b w : Nat} {p : Block} {v : Wave} {i : TrapInfo} {entry : Nat} (hb : s.block b = some p)
    (hv : s.wave b w = some v) (hmay : MayTrap v i.set) (he : s.entryFor p i = some entry) (hr : i.record = .none) :
    ∃ mon lost, (s.takeTrap b w i).wave b w = some { v.enterTrap i (BitVec.ofNat 64 entry) with mon := mon, monLost := lost } ∧
      TrapKeeps b (if i.code = 2 then s.retireUse i.feat else s) (s.takeTrap b w i) := by
  obtain ⟨hset, hcan, hmon, ⟨l, y, hl, hy⟩, -⟩ := id hmay
  rw [takeTrap_of_mayTrap hb hv hmay he hr]
  generalize hu : (if i.code = 2 then s.retireUse i.feat else s) = u
  have huv : u.wave b w = some v := by
    subst hu
    split <;> exact hv
  have hin : (u.updWave b w (fun x => x.enterTrap i (BitVec.ofNat 64 entry))).wave b w =
      some (v.enterTrap i (BitVec.ofNat 64 entry)) := by
    rw [State.wave_updWave_self, huv]
    rfl
  obtain ⟨mon, lost, hlost, hkeeps⟩ := loseMonitor_unwaited hin hmon
  have hthread := (enterTrap_thread (i := i) (BitVec.ofNat 64 entry) hy).trans (congrArg some (if_pos hl))
  obtain ⟨hwave, hsettled⟩ := settle_of_trapped i.set hlost hcan (unfinished_of_running hthread rfl)
    (endTrap_of_inside rfl hl hthread rfl rfl)
  exact ⟨mon, lost, hwave, (trapKeeps_updWave ..).trans (hkeeps.trans ⟨hsettled.mem, hsettled.reqs, hsettled.dev, hsettled.block⟩)⟩

/-- An instruction whose effect is a trap of the threads `i.set` makes them enter. -/
theorem enters_of_takeTrap {s : State} {h : Head} {x : Ctx} (hx : s.ctx h = some x) {ins : Instr} {i : TrapInfo} {entry : Nat}
    (hexec : exec ins s = .next (s.takeTrap x.b x.w i)) (hmay : MayTrap x.wv i.set) (he : s.entryFor x.blk i = some entry)
    (hpc : i.pc = x.wordPc) (hk : i.kstep = 0) (hw : i.whole = true) (hd : i.defer = false) (hr : i.record = .none) :
    Enters s ins x i.set i.code i.sub i.feat i.addr entry := by
  obtain ⟨-, hb, -⟩ := s.ctx_some h x hx
  have hb : s.block x.b = some x.blk := hb
  obtain ⟨mon, lost, hwave, hmem, hreqs, hdev, hblock⟩ := takeTrap_enters hb (wave_of_ctx hx) hmay he hr
  refine ⟨_, _, hexec, hwave, ?cause, hpc, rfl, congrArg (BitVec.ofNat 32) hk, if_pos hw, rfl, fun l y hy => ?thread, rfl, rfl, rfl,
    ?mem, ?reqs, ?dev, fun c hc => ?block⟩
  case cause => simp [Wave.enterTrap, TrapInfo.cause, hd, b2n]
  case thread =>
    refine ⟨_, enterTrap_thread (BitVec.ofNat 64 entry) hy, fun hl => ?_, fun hl => ?_⟩
    · rw [if_pos hl]
      exact ⟨rfl, rfl, rfl, rfl, rfl⟩
    · simp [hl]
  case mem => rw [hmem]; split <;> rfl
  case reqs => rw [hreqs]; split <;> rfl
  case dev => rw [hdev]; split <;> rfl
  case block => rw [hblock c hc]; split <;> rfl

/-! ### Retired encodings (R101, R477) -/

theorem retiredOp_eq {s : State} {x : Ctx} (hx : s.ctx ⟨none, false⟩ = some x) (name : String) (feat : Nat) :
    retiredOp name feat s = .next (s.takeTrap x.b x.w
      (if (s.binding x.blk.asn x.blk.kern.obj feat).isSome then x.decodeTrap 0x02 x.c.word feat else x.decodeTrap 0x01 0 0)) := by
  rw [retiredOp, issueOp_next name _ false [] _ s x hx (by simp) rfl]
  cases s.binding x.blk.asn x.blk.kern.obj feat <;> rfl

/-- With a routine bound the threads of the packet enter it, without one the kernel's handler. -/
theorem retiredOp_enters {s : State} {x : Ctx} (hx : s.ctx ⟨none, false⟩ = some x) (hmay : MayTrap x.wv x.c.lanes) {ins : Instr}
    {name : String} {feat : Nat} (hexec : exec ins s = retiredOp name feat s) :
    (∀ r, s.binding x.blk.asn x.blk.kern.obj feat = some r → Enters s ins x x.c.lanes 0x02 0 feat x.c.word r) ∧
    (∀ r, x.blk.kern.handler = some r → s.binding x.blk.asn x.blk.kern.obj feat = none →
      Enters s ins x x.c.lanes 0x01 0 0 0 r) := by
  rw [retiredOp_eq hx] at hexec
  refine ⟨fun r hr => ?_, fun r hr hn => ?_⟩
  · rw [hr, Option.isSome_some, if_pos rfl] at hexec
    exact enters_of_takeTrap (i := x.decodeTrap 0x02 x.c.word feat) hx hexec hmay ((if_pos rfl).trans hr) rfl rfl rfl rfl rfl
  · rw [hn, Option.isSome_none, if_neg Bool.false_ne_true] at hexec
    exact enters_of_takeTrap (i := x.decodeTrap 0x01 0 0) hx hexec hmay ((if_neg (show ¬ 1 = 2 by decide)).trans hr) rfl rfl rfl rfl rfl

theorem retiredEncodings : RetiredEncodings := by
  intro s w x hx
  refine ⟨fun hmay => ?enters, ?_, ?_⟩
  case enters =>
    obtain ⟨hvote, hvote'⟩ := retiredOp_enters hx hmay (ins := .wvote w) (name := "WVOTE") rfl
    obtain ⟨hmma, hmma'⟩ := retiredOp_enters hx hmay (ins := .mma8 w) (name := "MMA8") rfl
    exact ⟨hvote, hmma, fun r hr => ⟨hvote' r hr, hmma' r hr⟩⟩
  · exact (retiredOp_eq hx "WVOTE" 7).trans (congrArg _ (by split <;> rfl))
  · exact (retiredOp_eq hx "MMA8" 11).trans (congrArg _ (by split <;> rfl))

/-! ### Software traps (R477, R481) -/

theorem softTrap_eq {s : State} {h : Head} {f : YFmt} {x : Ctx} (hx : Issues s h (trapUses f) x) (name : String) (code : Nat) :
    softTrap name code h f s = .next (if x.act = 0 then s else
      s.takeTrap x.b x.w (x.trap code (f.sysno.toNat % 256) (x.trapOperand f) x.act true)) := by
  obtain ⟨hx, hu⟩ := hx
  rw [softTrap, issueOp_next name h false _ _ s x hx (by simp) hu]
  by_cases hact : x.act = 0 <;> simp [waveOp, Ctx.any, hact, Ctx.raise]

theorem act_of_mayTrap {v : Wave} {m : Lanes} (h : MayTrap v m) : m ≠ 0 := by
  obtain ⟨-, -, -, ⟨l, y, hl, -⟩, -⟩ := h
  rintro rfl
  exact absurd hl (by simp [hasLane])

theorem softTrap_enters {s : State} {h : Head} {f : YFmt} {x : Ctx} (hx : Issues s h (trapUses f) x) (hmay : MayTrap x.wv x.act)
    {ins : Instr} {name : String} {code r : Nat} (hexec : exec ins s = softTrap name code h f s)
    (hcode : code ≠ 2) (hr : x.blk.kern.handler = some r) :
    Enters s ins x x.act code (f.sysno.toNat % 256) 0 (x.trapOperand f) r := by
  rw [softTrap_eq hx, if_neg (act_of_mayTrap hmay)] at hexec
  exact enters_of_takeTrap (i := x.trap code (f.sysno.toNat % 256) (x.trapOperand f) x.act true) hx.1 hexec hmay
    ((if_neg hcode).trans hr) rfl rfl rfl rfl rfl

theorem softwareTraps : SoftwareTraps := by
  intro s h f x hx
  have htrap : exec (.trap h f) s = _ := softTrap_eq hx "TRAP" 0x0D
  have hbrk : exec (.brk h f) s = _ := softTrap_eq hx "BRK" 0x0E
  refine ⟨fun r hmay hr => ⟨softTrap_enters hx hmay (name := "TRAP") rfl (by decide) hr,
    softTrap_enters hx hmay (name := "BRK") rfl (by decide) hr⟩, fun hact => ?_, fun hact => ?_⟩
  · rw [htrap, hbrk, if_neg hact, if_neg hact]
    exact ⟨rfl, rfl⟩
  · rw [htrap, hbrk, if_pos hact, if_pos hact]
    exact ⟨rfl, rfl⟩

/-- Settles O15: the decode outcomes by the checks before an instruction's effect, the others by what a trap does to a wave that
holds none. -/
theorem instructionTraps : Obligations.InstructionTraps := ⟨decodeTraps, retiredEncodings, softwareTraps⟩

end Sys2Proof.Proofs

/-! Where instructions and events complete: the conditions under which each answers a next state. Most read them off directly; the image
of a saved block (R406) is written only if the block is still there once its monitors have ended. -/

namespace Sys2Proof.Proofs

open Sys2Proof.Machine Sys2Proof.Claims

/-! ### Answering a next state -/

/-- An instruction that is being issued answers: with a decode trap or with its own effect. -/
theorem issueOp_answers {s : State} {h : Head} {x : Ctx} (hx : s.ctx h = some x) {o : Out} {name : String} {service : Bool}
    {us : List RegUse} {body : Ctx → State → State} (ho : o = issueOp name h service us body s) : ∃ t, o = .next t := by
  subst ho
  cases hs : service && !x.blk.service with
  | true =>
    obtain ⟨rfl, hpriv⟩ := Bool.and_eq_true_iff.1 hs
    exact ⟨_, issueOp_privilege hx (by simpa using hpriv) name us body⟩
  | false =>
    obtain ⟨hcur, -⟩ := s.ctx_some h x hx
    cases hu : firstBeyond x.blk.kern us <;> simp [issueOp, hcur, hx, hs, hu]

/-- An event whose conditions hold answers. -/
theorem event_answers {c : Bool} (hc : c = true) {o : Out} {name : String} {t : State} (ho : o = event name c t) : ∃ t, o = .next t :=
  ⟨t, ho.trans (event_next name c t hc)⟩

/-! ### Instructions -/

theorem instructionsComplete (s : State) : InstructionsComplete s := by
  refine ⟨fun w x hx => ⟨⟨_, retiredOp_eq hx "WVOTE" 7⟩, ⟨_, retiredOp_eq hx "MMA8" 11⟩⟩,
    fun h f x hx => ⟨issueOp_answers hx.1 rfl, issueOp_answers hx.1 rfl⟩,
    fun h f x hx => ⟨fun _ => issueOp_answers hx rfl, fun _ _ => ?sysWr⟩, fun h f x hx => ?_⟩
  case sysWr =>
    show ∃ t, execSysWr h f s = .next t
    simp only [execSysWr]
    exact issueOp_answers hx rfl
  exact ⟨fun _ => issueOp_answers hx rfl, fun _ _ _ _ => issueOp_answers hx rfl, fun _ => issueOp_answers hx rfl,
    fun _ => issueOp_answers hx rfl, fun _ => issueOp_answers hx rfl, fun _ _ _ _ _ => issueOp_answers hx rfl,
    fun _ => issueOp_answers hx rfl⟩

/-! ### A block stays resident while its monitors end (R30, R378, R384) -/

/-- If block `b` is resident in `s`, it is in `t`. -/
def Stays (b : Nat) (s t : State) : Prop := (s.block b).isSome = true → (t.block b).isSome = true

theorem Stays.refl (b : Nat) (s : State) : Stays b s s := id

theorem Stays.trans {b : Nat} {s t u : State} (h : Stays b s t) (k : Stays b t u) : Stays b s u := k ∘ h

theorem Stays.of_blocks {b : Nat} {s t : State} (h : t.blocks = s.blocks) : Stays b s t := fun hs => by
  rwa [State.block, h]

theorem stays_ite {b : Nat} {s t u : State} {c : Prop} [Decidable c] (ht : Stays b s t) (hu : Stays b s u) :
    Stays b s (if c then t else u) := by
  split
  · exact ht
  · exact hu

theorem stays_foldl {α : Type} {b : Nat} {f : State → α → State} (hf : ∀ t e, Stays b t (f t e)) (es : List α) (s : State) :
    Stays b s (es.foldl f s) := by
  induction es generalizing s with
  | nil => exact .refl b s
  | cons e es ih => exact (hf s e).trans (ih _)

theorem stays_updBlock (b c : Nat) (f : Block → Block) (s : State) : Stays b s (s.updBlock c f) := fun hs => by
  by_cases hc : b = c
  · subst hc
    rwa [State.block_updBlock_self, Option.isSome_map]
  · rwa [State.block_updBlock_ne _ _ _ _ hc]

theorem stays_updWave (b c w : Nat) (f : Wave → Wave) (s : State) : Stays b s (s.updWave c w f) := stays_updBlock b c _ s

theorem stays_commit (b c w : Nat) (ws : List Wr) (s : State) : Stays b s (s.commit c w ws) :=
  ((stays_updWave b c w _ s).trans (stays_updBlock b c _ _)).trans (.of_blocks rfl)

theorem stays_dropSheafBits (b c w : Nat) (s : State) : Stays b s (s.dropSheafBits c w) := by
  unfold State.dropSheafBits
  split
  · exact .refl b s
  · exact (Stays.of_blocks rfl).trans (stays_updWave b c w _ _)

theorem stays_stopBlock (b c : Nat) (s : State) : Stays b s (s.stopBlock c) := by
  unfold State.stopBlock
  split
  · exact .refl b s
  · exact (((stays_foldl (fun t w => stays_dropSheafBits b c w t) _ s).trans (.of_blocks rfl)).trans (.of_blocks rfl)).trans
      (stays_updBlock b c _ _)

theorem stays_cancelBlock (b c : Nat) (s : State) : Stays b s (s.cancelBlock c) := by
  unfold State.cancelBlock
  split
  · exact .refl b s
  · exact stays_ite (.refl b s) ((stays_ite (.refl b s) (stays_stopBlock b c s)).trans (stays_updBlock b c _ _))

theorem stays_dropImages (b g : Nat) (s : State) : Stays b s (s.dropImages g) :=
  (stays_foldl (f := fun t (i : SavedImage) => t.dropImageBits i.blk) (fun _ _ => .of_blocks rfl) _ s).trans (.of_blocks rfl)

theorem stays_cancelGrid (b g : Nat) (s : State) : Stays b s (s.cancelGrid g) := by
  unfold State.cancelGrid
  split
  · exact .refl b s
  · exact stays_ite (.refl b s) (((stays_dropImages b g s).trans (stays_foldl (fun t c => stays_cancelBlock b c t) _ _)).trans
      (.of_blocks rfl))

theorem stays_reapJobs (b : Nat) (s : State) : Stays b s s.reapJobs := by
  obtain ⟨qs, js, hs, -⟩ := reapJobs_eq s
  rw [hs]
  exact .of_blocks rfl

theorem stays_cancelGraph (b job graph : Nat) (s : State) : Stays b s (s.cancelGraph job graph) :=
  (stays_foldl (fun t g => stays_cancelGrid b g t) _ s).trans ((Stays.of_blocks rfl).trans (stays_reapJobs b _))

theorem stays_cancelJob (b job : Nat) (s : State) : Stays b s (s.cancelJob job) :=
  (stays_foldl (fun t g => stays_cancelGrid b g t) _ s).trans ((Stays.of_blocks rfl).trans (stays_reapJobs b _))

theorem stays_runCancels (b c w : Nat) (s : State) : Stays b s (s.runCancels c w) := by
  unfold State.runCancels
  split
  · refine (stays_updWave b c w _ s).trans (stays_foldl (fun t e => ?_) _ _)
    split
    · exact stays_cancelBlock b c t
    · exact stays_cancelGrid b _ t
    · exact stays_cancelGraph b _ _ t
    · exact stays_cancelJob b _ t
    · exact .refl b t
  · exact .refl b s

theorem stays_settle (b c w : Nat) (m : Lanes) (s : State) : Stays b s (s.settle c w m) := by
  refine Stays.trans ?_ (stays_runCancels b c w _)
  have hlook : Stays b s (looked s c w m) := (stays_updWave b c w _ s).trans (stays_updBlock b c _ _)
  refine hlook.trans ?_
  change Stays b (looked s c w m) (match (looked s c w m).wave c w with
    | some wv => if wv.finished then ((looked s c w m).dropSheafBits c w).breakConvs c w else looked s c w m
    | none => looked s c w m)
  split
  · exact stays_ite ((stays_dropSheafBits b c w _).trans (stays_updBlock b c _ _)) (.refl b _)
  · exact .refl b _

theorem stays_resumeLanes (b c w : Nat) (m : Lanes) (s : State) : Stays b s (s.resumeLanes c w m) := by
  unfold State.resumeLanes
  split
  · exact .refl b s
  · exact (stays_updWave b c w _ s).trans (stays_settle b c w _ _)

theorem stays_endMonitor (b c w : Nat) (reason : MonWaiting → Nat) (s : State) : Stays b s (s.endMonitor c w reason) := by
  unfold State.endMonitor
  split
  · exact .refl b s
  · exact (stays_updWave b c w _ s).trans (stays_foldl (fun t k => (stays_commit b c w _ t).trans (stays_resumeLanes b c w _ _)) _ _)

theorem stays_loseMonitor (b c w : Nat) (save : Bool) (s : State) : Stays b s (s.loseMonitor c w save) := by
  unfold State.loseMonitor
  split
  · exact .refl b s
  · have harm (p : Bool) (f : Wave → Wave) : Stays b s (if p then s.updWave c w f else s) :=
      stays_ite (stays_updWave b c w f s) (.refl b s)
    exact stays_ite (harm _ _) ((harm _ _).trans (stays_endMonitor b c w _ _))

/-- R406: the image of a block being saved is written, or discarded with a block that was cancelled meanwhile. -/
theorem saveImageWrite_answers {s : State} {b : Nat} {p : Block} (hb : s.block b = some p) (hmode : p.mode = .saving)
    (hab : p.aborted = none) (hwait : s.saveWaits b p = false) : ∃ t, exec (.saveImageWrite b) s = .next t := by
  show ∃ t, execSaveImageWrite b s = .next t
  simp only [execSaveImageWrite, hb, hmode, hab, hwait, bne_self_eq_false, Option.isSome_none, Bool.or_false, Bool.false_eq_true, if_false]
  split
  · exact ⟨_, rfl⟩
  · obtain ⟨q, hq⟩ := Option.isSome_iff_exists.1
      (stays_foldl (fun t w => stays_loseMonitor b b w true t) (List.range p.waves.length) s (by simp [hb]))
    simp only [hq]
    exact ⟨_, rfl⟩

/-! ### The cores and their engines -/

/-- What an accumulator's queue holds first decides which event performs it (R334, R340). -/
theorem accumulator_answers {s : State} {b n : Nat} {p : Block} {a : Acc} {c : AccCmd} {rest : List AccCmd} (hb : s.block b = some p)
    (ha : p.accs[n]? = some a) (hq : a.queue = c :: rest) (hmode : p.mode ≠ .saving) :
    (isMma c.kind = true → s.engineTurn p n = true → ∃ t, exec (.mmaKstep b n) s = .next t) ∧
    (isMma c.kind = false → ∃ t, exec (.accCommandPerform b n) s = .next t) := by
  have hruns : p.accRuns a = true := by simp [Block.accRuns, hmode]
  refine ⟨fun hk hturn => ?_, fun hk => ?_⟩
  · show ∃ t, execMmaKstep b n s = .next t
    cases hkind : c.kind with
    | mma =>
      simp only [execMmaKstep, hb, ha, hq, hkind]
      exact event_answers (by simp [hruns, hturn]) rfl
    | _ => simp [hkind, isMma] at hk
  · show ∃ t, execAccCommandPerform b n s = .next t
    simp only [execAccCommandPerform, hb, ha, hq]
    split
    · rename_i hkind
      simp [hkind, isMma] at hk
    · exact event_answers hruns rfl

theorem signingRound_answers {s : State} {b cv : Nat} {p : Block} {mask : Lanes} {ss : List Signer} (hb : s.block b = some p)
    (hcv : p.convs[cv]? = some (.opened mask ss)) (hmode : p.mode = .normal ∨ p.mode = .drain) (hcan : p.cancelled = false)
    (hab : p.aborted = none) (hround : p.roundComplete cv mask = true) (hend : (s.endRound b cv p ss).isSome = true) :
    ∃ t, exec (.signingRoundComplete b cv) s = .next t := by
  obtain ⟨t, ht⟩ := Option.isSome_iff_exists.1 hend
  have hmode : (p.mode == .normal || p.mode == .drain) = true := by simpa using hmode
  show ∃ t, execSigningRoundComplete b cv s = .next t
  simp [execSigningRoundComplete, hb, hcv, hmode, hcan, hab, hround, ht]

theorem blockRetire_answers {s : State} {b : Nat} {p : Block} (hb : s.block b = some p) (hover : p.over = true)
    (hwork : s.workLeft b p = false) (hremote : p.remoteLeft = false) (hmarks : s.marksOut p = false) :
    ∃ t, exec (.blockRetire b) s = .next t := by
  show ∃ t, execBlockRetire b s = .next t
  simp only [execBlockRetire, hb, hover, hwork, hremote, hmarks, Bool.not_true, Bool.or_false, Bool.false_eq_true, if_false]
  split
  · exact ⟨_, rfl⟩
  · exact ⟨_, rfl⟩

theorem resumeIssue_answers {s : State} {b : Nat} {p : Block} (hb : s.block b = some p) (hmode : p.mode = .resuming)
    (hcan : p.cancelled = false) (hab : p.aborted = none) (hwait : p.waitCmds = []) : ∃ t, exec (.resumeIssue b) s = .next t := by
  show ∃ t, execResumeIssue b s = .next t
  simp [execResumeIssue, hb, hmode, hcan, hab, hwait]

theorem fetchFault_answers {s : State} {b w : Nat} {p : Block} {at_ : Pos} {r : Fetched} (hb : s.block b = some p)
    (ht : s.fetchTrouble b w = some (at_, r)) (hlive : p.live = true) : ∃ t, exec (.fetchFault b w) s = .next t := by
  show ∃ t, execFetchFault b w s = .next t
  simp only [execFetchFault, hb, ht, hlive, Bool.not_true, Bool.false_eq_true, if_false]
  split
  · exact ⟨_, rfl⟩
  · exact ⟨_, rfl⟩
  · exact ⟨_, rfl⟩

theorem copyBegin_answers {s : State} {core q : Nat} {e : CopyCmd × Block} (h : s.canBegin core q (fun c => !c.isColl) = some e) :
    ∃ t, exec (.copyBegin core q) s = .next t := by
  show ∃ t, execCopyBegin core q s = .next t
  simp only [execCopyBegin, h]
  split
  · exact ⟨_, rfl⟩
  · exact ⟨_, rfl⟩

theorem collBegin_answers {s : State} {core q : Nat} {e : CopyCmd × Block}
    (h : s.canBegin core q (fun c => c.isColl && c.fault.isNone) = some e) : ∃ t, exec (.collBegin core q) s = .next t := by
  show ∃ t, execCollBegin core q s = .next t
  simp only [execCollBegin, h]
  split
  · exact ⟨_, rfl⟩
  · exact ⟨_, rfl⟩
  · exact ⟨_, rfl⟩
  · exact ⟨_, rfl⟩

/-- A collective that has written its buffer ends once none of its lines is held. -/
theorem collComplete_answers {s : State} {core q : Nat} {c : CopyCmd} {rest : List CopyCmd} (hq : s.queueOf core q = c :: rest)
    (hcoll : c.isColl = true) (hrow : c.row = 1) (hheld : ∀ l ∈ c.lines, s.lineHeld l = false) :
    ∃ t, exec (.collComplete core q false false) s = .next t := by
  have hfree : c.lines.all (fun l => !s.lineHeld l) = true := List.all_eq_true.2 fun l hl => by simp [hheld l hl]
  show ∃ t, execCollComplete core q false false s = .next t
  simp only [execCollComplete, hq, hrow, if_true]
  exact event_answers (by simp [hcoll, hfree]) rfl

theorem shfTakeReturn_answers {s : State} {b w : Nat} {v : Wave} {k : Taking} (hv : s.wave b w = some v) (hk : k ∈ v.take)
    (hr : (s.sheaf k.group).takeReady k = true) : ∃ t, exec (.shfTakeReturn b w) s = .next t := by
  obtain ⟨e, he⟩ := Option.isSome_iff_exists.1 (List.find?_isSome.2 ⟨k, hk, hr⟩ :
    (v.take.find? (fun t => (s.sheaf t.group).takeReady t)).isSome = true)
  show ∃ t, execShfTakeReturn b w s = .next t
  simp only [execShfTakeReturn, hv, Option.bind_some, he]
  exact ⟨_, rfl⟩

theorem shfPutArrive_answers {s : State} {p : Put} (hp : p ∈ s.puts) : ∃ t, exec (.shfPutArrive p.id) s = .next t := by
  obtain ⟨e, he⟩ := Option.isSome_iff_exists.1 (List.find?_isSome.2 ⟨p, hp, by simp⟩ :
    (s.puts.find? (fun e => e.id = p.id)).isSome = true)
  show ∃ t, execShfPutArrive p.id s = .next t
  simp only [execShfPutArrive, he]
  exact ⟨_, rfl⟩

theorem monitor_answers {s : State} {b w : Nat} {v : Wave} (hv : s.wave b w = some v) :
    (∀ m, v.mon = some m → m.ended = none → m.hit = true → ∃ t, exec (.monitorTrigger b w) s = .next t) ∧
    (∀ k n, k ∈ v.monWait → k.until_ = some n → n ≤ s.clock → ∃ t, exec (.monitorTimeout b w) s = .next t) ∧
    (v.monWait ≠ [] → ∃ t, exec (.monitorSpuriousEnd b w) s = .next t) := by
  refine ⟨fun m hm hend hhit => ?_, fun k n hk hn hle => ?_, fun hne => ?_⟩
  · show ∃ t, execMonitorTrigger b w s = .next t
    simp only [execMonitorTrigger, hv]
    exact event_answers (by simp [State.monTriggered, hm, hend, hhit]) rfl
  · show ∃ t, execMonitorTimeout b w s = .next t
    simp only [execMonitorTimeout, hv]
    exact event_answers (List.any_eq_true.2 ⟨k, hk, by simp [MonWaiting.due, hn, hle]⟩) rfl
  · show ∃ t, execMonitorSpuriousEnd b w s = .next t
    simp only [execMonitorSpuriousEnd, hv]
    exact event_answers (by simp [hne]) rfl

/-- R58, R191 to R195, R204: the data of a request return; R232: a write is performed. -/
theorem request_answers {s : State} {id : Nat} {r : Req} (hr : s.reqs.get id = some r) :
    (r.kind ≠ .probe → r.kind.returns = true → (r.visible = true ∨ s.loadReady id r = true ∧ s.myTurn r = true) →
      ∃ t, exec (.loadResult id .clean) s = .next t) ∧
    (r.kind = .probe → s.probeReady id r = true → ∃ t, exec (.loadResult id .clean) s = .next t) ∧
    (r.kind.isWrite = true → r.cmd = none → s.writeReady id r = true → (s.reqAway r = true ∨ s.myTurn r = true) →
      ∃ t, exec (.writePerform id .clean) s = .next t) := by
  have hload : exec (.loadResult id .clean) s = execLoadResult id .clean s := rfl
  refine ⟨fun hk hret hready => ?_, fun hk hready => ?_, fun hk hcmd hready hturn => ?_⟩
  · rw [hload]
    simp only [execLoadResult, hr, beq_eq_false_iff_ne.2 hk, hret, Bool.not_true, Bool.false_eq_true, if_false]
    obtain hvis | ⟨hready, hturn⟩ := hready
    · exact ⟨_, if_pos hvis⟩
    · simp only [hready, hturn, Bool.and_self, if_true]
      split
      · exact ⟨_, rfl⟩
      · exact ⟨_, rfl⟩
  · rw [hload]
    simp only [execLoadResult, hr, hk, beq_self_eq_true, if_true]
    exact event_answers hready rfl
  · show ∃ t, execWritePerform id .clean s = .next t
    simp only [execWritePerform, hr]
    exact event_answers (by simpa [hk, hcmd, hready] using hturn) rfl

theorem portSend_answers {s : State} {core : Nat} {e : Nat × Req} (hdue : s.refillDue = false) (he : s.portChoice core = some e) :
    ∃ t, exec (.portSend core .clean) s = .next t := by
  show ∃ t, execPortSend core .clean s = .next t
  simp only [execPortSend, hdue, Bool.false_eq_true, if_false, he]
  exact ⟨_, rfl⟩

theorem coreEventsComplete (s : State) : CoreEventsComplete s := by
  refine ⟨fun b w v hv => ?wave, fun core q c p h => copyBegin_answers h, fun core q c p h => collBegin_answers h,
    fun core q c rest hq hcoll hrow hheld => collComplete_answers hq hcoll hrow hheld, fun b p hb => ?block,
    fun p hp => shfPutArrive_answers hp, fun g hg => event_answers hg rfl, fun id r hr => request_answers hr,
    fun hdue => event_answers hdue rfl, fun core e hdue he => portSend_answers hdue he⟩
  case wave =>
    obtain ⟨htrigger, htimeout, hspurious⟩ := monitor_answers hv
    exact ⟨htrigger, htimeout, hspurious, fun k hk hready => shfTakeReturn_answers hv hk hready⟩
  case block =>
    exact ⟨fun cv mask ss hcv hmode hcan hab hround hend => signingRound_answers hb hcv hmode hcan hab hround hend,
      fun n a c rest ha hq hmode => accumulator_answers hb ha hq hmode,
      fun n hfull => by
        show ∃ t, execBarrierPhaseComplete b n s = .next t
        simp only [execBarrierPhaseComplete, hb]
        exact event_answers hfull rfl,
      fun hover hwork hremote hmarks => blockRetire_answers hb hover hwork hremote hmarks,
      fun hmode hab hwait => saveImageWrite_answers hb hmode hab hwait,
      fun hmode hcan hab hwait => resumeIssue_answers hb hmode hcan hab hwait,
      fun w at_ r ht hlive _ => fetchFault_answers hb ht hlive⟩

/-! ### The front end, storage and the device's registers -/

/-- R352, R355: the packet at the head of a queue that runs begins. -/
theorem packet_answers {s : State} {n typ : Nat} {q : Queue} {p : Pkt} (h : AtQueue s n typ q p) :
    (typ = 1 → s.cpMoving q (p.w 5).toNat = false → ∃ t, exec (.launch n) s = .next t) ∧
    (typ = 2 → ∃ t, exec (.wait n) s = .next t) ∧
    (typ = 3 → s.cpMoving q (p.w 1).toNat = false → ∃ t, exec (.signal n) s = .next t) ∧
    (typ = 4 → ∃ t, exec (.cancel n) s = .next t) ∧ (typ = 5 → ∃ t, exec (.bind n) s = .next t) ∧
    (typ = 6 → ∃ t, exec (.tickalign n) s = .next t) ∧ (typ = 7 → ∃ t, exec (.close n) s = .next t) := by
  obtain ⟨-, -, hpending, -⟩ := id h
  refine ⟨?launch, ?wait, ?signal, ?cancel, ?bind, ?tickalign, ?close⟩ <;> rintro rfl
  case launch =>
    intro hmove
    show ∃ t, execLaunch n s = .next t
    simp only [execLaunch, packetFor_of_atQueue h]
    exact event_answers (by simp [hmove]) rfl
  case wait =>
    show ∃ t, execWait n s = .next t
    simp only [execWait, packetFor_of_atQueue h]
    exact ⟨_, rfl⟩
  case signal =>
    intro hmove
    show ∃ t, execSignal n s = .next t
    simp only [execSignal, packetFor_of_atQueue h, hpending]
    exact event_answers (by simp [hmove]) rfl
  case cancel =>
    show ∃ t, execCancel n s = .next t
    simp only [execCancel, packetFor_of_atQueue h]
    exact ⟨_, rfl⟩
  case bind =>
    show ∃ t, execBind n s = .next t
    simp only [execBind, packetFor_of_atQueue h, hpending, Option.isSome_none, Bool.false_and, Bool.false_eq_true, if_false]
    exact ⟨_, rfl⟩
  case tickalign =>
    show ∃ t, execTickalign n s = .next t
    simp only [execTickalign, packetFor_of_atQueue h]
    exact ⟨_, rfl⟩
  case close =>
    show ∃ t, execClose n s = .next t
    simp only [execClose, packetFor_of_atQueue h]
    exact ⟨_, rfl⟩

/-- R358: a WAIT whose condition was met while it was held ends. -/
theorem waitSatisfied_answers {s : State} {n : Nat} {q : Queue} {p : Pkt} (hstatus : q.status ≠ 2) (hq : s.queues.get n = some q)
    (hmet : q.pending = some .met) (hhead : s.atHead q = .packet p) (htyp : p.typ = 2) :
    ∃ t, exec (.waitSatisfied n) s = .next t := by
  have hfor : s.packetFor n 2 (fun p => p == .wait || p == .met) = some (q, p) := by
    have heq : ({ q with pending := some .met } : Queue) = q := by rw [← hmet]
    simp [State.packetFor, hq, hstatus, hmet, hhead, htyp, heq]
  show ∃ t, execWaitSatisfied n s = .next t
  simp only [execWaitSatisfied, hfor, hmet]
  exact ⟨_, rfl⟩

theorem dispatchTakeGrid_answers {s : State} {g : Nat} (hroom : s.heldGrids.length < 4) (hg : s.nextFromMillrace = some g) :
    ∃ t, exec .dispatchTakeGrid s = .next t := by
  show ∃ t, execDispatchTakeGrid s = .next t
  simp only [execDispatchTakeGrid, Nat.not_le.2 hroom, if_false, hg]
  exact ⟨_, rfl⟩

theorem blockPlace_answers {s t : State} {g : Nat} (hassigned : s.noteHead.placeAssigned = none) (hhead : s.noteHead.head = some g)
    (hplace : s.noteHead.placeGrid g = some t) : ∃ t, exec .blockPlace s = .next t := by
  show ∃ t, execBlockPlace s = .next t
  simp only [execBlockPlace, hassigned, hhead, hplace]
  exact ⟨_, rfl⟩

theorem backfill_answers {s t : State} {n h g : Nat} (hn : 1 ≤ n) (hn3 : n ≤ 3) (hhead : s.noteHead.head = some h)
    (hg : s.noteHead.heldGrids[n]? = some g) (hmay : s.noteHead.mayBackfill h = true)
    (hbefore : ∀ k ∈ (s.noteHead.heldGrids.take n).drop 1, s.noteHead.placeGrid k = none)
    (hplace : s.noteHead.placeGrid g = some t) : ∃ t, exec (.backfill n) s = .next t := by
  have hnone : ((s.noteHead.heldGrids.take n).drop 1).any (fun k => (s.noteHead.placeGrid k).isSome) = false :=
    List.any_eq_false.2 fun k hk => by simp [hbefore k hk]
  show ∃ t, execBackfill n s = .next t
  simp only [execBackfill, hhead, hg, hmay, hnone, hplace, Nat.one_le_iff_ne_zero.1 hn, Nat.not_lt.2 hn3]
  exact ⟨_, rfl⟩

theorem weirRun_answers {s : State} {e : Nat × Grid} (h : s.noteHead.weirDue = some e) : ∃ t, exec .weirRun s = .next t := by
  show ∃ t, execWeirRun s = .next t
  simp only [execWeirRun, h]
  exact ⟨_, rfl⟩

theorem gridComplete_answers {s : State} {g : Nat} {gr : Grid} (hg : s.grids.get g = some gr) (hplace : gr.place = .dispatcher)
    (hleft : gr.left = 0) (hclosed : s.gridClosed g gr = true) (hmove : s.recordMoving gr = false) :
    ∃ t, exec (.gridComplete g) s = .next t := by
  show ∃ t, execGridComplete g s = .next t
  simp only [execGridComplete, hg]
  exact event_answers (by simp [hplace, hleft, hclosed, hmove]) rfl

theorem pageMoveComplete_answers {s : State} {frame : Nat} {m : Move}
    (hm : s.reed.moves.find? (fun m => m.src = 65536 * frame) = some m) (hfits : s.moveFits m = true) :
    ∃ t, exec (.pageMoveComplete frame) s = .next t := by
  show ∃ t, execPageMoveComplete frame s = .next t
  simp only [execPageMoveComplete, hm]
  exact event_answers hfits rfl

theorem l2FlushDone_answers {s : State} (hbusy : s.reed.flushBusy = true) (hlag : ∀ e ∈ s.lag, s.flushLine e.1 = false) :
    ∃ t, exec .l2FlushDone s = .next t := by
  have hnone : s.lag.any (fun e => s.flushLine e.1) = false := List.any_eq_false.2 fun e he => by simp [hlag e he]
  exact event_answers (by rw [hbusy, hnone]; rfl) rfl

/-- R181, R182: the writes that start a page move, and a flush of the L2. -/
theorem storageStarts_answer (s : State) (v : DWord) :
    (v.getLsbD 0 = true → ∃ t, exec (.moveStart v) s = .next t) ∧
    (v.getLsbD 0 = true → s.reed.flushBusy = false → fld v 8 21 ≠ 0 → ∃ t, exec (.l2FlushStart v) s = .next t) :=
  ⟨fun hv => event_answers hv rfl, fun hv hbusy hline => event_answers (by rw [hv, hbusy, bne_iff_ne.2 hline]; rfl) rfl⟩

theorem deviceEventsComplete (s : State) : DeviceEventsComplete s := by
  refine ⟨fun g gr hg hplace hleft hclosed hmove => gridComplete_answers hg hplace hleft hclosed hmove,
    fun n q p hstatus hq hpending hunmap hhead => ?packets,
    fun n q p hstatus hq hmet hhead htyp => waitSatisfied_answers hstatus hq hmet hhead htyp,
    fun hdue => event_answers hdue rfl, fun g hroom hg => dispatchTakeGrid_answers hroom hg,
    fun g t hassigned hhead hplace => blockPlace_answers hassigned hhead hplace,
    fun n h g t hn hn3 hhead hg hmay hbefore hplace => backfill_answers hn hn3 hhead hg hmay hbefore hplace,
    fun e he => weirRun_answers he, fun line hheld hfits => event_answers (Bool.and_eq_true_iff.2 ⟨hheld, hfits⟩) rfl,
    fun frame m hm hfits => pageMoveComplete_answers hm hfits, fun v => ?registers, ⟨_, rfl⟩,
    fun hbusy hlag => l2FlushDone_answers hbusy hlag⟩
  case packets =>
    have hat {typ : Nat} (htyp : p.typ = typ) : AtQueue s n typ q p := ⟨hq, hstatus, hpending, hunmap, hhead, htyp⟩
    obtain ⟨hlaunch, hwait, hsignal, hcancel, hbind, htick, hclose⟩ := packet_answers (hat rfl)
    exact ⟨hlaunch, hwait, hsignal, hcancel, hbind, htick, hclose⟩
  case registers =>
    obtain ⟨hmove, hflush⟩ := storageStarts_answer s v
    exact ⟨hmove, hflush, ⟨_, rfl⟩, ⟨_, rfl⟩, fun _ _ => ⟨_, rfl⟩, fun _ => ⟨⟨_, rfl⟩, ⟨_, rfl⟩⟩, ⟨_, rfl⟩, ⟨_, rfl⟩, ⟨_, rfl⟩,
      fun _ => ⟨⟨_, rfl⟩, ⟨_, rfl⟩, fun _ => ⟨_, rfl⟩⟩, ⟨_, rfl⟩, ⟨_, rfl⟩, ⟨_, rfl⟩, fun _ _ => ⟨_, rfl⟩, ⟨_, rfl⟩, ⟨_, rfl⟩,
      fun _ => ⟨_, rfl⟩⟩

/-! ### What comes from outside the module -/

theorem port_answers {s : State} {port : Nat} {x : FabPort} (hx : s.ports.get port = some x) (hfence : x.fenced = false) :
    (∀ bs, x.trained = true → ∃ t, exec (.fabricSequence port bs) s = .next t) ∧
    (∀ lanes, 16 ≤ x.retries → lanes ≤ x.lanes → ∃ t, exec (.portRetrain port lanes) s = .next t) := by
  refine ⟨fun bs htrained => ?_, fun lanes hretries hlanes => ?_⟩
  · show ∃ t, execFabricSequence port bs s = .next t
    simp only [execFabricSequence, hx]
    exact event_answers (by simp [htrained, hfence]) rfl
  · show ∃ t, execPortRetrain port lanes s = .next t
    simp only [execPortRetrain, hx]
    exact event_answers (by simp [hfence, hretries, hlanes]) rfl

theorem packetEvents_answer (s : State) (p : FabPacket) :
    (p.typ = 1 → s.turn p = true → ∃ t, exec (.fabricRead p .clean) s = .next t) ∧
    (p.typ = 2 → s.turn p = true → s.packetWaits p = false → ∃ t, exec (.fabricWrite p .clean) s = .next t) ∧
    (p.typ = 3 → p.atop % 16 ≤ 8 → s.turn p = true → s.packetWaits p = false → ∃ t, exec (.fabricAtomic p .clean) s = .next t) ∧
    (s.fabIn.contains p = true → (p.typ = 4 → ∃ t, exec (.fabricReply p) s = .next t) ∧
      (p.typ = 6 → ∃ t, exec (.markerAck p) s = .next t) ∧ (p.typ = 8 → ∃ t, exec (.fabricColl p) s = .next t)) ∧
    (p.typ = 5 → s.markerDue p = true → ∃ t, exec (.marker p) s = .next t) ∧
    (∀ port x, p.typ = 7 → s.ports.get port = some x → x.sessIn.head? = some p → x.message = none →
      ∃ t, exec (.fabricSession port p) s = .next t) := by
  refine ⟨fun hp hturn => event_answers ?_ rfl, fun hp hturn hwaits => event_answers ?_ rfl,
    fun hp _ hturn hwaits => event_answers ?_ rfl, fun hin => ⟨fun hp => event_answers ?_ rfl, fun hp => event_answers ?_ rfl,
      fun hp => event_answers ?_ rfl⟩, fun hp hdue => event_answers ?_ rfl, fun port x hp hx hhead hmsg => event_answers ?_ rfl⟩
  all_goals simp_all [Ecc.atHome]

/-- Frames and messages reach a module that has started (R354, R453 to R458). -/
theorem frames_answer {s : State} (hup : s.startup = 4) :
    (∀ m, ∃ t, exec (.hello none m) s = .next t) ∧ (∀ m, ∃ t, exec (.key none m) s = .next t) ∧
    ∀ (f : FrameHead) (id a : Nat) (bs cs : List Byte), (s.portOf f.session = none →
      (∃ t, exec (.rekey f bs cs) s = .next t) ∧ ∃ t, exec (.sessionClose f) s = .next t) ∧
      (s.session f.session = none → ∃ t, exec (.serviceNotOffered f id a) s = .next t) := by
  have hup : s.up = true := decide_eq_true hup
  refine ⟨fun m => event_answers (by simp [hup, State.messageIs]) rfl, fun m => event_answers (by simp [hup, State.messageIs]) rfl,
    fun f id a bs cs => ⟨fun hport => ⟨event_answers ?_ rfl, event_answers ?_ rfl⟩, fun hnone => event_answers ?_ rfl⟩⟩
  · simp [hup, hport, State.portFree, State.messageIs]
  · simp [hup, hport, State.messageIs]
  · simp [hup, hnone]

theorem handoverCommit_answers {s : State} {e : ServiceReq × Nat} (hreq : s.handoverReq = some e) (hdue : s.secure.handover = true)
    (hidle : ∀ e ∈ s.queues, e.2.pending = none) : ∃ t, exec .handoverCommit s = .next t := by
  show ∃ t, execHandoverCommit s = .next t
  simp only [execHandoverCommit, hreq]
  exact event_answers (Bool.and_eq_true_iff.2 ⟨hdue, List.all_eq_true.2 fun e he => by simp [hidle e he]⟩) rfl

theorem outsideEventsComplete (s : State) : OutsideEventsComplete s := by
  refine ⟨fun n => ⟨⟨_, rfl⟩, ⟨_, rfl⟩⟩, fun hdue => event_answers hdue rfl,
    fun rail => ⟨fun hdue => event_answers hdue rfl, fun _ => ⟨_, rfl⟩⟩, ⟨_, rfl⟩,
    fun v n hlow hstart => event_answers (by simp [hlow, hstart]) rfl,
    fun reason arg hlow hhigh hup => event_answers (by simp [hlow, hhigh, hup]) rfl,
    fun line hbacked => event_answers (by simp [hbacked, Ecc.atHome]) rfl, fun unit n hdue => event_answers hdue rfl,
    fun port x hx hfence => port_answers hx hfence, fun p => packetEvents_answer s p, fun prios quanta => ⟨_, rfl⟩,
    fun hup => ?frames, fun w slot hreq hdue hidle => handoverCommit_answers hreq hdue hidle⟩
  case frames =>
    obtain ⟨hhello, hkey, hframes⟩ := frames_answer hup
    have hup : s.up = true := decide_eq_true hup
    refine ⟨hhello, hkey, fun f id a b c d e g bs cs v vs => ?_⟩
    obtain ⟨hmessages, hnone⟩ := hframes f id a bs cs
    exact ⟨event_answers hup rfl, hmessages, event_answers hup rfl, event_answers hup rfl, event_answers hup rfl, event_answers hup rfl,
      event_answers hup rfl, event_answers hup rfl, fun _ _ => event_answers hup rfl, event_answers hup rfl, event_answers hup rfl,
      event_answers hup rfl, event_answers hup rfl, event_answers hup rfl, hnone⟩

/-- Settles O53: each form by the conditions that its meaning tests. -/
theorem formsComplete : Obligations.FormsComplete := fun s =>
  ⟨instructionsComplete s, coreEventsComplete s, deviceEventsComplete s, outsideEventsComplete s⟩

end Sys2Proof.Proofs

/-! Core instructions (spec/05): what an instruction that writes registers or predicates leaves in them. -/

namespace Sys2Proof.Proofs

open Sys2Proof.Machine Sys2Proof.Claims

/-! ### Reading what an instruction wrote -/

/-- What one step of a fold establishes and every other step keeps holds after the fold. -/
theorem foldl_establishes {α β : Type} {f : β → α → β} {p : β → Prop} {xs : List α} {a : α} (ha : a ∈ xs) (hset : ∀ v, p (f v a))
    (hkeep : ∀ c ∈ xs, ∀ v, p v → p (f v c)) (v : β) : p (xs.foldl f v) := by
  induction xs generalizing v with
  | nil => cases ha
  | cons c xs ih =>
    rw [List.forall_mem_cons] at hkeep
    by_cases hmem : a ∈ xs
    · exact ih hmem hkeep.2 _
    · obtain rfl : a = c := (List.mem_cons.1 ha).resolve_right hmem
      exact List.foldlRecOn xs f (hset v) fun u hu c hc => hkeep.2 c hc u hu

/-- A write leaves its value in a vector register if no other write of the list puts another value there. -/
theorem vec_foldl_wr {ws : List Wr} {r l : Nat} {y : Word} (hmem : .v r l y ∈ ws) (hlane : ∀ q k z, .v q k z ∈ ws → k < 32)
    (hsame : ∀ z, .v r l z ∈ ws → z = y) (v : Wave) : (ws.foldl Wave.wr v).v.vec r l = y := by
  have hl := hlane _ _ _ hmem
  refine foldl_establishes (p := fun u : Wave => u.v.vec r l = y) hmem
    (fun u => (u.v.vec_write r l r l y hl hl).trans (if_pos ⟨rfl, rfl⟩)) (fun a ha u hu => ?_) v
  cases a with
  | v q k z =>
    refine (u.v.vec_write q k r l z (hlane _ _ _ ha) hl).trans ?_
    split
    · rename_i h
      obtain ⟨rfl, rfl⟩ := h
      exact hsame z ha
    · exact hu
  | s _ _ => exact hu
  | p _ _ _ => exact hu

theorem scal_foldl_wr {ws : List Wr} {r : Nat} {y : Word} (hmem : .s r y ∈ ws) (hsame : ∀ z, .s r z ∈ ws → z = y) (v : Wave) :
    (ws.foldl Wave.wr v).s.scal r = y := by
  refine foldl_establishes (p := fun u : Wave => u.s.scal r = y) hmem
    (fun u => (u.s.scal_write r r y).trans (if_pos rfl)) (fun a ha u hu => ?_) v
  cases a with
  | s q z =>
    refine (u.s.scal_write q r z).trans ?_
    split
    · rename_i h
      subst h
      exact hsame z ha
    · exact hu
  | v _ _ _ => exact hu
  | p _ _ _ => exact hu

theorem getLsbD_setPred_self (ps : BitVec 16) {k : Nat} (b : Bool) (hk : k < 16) : (setPred ps k b).getLsbD k = b := by
  cases b <;> simp [setPred, hk]

theorem pred_foldl_wr {ws : List Wr} {l k : Nat} {y : Bool} (hk : k < 16) (hmem : .p l k y ∈ ws)
    (hsame : ∀ z, .p l k z ∈ ws → z = y) (v : Wave) :
    ∀ t, (ws.foldl Wave.wr v).threads[l]? = some t → t.preds.getLsbD k = y := by
  have hget (u : Wave) (m j : Nat) (z : Bool) : (u.wr (.p m j z)).threads[l]? =
      if l = m then (u.threads[l]?).map (fun t => { t with preds := setPred t.preds j z }) else u.threads[l]? :=
    updAt_get u.threads m l _
  refine foldl_establishes (p := fun u : Wave => ∀ t, u.threads[l]? = some t → t.preds.getLsbD k = y) hmem (fun u t ht => ?_)
    (fun a ha u hu t ht => ?_) v
  · rw [hget, if_pos rfl] at ht
    obtain ⟨t', -, rfl⟩ := Option.map_eq_some_iff.1 ht
    exact getLsbD_setPred_self _ _ hk
  · cases a with
    | p m j z =>
      rw [hget] at ht
      split at ht
      · rename_i hm
        subst hm
        obtain ⟨t', ht', rfl⟩ := Option.map_eq_some_iff.1 ht
        by_cases hj : k = j
        · subst hj
          exact (getLsbD_setPred_self _ _ hk).trans (hsame z ha)
        · exact (getLsbD_setPred_ne t'.preds z hj).trans (hu t' ht')
      · exact hu t ht
    | v _ _ _ => exact hu t ht
    | s _ _ => exact hu t ht

/-- The wave after the register writes of its instruction. -/
theorem wave_ctx_commit {s : State} {h : Head} {x : Ctx} (hx : s.ctx h = some x) (ws : List Wr) :
    (x.commit ws s).wave x.b x.w = some (markSfu (ws.flatMap Wr.keys) (ws.foldl Wave.wr x.wv)) := by
  obtain ⟨p, hb, hw⟩ := Option.bind_eq_some_iff.1 (wave_of_ctx hx)
  rw [Ctx.commit, State.wave, block_commit, hb]
  exact (writtenBlock_wave ..).trans ((if_pos rfl).trans (congrArg (Option.map _) hw))

theorem vreg_commit {s : State} {h : Head} {x : Ctx} (hx : s.ctx h = some x) {ws : List Wr} {r l : Nat} {y : Word}
    (hmem : .v r l y ∈ ws) (hlane : ∀ q k z, .v q k z ∈ ws → k < 32) (hsame : ∀ z, .v r l z ∈ ws → z = y) :
    vreg (x.commit ws s) x.b x.w r l = some y :=
  (congrArg (Option.map _) (wave_ctx_commit hx ws)).trans (congrArg some (vec_foldl_wr hmem hlane hsame x.wv))

theorem sreg_commit {s : State} {h : Head} {x : Ctx} (hx : s.ctx h = some x) {ws : List Wr} {r : Nat} {y : Word}
    (hmem : .s r y ∈ ws) (hsame : ∀ z, .s r z ∈ ws → z = y) : sreg (x.commit ws s) x.b x.w r = some y :=
  (congrArg (Option.map _) (wave_ctx_commit hx ws)).trans (congrArg some (scal_foldl_wr hmem hsame x.wv))

/-- Register writes keep the threads of the wave in their lanes. -/
theorem isSome_thread_foldl_wr (ws : List Wr) (v : Wave) (l : Nat) :
    ((ws.foldl Wave.wr v).threads[l]?).isSome = (v.threads[l]?).isSome := by
  induction ws generalizing v with
  | nil => rfl
  | cons a ws ih =>
    refine (ih _).trans ?_
    cases a with
    | p m j z =>
      refine (congrArg Option.isSome (updAt_get v.threads m l _)).trans ?_
      split
      · exact Option.isSome_map
      · rfl
    | v _ _ _ => rfl
    | s _ _ => rfl

theorem pbit_commit {s : State} {h : Head} {x : Ctx} (hx : s.ctx h = some x) {ws : List Wr} {l k : Nat} {y : Bool} (hk : k < 16)
    (hmem : .p l k y ∈ ws) (hsame : ∀ z, .p l k z ∈ ws → z = y) (hsome : (pbit s x.b x.w l k).isSome) :
    pbit (x.commit ws s) x.b x.w l k = some y := by
  have hthread : (x.wv.threads[l]?).isSome := by simpa [pbit, wave_of_ctx hx] using hsome
  obtain ⟨t, ht⟩ := Option.isSome_iff_exists.1 ((isSome_thread_foldl_wr ws x.wv l).trans hthread)
  have hmark : (markSfu (ws.flatMap Wr.keys) (ws.foldl Wave.wr x.wv)).threads[l]? = some t := ht
  rw [pbit, wave_ctx_commit hx, Option.bind_some, hmark]
  exact congrArg some (pred_foldl_wr hk hmem hsame x.wv t ht)

/-! ### The result of an instruction -/

theorem regFrame_refl (s : State) (b w : Nat) (V : Nat → Nat → Prop) (S : Nat → Prop) (P : Nat → Nat → Prop) :
    RegFrame s s b w V S P := by
  refine ⟨rfl, rfl, fun _ _ => rfl, fun p q hp hq => ?_⟩
  cases hp.symm.trans hq
  refine ⟨rfl, rfl, rfl, rfl, fun _ _ => rfl, fun u v hu hv => ?_⟩
  cases hu.symm.trans hv
  exact waveKeeps_refl u

/-- An instruction that is issued and names declared registers answers its own effect. -/
theorem exec_of_issues {s : State} {i : Instr} {h : Head} {us : List RegUse} {x : Ctx} (hx : Issues s h us x) {name : String}
    {body : Ctx → State → State} (he : exec i s = issueOp name h false us body s) : exec i s = .next (body x s) :=
  he.trans (issueOp_next name h false us body s x hx.1 (by simp) hx.2)

section

variable {s : State} {i : Instr} {name : String} {h : Head} {us : List RegUse} {body : Ctx → State → State} {wide : Bool} {d : BitVec 8}

theorem vecDone_of_body {val : Ctx → Nat → DWord} (he : exec i s = issueOp name h false us body s)
    (hbody : ∀ x, body x s = x.vecResult wide d.toNat (val x) s) : VecDone s i h us wide d val := fun x hx =>
  ⟨_, (exec_of_issues hx he).trans (congrArg _ (hbody x)), vecResult_done hx.1 wide d.toNat (val x)⟩

/-- An instruction whose effect is a vector result has the result that its lanes' values give. -/
theorem vecDone_of_vecResult {res val : Ctx → Nat → DWord}
    (he : exec i s = issueOp name h false us (fun x => x.vecResult wide d.toNat (res x)) s) (hval : ∀ x l, res x l = val x l) :
    VecDone s i h us wide d val :=
  vecDone_of_body he fun x => congrArg (x.vecResult wide d.toNat · s) (funext (hval x))

/-- The result at the width that the type of the instruction has. -/
theorem vecDone_at_width {wide' : Bool} {val : Ctx → Nat → DWord} (hw : wide = wide') (hdone : VecDone s i h us wide d val) :
    VecDone s i h us wide' d val := hw ▸ hdone

theorem mem_wrS {wide : Bool} {d : Nat} {y : DWord} {a : Wr} (h : a ∈ wrS wide d y) :
    a = .s d (loOf y) ∨ (wide = true ∧ a = .s (d + 1) (hiOf y)) := by
  cases wide
  · exact .inl (List.mem_singleton.1 h)
  · exact (List.mem_cons.1 h).imp_right fun h => ⟨rfl, List.mem_singleton.1 h⟩

theorem scalResult_done {x : Ctx} (hx : s.ctx h = some x) (wide : Bool) (d : Nat) (y : DWord) :
    sreg (x.scalResult wide d y s) x.b x.w d = some (loOf y) ∧
      (wide = true → sreg (x.scalResult wide d y s) x.b x.w (d + 1) = some (hiOf y)) := by
  refine ⟨sreg_commit hx ?lo fun z hz => ?loOnly, fun hw => sreg_commit hx ?hi fun z hz => ?hiOnly⟩
  case lo => cases wide <;> exact List.mem_cons_self
  case hi => subst hw; exact List.mem_cons_of_mem _ List.mem_cons_self
  case loOnly => simpa using mem_wrS hz
  case hiOnly => exact (by simpa using mem_wrS hz : wide = true ∧ z = hiOf y).2

theorem scalDone_of_body {val : Ctx → DWord} (he : exec i s = issueOp name h false us (waveOp body) s)
    (hbody : ∀ x, body x s = x.scalResult wide d.toNat (val x) s) : ScalDone s i h us wide d val := by
  intro x hx
  have hexec := exec_of_issues hx he
  by_cases hact : x.act = 0
  · exact ⟨s, by simpa [waveOp, Ctx.any, hact] using hexec, fun hne => absurd hact hne, regFrame_refl ..⟩
  · refine ⟨x.scalResult wide d.toNat (val x) s, ?_, fun _ => scalResult_done hx.1 wide d.toNat (val x),
      regFrame_commit s x.b x.w fun a ha => ?_⟩
    · rw [hexec, waveOp, if_pos (any_of_act hact), hbody]
    · obtain rfl | ⟨hw, rfl⟩ := mem_wrS ha
      · exact ⟨hact, .inl rfl⟩
      · exact ⟨hact, .inr ⟨hw, rfl⟩⟩

/-- An instruction whose effect is a scalar result, once per issue, has the result that its value gives. -/
theorem scalDone_of_scalResult {res val : Ctx → DWord}
    (he : exec i s = issueOp name h false us (waveOp fun x => x.scalResult wide d.toNat (res x)) s) (hval : ∀ x, res x = val x) :
    ScalDone s i h us wide d val :=
  scalDone_of_body he fun x => congrArg (x.scalResult wide d.toNat · s) (hval x)

/-- An instruction whose effect is a predicate result has the result that its lanes' values give. -/
theorem predDone_of_predResult {res val : Ctx → Nat → Bool}
    (he : exec i s = issueOp name h false us (fun x => x.predResult d.toNat (res x)) s) (hval : ∀ x l, res x l = val x l) :
    PredDone s i h us d val := by
  intro x hd hx
  refine ⟨_, exec_of_issues hx he, fun l hl hsome => ?value, regFrame_commit s x.b x.w fun a ha => ?frame⟩
  case value =>
    rw [← hval]
    refine pbit_commit hx.1 hd (List.mem_map_of_mem ((mem_lanesIn _ _).2 hl)) (fun z hz => ?_) hsome
    obtain ⟨m, -, hm⟩ := List.mem_map.1 hz
    cases hm
    rfl
  case frame =>
    obtain ⟨l, hl, rfl⟩ := List.mem_map.1 ha
    exact ⟨(mem_lanesIn _ _).1 hl, rfl⟩

end

end Sys2Proof.Proofs

/-! Integer and address instructions (R124 to R128): their results as exact integers and as machine words. -/

namespace Sys2Proof.Proofs

open Sys2Proof.Machine Sys2Proof.Claims

/-! ### Typed values and machine words (R108, R109) -/

theorem readBits_eq (signed : Bool) (w n : Nat) :
    readBits signed w n = if signed then (BitVec.ofNat w n).toInt else ((BitVec.ofNat w n).toNat : Int) := by
  cases signed
  · rfl
  · obtain _ | w := w
    · simp [readBits, Nat.mod_one, BitVec.toInt_zero_length]
    · simp only [readBits, Bool.true_and, decide_eq_true_eq, if_true, BitVec.toInt_eq_toNat_cond, BitVec.toNat_ofNat,
        Nat.add_sub_cancel, Nat.pow_succ]
      split <;> split <;> omega

/-- x mod 2^w as the `w`-bit word of x. -/
theorem modBits_eq (w : Nat) (x : Int) : modBits w x = (BitVec.ofInt w x).toNat := (BitVec.toNat_ofInt x).symm

theorem ofNat_modBits_64 (x : Int) : BitVec.ofNat 64 (modBits 64 x) = wrap64 x := by
  rw [modBits_eq, BitVec.ofNat_toNat, BitVec.setWidth_eq, wrap64]

theorem ofNat_modBits_32 (x : Int) : BitVec.ofNat 64 (modBits 32 x) = (BitVec.ofInt 32 x).setWidth 64 := by
  rw [modBits_eq, BitVec.ofNat_toNat]

/-- The 32-bit types (Table 3-7). -/
theorem ty_of_le_one {ty : BitVec 3} (h : ty.toNat ≤ 1) :
    wideTy ty = false ∧ tyBits ty = 32 ∧ tySigned ty = decide (ty.toNat = 0) := by
  obtain h | h : ty.toNat = 0 ∨ ty.toNat = 1 := by omega
  all_goals simp [wideTy, tyBits, tySigned, h]

theorem readBits_32 {ty : BitVec 3} (h : ty.toNat ≤ 1) (n : DWord) : readBits (tySigned ty) 32 n.toNat = int32 ty n := by
  rw [readBits_eq, BitVec.ofNat_toNat, (ty_of_le_one h).2.2, int32]
  simp

theorem typed_eq_int32 {ty : BitVec 3} (h : ty.toNat ≤ 1) (n : DWord) : typed ty n = int32 ty n := by
  rw [typed, (ty_of_le_one h).2.1, readBits_32 h]

theorem readBits_64 {ty : BitVec 3} (h : ty.toNat ≤ 1) (n : DWord) :
    readBits (tySigned ty) 64 n.toNat = if ty.toNat = 0 then n.toInt else (n.toNat : Int) := by
  rw [readBits_eq, BitVec.ofNat_toNat, BitVec.setWidth_eq, (ty_of_le_one h).2.2]
  simp

/-- A result of 32 or 64 bits is stored as it is (R109). -/
theorem storeBits_32 (signed : Bool) (n : Nat) : storeBits signed 32 n = (BitVec.ofNat 32 n).setWidth 64 := by
  have hn : (BitVec.ofNat 32 n).setWidth 64 = BitVec.ofNat 64 (n % 2 ^ 32) := by
    rw [← BitVec.ofNat_toNat, BitVec.toNat_ofNat]
  rw [hn, storeBits, if_neg (by decide), Nat.add_sub_cancel]
  exact ite_self _

theorem storeBits_64 (signed : Bool) (n : Nat) : storeBits signed 64 n = BitVec.ofNat 64 n := rfl

/-- The types of 32 and of 64 bits (Table 3-7). -/
theorem tyBits_of_le_three {ty : BitVec 3} (h : ty.toNat ≤ 3) : tyBits ty = if wideTy ty then 64 else 32 := by
  obtain h | h | h | h : ty.toNat = 0 ∨ ty.toNat = 1 ∨ ty.toNat = 2 ∨ ty.toNat = 3 := by omega
  all_goals simp [wideTy, tyBits, h]

theorem loOf_setWidth (y : Word) : loOf (y.setWidth 64) = y := by
  rw [loOf, BitVec.setWidth_setWidth_of_le _ (by decide), BitVec.setWidth_eq]

/-- A word read at its type and stored again is the word. -/
theorem ofInt_readBits (signed : Bool) (w n : Nat) : BitVec.ofInt w (readBits signed w n) = BitVec.ofNat w n := by
  rw [readBits_eq]
  cases signed
  · exact (BitVec.ofInt_natCast w _).trans (by rw [BitVec.ofNat_toNat, BitVec.setWidth_eq])
  · exact BitVec.ofInt_toInt

theorem satInt_eq (signed : Bool) (w : Nat) (x : Int) : satInt signed w x =
    if signed then max (-2 ^ (w - 1)) (min x (2 ^ (w - 1) - 1)) else max 0 (min x (2 ^ w - 1)) := by
  simp only [satInt, Nat.cast_pow, Nat.cast_ofNat]

/-! ### Add, subtract, multiply, minimum, maximum, absolute value (R124) -/

theorem integerArithmeticResults : IntegerArithmeticResults := by
  intro s h f
  refine ⟨?iadd, ?isub, ?imul, ?imad, ?imin, ?imax, ?iabs⟩
  case iabs =>
    refine vecDone_of_vecResult rfl fun x l => congrArg (fitInt f.sat f.ty) ?_
    show (if intA f x l < 0 then -intA f x l else intA f x l) = _
    split <;> omega
  all_goals exact vecDone_of_vecResult rfl fun _ _ => rfl

/-! ### Widening and address forms (R125) -/

theorem mulHigh_eq {ty : BitVec 3} (h : ty.toNat ≤ 1) (a b : DWord) :
    mulHigh ty a b = wrap64 (int32 ty a * int32 ty b / 2 ^ 32 % 2 ^ 32) := by
  rw [mulHigh, typed_eq_int32 h, typed_eq_int32 h, wrap64]
  generalize int32 ty a * int32 ty b = p
  have hupper : ((modBits 64 p / 2 ^ 32 : Nat) : Int) = p / 2 ^ 32 % 2 ^ 32 := by
    simp only [modBits]
    omega
  rw [← hupper, BitVec.ofInt_natCast]

theorem mulAddWide_eq {ty : BitVec 3} (h : ty.toNat ≤ 1) (sat : Bool) (a b c : DWord) :
    mulAddWide ty sat a b c =
      let v := int32 ty a * int32 ty b + (if ty.toNat = 0 then c.toInt else (c.toNat : Int))
      wrap64 (if sat then (if ty.toNat = 0 then max (-2 ^ 63) (min v (2 ^ 63 - 1)) else max 0 (min v (2 ^ 64 - 1))) else v) := by
  simp only [mulAddWide, typed_eq_int32 h, readBits_64 h, ofNat_modBits_64, satInt_eq]
  simp only [(ty_of_le_one h).2.2, decide_eq_true_eq]

theorem addScaled_eq {ty : BitVec 3} (h : ty.toNat ≤ 1) (base b : DWord) (n : Nat) :
    addScaled ty base b n = base + wrap64 (int32 ty b * 2 ^ n) := by
  rw [addScaled, extB, readBits_32 h, ofNat_modBits_64, wrap64, BitVec.ofInt_add, BitVec.ofInt_natCast, BitVec.ofNat_toNat,
    BitVec.setWidth_eq, Nat.cast_pow]
  rfl

theorem wideningResults : WideningResults := by
  intro s h f hty
  have hnarrow : wideTy f.ty = false := (ty_of_le_one hty).1
  refine ⟨?imulh, ?imadw, ?iadd64, ?lea⟩
  case imulh => exact vecDone_at_width hnarrow (vecDone_of_vecResult rfl fun x l => mulHigh_eq hty _ _)
  case imadw =>
    refine vecDone_of_vecResult rfl fun x l => ?_
    have ha : bitA f x l = x.vecN false f.a.toNat l := congrArg (x.vecN · _ l) hnarrow
    simp only [ha]
    exact mulAddWide_eq hty f.sat _ _ _
  case iadd64 => exact vecDone_of_vecResult rfl fun x l => (addScaled_eq hty _ _ 0).trans (by rw [pow_zero, mul_one]; rfl)
  case lea => exact vecDone_of_vecResult rfl fun x l => addScaled_eq hty _ _ _

/-! ### Carry and borrow (R126) -/

section

variable {s : State} {i : Instr} {name : String} {h : Head} {f : A3} {x : Ctx}

/-- The writes of a sum or difference with carry: the value to D and the carry to p[C], lane by lane. -/
def carryWrites (f : A3) (x : Ctx) (r : Nat → Nat × Bool) : List Wr :=
  x.lanes.flatMap (fun l => [.v f.d.toNat l (BitVec.ofNat 32 (r l).1), .p l f.c.toNat (r l).2])

theorem mem_carryWrites {r : Nat → Nat × Bool} {a : Wr} : a ∈ carryWrites f x r ↔
    ∃ l, hasLane x.act l = true ∧ (a = .v f.d.toNat l (BitVec.ofNat 32 (r l).1) ∨ a = .p l f.c.toNat (r l).2) := by
  simp [carryWrites, Ctx.lanes, mem_lanesIn]

theorem carryLane_done {op : Nat → Nat → Bool → Nat × Bool} (hc : f.c.toNat < 16)
    (hx : Issues s h (intUses { rowInt [1] false with c := .p } f) x) (he : exec i s = carryLane name h f op s) :
    ∃ t, exec i s = .next t ∧
      (∀ l, hasLane x.act l = true →
        let r := op (x.vec f.a.toNat l).toNat ((bitB1 f x l).setWidth 32).toNat (x.pred f.c.toNat l)
        vreg t x.b x.w f.d.toNat l = some (BitVec.ofNat 32 r.1) ∧
        ((pbit s x.b x.w l f.c.toNat).isSome → pbit t x.b x.w l f.c.toNat = some r.2)) ∧
      RegFrame s t x.b x.w (lanesOfV x false f.d.toNat) noS (fun l k => hasLane x.act l = true ∧ k = f.c.toNat) := by
  let r : Nat → Nat × Bool := fun l => op (x.vec f.a.toNat l).toNat ((bitB1 f x l).setWidth 32).toNat (x.pred f.c.toNat l)
  refine ⟨x.commit (carryWrites f x r) s, exec_of_issues hx he, fun l hl => ⟨?value, fun hsome => ?carry⟩,
    regFrame_commit s x.b x.w fun a ha => ?frame⟩
  case value =>
    refine vreg_commit hx.1 (mem_carryWrites.2 ⟨l, hl, .inl rfl⟩) (fun q k z hz => ?_) fun z hz => ?_
    all_goals obtain ⟨m, hm, hz | hz⟩ := mem_carryWrites.1 hz
    all_goals cases hz
    · exact BitVec.lt_of_getLsbD hm
    · rfl
  case carry =>
    refine pbit_commit hx.1 hc (mem_carryWrites.2 ⟨l, hl, .inr rfl⟩) (fun z hz => ?_) hsome
    obtain ⟨m, hm, hz | hz⟩ := mem_carryWrites.1 hz
    all_goals cases hz
    rfl
  case frame =>
    obtain ⟨l, hl, rfl | rfl⟩ := mem_carryWrites.1 ha
    · exact ⟨BitVec.lt_of_getLsbD hl, hl, .inl rfl⟩
    · exact ⟨hl, rfl⟩

end

theorem b2n_eq_toNat (c : Bool) : b2n c = c.toNat := by cases c <;> rfl

theorem addCarry_eq (a b : Nat) (c : Bool) :
    BitVec.ofNat 32 (addCarry a b c).1 = BitVec.ofNat 32 (a + b + c.toNat) ∧
      (addCarry a b c).2 = decide (2 ^ 32 ≤ a + b + c.toNat) := by
  rw [addCarry, b2n_eq_toNat]
  exact ⟨BitVec.eq_of_toNat_eq (by simp), rfl⟩

theorem subBorrow_eq (a b : Nat) (c : Bool) :
    BitVec.ofNat 32 (subBorrow a b c).1 = BitVec.ofNat 32 a - BitVec.ofNat 32 (b + c.toNat) ∧
      (subBorrow a b c).2 = decide (a < b + c.toNat) := by
  have hdiff : (a : Int) - b - b2n c = (a : Int) - ((b + c.toNat : Nat) : Int) := by
    rw [b2n_eq_toNat]
    omega
  simp only [subBorrow, hdiff]
  refine ⟨?_, decide_eq_decide.2 (by omega)⟩
  rw [modBits_eq, BitVec.ofNat_toNat, BitVec.setWidth_eq, sub_eq_add_neg, BitVec.ofInt_add, BitVec.ofInt_natCast,
    ← BitVec.neg_ofNat_eq_ofInt_neg, BitVec.add_neg_eq_sub]

theorem carryResults : CarryResults := by
  intro s h f x hc hx
  refine ⟨?iaddc, ?isubb⟩
  case iaddc =>
    obtain ⟨t, ht, hvals, hframe⟩ := carryLane_done (op := addCarry) (i := .iaddc h f) hc hx rfl
    refine ⟨t, ht, fun l hl => ?_, hframe⟩
    have hl := hvals l hl
    simpa only [addCarry_eq] using hl
  case isubb =>
    obtain ⟨t, ht, hvals, hframe⟩ := carryLane_done (op := subBorrow) (i := .isubb h f) hc hx rfl
    refine ⟨t, ht, fun l hl => ?_, hframe⟩
    have hl := hvals l hl
    simpa only [subBorrow_eq] using hl

/-! ### Division, sums of differences, byte dot products (R127, R128) -/

theorem divide_eq {ty : BitVec 3} (h : ty.toNat ≤ 3) (sat : Bool) (a b : DWord) :
    divide sat ty a b = if typed ty b = 0 then (if wideTy ty then BitVec.allOnes 64 else 0xFFFFFFFF#64)
      else fitInt sat ty ((typed ty a).tdiv (typed ty b)) := by
  rw [divide, tyBits_of_le_three h]
  cases wideTy ty
  · simp only [Bool.false_eq_true, if_false, storeBits_32]; rfl
  · simp only [if_true, storeBits_64]; rfl

/-- The fit of a dividend of 32 or 64 bits is the dividend (R109). -/
theorem fitInt_typed {ty : BitVec 3} (h : ty.toNat ≤ 3) (x : Ctx) (r l : Nat) :
    fitInt false ty (typed ty (x.vecN (wideTy ty) r l)) = x.vecN (wideTy ty) r l := by
  simp only [fitInt, typed, Bool.false_eq_true, if_false, modBits_eq, ofInt_readBits, tyBits_of_le_three h]
  cases wideTy ty
  · simp only [Bool.false_eq_true, if_false, storeBits_32, Ctx.vecN, BitVec.ofNat_toNat]
    exact congrArg (BitVec.setWidth 64) (loOf_setWidth _)
  · simp only [if_true, storeBits_64, BitVec.ofNat_toNat]
    exact (BitVec.setWidth_eq _).trans (BitVec.setWidth_eq _)

/-- The sum of differences on the operands of a type of at most 32 bits. -/
theorem sumAbsDiff_eq {f : A3} (h : wideTy f.ty = false) (x : Ctx) (l : Nat) :
    sumAbsDiff f.ty f.sat (x.vecN (wideTy f.ty) f.a.toNat l) (x.srcB false f.b 0 l) (x.vecN (wideTy f.ty) f.c.toNat l) =
      let v := (x.vec f.c.toNat l).toNat + (intA f x l - intB f 0 x l).natAbs
      BitVec.ofNat 64 (if f.sat then min v (2 ^ 32 - 1) else v % 2 ^ 32) := by
  simp only [sumAbsDiff, intA, intB, h, Ctx.vecN, Bool.false_eq_true, if_false, loOf_setWidth]

/-- The types of bytes (Table 3-7). -/
theorem ty_of_six_le {ty : BitVec 3} (h : 6 ≤ ty.toNat) : wideTy ty = false ∧ tySigned ty = decide (ty.toNat = 6) := by
  have := ty.isLt
  obtain h | h : ty.toNat = 6 ∨ ty.toNat = 7 := by omega
  all_goals simp [wideTy, tySigned, h]

theorem readBits_byte {ty : BitVec 3} (h : 6 ≤ ty.toNat) (n : DWord) (k : Nat) :
    readBits (tySigned ty) 8 (n.toNat / 256 ^ k) =
      if ty.toNat = 6 then (n.extractLsb' (8 * k) 8).toInt else ((n.extractLsb' (8 * k) 8).toNat : Int) := by
  have hbyte : BitVec.ofNat 8 (n.toNat / 256 ^ k) = n.extractLsb' (8 * k) 8 :=
    BitVec.eq_of_toNat_eq (by rw [BitVec.toNat_ofNat, BitVec.extractLsb'_toNat, Nat.shiftRight_eq_div_pow, Nat.pow_mul])
  rw [readBits_eq, hbyte, (ty_of_six_le h).2]
  simp

theorem divisionAndSumResults : DivisionAndSumResults := by
  intro s h f
  refine ⟨fun hty => ⟨?idiv, ?irem⟩, fun hty => ?isad, fun hty => ?idot4⟩
  case idiv => exact vecDone_of_vecResult rfl fun x l => divide_eq hty _ _ _
  case irem =>
    exact vecDone_of_vecResult rfl fun x l => if_congr Iff.rfl (fitInt_typed hty x _ l) rfl
  case isad => exact vecDone_at_width hty (vecDone_of_vecResult rfl fun x l => sumAbsDiff_eq hty x l)
  case idot4 =>
    obtain ⟨hnarrow, hsigned⟩ := ty_of_six_le hty
    refine vecDone_at_width hnarrow (vecDone_of_vecResult rfl fun x l => ?_)
    have hc : readBits (tySigned f.ty) 32 (x.vecN (wideTy f.ty) f.c.toNat l).toNat =
        if f.ty.toNat = 6 then (x.vec f.c.toNat l).toInt else ((x.vec f.c.toNat l).toNat : Int) := by
      have hword : BitVec.ofNat 32 (x.vecN (wideTy f.ty) f.c.toNat l).toNat = x.vec f.c.toNat l := by
        rw [hnarrow, BitVec.ofNat_toNat]
        exact loOf_setWidth _
      rw [readBits_eq, hword, hsigned]
      simp only [decide_eq_true_eq]
    simp only [dot4, hc, readBits_byte hty, ofNat_modBits_32, satInt_eq]
    simp only [hsigned, decide_eq_true_eq]
    rfl

/-- Settles O1: each instruction's value by the lemma about its own operation, in every active lane by the writes of its lanes. -/
theorem integerResults : Obligations.IntegerResults :=
  ⟨integerArithmeticResults, wideningResults, carryResults, divisionAndSumResults⟩

end Sys2Proof.Proofs

/-! Logic, shift, bit-field and counting instructions (R129 to R132): their results as operations on words. -/

namespace Sys2Proof.Proofs

open Sys2Proof.Machine Sys2Proof.Claims

/-! ### Truth tables (R129) -/

theorem getLsbD_tableOf (tab : BitVec 8) (a b c : DWord) {i : Nat} (hi : i < 64) : (tableOf tab a b c).getLsbD i =
    tab.getLsbD ((a.getLsbD i).toNat + 2 * (b.getLsbD i).toNat + 4 * (c.getLsbD i).toNat) := by
  have hminterm (k : Nat) (y : DWord) : (if tab.getLsbD k then y else 0).getLsbD i = (tab.getLsbD k && y.getLsbD i) := by
    split <;> simp_all
  have hliteral (p : Prop) [Decidable p] (y : DWord) : (if p then y else ~~~y).getLsbD i = (decide p == y.getLsbD i) := by
    split <;> simp_all
  have hrange : List.range 8 = [0, 1, 2, 3, 4, 5, 6, 7] := rfl
  simp only [tableOf, hrange, List.foldl_cons, List.foldl_nil, BitVec.getLsbD_or, hminterm, BitVec.getLsbD_and, hliteral]
  generalize a.getLsbD i = p, b.getLsbD i = q, c.getLsbD i = r
  cases p <;> cases q <;> cases r <;> simp

theorem tableOf_eq (tab : BitVec 8) (a b c : DWord) : tableOf tab a b c = BitVec.ofFnLE (n := 64) (fun i =>
    tab.getLsbD ((a.getLsbD i).toNat + 2 * (b.getLsbD i).toNat + 4 * (c.getLsbD i).toNat)) := by
  refine BitVec.eq_of_getLsbD_eq fun i hi => ?_
  rw [getLsbD_tableOf tab a b c hi, BitVec.getLsbD_ofFnLE, dif_pos hi]

/-! ### Shifts and rotation (R130) -/

section

variable {w : Nat} (a : BitVec w) (n : Nat)

/-- The shifts of a register of at most 64 bits, by any amount. -/
theorem shiftLeft_eq (hw : w ≤ 64) : shiftLeft w (a.setWidth 64) n = (a <<< n).setWidth 64 := by
  have ha : (a.setWidth 64).toNat = a.toNat := BitVec.toNat_setWidth_of_le hw
  rw [shiftLeft, ← BitVec.ofNat_toNat 64 (a <<< n), BitVec.toNat_shiftLeft, Nat.shiftLeft_eq, ha]
  split
  · rename_i h
    rw [Nat.mod_eq_zero_of_dvd ((pow_dvd_pow 2 h).mul_left _)]
    rfl
  · rfl

theorem shiftRight_eq (hw : w ≤ 64) : shiftRight w (a.setWidth 64) n = (a >>> n).setWidth 64 := by
  have ha : (a.setWidth 64).toNat = a.toNat := BitVec.toNat_setWidth_of_le hw
  rw [shiftRight, ← BitVec.ofNat_toNat 64 (a >>> n), BitVec.toNat_ushiftRight, Nat.shiftRight_eq_div_pow, ha,
    Nat.mod_eq_of_lt a.isLt]
  split
  · rename_i h
    rw [Nat.div_eq_of_lt (lt_of_lt_of_le a.isLt (Nat.pow_le_pow_right (by decide) h))]
    rfl
  · rfl

end

/-- Shifts right of a number of `w` bits by `w` or more leave its sign. -/
theorem ediv_two_pow_of_le {y : Int} {w n : Nat} (hlo : -2 ^ w ≤ y) (hhi : y < 2 ^ w) (h : w ≤ n) :
    y / ((2 ^ n : Nat) : Int) = if y < 0 then -1 else 0 := by
  have hpow : (2 : Int) ^ w ≤ ((2 ^ n : Nat) : Int) := by exact_mod_cast Nat.pow_le_pow_right (by decide) h
  split
  · exact Int.ediv_eq_neg_one_of_neg_of_le ‹_› (by omega)
  · exact Int.ediv_eq_zero_of_lt (by omega) (by omega)

/-- An arithmetic shift of a number that fits `w` bits, as the model writes it (R130, R140). -/
theorem modBits_sshiftRight {y : Int} {w : Nat} (hlo : -2 ^ w ≤ y) (hhi : y < 2 ^ w) (n : Nat) :
    modBits w (if w ≤ n then (if y < 0 then -1 else 0) else y / ((2 ^ n : Nat) : Int)) = (BitVec.ofInt w (y >>> n)).toNat := by
  rw [modBits_eq, Int.shiftRight_eq_div_pow]
  split
  · rw [ediv_two_pow_of_le hlo hhi ‹_›]
  · rfl

theorem shiftArith_eq {w : Nat} (hw : w ≤ 64) (a : BitVec w) (n : Nat) :
    shiftArith w (a.setWidth 64) n = (a.sshiftRight n).setWidth 64 := by
  have ha : readBits true w (a.setWidth 64).toNat = a.toInt := by
    rw [readBits_eq, BitVec.toNat_setWidth_of_le hw, BitVec.ofNat_toNat, BitVec.setWidth_eq]
    rfl
  have hpow : (0 : Int) < 2 ^ w := by positivity
  have hlo : -2 ^ w ≤ 2 * a.toInt := BitVec.le_two_mul_toInt
  have hhi : 2 * a.toInt < 2 ^ w := BitVec.two_mul_toInt_lt
  rw [shiftArith, ha, modBits_sshiftRight (by omega) (by omega), BitVec.ofNat_toNat, BitVec.sshiftRight]

theorem rotateLeft_eq {w : Nat} (hw : w ≤ 64) (a : BitVec w) (n : Nat) :
    rotateLeft w (a.setWidth 64) n = (a.rotateLeft (n % w)).setWidth 64 := by
  rw [rotateLeft, BitVec.toNat_setWidth_of_le hw, Nat.mod_eq_of_lt a.isLt, ← BitVec.ofNat_toNat 64 (a.rotateLeft _),
    BitVec.toNat_rotateLeft, Nat.mod_mod, Nat.shiftLeft_eq, Nat.shiftRight_eq_div_pow]

/-! ### Bit fields and bit counts (R131, R132) -/

theorem fieldOf_le (b : DWord) : (fieldOf b).1 + (fieldOf b).2 ≤ 32 := by
  simp only [fieldOf]
  omega

theorem testBit_top {m k : Nat} (h : m < 2 ^ (k + 1)) : m.testBit k = decide (2 ^ k ≤ m) := by
  by_cases hk : 2 ^ k ≤ m
  · rw [Nat.testBit_of_two_pow_le_and_two_pow_add_one_gt hk h, decide_eq_true hk]
  · rw [Nat.testBit_lt_two_pow (by omega), decide_eq_false hk]

/-- The field of A, extended at a signed type (R131). -/
theorem extractField_eq (signed : Bool) (a : Word) (b : DWord) : extractField signed (a.setWidth 64) b =
    let pos := (fieldOf b).1
    let len := (fieldOf b).2
    let v := a.toNat / 2 ^ pos % 2 ^ len
    if len = 0 then 0
    else if signed && v.testBit (len - 1) then BitVec.ofNat 64 (v + 2 ^ 32 - 2 ^ len) else BitVec.ofNat 64 v := by
  have hle := fieldOf_le b
  simp only [extractField, BitVec.toNat_setWidth_of_le (show 32 ≤ 64 by decide) (b := a)]
  generalize fieldOf b = e at hle ⊢
  obtain ⟨pos, len⟩ := e
  simp only at hle ⊢
  obtain _ | k := len
  · rfl
  · have hm : a.toNat / 2 ^ pos % 2 ^ (k + 1) < 2 ^ (k + 1) := Nat.mod_lt _ (Nat.two_pow_pos _)
    have hpow : 2 ^ (k + 1) ≤ 2 ^ 32 := Nat.pow_le_pow_right (by decide) (by omega)
    simp only [readBits, modBits, Nat.add_sub_cancel, testBit_top hm]
    generalize a.toNat / 2 ^ pos % 2 ^ (k + 1) = m at hm ⊢
    split
    · rfl
    · split
      · rw [show ((m : Int) - (2 ^ (k + 1) : Nat)) % ((2 ^ 32 : Nat) : Int) = ((m + 2 ^ 32 - 2 ^ (k + 1) : Nat) : Int) by omega,
          Int.toNat_natCast]
      · rw [show (m : Int) % ((2 ^ 32 : Nat) : Int) = (m : Int) by omega, Int.toNat_natCast]

theorem insertField_eq (a c : Word) (b : DWord) : insertField (a.setWidth 64) b (c.setWidth 64) =
    let pos := (fieldOf b).1
    let len := (fieldOf b).2
    let mask : Word := BitVec.ofNat 32 ((2 ^ len - 1) * 2 ^ pos)
    ((c &&& ~~~mask) ||| (BitVec.ofNat 32 (a.toNat * 2 ^ pos) &&& mask)).setWidth 64 := by
  have hle := fieldOf_le b
  simp only [insertField, BitVec.toNat_setWidth_of_le (show 32 ≤ 64 by decide) (b := a)]
  generalize fieldOf b = e at hle ⊢
  obtain ⟨pos, len⟩ := e
  simp only at hle ⊢
  have hmask : (2 ^ len - 1) * 2 ^ pos < 2 ^ 32 := by
    calc (2 ^ len - 1) * 2 ^ pos < 2 ^ len * 2 ^ pos := by
          exact Nat.mul_lt_mul_of_pos_right (Nat.sub_lt (Nat.two_pow_pos _) (by decide)) (Nat.two_pow_pos _)
      _ ≤ 2 ^ 32 := by rw [← Nat.pow_add]; exact Nat.pow_le_pow_right (by decide) (by omega)
  refine BitVec.eq_of_getLsbD_eq fun i hi => ?_
  simp only [BitVec.getLsbD_or, BitVec.getLsbD_and, BitVec.getLsbD_not, BitVec.getLsbD_setWidth, BitVec.getLsbD_ofNat, hi,
    decide_true, Bool.true_and]
  by_cases hlow : i < 32
  · simp [hlow]
  · have hbit : ((2 ^ len - 1) * 2 ^ pos).testBit i = false :=
      Nat.testBit_lt_two_pow (lt_of_lt_of_le hmask (Nat.pow_le_pow_right (by decide) (by omega)))
    simp [hlow, hbit, BitVec.getLsbD_of_ge c i (by omega)]

theorem countOnes_eq (w : Nat) (a : DWord) : countOnes w a = ((List.range w).filter (fun i => a.getLsbD i)).length := by
  induction w with
  | zero => rfl
  | succ w ih =>
    have hfold : countOnes (w + 1) a = countOnes w a + b2n (a.getLsbD w) := by
      rw [countOnes, List.range_succ, List.foldl_append]
      rfl
    rw [hfold, ih, List.range_succ, List.filter_append, List.length_append]
    cases h : a.getLsbD w <;> simp [b2n, h]

theorem countLeading_eq (a : DWord) (w : Nat) :
    countLeading a w = ((List.range w).takeWhile (fun i => !a.getLsbD (w - 1 - i))).length := by
  induction w with
  | zero => rfl
  | succ w ih =>
    have hshift : ((fun i => !a.getLsbD (w + 1 - 1 - i)) ∘ Nat.succ) = fun i => !a.getLsbD (w - 1 - i) :=
      funext fun i => by simp only [Function.comp]; congr 2; omega
    rw [countLeading, ih, List.range_succ_eq_map, List.takeWhile_cons, List.takeWhile_map, hshift]
    cases h : a.getLsbD w <;> simp [h, Nat.add_comm]

/-- A set of bits as a sum, as the statements write it, and as the model adds it up. -/
theorem sum_bits_eq_foldl (p : Nat → Bool) (n : Nat) : ((List.range n).map (fun l => if p l then 2 ^ l else 0)).sum =
    (List.range n).foldl (fun a l => if p l then a + 2 ^ l else a) 0 := by
  induction n with
  | zero => rfl
  | succ n ih =>
    rw [List.range_succ, List.map_append, List.sum_append, ih, List.foldl_append]
    simp only [List.map_cons, List.map_nil, List.sum_singleton, List.foldl_cons, List.foldl_nil]
    split <;> rfl

theorem testBit_sum_bits (p : Nat → Bool) (n i : Nat) :
    ((List.range n).map (fun l => if p l then 2 ^ l else 0)).sum.testBit i = (decide (i < n) && p i) := by
  rw [sum_bits_eq_foldl]
  exact (foldl_lanes_testBit p n).2 i

/-- The sum over the positions from the top is the sum over the positions from the bottom. -/
theorem sum_map_reverse (g : Nat → Nat) (w : Nat) : ((List.range w).map (fun i => g (w - 1 - i))).sum = ((List.range w).map g).sum := by
  have hrev : (List.range w).map (fun i => w - 1 - i) = (List.range w).reverse := by
    rw [List.range_eq_range', List.reverse_range', Nat.zero_add, List.range_eq_range']
  rw [← Function.comp_def g, ← List.map_map, hrev, List.map_reverse, List.sum_reverse]

theorem reverseBits_eq {w : Nat} (hw : w ≤ 64) (a : BitVec w) : reverseBits w (a.setWidth 64) = a.reverse.setWidth 64 := by
  have hsum : (List.range w).foldl (fun n i => n + if (a.setWidth 64).getLsbD i then 2 ^ (w - 1 - i) else 0) 0 =
      ((List.range w).map (fun j => if a.getMsbD j then 2 ^ j else 0)).sum := by
    rw [← sum_map_reverse, List.sum_eq_foldl, List.foldl_map]
    refine List.foldl_ext _ _ _ fun n i hi => ?_
    have hi := List.mem_range.1 hi
    rw [BitVec.getMsbD_eq_getLsbD, BitVec.getLsbD_setWidth, show w - 1 - (w - 1 - i) = i by omega]
    simp [show i < 64 by omega, show w - 1 - i < w by omega]
  rw [reverseBits, hsum]
  refine BitVec.eq_of_getLsbD_eq fun i hi => ?_
  rw [BitVec.getLsbD_ofNat, testBit_sum_bits, BitVec.getLsbD_setWidth, BitVec.getLsbD_reverse, BitVec.getMsbD]
  simp

/-! ### The instructions -/

/-- The types of words and pairs (Table 3-7). -/
theorem ty_zero {ty : BitVec 3} (h : ty.toNat = 0) : wideTy ty = false ∧ tyBits ty = 32 := by simp [wideTy, tyBits, h]

theorem ty_two {ty : BitVec 3} (h : ty.toNat = 2) : wideTy ty = true ∧ tyBits ty = 64 := by simp [wideTy, tyBits, h]

/-- A shift whose model agrees with the operation `g` on words and on pairs. -/
theorem shiftDone {s : State} {i : Instr} {name : String} {h : Head} {f : A3} {op : Nat → DWord → Nat → DWord}
    {g : (w : Nat) → BitVec w → Nat → BitVec w}
    (he : exec i s = bitLane name h (rowInt [0, 2] false).single f false 0 (fun a b _ => op (tyBits f.ty) a (loOf b).toNat) s)
    (hop : ∀ {w : Nat}, w ≤ 64 → ∀ (a : BitVec w) (n : Nat), op w (a.setWidth 64) n = (g w a n).setWidth 64) :
    (f.ty.toNat = 0 → VecDone s i h (intUses (rowInt [0, 2] false).single f) false f.d
      (fun x l => (g 32 (x.vec f.a.toNat l) (loOf (bitB1 f x l)).toNat).setWidth 64)) ∧
    (f.ty.toNat = 2 → VecDone s i h (intUses (rowInt [0, 2] false).single f) true f.d
      (fun x l => g 64 (x.vecPair f.a.toNat l) (loOf (bitB1 f x l)).toNat)) := by
  refine ⟨fun hty => ?word, fun hty => ?pair⟩
  case word =>
    obtain ⟨hwide, hbits⟩ := ty_zero hty
    refine vecDone_at_width hwide (vecDone_of_vecResult he fun x l => ?_)
    rw [hwide, hbits]
    exact hop (by decide) _ _
  case pair =>
    obtain ⟨hwide, hbits⟩ := ty_two hty
    refine vecDone_at_width hwide (vecDone_of_vecResult he fun x l => ?_)
    have hpair := hop (le_refl 64) (x.vecPair f.a.toNat l) (loOf (bitB1 f x l)).toNat
    rw [hwide, hbits]
    rwa [BitVec.setWidth_eq, BitVec.setWidth_eq] at hpair

theorem logicAndShiftResults : LogicAndShiftResults := by
  intro s h
  have hshl (f : A3) := shiftDone (s := s) (i := .shl h f) (g := fun _ a n => a <<< n) rfl fun hw a n => shiftLeft_eq a n hw
  have hshr (f : A3) := shiftDone (s := s) (i := .shr h f) (g := fun _ a n => a >>> n) rfl fun hw a n => shiftRight_eq a n hw
  have hsar (f : A3) := shiftDone (s := s) (i := .sar h f) (g := fun _ a n => a.sshiftRight n) rfl fun hw a n => shiftArith_eq hw a n
  have hrot (f : A3) := shiftDone (s := s) (i := .rot h f) (g := fun w a n => a.rotateLeft (n % w)) rfl
    fun hw a n => rotateLeft_eq hw a n
  refine ⟨fun f => ⟨?and, ?or, ?xor, ?andn⟩, fun f => ?ltab,
    fun f hty => ⟨(hshl f).1 hty, (hshr f).1 hty, (hsar f).1 hty, (hrot f).1 hty⟩,
    fun f hty => ⟨(hshl f).2 hty, (hshr f).2 hty, (hsar f).2 hty, (hrot f).2 hty⟩⟩
  case ltab => exact vecDone_of_vecResult rfl fun x l => tableOf_eq _ _ _ _
  all_goals exact vecDone_of_vecResult rfl fun _ _ => rfl

theorem bitFieldResults : BitFieldResults := by
  intro s h f
  refine ⟨fun hty => ?bfe, fun hty => ?bfi, fun hty => ?counts⟩
  case bfe =>
    obtain ⟨hwide, -, hsigned⟩ := ty_of_le_one hty
    refine vecDone_at_width hwide (vecDone_of_vecResult rfl fun x l => ?_)
    rw [hwide, hsigned]
    exact extractField_eq _ _ _
  case bfi =>
    have hwide := (ty_zero hty).1
    refine vecDone_at_width hwide (vecDone_of_vecResult rfl fun x l => ?_)
    rw [hwide]
    exact insertField_eq _ _ _
  case counts =>
    have hbits : tyBits f.ty = if f.ty.toNat = 2 then 64 else 32 := by
      obtain hty | hty := hty <;> simp [tyBits, hty]
    refine ⟨?popc, ?clz, ?brev⟩
    case popc =>
      refine vecDone_of_vecResult rfl fun x l => ?_
      exact congrArg (BitVec.ofNat 64) ((congrArg (countOnes · _) hbits).trans (countOnes_eq _ _))
    case clz =>
      refine vecDone_of_vecResult rfl fun x l => ?_
      exact congrArg (BitVec.ofNat 64) ((congrArg (countLeading _ ·) hbits).trans (countLeading_eq _ _))
    case brev =>
      refine vecDone_of_vecResult rfl fun x l => ?_
      obtain hty | hty := hty
      · obtain ⟨hwide, hbits⟩ := ty_zero hty
        rw [hwide, hbits, if_neg (by omega)]
        exact reverseBits_eq (by decide) _
      · obtain ⟨hwide, hbits⟩ := ty_two hty
        have hpair := reverseBits_eq (le_refl 64) (bitA f x l)
        rw [BitVec.setWidth_eq, BitVec.setWidth_eq] at hpair
        rw [hbits, if_pos hty]
        exact hpair

/-- Settles O2: the shifts, bit fields and counts by the lemmas that give the model's arithmetic as operations on words. -/
theorem logicResults : Obligations.LogicResults := ⟨logicAndShiftResults, bitFieldResults⟩

end Sys2Proof.Proofs

/-! Comparisons, predicate logic, votes and scalar instructions (R135 to R138, R140). -/

namespace Sys2Proof.Proofs

open Sys2Proof.Machine Sys2Proof.Claims

/-! ### Comparison (R135, R136, Table 5-7) -/

theorem intCond_eq {c : Nat} (hc : c ≤ 5) (a b : Int) : intCond c a b =
    decide ((c = 0 ∧ a = b) ∨ (c = 1 ∧ a ≠ b) ∨ (c = 2 ∧ a < b) ∨ (c = 3 ∧ a ≤ b) ∨ (c = 4 ∧ a > b) ∨ (c = 5 ∧ a ≥ b)) := by
  obtain rfl | rfl | rfl | rfl | rfl | rfl : c = 0 ∨ c = 1 ∨ c = 2 ∨ c = 3 ∨ c = 4 ∨ c = 5 := by omega
  all_goals simp [intCond]

theorem fltCond_eq {c : Nat} (hc : c ≤ 7) (o : Option Ordering) : fltCond c o =
    ((c == 0 && o == some .eq) || (c == 1 && (o == some .lt || o == some .gt)) || (c == 2 && o == some .lt) ||
      (c == 3 && (o == some .lt || o == some .eq)) || (c == 4 && o == some .gt) || (c == 5 && (o == some .gt || o == some .eq)) ||
      (c == 6 && o == none) || (c == 7 && !(o == some .eq))) := by
  obtain rfl | rfl | rfl | rfl | rfl | rfl | rfl | rfl : c = 0 ∨ c = 1 ∨ c = 2 ∨ c = 3 ∨ c = 4 ∨ c = 5 ∨ c = 6 ∨ c = 7 := by omega
  all_goals rcases o with _ | (_ | _ | _) <;> rfl

/-- Settles O3: the conditions by the cases of C. -/
theorem comparisonResults : Obligations.ComparisonResults := fun _ _ _ =>
  ⟨fun hc => ⟨predDone_of_predResult rfl fun _ _ => intCond_eq hc _ _, predDone_of_predResult rfl fun _ _ => intCond_eq hc _ _⟩,
    fun hc => predDone_of_predResult rfl fun _ _ => fltCond_eq hc _⟩

/-! ### Predicate logic and selection (R137) -/

/-- Settles O4: each instruction is its own operation on the inverted predicates. -/
theorem predicateLogicResults : Obligations.PredicateLogicResults := by
  intro s h f
  refine ⟨?pand, ?por, ?pxor, ?pmov, vecDone_of_vecResult rfl fun _ _ => rfl⟩
  all_goals exact predDone_of_predResult rfl fun _ _ => rfl

/-! ### Votes (R138) -/

/-- A set of lanes as the mask that a vote writes. -/
theorem mask_eq_lanesOf (p : Nat → Bool) :
    BitVec.ofNat 64 (((List.range 32).map (fun l => if p l then 2 ^ l else 0)).sum) = (lanesOf p).setWidth 64 := by
  refine BitVec.eq_of_getLsbD_eq fun i hi => ?_
  rw [BitVec.getLsbD_ofNat, testBit_sum_bits, BitVec.getLsbD_setWidth]
  exact congrArg _ (hasLane_lanesOf p i).symm

theorem lanesOf_hasLane (m : Lanes) : lanesOf (hasLane m) = m :=
  BitVec.eq_of_getLsbD_eq fun l hl => (hasLane_lanesOf _ l).trans (by rw [decide_eq_true hl]; rfl)

/-- A mask of lanes written to a scalar register. -/
theorem commit_mask (x : Ctx) (d : Nat) (p : Nat → Bool) (s : State) : x.commit [.s d (lanesOf p)] s =
    x.scalResult false d (BitVec.ofNat 64 (((List.range 32).map (fun l => if p l then 2 ^ l else 0)).sum)) s := by
  rw [mask_eq_lanesOf]
  exact congrArg (fun y => x.commit [.s d y] s) (loOf_setWidth _).symm

/-- Settles O5: the model's sets of lanes as masks. -/
theorem voteResults : Obligations.VoteResults := by
  intro s h f
  refine ⟨?ballot, ?lanes, ?vany, ?vall, ?vmatch⟩
  case ballot => exact scalDone_of_body rfl fun x => commit_mask x _ _ s
  case lanes =>
    refine scalDone_of_body rfl fun x => (?_ : x.commit [.s f.d.toNat x.act] s = _)
    rw [← commit_mask, lanesOf_hasLane]
  case vany => exact predDone_of_predResult rfl fun x _ => voteAny_eq x _
  case vall => exact predDone_of_predResult rfl fun x _ => voteAll_eq x _
  case vmatch => exact vecDone_of_vecResult rfl fun x l => (mask_eq_lanesOf _).symm

/-! ### Scalar instructions (R140) -/

/-- Two values with one low word are one result in a single register. -/
theorem scalResult_narrow {y z : DWord} (h : loOf y = loOf z) (x : Ctx) (d : Nat) (s : State) :
    x.scalResult false d y s = x.scalResult false d z s := congrArg (fun v => x.commit [.s d v] s) h

theorem loOf_shiftLeft (y : Word) (n : Nat) : loOf (shiftLeft 32 (y.setWidth 64) n) = loOf (y.setWidth 64 <<< n) := by
  rw [shiftLeft_eq y n (by decide), loOf_setWidth]
  refine BitVec.eq_of_getLsbD_eq fun i hi => ?_
  simp only [loOf, BitVec.getLsbD_setWidth, BitVec.getLsbD_shiftLeft, hi, decide_true, Bool.true_and]
  simp [show i < 64 by omega, show i - n < 64 by omega]

theorem typed_setWidth {ty : BitVec 3} (hw : tyBits ty ≤ 64) (a : BitVec (tyBits ty)) :
    typed ty (a.setWidth 64) = if tySigned ty then a.toInt else (a.toNat : Int) := by
  rw [typed, readBits_eq, BitVec.toNat_setWidth_of_le hw, BitVec.ofNat_toNat, BitVec.setWidth_eq]

/-- A shift right at the width of the type, by its signedness. -/
theorem scalShr_eq {ty : BitVec 3} {w : Nat} (hbits : tyBits ty = w) (hw : w ≤ 64) (a : BitVec w) (n : Nat) :
    scalShr ty (a.setWidth 64) n = (if tySigned ty then a.sshiftRight n else a >>> n).setWidth 64 := by
  subst hbits
  have hpow : (0 : Int) < 2 ^ tyBits ty := by positivity
  have hlt : (a.toNat : Int) < 2 ^ tyBits ty := by exact_mod_cast a.isLt
  have hlo : -2 ^ tyBits ty ≤ 2 * a.toInt := BitVec.le_two_mul_toInt
  have hhi : 2 * a.toInt < 2 ^ tyBits ty := BitVec.two_mul_toInt_lt
  rw [scalShr, typed_setWidth hw]
  cases tySigned ty
  · simp only [Bool.false_eq_true, if_false]
    rw [modBits_sshiftRight (by omega) hlt, BitVec.ofNat_toNat, ← Int.natCast_shiftRight, BitVec.ofInt_natCast]
    exact congrArg _ (BitVec.eq_of_toNat_eq (by simp [Nat.mod_eq_of_lt (Nat.lt_of_le_of_lt (Nat.shiftRight_le _ _) a.isLt)]))
  · simp only [if_true]
    rw [modBits_sshiftRight (by omega) (by omega), BitVec.ofNat_toNat, BitVec.sshiftRight]

theorem shiftRight_by_type {ty : BitVec 3} (h : ty.toNat ≤ 3) (x : Ctx) (r n : Nat) :
    scalShr ty (x.scalN (wideTy ty) r) n =
      if ty.toNat = 0 then ((x.scal r).sshiftRight n).setWidth 64
      else if ty.toNat = 1 then ((x.scal r) >>> n).setWidth 64
      else if ty.toNat = 2 then (x.scalPair r).sshiftRight n
      else x.scalPair r >>> n := by
  by_cases hword : ty.toNat ≤ 1
  · obtain ⟨hwide, hbits, hsigned⟩ := ty_of_le_one hword
    rw [hwide]
    refine (scalShr_eq hbits (by decide) (x.scal r) n).trans ?_
    obtain hty | hty : ty.toNat = 0 ∨ ty.toNat = 1 := by omega
    all_goals simp [hsigned, hty]
  · obtain hty | hty : ty.toNat = 2 ∨ ty.toNat = 3 := by omega
    all_goals
      have hpair := scalShr_eq (show tyBits ty = 64 by simp [tyBits, hty]) (le_refl 64) (x.scalPair r) n
      rw [BitVec.setWidth_eq, BitVec.setWidth_eq] at hpair
      rw [show wideTy ty = true by simp [wideTy, hty]]
      refine hpair.trans ?_
      simp [tySigned, hty]

/-- Settles O6: the shifts and the truth table as operations on words, the others by definition. -/
theorem scalarResults : Obligations.ScalarResults := by
  intro s h
  refine ⟨fun f => ⟨?sadd, ?ssub, ?smul, ?smin, ?smax, ?sand, ?sor, ?sxor, fun hty => ?sshl, fun hty => ?sshr⟩, fun f => ?sltab⟩
  case sshl =>
    refine scalDone_of_body rfl fun x => ?_
    obtain hty | hty := hty
    · obtain ⟨hwide, hbits⟩ := ty_zero hty
      rw [hwide, hbits]
      exact scalResult_narrow (loOf_shiftLeft _ _) x _ s
    · obtain ⟨hwide, hbits⟩ := ty_two hty
      have hpair := shiftLeft_eq (x.scalPair f.a.toNat) (loOf (x.srcS false f.b)).toNat (le_refl 64)
      rw [BitVec.setWidth_eq, BitVec.setWidth_eq] at hpair
      rw [hwide, hbits]
      exact congrArg (x.scalResult true _ · s) hpair
  case sshr => exact scalDone_of_scalResult rfl fun x => shiftRight_by_type hty x _ _
  case sltab => exact scalDone_of_scalResult rfl fun x => tableOf_eq _ _ _ _
  all_goals exact scalDone_of_scalResult rfl fun _ => rfl

end Sys2Proof.Proofs

/-! Moves, computed register indices and special values (R53, R133, R139, R141, R143, R379, R380). -/

namespace Sys2Proof.Proofs

open Sys2Proof.Machine Sys2Proof.Claims

/-! ### Moves (R133, R139) -/

theorem moveResults : MoveResults := fun _ _ =>
  ⟨fun _ _ => ⟨vecDone_of_vecResult rfl fun _ _ => rfl, scalDone_of_scalResult rfl fun _ => rfl⟩,
    fun _ => ⟨vecDone_of_vecResult rfl fun _ _ => rfl, scalDone_of_scalResult rfl fun _ => rfl,
      fun _ => scalDone_of_scalResult rfl fun _ => rfl⟩⟩

/-! ### Computed register indices (R141) -/

/-- With every index below the declared count no lane fails. -/
theorem not_beyondIndex {x : Ctx} {k : Nat → Nat} (h : ∀ l, hasLane x.act l = true → k l < x.blk.kern.vregs) :
    ¬ (x.beyondIndex k != 0) = true := by
  rw [bne_iff_ne, not_not]
  refine BitVec.eq_of_getLsbD_eq fun l _ => (hasLane_lanesOf _ l).trans ?_
  have hin : (hasLane x.act l && decide (x.blk.kern.vregs ≤ k l)) = false := by
    cases hl : hasLane x.act l
    · rfl
    · simpa using h l hl
  simp [hin]

/-- Each lane's write to a register of its own number. -/
theorem commit_indexed {s : State} {h : Head} {x : Ctx} (hx : s.ctx h = some x) (k : Nat → Nat) (y : Nat → Word) :
    (∀ l, hasLane x.act l = true → vreg (x.commit (x.lanes.map fun l => .v (k l) l (y l)) s) x.b x.w (k l) l = some (y l)) ∧
    RegFrame s (x.commit (x.lanes.map fun l => .v (k l) l (y l)) s) x.b x.w
      (fun r l => hasLane x.act l = true ∧ r = k l) noS noP := by
  refine ⟨fun l hl => vreg_commit hx (List.mem_map_of_mem ((mem_lanesIn _ _).2 hl)) (fun q m z hz => ?lane) fun z hz => ?same,
    regFrame_commit s x.b x.w fun a ha => ?frame⟩
  case lane =>
    obtain ⟨m, hm, hz⟩ := List.mem_map.1 hz
    cases hz
    exact BitVec.lt_of_getLsbD ((mem_lanesIn _ _).1 hm)
  case same =>
    obtain ⟨m, -, hz⟩ := List.mem_map.1 hz
    injection hz with _ hm hz
    rw [← hz, hm]
  case frame =>
    obtain ⟨l, hl, rfl⟩ := List.mem_map.1 ha
    have hl := (mem_lanesIn _ _).1 hl
    exact ⟨BitVec.lt_of_getLsbD hl, hl, rfl⟩

theorem computedIndexResults : ComputedIndexResults := by
  intro s h f x
  refine ⟨fun hx hin => ?movri, fun hx hin => ?movwi⟩
  case movri =>
    obtain ⟨hvals, hframe⟩ := vecResult_done hx.1 false f.d.toNat
      (fun l => x.vecN false (f.a.toNat + (loOf (bitB1 f x l)).toNat) l)
    refine ⟨_, ?_, fun l hl => (hvals l hl).1.trans (congrArg some (loOf_setWidth _)), hframe⟩
    have hexec := exec_of_issues hx (i := .movri h f) (show execMovri h f s = issueOp _ h false _ _ s from rfl)
    exact hexec.trans (congrArg _ (if_neg (not_beyondIndex hin)))
  case movwi =>
    obtain ⟨hvals, hframe⟩ := commit_indexed hx.1 (fun l => f.d.toNat + (loOf (bitB1 f x l)).toNat) (x.vec f.c.toNat)
    refine ⟨_, ?_, hvals, hframe⟩
    have hexec := exec_of_issues hx (i := .movwi h f) (show execMovwi h f s = issueOp _ h false _ _ s from rfl)
    exact hexec.trans (congrArg _ (if_neg (not_beyondIndex hin)))

/-! ### Results of several registers (R379, R380) -/

/-- The registers of `f` hold the words `ws`: in every active lane, or once in scalar registers. -/
def HoldsMany (t : State) (x : Ctx) (f : YFmt) (ws : List Word) : Prop :=
  ∀ j w, ws[j]? = some w →
    (f.a = 0 → ∀ l, hasLane x.act l = true → vreg t x.b x.w (f.d.toNat + j) l = some w) ∧
    (f.a ≠ 0 → x.act ≠ 0 → sreg t x.b x.w (f.d.toNat + j) = some w)

/-- The frame of such a result of `n` registers. -/
def ManyFrame (s t : State) (x : Ctx) (f : YFmt) (n : Nat) : Prop :=
  RegFrame s t x.b x.w (fun r l => f.a = 0 ∧ hasLane x.act l = true ∧ f.d.toNat ≤ r ∧ r < f.d.toNat + n)
    (fun r => f.a ≠ 0 ∧ x.act ≠ 0 ∧ f.d.toNat ≤ r ∧ r < f.d.toNat + n) noP

/-- A write at each place of a list, at the register of that place. -/
theorem mem_mapIdx_iff_getElem? {α : Type} {g : Nat → Word → α} {ws : List Word} {a : α} :
    a ∈ ws.mapIdx g ↔ ∃ j w, ws[j]? = some w ∧ a = g j w := by
  rw [List.mem_iff_getElem?]
  simp only [List.getElem?_mapIdx, Option.map_eq_some_iff, @eq_comm _ a]

theorem manyResult_done {s : State} {h : Head} {x : Ctx} (hx : s.ctx h = some x) (hact : x.act ≠ 0) (f : YFmt) (ws : List Word) :
    HoldsMany (x.manyResult f ws s) x f ws ∧ ManyFrame s (x.manyResult f ws s) x f ws.length := by
  by_cases ha : f.a = 0
  · have hmem (a : Wr) : a ∈ x.lanes.flatMap (fun l => ws.mapIdx (fun i v => Wr.v (f.d.toNat + i) l v)) ↔
        ∃ l, hasLane x.act l = true ∧ ∃ j w, ws[j]? = some w ∧ a = .v (f.d.toNat + j) l w := by
      simp only [List.mem_flatMap, mem_mapIdx_iff_getElem?, Ctx.lanes, mem_lanesIn]
    rw [Ctx.manyResult, if_pos ha]
    refine ⟨fun j w hw => ⟨fun _ l hl => vreg_commit hx ((hmem _).2 ⟨l, hl, j, w, hw, rfl⟩) (fun q k z hz => ?lane)
      fun z hz => ?same, fun hne => absurd ha hne⟩, regFrame_commit s x.b x.w fun a ha' => ?frame⟩
    case lane =>
      obtain ⟨m, hm, i, v, -, hz⟩ := (hmem _).1 hz
      cases hz
      exact BitVec.lt_of_getLsbD hm
    case same =>
      obtain ⟨m, -, i, v, hv, hz⟩ := (hmem _).1 hz
      injection hz with hi _ hz
      obtain rfl : j = i := by omega
      exact hz.trans (Option.some.inj (hv.symm.trans hw))
    case frame =>
      obtain ⟨l, hl, j, w, hw, rfl⟩ := (hmem _).1 ha'
      obtain ⟨hj, -⟩ := List.getElem?_eq_some_iff.1 hw
      exact ⟨BitVec.lt_of_getLsbD hl, ha, hl, by omega, by omega⟩
  · rw [Ctx.manyResult, if_neg ha]
    refine ⟨fun j w hw => ⟨fun h0 => absurd h0 ha, fun _ _ => sreg_commit hx (mem_mapIdx_iff_getElem?.2 ⟨j, w, hw, rfl⟩) fun z hz => ?same⟩,
      regFrame_commit s x.b x.w fun a ha' => ?frame⟩
    case same =>
      obtain ⟨i, v, hv, hz⟩ := mem_mapIdx_iff_getElem?.1 hz
      injection hz with hi hz
      obtain rfl : j = i := by omega
      exact hz.trans (Option.some.inj (hv.symm.trans hw))
    case frame =>
      obtain ⟨j, w, hw, rfl⟩ := mem_mapIdx_iff_getElem?.1 ha'
      obtain ⟨hj, -⟩ := List.getElem?_eq_some_iff.1 hw
      exact ⟨ha, hact, by omega, by omega⟩

/-- An instruction of the wave whose effect is such a result: with no active thread nothing changes. -/
theorem manyDone {s : State} {i : Instr} {name : String} {h : Head} {us : List RegUse} {body : Ctx → State → State} {x : Ctx}
    {f : YFmt} {ws : List Word} (hx : Issues s h us x) (he : exec i s = issueOp name h false us (waveOp body) s)
    (hbody : body x s = x.manyResult f ws s) : ∃ t, exec i s = .next t ∧ HoldsMany t x f ws ∧ ManyFrame s t x f ws.length := by
  have hexec := exec_of_issues hx he
  by_cases hact : x.act = 0
  · refine ⟨s, by simpa [waveOp, Ctx.any, hact] using hexec, fun j w _ => ⟨fun _ l hl => ?_, fun _ hne => absurd hact hne⟩,
      regFrame_refl ..⟩
    rw [hact] at hl
    exact absurd hl (by simp [hasLane])
  · refine ⟨x.manyResult f ws s, ?_, manyResult_done hx.1 hact f ws⟩
    rw [hexec, waveOp, if_pos (any_of_act hact), hbody]

/-! ### Special values (R53, R143) -/

theorem spec_results (s : State) (h : Head) (f : YFmt) :
    let n := f.sysno.toNat
    let regs := if n = 0x11 then 2 else 1
    (f.a = 0 → VecDone s (.spec h f) h [.v f.d.toNat regs] (n == 0x11) f.d (fun x l => x.special s n l)) ∧
    (f.a ≠ 0 → ScalDone s (.spec h f) h [.s f.d.toNat regs] (n == 0x11) f.d (fun x => x.special s n 0)) := by
  have hregs : (if (f.sysno.toNat == 0x11) = true then 2 else 1) = if f.sysno.toNat = 0x11 then 2 else 1 := by
    simp only [beq_iff_eq]
  refine ⟨fun ha => ?vector, fun ha => ?scalar⟩
  case vector =>
    rw [← hregs]
    exact vecDone_of_body (if_pos ha) fun _ => rfl
  case scalar =>
    rw [← hregs]
    exact scalDone_of_body (if_neg ha) fun _ => rfl

theorem specialValueResults : SpecialValueResults := by
  intro s h f
  obtain ⟨hvector, hscalar⟩ := spec_results s h f
  refine ⟨hvector, hscalar, fun x hx => ?tick, fun x hx hbusy => ?clock⟩
  case tick => exact manyDone (i := .tickRd h f) hx rfl rfl
  case clock =>
    have hfree : ¬ x.wv.busy.any (fun e => e.2 < x.c.opBase) = true := by simpa using hbusy
    obtain ⟨t, ht, hholds, hframe⟩ := manyDone (i := .clk h f)
      (ws := [loOf (BitVec.ofNat 64 s.clock), hiOf (BitVec.ofNat 64 s.clock)]) hx rfl (if_neg hfree)
    have hlo := hholds 0 _ rfl
    have hhi := hholds 1 _ rfl
    exact ⟨t, ht, fun ha l hl => ⟨hlo.1 ha l hl, hhi.1 ha l hl⟩, fun ha hact => ⟨hlo.2 ha hact, hhi.2 ha hact⟩, hframe⟩

/-- Settles O7: moves are the results of their operands; an index is in range by hypothesis; several registers by their writes. -/
theorem dataMoveResults : Obligations.DataMoveResults := ⟨moveResults, computedIndexResults, specialValueResults⟩

end Sys2Proof.Proofs

/-! The memory hierarchy (spec/06): a flush (R182, notes/assumptions/56.md) where the table of dirty and held lines lists a line twice. -/

namespace Sys2Proof.Proofs

open Sys2Proof.Machine

/-- The first line of tier-2 memory, for which no controller is ever full (R179). -/
def tier2Line : Nat := Config.t2Base / 128

def dirtyLine : Lag := { committed := [], held := false, job := 0, arrival := 0 }
def heldLine : Lag := { committed := [], held := true, job := 0, arrival := 0 }

/-- The last line below tier-2 memory is dirty; the line after it is listed once as dirty and, behind that, 1,024 times as held, which
fills the controller that the first line goes to. The flush registers name the two lines. -/
def listedTwice : State :=
  { State.reset with
    lag := (tier2Line - 1, dirtyLine) :: (tier2Line, dirtyLine) :: List.replicate 1024 (tier2Line, heldLine),
    reed := { Reed.reset with flushAddr := BitVec.ofNat 64 (128 * (tier2Line - 1)) } }

/-- A write of L2_FLUSH_CTL: START with LINES = 2. -/
def flushTwo : DWord := 0x201

theorem del_replicate {α : Type} (n k : Nat) (x : α) : Tbl.del (List.replicate n (k, x)) k = [] := by
  induction n with
  | zero => rfl
  | succ n ih => rw [List.replicate_succ, Tbl.del, if_pos rfl, ih]

/-- A line that its controller can hold no more of is left as it is by a flush, and the next one is written back. -/
theorem flushSome_pair {s : State} {p : Nat → Bool} {a b : Nat × Lag} (hp : s.lag.filter (fun e => !e.2.held && p e.1) = [a, b])
    (ha : s.ctlFull a.1 = true) (hb : s.ctlFull b.1 = false) : s.flushSome p = s.writeBack b.1 := by
  simp [State.flushSome, hp, ha, hb]

theorem writeBack_lag_of_shrunk {s : State} {line : Nat} {g : Lag} (hg : s.lag.get line = some g) (hd : g.held = false)
    (hn : lineSectors (s.rd (128 * line) 128) ≤ lineSectors (s.committed line)) : (s.writeBack line).lag = s.lag.del line := by
  simp [State.writeBack, hg, hd, State.commitLine, hn, State.setPool, State.touchFrame, State.setReed, State.reedUpdate]

/-- `listedTwice` as the flush begins to write lines back. -/
def flushing : State :=
  listedTwice.setReed (fun r =>
    { r with flushLines := 2, flushInv := false, flushBusy := true, flushFrom := tier2Line - 1, flushCount := 2, flushDrop := false })

theorem flushing_dirty : flushing.lag.filter (fun e => !e.2.held && flushing.flushLine e.1) =
    [(tier2Line - 1, dirtyLine), (tier2Line, dirtyLine)] := by
  show List.filter _ (_ :: _ :: List.replicate 1024 (tier2Line, heldLine)) = _
  rw [List.filter_cons_of_pos (by decide), List.filter_cons_of_pos (by decide), List.filter_replicate_of_neg (by decide)]

theorem flushing_full : flushing.ctlFull (tier2Line - 1) = true := by
  have hheld : flushing.heldOn (stackOf (128 * (tier2Line - 1))) = 1024 := by
    show (List.filter _ (_ :: _ :: List.replicate 1024 (tier2Line, heldLine))).length = 1024
    rw [List.filter_cons_of_neg (by decide), List.filter_cons_of_neg (by decide), List.filter_replicate_of_pos (by decide),
      List.length_replicate]
  rw [State.ctlFull, hheld]
  decide

theorem flushing_flushed : flushing.flushSome flushing.flushLine = flushing.writeBack tier2Line :=
  flushSome_pair flushing_dirty flushing_full (by rfl)

theorem flushed_lag : (flushing.writeBack tier2Line).lag = [(tier2Line - 1, dirtyLine)] := by
  have hnew : lineSectors (flushing.rd (128 * tier2Line) 128) = 0 := by decide
  rw [writeBack_lag_of_shrunk (g := dirtyLine) rfl rfl (by rw [hnew]; exact Nat.zero_le _)]
  show Tbl.del (_ :: _ :: List.replicate 1024 (tier2Line, heldLine)) tier2Line = _
  rw [Tbl.del, if_neg (by decide), Tbl.del, if_pos rfl, del_replicate]

theorem flushed_room : (flushing.writeBack tier2Line).ctlFull (tier2Line - 1) = false := by
  rw [State.ctlFull, State.heldOn, flushed_lag]
  rfl

theorem listedTwice_flush : exec (.l2FlushStart flushTwo) listedTwice = .next (flushing.writeBack tier2Line) := by
  rw [← flushing_flushed]
  rfl

/-- Refutes O46: its clause of L2_FLUSH_START says that a line of the range which is still dirty has no room at its controller, in
every state, also where the table of dirty and held lines lists a line twice; in `listedTwice` writing the second line back takes the
held entries behind it along, which makes room at the controller after the flush has passed over the first line. -/
theorem not_storageResults : ¬ Obligations.StorageResults := by
  unfold Obligations.StorageResults
  intro h
  obtain ⟨-, -, -, -, hflush, -⟩ := h listedTwice
  obtain ⟨t, ht, -, -, -, -, -, -, -, hleft⟩ := hflush flushTwo rfl rfl (by decide)
  obtain rfl : flushing.writeBack tier2Line = t := Host.Outcome.next.inj (listedTwice_flush.symm.trans ht)
  have hline : (flushing.writeBack tier2Line).lag.get (tier2Line - 1) = some dirtyLine := by rw [flushed_lag]; rfl
  rcases hleft rfl (tier2Line - 1) dirtyLine hline (by decide) (by decide) with hheld | hfull
  · cases hheld
  · rw [flushed_room] at hfull
    cases hfull

end Sys2Proof.Proofs

/-! ## Every step keeps memory in canonical form (R145, R232; notes/assumptions/2.md)

One lemma `f_formed` for each function `f` of the model that a step can reach, in the model's order: from a state whose memory is in
canonical form, `f` makes another one. Bytes are changed by `memWrite`, `memMove` and the `filter` of a freed page only, which keep
the form (`memWrite_wf`, `memMove_wf`, `filter_wf`). A function that sets other fields has the memory it was given, so that `h`
itself, or `h.same` where the two states must be unfolded, is its proof; the rest follows the branches and loops of the definition. -/

namespace Sys2Proof.Proofs
open Sys2Proof.Machine

-- One declaration after the other, as in Tests: elaborated at once, these many take a thread each, and the memory of its stack.
set_option Elab.async false

/-! ### What is kept, by the kind of outcome -/

/-- The memory of `s` is in canonical form. -/
def Formed (s : State) : Prop := Memory.wf s.mem = true

/-- The state of `o`, where there is one, has a memory in canonical form. -/
def OptFormed (o : Option State) : Prop := ∀ t, o = some t → Formed t

/-- Where `o` answers a next state, its memory is in canonical form. -/
def OutFormed (o : Out) : Prop := ∀ t, o = .next t → Formed t

/-- Where a group issued, the memory it left is in canonical form. -/
def GroupFormed (o : GroupEnd) : Prop := ∀ t, o = .issued t → Formed t

/-- The state in which an attempt of a service leaves the module, done or not. -/
def endState : SvcEnd → State
  | .done s _ _ => s
  | .waits s _ _ => s

/-- An attempt of a service leaves a memory in canonical form. -/
def SvcFormed (e : SvcEnd) : Prop := Formed (endState e)

/-- The event or instruction `f` keeps the canonical form. -/
def Keeps (f : State → Out) : Prop := ∀ s, Formed s → OutFormed (f s)

/-- Each of these events keeps it. -/
def EventsKeep (fs : List (State → Out)) : Prop := ∀ f ∈ fs, Keeps f

/-- A state with the memory of another one, in whatever else they differ. -/
theorem Formed.same {s t : State} (h : Formed s) (he : t.mem = s.mem := by rfl) : Formed t := by
  unfold Formed
  rw [he]
  exact h

theorem none_formed : OptFormed none := by
  intro t ht
  cases ht

theorem some_formed {s : State} (h : Formed s) : OptFormed (some s) := fun _ ht => Option.some.inj ht ▸ h

theorem next_formed {s : State} (h : Formed s) : OutFormed (.next s) := fun _ ht => Host.Outcome.next.inj ht ▸ h

theorem refused_formed {r : Refusal} : OutFormed (.refused r) := by
  intro t ht
  cases ht

theorem issued_formed {s : State} (h : Formed s) : GroupFormed (.issued s) := fun _ ht => GroupEnd.issued.inj ht ▸ h

theorem held_formed : GroupFormed .held := by
  intro t ht
  cases ht

theorem stalled_formed : GroupFormed .stalled := by
  intro t ht
  cases ht

theorem done_formed {s : State} {n : Nat} {bs : List Byte} (h : Formed s) : SvcFormed (.done s n bs) := h

theorem waits_formed {s : State} {b : Bool} {tags : List Nat} (h : Formed s) : SvcFormed (.waits s b tags) := h

/-! ### Branches and loops -/

theorem ite_formed {c : Prop} [Decidable c] {s t : State} (hs : Formed s) (ht : Formed t) : Formed (if c then s else t) := by
  split <;> assumption

theorem iteOpt_formed {c : Prop} [Decidable c] {s t : Option State} (hs : OptFormed s) (ht : OptFormed t) :
    OptFormed (if c then s else t) := by
  split <;> assumption

theorem iteOut_formed {c : Prop} [Decidable c] {s t : Out} (hs : OutFormed s) (ht : OutFormed t) :
    OutFormed (if c then s else t) := by
  split <;> assumption

theorem iteSvc_formed {c : Prop} [Decidable c] {s t : SvcEnd} (hs : SvcFormed s) (ht : SvcFormed t) :
    SvcFormed (if c then s else t) := by
  split <;> assumption

theorem iteGrp_formed {c : Prop} [Decidable c] {s t : GroupEnd} (hs : GroupFormed s) (ht : GroupFormed t) :
    GroupFormed (if c then s else t) := by
  split <;> assumption

theorem getD_formed {o : Option State} {s : State} (ho : OptFormed o) (h : Formed s) : Formed (o.getD s) := by
  cases o with
  | none => exact h
  | some t => exact ho t rfl

theorem elim_formed {α : Type} {o : Option α} {s : State} {f : α → State} (h : Formed s) (hf : ∀ x, Formed (f x)) :
    Formed (o.elim s f) := by
  cases o with
  | none => exact h
  | some x => exact hf x

theorem map_formed {α : Type} {o : Option α} {f : α → State} (hf : ∀ x, Formed (f x)) : OptFormed (o.map f) := by
  cases o with
  | none => exact none_formed
  | some x => exact some_formed (hf x)

theorem bind_formed {α : Type} {o : Option α} {f : α → Option State} (hf : ∀ x, OptFormed (f x)) : OptFormed (o.bind f) := by
  cases o with
  | none => exact none_formed
  | some x => exact hf x

theorem bindState_formed {o : Option State} {f : State → Option State} (ho : OptFormed o)
    (hf : ∀ t, Formed t → OptFormed (f t)) : OptFormed (o.bind f) := by
  cases o with
  | none => exact none_formed
  | some t => exact hf t (ho t rfl)

theorem mapState_formed {o : Option State} {f : State → State} (ho : OptFormed o) (hf : ∀ t, Formed t → Formed (f t)) :
    OptFormed (o.map f) := by
  cases o with
  | none => exact none_formed
  | some t => exact some_formed (hf t (ho t rfl))

theorem findSome_formed {α : Type} {xs : List α} {f : α → Option State} (hf : ∀ x, OptFormed (f x)) :
    OptFormed (xs.findSome? f) := fun t ht =>
  have ⟨x, _, hx⟩ := List.exists_of_findSome?_eq_some ht
  hf x t hx

/-- The second part of a pair that a `let (a, t) := …` takes apart. -/
theorem formed_of_pair {α : Type} {p : α × State} {a : α} {t : State} (hp : Formed p.2) (he : p = (a, t)) : Formed t := by
  rwa [he] at hp

theorem foldl_formed {α : Type} {xs : List α} {f : State → α → State} {s : State}
    (hf : ∀ t x, Formed t → Formed (f t x)) (h : Formed s) : Formed (xs.foldl f s) := foldl_wf _ _ _ hf h

theorem foldlSnd_formed {α β : Type} {xs : List α} {f : β × State → α → β × State} {p : β × State}
    (hf : ∀ p x, Formed p.2 → Formed (f p x).2) (h : Formed p.2) : Formed (xs.foldl f p).2 := by
  induction xs generalizing p with
  | nil => exact h
  | cons x xs ih => exact ih (hf p x h)

theorem foldlOpt_formed {α : Type} {xs : List α} {f : Option State → α → Option State} {o : Option State}
    (hf : ∀ o x, OptFormed o → OptFormed (f o x)) (h : OptFormed o) : OptFormed (xs.foldl f o) := by
  induction xs generalizing o with
  | nil => exact h
  | cons x xs ih => exact ih (hf o x h)

section
variable {s : State} (h : Formed s)
include h

/-! ### Memory, its L2 and the descriptors in it (Machine/Mem) -/

theorem setReed_formed {f : Reed → Reed} : Formed (s.setReed f) := h

theorem reedUpdate_formed : Formed s.reedUpdate := h

theorem commitLine_formed {line job : Nat} : Formed (s.commitLine line job) :=
  reedUpdate_formed (ite_formed h.same (ite_formed h.same h.same))

theorem l2Drop_formed {p : Nat → Bool} : Formed (s.l2Drop p) := h

theorem writeBack_formed {line : Nat} : Formed (s.writeBack line) := by
  unfold State.writeBack
  split
  · exact ite_formed h (commitLine_formed h)
  · exact h

theorem l2Evict_formed {line : Nat} : OptFormed (s.l2Evict line) :=
  iteOpt_formed none_formed (some_formed (writeBack_formed h).same)

theorem l2Alloc_formed {line : Nat} {a : Alloc} : Formed (s.l2Alloc line a) := by
  unfold State.l2Alloc
  dsimp only
  split
  · exact h
  · split
    · split
      · exact (l2Evict_formed h _ ‹_›).same
      · exact h
    · exact h

theorem l2Access_formed {line : Nat} {a : Alloc} : Formed (s.l2Access line a) := by
  unfold State.l2Access
  split
  · exact h
  · exact ite_formed h.same (l2Alloc_formed h.same)

theorem rawWrite_formed {pa : Nat} {bs : List Byte} {a : Alloc} {who : Option (Nat × Nat)} {job : Nat} :
    Formed (s.rawWrite pa bs a who job) := by
  rw [Formed, State.rawWrite_mem]
  exact memWrite_wf _ _ _ h

theorem showWord_formed {a v : Nat} : Formed (s.showWord a v) := ite_formed h (rawWrite_formed h)

theorem showQueue_formed {n : Nat} : Formed (s.showQueue n) := by
  unfold State.showQueue
  split
  · exact h
  · exact showWord_formed (showWord_formed (showWord_formed (showWord_formed (showWord_formed (showWord_formed h)))))

theorem descWritten_formed {pa : Nat} {bs : List Byte} : Formed (s.descWritten pa bs) :=
  foldl_formed (fun _ _ ht => showQueue_formed ht.same) h

theorem homeWrite_formed {pa : Nat} {bs : List Byte} {a : Alloc} {who : Option (Nat × Nat)} {job : Nat} :
    Formed (s.homeWrite pa bs a who job) :=
  ite_formed (rawWrite_formed h) (descWritten_formed (rawWrite_formed h))

theorem homeWriteAll_formed {pa : Nat} {bs : List Byte} {job fuel : Nat} : Formed (s.homeWriteAll pa bs job fuel) :=
  State.homeWriteAll_wf s pa bs job fuel h

theorem store_formed {pa : Nat} {bs : List Byte} {job : Nat} : Formed (s.store pa bs job) := homeWriteAll_formed h

theorem tlbFill_formed {cluster asn root va : Nat} : Formed (s.tlbFill cluster asn root va) := by
  unfold State.tlbFill
  split
  · exact ite_formed h h.same
  · exact h

/-! ### What operations share (Machine/Ops) -/

theorem updBlock_formed {b : Nat} {f : Block → Block} : Formed (s.updBlock b f) := h

theorem updWave_formed {b w : Nat} {f : Wave → Wave} : Formed (s.updWave b w f) := h

theorem updGrid_formed {g : Nat} {f : Grid → Grid} : Formed (s.updGrid g f) := h

theorem updCore_formed {c : Nat} {f : Core → Core} : Formed (s.updCore c f) := h

theorem commit_formed {b w : Nat} {ws : List Wr} : Formed (s.commit b w ws) := h

theorem setFlag_formed {b w n op : Nat} : Formed (s.setFlag b w n op) := ite_formed h h.same

theorem clearFlag_formed {b w op : Nat} : Formed (s.clearFlag b w op) := h

theorem writeFault_formed : Formed s.writeFault := by
  unfold State.writeFault
  split
  · exact h
  · exact ite_formed (homeWrite_formed h).same h

theorem writeFaults_formed : Formed s.writeFaults := foldl_formed (fun _ _ ht => writeFault_formed ht) h

theorem report_formed {kind core asn ten job need addr grid : Nat} {awaits : Bool} :
    Formed (s.report kind core asn ten job need addr grid awaits).2 := by
  unfold State.report
  split
  · exact h
  · exact writeFaults_formed h.same

theorem dropSheafBits_formed {b w : Nat} : Formed (s.dropSheafBits b w) := by
  unfold State.dropSheafBits
  split <;> exact h

theorem stopBlock_formed {b : Nat} : Formed (s.stopBlock b) := by
  unfold State.stopBlock
  split
  · exact h
  · exact (foldl_formed (fun _ _ ht => dropSheafBits_formed ht) h).same

theorem abortBlock_formed {b code : Nat} : Formed (s.abortBlock b code) := by
  unfold State.abortBlock
  split
  · exact h
  · exact ite_formed h (stopBlock_formed h).same

theorem cancelBlock_formed {b : Nat} : Formed (s.cancelBlock b) := by
  unfold State.cancelBlock
  split
  · exact h
  · exact ite_formed h (ite_formed h (stopBlock_formed h)).same

theorem dropImages_formed {g : Nat} : Formed (s.dropImages g) := by
  unfold State.dropImages
  dsimp only [Formed]
  exact foldl_formed (fun _ _ ht => ht.same) h

theorem cancelGrid_formed {g : Nat} : Formed (s.cancelGrid g) := by
  unfold State.cancelGrid
  split
  · exact h
  · exact ite_formed h (foldl_formed (fun _ _ ht => cancelBlock_formed ht) (dropImages_formed h)).same

theorem reapJobs_formed : Formed s.reapJobs := h

theorem closeGraph_formed {job graph : Nat} : Formed (s.closeGraph job graph) := h

theorem closeJob_formed {job : Nat} : Formed (s.closeJob job) := h

theorem cancelGraph_formed {job graph : Nat} : Formed (s.cancelGraph job graph) :=
  reapJobs_formed (closeGraph_formed (foldl_formed (fun _ _ ht => cancelGrid_formed ht) h))

theorem cancelJob_formed {job : Nat} : Formed (s.cancelJob job) :=
  reapJobs_formed (closeJob_formed (foldl_formed (fun _ _ ht => cancelGrid_formed ht) h))

theorem dropHeld_formed {job : Nat} : Formed (s.dropHeld job) := State.dropHeld_wf s job h

theorem endGrid_formed {code g : Nat} : Formed (s.endGrid code g) := by
  unfold State.endGrid
  split
  · exact h
  · exact ite_formed h (ite_formed h.same (foldl_formed (fun _ _ ht => abortBlock_formed ht) (dropImages_formed h)).same)

theorem endJob_formed {job code : Nat} : Formed (s.endJob job code) :=
  dropHeld_formed (foldl_formed (fun _ _ ht => endGrid_formed ht) h).same

theorem fatalAccess_formed {core asn ten job need addr grid : Nat} : Formed (s.fatalAccess core asn ten job need addr grid) :=
  endJob_formed (report_formed h)

theorem runCancels_formed {b w : Nat} : Formed (s.runCancels b w) := by
  unfold State.runCancels
  split
  · refine foldl_formed (fun _ _ ht => ?_) h.same
    split
    · exact cancelBlock_formed ht
    · exact cancelGrid_formed ht
    · exact cancelGraph_formed ht
    · exact cancelJob_formed ht
    · exact ht
  · exact h

theorem issuedLast_formed {b w : Nat} {m : Lanes} : Formed (s.issuedLast b w m) := runCancels_formed h.same

theorem breakConvs_formed {b w : Nat} : Formed (s.breakConvs b w) := h

theorem settle_formed {b w : Nat} {m : Lanes} : Formed (s.settle b w m) := by
  unfold State.settle
  refine runCancels_formed ?_
  split
  · exact ite_formed (breakConvs_formed (dropSheafBits_formed h.same)) h.same
  · exact h

theorem resumeLanes_formed {b w : Nat} {m : Lanes} : Formed (s.resumeLanes b w m) := by
  unfold State.resumeLanes
  split
  · exact h
  · exact settle_formed h.same

theorem endMonitor_formed {b w : Nat} {reason : MonWaiting → Nat} : Formed (s.endMonitor b w reason) := by
  unfold State.endMonitor
  split
  · exact h
  · exact foldl_formed (fun _ _ ht => resumeLanes_formed ht.same) h.same

theorem loseMonitor_formed {b w : Nat} {save : Bool} : Formed (s.loseMonitor b w save) := by
  unfold State.loseMonitor
  split
  · exact h
  · exact ite_formed (ite_formed h.same h) (endMonitor_formed (ite_formed h.same h))

theorem holdBreak_formed {b w : Nat} {blk : Block} {wv : Wave} {t : TrapInfo} : Formed (s.holdBreak b w blk wv t) := by
  unfold State.holdBreak
  split
  exact (formed_of_pair (report_formed h) ‹_›).same

theorem clearRecord_formed {b : Nat} {r : RecordAt} : Formed (s.clearRecord b r) := by
  unfold State.clearRecord
  split <;> exact h

theorem setNote_formed {n : GroupNote} : Formed { s with note := n } := h

theorem takeTrap_formed {b w : Nat} {t : TrapInfo} : Formed (s.takeTrap b w t) := by
  unfold State.takeTrap
  split
  · refine ite_formed h.same ?_
    extract_lets u
    have hu : Formed u := ite_formed h.same h
    refine ite_formed (setNote_formed (abortBlock_formed hu)) ?_
    split
    · exact ite_formed (setNote_formed (holdBreak_formed hu)) (setNote_formed (abortBlock_formed hu))
    · exact setNote_formed (settle_formed (loseMonitor_formed (clearRecord_formed hu).same))
  · exact h

theorem ctxRaise_formed {x : Ctx} {t : TrapInfo} : Formed (x.raise t s) := takeTrap_formed h

theorem ctxCommit_formed {x : Ctx} {ws : List Wr} : Formed (x.commit ws s) := h

theorem issueOp_formed {name : String} {hd : Head} {service : Bool} {uses : List RegUse} {body : Ctx → State → State}
    (hb : ∀ x, Formed (body x s)) : OutFormed (issueOp name hd service uses body s) := by
  intro t ht
  obtain ⟨x, -, ⟨-, -, rfl⟩ | ⟨r, -, rfl⟩ | ⟨-, rfl⟩⟩ := issueOp_cases _ _ _ _ _ _ _ ht
  · exact ctxRaise_formed h
  · exact ctxRaise_formed h
  · exact hb x

theorem waveOp_formed {body : Ctx → State → State} {x : Ctx} (hb : Formed (body x s)) : Formed (waveOp body x s) :=
  ite_formed hb h

theorem ctxMakeWait_formed {x : Ctx} {m : Lanes} {at_ : WaitAt} : Formed (x.makeWait m at_ s) := h

theorem newId_formed : Formed (s.newId).2 := h

theorem event_formed {name : String} {enabled : Bool} : OutFormed (event name enabled s) :=
  iteOut_formed (next_formed h) refused_formed

/-! ### Results of a lane operation (Machine/Operands) -/

theorem intLane_formed {name : String} {hd : Head} {row : A3Row} {f : A3} {fill : DWord} {op : ℤ → ℤ → ℤ → ℤ} :
    OutFormed (intLane name hd row f fill op s) :=
  issueOp_formed h (fun _ => h.same)

theorem bitLane_formed {name : String} {hd : Head} {row : A3Row} {f : A3} {wideB : Bool} {fill : DWord}
    {op : DWord → DWord → DWord → DWord} : OutFormed (bitLane name hd row f wideB fill op s) :=
  issueOp_formed h (fun _ => h.same)

theorem intScal_formed {name : String} {hd : Head} {row : A3Row} {f : A3} {op : ℤ → ℤ → ℤ} :
    OutFormed (intScal name hd row f op s) :=
  issueOp_formed h (fun _ => waveOp_formed h h.same)

theorem bitScal_formed {name : String} {hd : Head} {row : A3Row} {f : A3} {wideB : Bool} {op : DWord → DWord → DWord} :
    OutFormed (bitScal name hd row f wideB op s) :=
  issueOp_formed h (fun _ => waveOp_formed h h.same)

/-! ### Wait flags (Machine/Flags) -/

theorem ctxSetFlag_formed {x : Ctx} {op : Nat} : Formed (x.setFlag op s) := setFlag_formed h

/-! ### Integer operations (Machine/Integer) -/

theorem carryLane_formed {name : String} {hd : Head} {f : A3} {op : Nat → Nat → Bool → Nat × Bool} :
    OutFormed (carryLane name hd f op s) :=
  issueOp_formed h (fun _ => h.same)

theorem countLane_formed {name : String} {hd : Head} {f : A3} {op : Nat → DWord → Nat} : OutFormed (countLane name hd f op s) :=
  issueOp_formed h (fun _ => h.same)

/-! ### Operations across lanes (Machine/Lanes) -/

theorem predLane_formed {name : String} {hd : Head} {row : A3Row} {f : A3} {op : Bool → Bool → Bool} :
    OutFormed (predLane name hd row f op s) :=
  issueOp_formed h (fun _ => h.same)

theorem ctxLongResult_formed {x : Ctx} {d regs : Nat} {f : Nat → DWord} : Formed (x.longResult d regs f s) :=
  ite_formed h (ctxSetFlag_formed h.same)

theorem execSfuResult_formed {blk wave op : Nat} : OutFormed (execSfuResult blk wave op s) := by
  unfold execSfuResult
  split
  · exact refused_formed
  · exact next_formed (clearFlag_formed (commit_formed (updWave_formed h)))

theorem execSpec_formed {hd : Head} {f : YFmt} : OutFormed (execSpec hd f s) :=
  iteOut_formed (issueOp_formed h (fun _ => h.same)) (issueOp_formed h (fun _ => waveOp_formed h h.same))

/-! ### Float operations (Machine/Float) -/

theorem fltLane_formed {name : String} {hd : Head} {row : A3Row} {f : A3} {fill : Fmt → Nat} {op : Fmt → Nat → Nat → Nat → Nat} :
    OutFormed (fltLane name hd row f fill op s) :=
  issueOp_formed h (fun _ => h.same)

theorem fltArith_formed {name : String} {hd : Head} {row : A3Row} {f : A3} {fill : Fmt → Nat}
    {op : RM → Machine.Num → Machine.Num → Machine.Num → Machine.Num} : OutFormed (fltArith name hd row f fill op s) :=
  fltLane_formed h

theorem sfuLane_formed {name : String} {hd : Head} {f : A3} {fn : SfuFn} : OutFormed (sfuLane name hd f fn s) :=
  issueOp_formed h (fun _ => ctxLongResult_formed h)

/-! ### Fetching (Machine/Fetch) -/

theorem execFetchFault_formed {blk wave : Nat} : OutFormed (execFetchFault blk wave s) := by
  unfold execFetchFault
  split
  · refine iteOut_formed refused_formed ?_
    split
    · exact next_formed (report_formed h).same
    · exact next_formed (takeTrap_formed h)
    · exact next_formed (fatalAccess_formed h)
  · exact refused_formed

/-! ### The memory port and the L1 (Machine/Port) -/

theorem countError_formed {n : Nat} : Formed (s.countError n) := h

theorem logError_formed {cls unit num addr job : Nat} {synd : Word} : Formed (s.logError cls unit num addr job synd) :=
  ite_formed h.same h.same

theorem markLoss_formed {g : Nat} : Formed (s.markLoss g) := h

theorem unitError_formed {kind n : Nat} : Formed (s.unitError kind n) := h

theorem eccRead_formed {ecc : Ecc} {pa core grid job : Nat} {bs : List Byte} : Formed (s.eccRead ecc pa core grid job bs).2 := by
  unfold State.eccRead
  dsimp only
  split
  · exact h
  · exact h
  · exact unitError_formed (markLoss_formed (logError_formed h.same))

theorem l1Fill_formed {core : Nat} {l : L1Line} {evictFirst : Bool} : Formed (s.l1Fill core l evictFirst) :=
  updCore_formed (foldl_formed (fun _ _ ht => ite_formed ht.same ht) h)

theorem l1Store_formed {core pline off : Nat} {bs : List Byte} : Formed (s.l1Store core pline off bs) := ite_formed h.same h.same

theorem l1Drop_formed {core : Nat} {p : L1Line → Bool} : Formed (s.l1Drop core p) := h

theorem l2Read_formed {r : Req} {line : Nat} : Formed (s.l2Read r line) := ite_formed (l2Access_formed h) h

theorem refill_formed : Formed s.refill := by
  unfold State.refill
  refine ite_formed ?_ h
  dsimp only [Formed]
  exact foldl_formed (fun _ _ ht => ht.same) h

theorem present_formed {r : Req} : Formed (s.present r) := ite_formed h.same (ite_formed h.same h.same)

theorem unpin_formed {p : Pin → Bool} {tag : Nat} : Formed (s.unpin p tag) := h

theorem fabPut_formed {typ atop addr : Nat} {data : List Byte} {w : SentWrite} : Formed (s.fabPut typ atop addr data w) := h

theorem freeBuf_formed {p : FabPacket} : Formed (s.freeBuf p) := by
  unfold State.freeBuf
  split <;> exact h

theorem taken_formed {p : FabPacket} : Formed (s.taken p) := freeBuf_formed h.same

theorem sendRead_formed {id : Nat} {r : Req} {fuel : Nat} : Formed (s.sendRead id r fuel) := by
  induction fuel generalizing r with
  | zero => exact h
  | succ fuel ih =>
    unfold State.sendRead
    refine ite_formed h.same ?_
    split
    · exact h
    · exact ite_formed h.same ih

theorem departReads_formed : Formed s.departReads := by
  unfold State.departReads
  refine foldl_formed (fun _ _ ht => ?_) h
  split
  · exact ite_formed (sendRead_formed ht) ht
  · exact ht

theorem loadFill_formed {id : Nat} {r : Req} {data : List Byte} : Formed (s.loadFill id r data) := by
  unfold State.loadFill
  refine ite_formed h.same (ite_formed h.same ?_)
  split
  · exact l1Fill_formed h.same
  · exact h

theorem endProbe_formed {r : Req} : Formed (s.endProbe r) := ite_formed h h.same

theorem codeArrives_formed {id : Nat} {r : Req} {data : List Byte} : Formed (s.codeArrives id r data) :=
  endProbe_formed (ite_formed h.same h.same)

theorem afterSend_formed {id : Nat} {r : Req} {ecc : Ecc} : Formed (s.afterSend id r ecc) := by
  have hread : ∀ {t}, Formed t → ∀ {pa core grid job line}, Formed ((t.l2Read r r.line).eccRead ecc pa core grid job line).2 :=
    fun ht => eccRead_formed (l2Read_formed ht)
  unfold State.afterSend
  dsimp only
  split
  · exact l2Read_formed h.same
  · exact ite_formed (departReads_formed h) (codeArrives_formed (hread h))
  · exact ite_formed (ite_formed (departReads_formed h) h.same) (ite_formed (loadFill_formed (hread h.same)) (hread h.same))
  · exact ite_formed (departReads_formed h) h

/-! ### Accesses (Machine/Access) -/

theorem keepIndex_formed {b : Nat} {os : List Nat} : Formed (s.keepIndex b os) := by
  unfold State.keepIndex
  split <;> exact h

theorem dropShadow_formed {b : Nat} {p : Nat → Bool} : Formed (s.dropShadow b p) := by
  unfold State.dropShadow
  split <;> exact h

theorem engineWrite_formed {b o : Nat} {bs : List Byte} : Formed (s.engineWrite b o bs) := dropShadow_formed h.same

theorem l1Write_formed {core : Nat} {r : Req} : Formed (s.l1Write core r) := by
  unfold State.l1Write
  cases r.kind with
  | store | storeBlk => exact foldl_formed (fun _ _ ht => l1Store_formed ht) h
  | _ => exact h

theorem presentAll_formed {b : Block} {bn wn : Nat} {o : OpInfo} {replayed : Bool} {gs : List Got} :
    Formed (s.presentAll b bn wn o replayed gs) :=
  foldl_formed (fun _ _ ht => l1Write_formed (present_formed ht)) h

theorem fillAll_formed {b : Block} {gs : List Got} : Formed (s.fillAll b gs) := foldl_formed (fun _ _ ht => tlbFill_formed ht) h

theorem storeIdem_formed {bn wn : Nat} {kind : ReqKind} {gs : List Got} : Formed (s.storeIdem bn wn kind gs) :=
  ite_formed h.same h

theorem park_formed {x : Ctx} {scalar : Bool} {o : OpInfo} {groups : List (ℤ × List Want)} :
    Formed (s.park x scalar o groups) := by
  unfold State.park
  extract_lets b inPlace t
  have ht : Formed t := by
    refine foldl_formed (fun u g hu => ?_) h
    dsimp only [Formed]
    exact report_formed hu
  exact ite_formed ht (ite_formed ht.same ht.same)

theorem noteWrite_formed {r : Req} : Formed (s.noteWrite r) := foldl_formed (fun _ _ ht => ite_formed ht.same ht) h

/-! ### Performing requests (Machine/Perform) -/

theorem markersTo_formed {mods : List Nat} : Formed (s.markersTo mods).2 :=
  foldlSnd_formed (fun _ _ ht => foldlSnd_formed (fun _ _ ht' => ht'.same) ht) h

theorem sendMarkers_formed {b w : Nat} : Formed (s.sendMarkers b w).2 := markersTo_formed h.same

theorem markClose_formed {b w : Nat} : Formed (s.markClose b w) := by
  unfold State.markClose
  split
  · exact h
  · split
    · exact ite_formed (sendMarkers_formed h).same h
    · exact h

theorem markReleases_formed {b w : Nat} : Formed (s.markReleases b w) :=
  foldl_formed (fun _ _ ht => ite_formed (sendMarkers_formed ht).same ht) h

theorem sendDue_formed {b w : Nat} : Formed (s.sendDue b w) := markReleases_formed (markClose_formed h)

theorem openAt_formed {core scope : Nat} : Formed (s.openAt core scope) := ite_formed h h.same

theorem settleAcq_formed {b w core : Nat} : Formed (s.settleAcq b w core) := by
  unfold State.settleAcq
  split
  · exact h
  · exact ite_formed h (foldl_formed (fun _ _ ht => openAt_formed ht) h).same

theorem beginOpen_formed {b w core scope : Nat} : Formed (s.beginOpen b w core scope) := settleAcq_formed h.same

theorem unpark_formed {b w : Nat} {m : Lanes} : Formed (s.unpark b w m) := by
  unfold State.unpark
  split
  · exact h
  · exact settle_formed h.same

theorem unparkReq_formed {r : Req} {as_ : List LaneAcc} : Formed (s.unparkReq r as_) := ite_formed (unpark_formed h) h

theorem finishOp_formed {b w op core : Nat} : Formed (s.finishOp b w op core) := settleAcq_formed (ite_formed h h.same)

theorem returnReq_formed {id : Nat} {r : Req} : Formed (s.returnReq id r) := unparkReq_formed (finishOp_formed h.same)

theorem noteRead_formed {r : Req} : Formed (s.noteRead r) := foldl_formed (fun _ _ ht => ite_formed ht.same ht) h

theorem setPart_formed {id : Nat} {m : Lanes} : OptFormed (s.setPart id m) := by
  unfold State.setPart
  split
  · exact none_formed
  · exact iteOpt_formed (some_formed h.same) none_formed

theorem returnPart_formed {id : Nat} {r : Req} {vals : List (Nat × List Byte)} : Formed (s.returnPart id r vals) :=
  unparkReq_formed h.same

theorem serveLoad_formed {id : Nat} {r : Req} {ecc : Ecc} : Formed (s.serveLoad id r ecc) := by
  unfold State.serveLoad
  extract_lets t
  have ht : Formed t := l2Read_formed h
  split
  · split
    next vals u hfold =>
    have hu : Formed u := by
      refine formed_of_pair (foldlSnd_formed (fun p a hp => ?_) ht) hfold
      exact eccRead_formed hp
    exact returnReq_formed (l1Drop_formed (noteRead_formed hu))
  · split
    next data u hread =>
    have hu : Formed u := formed_of_pair (eccRead_formed ht) hread
    extract_lets v
    have hv : Formed v := noteRead_formed hu
    exact ite_formed (returnReq_formed (loadFill_formed hv)) (returnPart_formed hv)

theorem probeOwned_formed {pa : Nat} : Formed (s.probeOwned pa).2 := by
  unfold State.probeOwned
  dsimp only
  split
  · exact writeBack_formed h
  · exact h

theorem probeLine_formed {pa ten : Nat} : Formed (s.probeLine pa ten).2 := by
  unfold State.probeLine
  split
  · split
    · exact h
    · exact probeOwned_formed h
  · exact probeOwned_formed h

theorem probe_formed {pa ten : Nat} : Formed (s.probe pa ten).2 := by
  unfold State.probe
  split
  · exact h
  · exact probeLine_formed h

theorem probeResult_formed {id : Nat} {r : Req} : Formed (s.probeResult id r) := by
  unfold State.probeResult
  split
  next ws t hfold =>
  have ht : Formed t := by
    refine formed_of_pair (foldlSnd_formed (fun p a hp => ?_) h) hfold
    split
    exact formed_of_pair (probe_formed hp) ‹_›
  exact unparkReq_formed (endProbe_formed ht.same)

theorem execLoadResult_formed {req : Nat} {ecc : Ecc} : OutFormed (execLoadResult req ecc s) := by
  unfold execLoadResult
  split
  · exact refused_formed
  · refine iteOut_formed (event_formed (probeResult_formed h)) (iteOut_formed refused_formed (iteOut_formed
      (next_formed (returnReq_formed ?_)) (iteOut_formed (next_formed (serveLoad_formed h.same)) refused_formed)))
    split
    · exact loadFill_formed h
    · exact h

/-- A partial write of a line read with an error writes the line back as it was read. -/
theorem eccMerge_formed {ecc : Ecc} {pa core grid job : Nat} : Formed (s.eccMerge ecc pa core grid job) := by
  unfold State.eccMerge
  split
  · exact h
  · exact memWrite_wf _ _ _ (eccRead_formed h)

theorem writeHome_formed {r : Req} {pa : Nat} {bs : List Byte} : Formed (s.writeHome r pa bs) := homeWrite_formed h

theorem writeAll_formed {r : Req} : Formed (s.writeAll r).2 := foldlSnd_formed (fun _ _ ht => writeHome_formed ht) h

theorem sendAtomic_formed {id : Nat} {r : Req} {op : Nat} : Formed (s.sendAtomic id r op) :=
  foldl_formed (fun _ _ ht => ht.same) h.same

theorem writeAway_formed {id : Nat} {r : Req} : Formed (s.writeAway id r) := by
  unfold State.writeAway
  dsimp only
  split
  · exact sendAtomic_formed h.same
  · refine unparkReq_formed ?_
    dsimp only [Formed]
    exact foldl_formed (fun _ _ ht => ht.same) h.same
  · refine unparkReq_formed ?_
    dsimp only [Formed]
    exact noteWrite_formed (foldl_formed (fun _ _ ht => ite_formed ht.same (writeHome_formed ht)) h.same)

theorem wroteNow_formed {id : Nat} {r : Req} {olds : List (Nat × List Byte)} : Formed (s.wroteNow id r olds) := by
  unfold State.wroteNow
  refine ite_formed ?_ ?_
  · split
    · exact h
    · exact unparkReq_formed h.same
  · split
    · exact returnPart_formed h
    · exact unparkReq_formed h.same

theorem performWrite_formed {id : Nat} {r : Req} {ecc : Ecc} : Formed (s.performWrite id r ecc) :=
  ite_formed (sendDue_formed (writeAway_formed h))
    (sendDue_formed (wroteNow_formed (noteWrite_formed (writeAll_formed (eccMerge_formed h.same)))))

theorem execWritePerform_formed {req : Nat} {ecc : Ecc} : OutFormed (execWritePerform req ecc s) := by
  unfold execWritePerform
  split
  · exact refused_formed
  · exact event_formed (performWrite_formed h)

theorem armMonitor_formed {b w core pa scope : Nat} : Formed (s.armMonitor b w core pa scope) := by
  unfold State.armMonitor
  refine updWave_formed ?_
  dsimp only [Formed]
  refine ite_formed h.same ?_
  split
  · exact h
  · exact ite_formed h.same (endMonitor_formed h.same)

theorem replayOk_formed {blk : Block} {r : Replay} {gs : List Got} : Formed (s.replayOk blk r gs) := by
  unfold State.replayOk
  extract_lets t probes u
  have ht : Formed t := storeIdem_formed (fillAll_formed h)
  have hu : Formed u := foldl_formed (fun _ _ hv => present_formed hv) ht
  exact ite_formed (ite_formed hu.same hu) (sendDue_formed (presentAll_formed ht))

theorem denyInPlace_formed {b w : Nat} {t : TrapInfo} : Formed (s.denyInPlace b w t) := by
  unfold State.denyInPlace
  split
  · exact h
  · refine ite_formed h.same (ite_formed h.same ?_)
    dsimp only [Formed]
    exact takeTrap_formed h.same

theorem replayDenied_formed {rs : List Replay} : Formed (s.replayDenied rs) := by
  unfold State.replayDenied
  split
  · exact h
  · exact ite_formed (denyInPlace_formed h.same) (unpark_formed h.same)

theorem replayGroup_formed {rs : List Replay} : Formed (s.replayGroup rs) := by
  unfold State.replayGroup
  split
  · exact h
  · split
    · exact h
    · dsimp -zeta only
      extract_lets outcome
      split
      · exact fatalAccess_formed h
      · next gone t again performed denied still freed _ _ =>
        have hagain : Formed again := by
          refine foldl_formed (fun u q hu => ?_) h.same
          dsimp only [Formed]
          exact report_formed hu
        have hdenied : Formed denied := replayDenied_formed (foldl_formed (fun _ _ hu => replayOk_formed hu) hagain)
        exact finishOp_formed (ite_formed hdenied.same hdenied)

theorem replayFault_formed {fault : Nat} : Formed (s.replayFault fault) := foldl_formed (fun _ _ ht => replayGroup_formed ht) h

/-! ### Storage, page moves and flushes (Machine/Reed) -/

theorem writeback_formed {line : Nat} : Formed (s.writeback line) := ite_formed h (getD_formed (l2Evict_formed h) h)

theorem flushSome_formed {p : Nat → Bool} : Formed (s.flushSome p) :=
  foldl_formed (fun _ _ ht => ite_formed ht (writeBack_formed ht)) h

theorem execHeldWriteCommit_formed {line : Nat} : OutFormed (execHeldWriteCommit line s) := event_formed (commitLine_formed h)

theorem retryHeld_formed : Formed s.retryHeld := foldl_formed (fun _ _ ht => ite_formed (commitLine_formed ht) ht) h

theorem exhaustCheck_formed : Formed s.exhaustCheck := foldl_formed (fun _ _ ht => ite_formed (report_formed ht).same ht) h

theorem moveBegin_formed {m : Move} : Formed (s.moveBegin m) := l2Drop_formed (flushSome_formed h.same)

theorem freeSectors_formed {lines : List Nat} : Formed (s.freeSectors lines) := foldl_formed (fun _ _ ht => ht.same) h

theorem copyPage_formed {m : Move} : Formed (s.copyPage m) := by
  unfold State.copyPage
  extract_lets dst before old t
  have ht : Formed t := memMove_wf _ _ _ _ h
  exact ite_formed (foldl_formed (fun u l hu => commitLine_formed hu.same) ht) ht

theorem sendPage_formed {m : Move} : Formed (s.sendPage m) := foldl_formed (fun _ _ ht => ht.same) h

theorem remapAll_formed {m : Move} : Formed (s.remapAll m) := by
  unfold State.remapAll
  dsimp only [Formed]
  exact foldl_formed (fun _ _ ht => freeBuf_formed ht) h.same

theorem dropPage_formed {base size : Nat} : Formed (s.dropPage base size) := h

theorem moveCopy_formed {m : Move} : Formed (s.moveCopy m) :=
  (remapAll_formed (homeWrite_formed (ite_formed (copyPage_formed h) (sendPage_formed h)))).same

theorem moveFree_formed {m : Move} {lines : List Nat} : Formed (s.moveFree m lines) :=
  ite_formed (reedUpdate_formed (filter_wf _ _ (freeSectors_formed (dropPage_formed h)))) (dropPage_formed h)

theorem execReedDemote_formed {stack frame leaf : Nat} : OutFormed (execReedDemote stack frame leaf s) :=
  iteOut_formed refused_formed (iteOut_formed (next_formed h.same) (next_formed (moveBegin_formed h.same)))

theorem moveCtl_formed {v : DWord} : Formed (s.moveCtl v) := ite_formed h (ite_formed h.same (moveBegin_formed h.same))

theorem flushStart_formed : Formed s.flushStart := flushSome_formed h.same

theorem flushCtl_formed {v : DWord} : Formed (s.flushCtl v) := ite_formed h.same (flushStart_formed h.same)

theorem execL2FlushDone_formed : OutFormed (execL2FlushDone s) := event_formed (setReed_formed (ite_formed h.same h))

theorem flushWaiting_formed : Formed s.flushWaiting := flushSome_formed h

theorem t2Push_formed {v : DWord} : Formed (s.t2Push v) := ite_formed h.same (homeWrite_formed h).same

theorem t2CountWrite_formed {v : DWord} : Formed (s.t2CountWrite v) := ite_formed h h.same

theorem thresholdWrite_formed {high : Bool} {n : Nat} {v : DWord} : Formed (s.thresholdWrite high n v) := ite_formed h h.same

/-! ### Placing blocks (Machine/Grant) -/

theorem startBlock_formed {g : Nat} {gr : Grid} {index : Nat} {vcore : Option Nat} {core row : Nat} :
    Formed (s.startBlock g gr index vcore core row) :=
  h

theorem codeNeeded_formed {blk : Block} {b w id v pa : Nat} {leaf : DWord} : Formed (s.codeNeeded blk b w id v pa leaf) :=
  ite_formed (tlbFill_formed h) (present_formed (tlbFill_formed h))

theorem lockLines_formed {blk : Block} {b w id : Nat} {v last : Int} {fuel : Nat} :
    Formed (s.lockLines blk b w id v last fuel) := by
  induction fuel generalizing s v with
  | zero => exact h
  | succ fuel ih =>
    unfold State.lockLines
    refine ite_formed h ?_
    split
    · split
      · exact ih (codeNeeded_formed h).same
      · exact h
    · exact fatalAccess_formed h
    · exact h

theorem relock_formed {b : Nat} {runs : List (Nat × Nat)} : Formed (s.relock b runs) := by
  unfold State.relock
  refine foldl_formed (fun _ _ ht => ?_) h.same
  split
  · exact ite_formed ht (lockLines_formed ht)
  · exact ht

theorem reseat_formed {i : SavedImage} {core row : Nat} : Formed (s.reseat i core row) := relock_formed h.same

theorem firstVisit_formed {g : Nat} {gr : Grid} {core : Nat} : Formed (s.firstVisit g gr core) := ite_formed h h.same

theorem placeNext_formed {g : Nat} {n : NextBlock} {core row : Nat} : Formed (s.placeNext g n core row) := by
  unfold State.placeNext
  split
  · exact h
  · dsimp only [Formed]
    split
    · exact reseat_formed (firstVisit_formed h)
    · exact updGrid_formed (startBlock_formed (firstVisit_formed h))
    · exact updGrid_formed (startBlock_formed (firstVisit_formed h))

theorem placeOne_formed {g : Nat} : OptFormed (s.placeOne g) := by
  unfold State.placeOne
  split
  · exact map_formed (fun _ => placeNext_formed h)
  · exact none_formed

theorem placeAll_formed {g n : Nat} : OptFormed (s.placeAll g n) := by
  induction n generalizing s with
  | zero => exact some_formed h
  | succ n ih => exact bindState_formed (placeOne_formed h) fun _ ht => ih ht

/-! ### The command processor (Machine/Command) -/

theorem updSession_formed {n : Nat} {f : Session → Session} : Formed (s.updSession n f) := h

theorem emit_formed {x : Option Session} {prot : Bool} {o : OutFrame} : Formed (s.emit x prot o) := by
  unfold State.emit
  dsimp only
  split
  · exact ite_formed h.same h.same
  · exact h

theorem hostGo_formed : Formed s.hostGo := h

theorem sendFrame_formed {n : Nat} {o : OutFrame} : Formed (s.sendFrame n o) := by
  unfold State.sendFrame
  split
  · exact h
  · exact (emit_formed h).same

theorem queueReport_formed {q typ tag : Nat} {w1 w2 : DWord} : Formed (s.queueReport q typ tag w1 w2) := sendFrame_formed h

theorem updQueue_formed {n : Nat} {f : Queue → Queue} : Formed (s.updQueue n f) := h

theorem settleQueue_formed {n : Nat} : Formed (s.settleQueue n) := by
  unfold State.settleQueue
  split
  · exact h
  · exact showQueue_formed h.same

theorem endPacket_formed {n len : Nat} : Formed (s.endPacket n len) := settleQueue_formed h.same

theorem holdPacket_formed {n : Nat} {p : Pending} : Formed (s.holdPacket n p) := settleQueue_formed h.same

theorem refusePacket_formed {n tag len code : Nat} {w2 : DWord} : Formed (s.refusePacket n tag len code w2) :=
  ite_formed (showQueue_formed (updQueue_formed (queueReport_formed h.same))) (endPacket_formed (queueReport_formed h.same))

theorem cpRead_formed {pa : Nat} : Formed (s.cpRead pa).2 := by
  unfold State.cpRead
  split <;> exact h

theorem cpWrite_formed {pa va : Nat} {al : Alloc} {v : DWord} {job : Nat} : Formed (s.cpWrite pa va al v job) :=
  ite_formed (homeWrite_formed h) h.same

theorem cpWait_formed {n : Nat} {b : Binding} {need : Need} {va : Nat} : Formed (s.cpWait n b need va) := by
  unfold State.cpWait
  split
  exact holdPacket_formed (formed_of_pair (report_formed h) ‹_›)

theorem cpFatal_formed {b : Binding} {need : Need} {va : Nat} : Formed (s.cpFatal b need va) := fatalAccess_formed h

theorem checked_formed {n : Nat} {q : Queue} {p : Pkt} {go : Binding → State → State} (hgo : ∀ b, Formed (go b s)) :
    Formed (s.checked n q p go) := by
  unfold State.checked
  refine ite_formed (refusePacket_formed h) ?_
  split
  · exact refusePacket_formed h
  · exact hgo _

theorem holdRefusal_formed {n tag code : Nat} {b : Binding} {va : Nat} : Formed (s.holdRefusal n tag code b va) := by
  unfold State.holdRefusal
  split
  exact settleQueue_formed (formed_of_pair (report_formed h) ‹_›).same

theorem refuseLaunch_formed {n : Nat} {q : Queue} {p : Pkt} {code : Nat} : Formed (s.refuseLaunch n q p code) := by
  unfold State.refuseLaunch
  split
  · exact refusePacket_formed h
  · refine ite_formed (refusePacket_formed h) ?_
    dsimp only
    split
    · exact refusePacket_formed (cpWrite_formed h)
    · exact refusePacket_formed h
    · exact holdRefusal_formed h
    · exact refusePacket_formed (cpFatal_formed h)

theorem joinGraph_formed {job graph : Nat} : Formed (s.joinGraph job graph) := by
  unfold State.joinGraph
  split <;> exact h

theorem measureFor_formed {b : Binding} {k : Kern} : Formed (s.measureFor b k) := by
  unfold State.measureFor
  split
  · exact h
  · exact ite_formed h h.same

theorem enterMillrace_formed {n : Nat} {q : Queue} {p : Pkt} {b : Binding} {k : Kern} : Formed (s.enterMillrace n q p b k) := by
  unfold State.enterMillrace
  dsimp only
  refine endPacket_formed ?_
  dsimp only [Formed]
  exact ite_formed (measureFor_formed (joinGraph_formed h.same)) (joinGraph_formed h.same)

theorem launchRecord_formed {n : Nat} {q : Queue} {p : Pkt} {b : Binding} {k : Kern} : Formed (s.launchRecord n q p b k) := by
  unfold State.launchRecord
  dsimp only
  split
  · exact cpWait_formed h
  · exact refusePacket_formed h
  · exact refusePacket_formed (cpFatal_formed h)
  · exact ite_formed (refuseLaunch_formed (cpWrite_formed h))
      (ite_formed (holdPacket_formed (cpWrite_formed h)) (enterMillrace_formed (cpWrite_formed h)))

theorem launchPacket_formed {n : Nat} {q : Queue} {p : Pkt} : Formed (s.launchPacket n q p) := by
  unfold State.launchPacket
  refine ite_formed (refuseLaunch_formed h) ?_
  split
  · exact refuseLaunch_formed h
  · refine ite_formed (refuseLaunch_formed h) (ite_formed (refuseLaunch_formed h) (ite_formed (refuseLaunch_formed h) ?_))
    split
    · exact cpWait_formed h
    · exact refuseLaunch_formed (cpFatal_formed h)
    · exact refuseLaunch_formed h
    · split
      · exact refuseLaunch_formed h
      · exact launchRecord_formed h

theorem execLaunch_formed {queue : Nat} : OutFormed (execLaunch queue s) := by
  unfold execLaunch
  split
  · exact event_formed (launchPacket_formed h)
  · exact refused_formed

theorem waitOnce_formed {n : Nat} {q : Queue} {p : Pkt} {b : Binding} : Formed (s.waitOnce n q p b) := by
  unfold State.waitOnce
  dsimp only
  split
  · exact ite_formed (endPacket_formed h) (holdPacket_formed h)
  · exact ite_formed (endPacket_formed h) (holdPacket_formed h)
  · split
    · exact refusePacket_formed h
    · exact cpWait_formed h
    · exact refusePacket_formed (cpFatal_formed h)
    · exact ite_formed (endPacket_formed (cpRead_formed h)) (holdPacket_formed (cpRead_formed h))

theorem execWait_formed {queue : Nat} : OutFormed (execWait queue s) := by
  unfold execWait
  split
  · exact next_formed (checked_formed h (fun _ => waitOnce_formed h))
  · exact refused_formed

theorem execWaitSatisfied_formed {queue : Nat} : OutFormed (execWaitSatisfied queue s) := by
  unfold execWaitSatisfied
  split
  · split
    · exact next_formed (endPacket_formed h)
    · exact event_formed (waitOnce_formed h)
    · exact refused_formed
  · exact refused_formed

theorem signalEnd_formed {n : Nat} {p : Pkt} {v : DWord} : Formed (s.signalEnd n p v) :=
  endPacket_formed (ite_formed (queueReport_formed h) h)

theorem signalAcked_formed {n : Nat} {p : Pkt} : Formed (s.signalAcked n p) := signalEnd_formed h.same

theorem signalStored_formed {n : Nat} {p : Pkt} {pa : Nat} {v : DWord} : Formed (s.signalStored n p pa v) :=
  ite_formed (holdPacket_formed h) (signalEnd_formed h)

theorem signalPerform_formed {n : Nat} {q : Queue} {p : Pkt} {b : Binding} : Formed (s.signalPerform n q p b) := by
  unfold State.signalPerform
  dsimp only
  split
  · exact refusePacket_formed h
  · exact cpWait_formed h
  · exact refusePacket_formed (cpFatal_formed h)
  · exact ite_formed (signalStored_formed (cpWrite_formed h))
      (holdPacket_formed (markersTo_formed (ite_formed h.same (cpWrite_formed h))))

theorem execSignal_formed {queue : Nat} : OutFormed (execSignal queue s) := by
  unfold execSignal
  split
  · split
    · exact next_formed (signalEnd_formed h)
    · exact next_formed (signalAcked_formed h)
    · refine event_formed (checked_formed h fun _ => ?_)
      exact ite_formed (holdPacket_formed h) (signalPerform_formed h)
  · exact refused_formed

theorem cancelPerform_formed {n : Nat} {p : Pkt} {b : Binding} : Formed (s.cancelPerform n p b) := by
  unfold State.cancelPerform
  extract_lets graph gs t
  have ht : Formed t := by
    dsimp only [t]
    split
    · exact foldl_formed (fun _ _ hu => cancelGrid_formed hu) h
    · exact cancelGraph_formed h
    · exact cancelJob_formed h
  exact ite_formed (endPacket_formed h) (ite_formed (holdPacket_formed ht) (endPacket_formed ht))

theorem execCancel_formed {queue : Nat} : OutFormed (execCancel queue s) := by
  unfold execCancel
  split
  · exact next_formed (ite_formed (endPacket_formed h) (checked_formed h (fun _ => cancelPerform_formed h)))
  · exact refused_formed

theorem closePerform_formed {n : Nat} {p : Pkt} {b : Binding} : Formed (s.closePerform n p b) :=
  ite_formed (endPacket_formed h) (endPacket_formed (reapJobs_formed (ite_formed h.same h.same)))

theorem execClose_formed {queue : Nat} : OutFormed (execClose queue s) := by
  unfold execClose
  split
  · exact next_formed (checked_formed h (fun _ => closePerform_formed h))
  · exact refused_formed

theorem setTen_formed {n : Nat} {cfg root : DWord} : Formed (s.setTen n cfg root) := h

theorem rebind_formed {ten root asn : Nat} : Formed (s.rebind ten root asn) := h

theorem bindPerform_formed {n : Nat} {p : Pkt} : Formed (s.bindPerform n p) := by
  unfold State.bindPerform
  refine ite_formed (refusePacket_formed h) ?_
  dsimp only
  refine endPacket_formed (updQueue_formed ?_)
  split
  · exact rebind_formed (setTen_formed (ite_formed h.same h))
  · dsimp only [Formed]
    exact newId_formed (rebind_formed (setTen_formed (ite_formed h.same h)))

theorem execBind_formed {queue : Nat} : OutFormed (execBind queue s) := by
  unfold execBind
  split
  · exact iteOut_formed refused_formed (next_formed (ite_formed (refusePacket_formed h) (ite_formed (refusePacket_formed h)
      (ite_formed (holdPacket_formed h) (bindPerform_formed h)))))
  · exact refused_formed

theorem execTickalign_formed {queue : Nat} : OutFormed (execTickalign queue s) := by
  unfold execTickalign
  split
  · exact next_formed (checked_formed h (fun _ => holdPacket_formed h))
  · exact refused_formed

theorem tickFalls_formed : Formed s.tickFalls := by
  unfold State.tickFalls
  refine foldl_formed (fun _ _ ht => ?_) h.same
  split
  · exact ite_formed (endPacket_formed ht) ht
  · exact ht

theorem refuseReserved_formed : Formed s.refuseReserved := by
  unfold State.refuseReserved
  refine foldl_formed (fun _ _ ht => ?_) h
  split
  · refine ite_formed ?_ ht
    split
    · exact refusePacket_formed ht
    · exact ht
  · exact ht

/-! ### The scheduler (Machine/Sched) -/

theorem updDisp_formed {f : Dispatcher → Dispatcher} : Formed (s.updDisp f) := h

theorem noteHead_formed : Formed s.noteHead := ite_formed h h.same

theorem execDispatchTakeGrid_formed : OutFormed (execDispatchTakeGrid s) := by
  unfold execDispatchTakeGrid
  refine iteOut_formed refused_formed ?_
  split
  · exact refused_formed
  · exact next_formed (noteHead_formed h.same)

theorem endReserves_formed {g : Nat} : Formed (s.endReserves g) := ite_formed h.same h

theorem headPlaced_formed : Formed s.headPlaced := noteHead_formed h.same

theorem placeReserved_formed {i : Nat} {r : Reserve} : OptFormed (s.placeReserved i r) := by
  unfold State.placeReserved
  split
  · refine iteOpt_formed none_formed (map_formed fun row => ?_)
    extract_lets t
    have ht : Formed t := endReserves_formed (placeNext_formed h).same
    exact ite_formed (headPlaced_formed ht) ht
  · exact none_formed

theorem placeReservedAll_formed {g : Nat} : OptFormed (s.placeReservedAll g) :=
  iteOpt_formed none_formed (foldlOpt_formed
    (fun _ _ ht => bindState_formed ht (fun _ ht' => placeReserved_formed ht')) (some_formed h))

theorem placeAssigned_formed : OptFormed s.placeAssigned :=
  findSome_formed (fun _ => iteOpt_formed (iteOpt_formed none_formed (placeReservedAll_formed h)) (placeReserved_formed h))

theorem placeGrid_formed {g : Nat} : OptFormed (s.placeGrid g) := by
  unfold State.placeGrid
  split
  · exact none_formed
  · exact iteOpt_formed none_formed (iteOpt_formed (mapState_formed (placeAll_formed h) (fun _ ht => ht.same))
      (iteOpt_formed none_formed (mapState_formed (placeOne_formed h) (fun _ ht => endReserves_formed ht))))

theorem abortGrid_formed {g : Nat} : Formed (s.abortGrid g) := (dropImages_formed h).same

theorem execBlockPlace_formed : OutFormed (execBlockPlace s) := by
  unfold execBlockPlace
  dsimp only
  split
  · exact next_formed (noteHead_formed (placeAssigned_formed (noteHead_formed h) _ ‹_›))
  · split
    · exact refused_formed
    · split
      · exact next_formed (headPlaced_formed (placeGrid_formed (noteHead_formed h) _ ‹_›))
      · exact iteOut_formed (next_formed (noteHead_formed (abortGrid_formed (noteHead_formed h)))) refused_formed

theorem execBackfill_formed {behind : Nat} : OutFormed (execBackfill behind s) := by
  unfold execBackfill
  dsimp only
  split
  · refine iteOut_formed refused_formed ?_
    split
    · exact next_formed (placeGrid_formed (noteHead_formed h) _ ‹_›)
    · exact refused_formed
  · exact refused_formed

theorem blockMarkers_formed : Formed s.blockMarkers := by
  unfold State.blockMarkers
  refine foldl_formed (fun t e ht => ite_formed ?_ ht) h
  split
  next tags u hfold =>
  have hu : Formed u := by
    refine formed_of_pair (foldlSnd_formed (fun p w hp => ?_) ht) hfold
    split
    exact formed_of_pair (sendMarkers_formed hp) ‹_›
  exact hu.same

theorem gridMarkers_formed : Formed s.gridMarkers := foldl_formed (fun _ _ ht => ite_formed (markersTo_formed ht).same ht) h

theorem removeBlock_formed {b : Nat} {blk : Block} : Formed (s.removeBlock b blk) := h

theorem execBlockRetire_formed {blk : Nat} : OutFormed (execBlockRetire blk s) := by
  unfold execBlockRetire
  split
  · exact refused_formed
  · refine iteOut_formed refused_formed ?_
    split
    · exact next_formed (abortBlock_formed h)
    · exact next_formed (noteHead_formed h.same)

theorem forgetGrid_formed {g : Nat} : Formed (s.forgetGrid g) := h

theorem gridLost_formed {g : Nat} {gr : Grid} : Formed (s.gridLost g gr) := (queueReport_formed h).same

theorem writeRecord_formed {g : Nat} : Formed (s.writeRecord g) := by
  unfold State.writeRecord
  split
  · exact h
  · dsimp only
    split
    · exact forgetGrid_formed (cpWrite_formed h.same)
    · exact gridLost_formed h.same
    · exact gridLost_formed (cpFatal_formed h.same)
    · exact updGrid_formed (report_formed h.same)

theorem leaveGraph_formed {job graph : Nat} : Formed (s.leaveGraph job graph) := h

theorem finishGrid_formed {g : Nat} {gr : Grid} : Formed (s.finishGrid g gr) :=
  noteHead_formed (writeRecord_formed (leaveGraph_formed (updGrid_formed (updDisp_formed h))))

theorem execGridComplete_formed {grid : Nat} : OutFormed (execGridComplete grid s) := by
  unfold execGridComplete
  split
  · exact refused_formed
  · exact event_formed (finishGrid_formed h)

/-! ### Saving and resuming (Machine/Weir) -/

theorem saveBegin_formed {b : Nat} {blk : Block} : Formed (s.saveBegin b blk) :=
  updGrid_formed (foldl_formed (fun _ _ ht => loseMonitor_formed ht) h.same)

theorem commitVictim_formed {v : Victim} : Formed (s.commitVictim v) := by
  unfold State.commitVictim
  refine foldl_formed (fun _ _ ht => ?_) h
  split
  · exact ht
  · dsimp only
    split
    · exact ht
    · exact ht
    · exact saveBegin_formed ht.same

theorem execWeirRun_formed : OutFormed (execWeirRun s) := by
  unfold execWeirRun
  dsimp only
  split
  · exact refused_formed
  · exact next_formed (noteHead_formed (foldl_formed (fun _ _ ht => commitVictim_formed ht) (noteHead_formed h).same))

theorem granaryStore_formed {pa : Nat} {bs : List Byte} {job fuel : Nat} : Formed (s.granaryStore pa bs job fuel) := by
  induction fuel generalizing s pa bs with
  | zero => exact h
  | succ fuel ih => exact ite_formed h (ih (rawWrite_formed h))

theorem writeChunks_formed {job size : Nat} {head : List Byte} {ks : List Nat} {pos : Nat} :
    Formed (s.writeChunks job size head ks pos) := by
  induction ks generalizing s pos with
  | nil => exact h
  | cons k ks ih => exact ih (granaryStore_formed h)

theorem takeImage_formed {b : Nat} {blk : Block} : Formed (s.takeImage b blk) := by
  unfold State.takeImage
  dsimp only [Formed]
  exact removeBlock_formed (updCore_formed (writeChunks_formed h))

theorem execSaveImageWrite_formed {blk : Nat} : OutFormed (execSaveImageWrite blk s) := by
  unfold execSaveImageWrite
  split
  · exact refused_formed
  · refine iteOut_formed refused_formed (iteOut_formed (next_formed (noteHead_formed (stopBlock_formed h).same)) ?_)
    dsimp only
    split
    · exact refused_formed
    · exact next_formed (noteHead_formed (takeImage_formed (foldl_formed (fun _ _ ht => loseMonitor_formed ht) h)))

theorem replayAcked_formed {b : Nat} : Formed (s.replayAcked b) := foldl_formed (fun _ _ ht => replayGroup_formed ht) h

theorem execResumeIssue_formed {blk : Nat} : OutFormed (execResumeIssue blk s) := by
  unfold execResumeIssue
  split
  · exact refused_formed
  · exact iteOut_formed refused_formed (next_formed (replayAcked_formed (openAt_formed h.same)))

/-! ### Copy commands (Machine/Copy) -/

theorem updTile_formed {b n : Nat} {f : Tile → Tile} : Formed (s.updTile b n f) := h

theorem clearFlagAll_formed {b op : Nat} : Formed (s.clearFlagAll b op) := h

theorem settleTiles_formed {b : Nat} : Formed (s.settleTiles b) := by
  unfold State.settleTiles
  split
  · exact h
  · exact foldl_formed (fun _ _ ht => ht.same) h.same

theorem setTile_formed {b n : Nat} {st : TileState} : Formed (s.setTile b n st) := settleTiles_formed h.same

theorem addReaders_formed {b : Nat} {ns : List Nat} : Formed (s.addReaders b ns) := foldl_formed (fun _ _ ht => ht.same) h

theorem dropReaders_formed {b : Nat} {ns : List Nat} : Formed (s.dropReaders b ns) :=
  settleTiles_formed (foldl_formed (fun _ _ ht => ht.same) h)

theorem updQueueOf_formed {core q : Nat} {f : List CopyCmd → List CopyCmd} : Formed (s.updQueueOf core q f) := h

theorem updCmd_formed {core id : Nat} {f : CopyCmd → CopyCmd} : Formed (s.updCmd core id f) := h

theorem rowPages_formed {c : CopyCmd} {b : Block} {gs : List (Piece × Nat × DWord × Bool)} : Formed (s.rowPages c b gs) :=
  ite_formed (foldl_formed (fun _ _ ht => tlbFill_formed ht) h).same (foldl_formed (fun _ _ ht => tlbFill_formed ht) h)

theorem presentRows_formed {core id : Nat} {b : Block} {t : Tile} {is : List Nat} : Formed (s.presentRows core id b t is) := by
  induction is generalizing s with
  | nil => exact h.same
  | cons i is ih =>
    unfold State.presentRows
    split
    · exact h
    · split
      · exact ih (updCmd_formed (foldl_formed (fun _ _ ht => present_formed ht) (rowPages_formed h)))
      · exact (report_formed h).same
      · exact h.same
      · exact fatalAccess_formed h

theorem presentCmd_formed {core id : Nat} : Formed (s.presentCmd core id) := by
  unfold State.presentCmd
  split
  · exact h
  · split
    · exact h
    · split
      · exact h
      · exact presentRows_formed h

theorem presentHint_formed {c : CopyCmd} {b : Block} {addr len : Nat} : Formed (s.presentHint c b addr len) := by
  unfold State.presentHint
  refine foldl_formed (fun _ _ ht => ite_formed ht ?_) h
  split
  · exact present_formed ht
  · exact fatalAccess_formed ht
  · exact ht

theorem execCopyBegin_formed {core queue : Nat} : OutFormed (execCopyBegin core queue s) := by
  unfold execCopyBegin
  split
  · exact refused_formed
  · dsimp only
    split
    · exact next_formed (presentHint_formed h.same)
    · exact next_formed (presentCmd_formed h.same)

theorem fillBytes_formed {ecc : Ecc} {r : Req} : Formed (s.fillBytes ecc r).2 := by
  unfold State.fillBytes
  split
  · exact h
  · exact foldlSnd_formed (fun _ _ ht => eccRead_formed ht) (l2Read_formed h)

theorem noteDrained_formed {r : Req} : Formed (s.noteDrained r) := ite_formed h.same h

theorem drainReq_formed {ecc : Ecc} {b : Block} {r : Req} : Formed (s.drainReq ecc b r) := by
  unfold State.drainReq
  extract_lets t m
  have ht : Formed t := foldl_formed (fun _ _ hu =>
    ite_formed (fabPut_formed (l1Store_formed hu)) (writeHome_formed (eccMerge_formed (l1Store_formed hu)))) h
  exact ite_formed ht.same (noteDrained_formed ht)

theorem moveRow_formed {ecc : Ecc} {b : Nat} {es : List (Nat × Req)} : Formed (s.moveRow ecc b es) := by
  unfold State.moveRow
  refine foldl_formed (fun _ _ ht => ?_) ?_
  · split
    · exact foldl_formed (fun _ _ ht' => engineWrite_formed ht') (fillBytes_formed ht)
    · split
      · exact drainReq_formed ht
      · exact ht
  · dsimp only [Formed]
    exact foldl_formed (fun _ _ ht => ite_formed ht ht.same) h

theorem moveRows_formed {ecc : Ecc} {core id fuel : Nat} : Formed (s.moveRows ecc core id fuel) := by
  induction fuel generalizing s with
  | zero => exact h
  | succ fuel ih =>
    unfold State.moveRows
    split
    · exact h
    · exact ite_formed (ih (moveRow_formed h).same) h

theorem copyAdvance_formed {ecc : Ecc} {core id : Nat} : Formed (s.copyAdvance ecc core id) := moveRows_formed h

theorem advanceAll_formed : Formed s.advanceAll :=
  foldl_formed (fun _ _ ht => foldl_formed (fun _ _ ht' => copyAdvance_formed ht') ht) h

theorem copyFinish_formed {core : Nat} {c : CopyCmd} : Formed (s.copyFinish core c) := by
  unfold State.copyFinish
  dsimp only
  split
  · exact h
  · split
    · exact clearFlagAll_formed (setTile_formed h.same)
    · exact ite_formed (settleTiles_formed h.same) (clearFlagAll_formed (setTile_formed h.same))

theorem execCopyComplete_formed {core queue : Nat} {ecc : Ecc} : OutFormed (execCopyComplete core queue ecc s) := by
  unfold execCopyComplete
  split
  · exact refused_formed
  · refine iteOut_formed refused_formed ?_
    dsimp only
    split
    · exact refused_formed
    · exact event_formed (copyFinish_formed (copyAdvance_formed h))

theorem execPortSend_formed {core : Nat} {ecc : Ecc} : OutFormed (execPortSend core ecc s) := by
  unfold execPortSend
  split
  · exact refused_formed
  · refine next_formed ?_
    split
    · exact copyAdvance_formed (afterSend_formed h.same)
    · exact copyAdvance_formed (afterSend_formed h.same)
    · exact afterSend_formed h.same

/-! ### Tiles (Machine/Tiles) -/

theorem ctxWithTile_formed {x : Ctx} {n : Nat} {undef : Bool} {go : Tile → State → State} (hgo : ∀ t, Formed (go t s)) :
    Formed (x.withTile n undef go s) := by
  unfold Ctx.withTile
  split
  · exact ctxRaise_formed h
  · split
    · exact ctxRaise_formed h
    · exact ite_formed (ctxRaise_formed h) (hgo _)

theorem needState_formed {ok : Bool} {go : State → State} (hgo : Formed (go s)) : Formed (needState ok go s) :=
  ite_formed hgo h

theorem ctxDefineTile_formed {x : Ctx} {f : EFmt} {t : Tile} : Formed (x.defineTile f t s) := by
  unfold Ctx.defineTile
  refine ite_formed (ctxRaise_formed h) ?_
  split
  · exact ctxRaise_formed h
  · exact settleTiles_formed h.same

theorem execTileDef_formed {hd : Head} {f : EFmt} : OutFormed (execTileDef hd f s) :=
  issueOp_formed h (fun _ => waveOp_formed h (ctxWithTile_formed h (fun _ => needState_formed h (ctxDefineTile_formed h))))

theorem ctxTileOp_formed {x : Ctx} {n : Nat} {g : TileGoal} : Formed (x.tileOp n g s) :=
  settleTiles_formed (updBlock_formed (ctxSetFlag_formed h.same))

theorem execTileRel_formed {hd : Head} {f : EFmt} : OutFormed (execTileRel hd f s) :=
  issueOp_formed h (fun _ => waveOp_formed h (ctxWithTile_formed h (fun _ => needState_formed h (ctxTileOp_formed h))))

theorem ctxScalLater_formed {x : Ctx} {d v : Nat} : Formed (x.scalLater d v s) := present_formed (ctxSetFlag_formed h.same)

theorem ctxEnqueue_formed {x : Ctx} {q : Nat} {mk : Nat → CopyCmd} : Formed (x.enqueue q mk s) :=
  updQueueOf_formed (ctxSetFlag_formed h.same)

theorem drainIdem_formed {x : Ctx} {c : CopyCmd} {t : Tile} : Formed (s.drainIdem x c t) := ite_formed h.same h

theorem ctxIssueCopy_formed {x : Ctx} {f : EFmt} {k : CopyKind} {t : Tile} : Formed (x.issueCopy f k t s) := by
  unfold Ctx.issueCopy
  dsimp only
  split
  · exact ctxRaise_formed h
  · exact updTile_formed (ctxEnqueue_formed (drainIdem_formed h))

theorem copyIssue_formed {name : String} {hd : Head} {f : EFmt} {k : CopyKind} {st : TileState} {uses : List RegUse} :
    OutFormed (copyIssue name hd f k st uses s) :=
  issueOp_formed h (fun _ => waveOp_formed h (ctxWithTile_formed h (fun _ => needState_formed h (ctxIssueCopy_formed h))))

/-! ### Collectives (Machine/Coll) -/

theorem updColl_formed {g : Nat} {f : CollGroup → CollGroup} : Formed (s.updColl g f) := h

theorem collIssue_formed {name : String} {hd : Head} {f : EFmt} {elem : Nat} {bc : Bool} :
    OutFormed (collIssue name hd f elem bc s) :=
  issueOp_formed h (fun _ => waveOp_formed h.same (ite_formed h.same (needState_formed h.same
    (updColl_formed (ctxEnqueue_formed h.same)))))

theorem settleColls_formed {b : Nat} : Formed (s.settleColls b) := by
  unfold State.settleColls
  split
  · exact h
  · exact foldl_formed (fun _ _ ht => present_formed ht.same) h.same

theorem execCollWait_formed {hd : Head} {f : EFmt} : OutFormed (execCollWait hd f s) :=
  issueOp_formed h (fun _ => waveOp_formed h (settleColls_formed (updBlock_formed (ctxSetFlag_formed h.same))))

theorem bufPass_formed {ps : List BufPiece} : Formed (s.bufPass ps) :=
  foldl_formed (fun _ _ ht => ite_formed (l2Access_formed ht) ht) h

theorem bufWrite_formed {b : Block} {ps : List BufPiece} {bs : List Byte} : Formed (s.bufWrite b ps bs) :=
  foldl_formed (fun _ _ ht => ite_formed (homeWrite_formed (l1Store_formed ht)) (l1Store_formed ht).same) h

theorem collFinish_formed {core q : Nat} {c : CopyCmd} {bits : Word} : Formed (s.collFinish core q c bits) :=
  settleColls_formed h.same

theorem collSend_formed {c : CopyCmd} {bs : List Byte} : Formed (s.collSend c bs) :=
  ite_formed h (foldl_formed (fun _ _ ht => foldl_formed (fun _ _ ht' => ht'.same) ht) h)

theorem execCollBegin_formed {core queue : Nat} : OutFormed (execCollBegin core queue s) := by
  unfold execCollBegin
  split
  · exact refused_formed
  · split
    · exact next_formed (collFinish_formed h)
    · exact next_formed (fatalAccess_formed h)
    · exact next_formed (updCmd_formed (report_formed h))
    · refine next_formed ?_
      dsimp only [Formed]
      exact collSend_formed (updCmd_formed (bufPass_formed h))

theorem collWritten_formed {core q : Nat} {c : CopyCmd} {ps : List BufPiece} {bits : Word} :
    Formed (s.collWritten core q c ps bits) :=
  ite_formed (collFinish_formed h) h.same

theorem execCollComplete_formed {core queue : Nat} {mismatch lost : Bool} :
    OutFormed (execCollComplete core queue mismatch lost s) := by
  unfold execCollComplete
  split
  · exact refused_formed
  · refine iteOut_formed (event_formed (collFinish_formed h)) ?_
    split
    · refine iteOut_formed refused_formed (iteOut_formed (next_formed (collFinish_formed h.same)) ?_)
      split
      · exact next_formed (collFinish_formed h.same)
      · exact next_formed (collFinish_formed (fatalAccess_formed h.same))
      · exact next_formed (updCmd_formed (report_formed h.same))
      · exact event_formed (collWritten_formed (bufWrite_formed h.same))
    · exact refused_formed

theorem execFabricColl_formed {p : FabPacket} : OutFormed (execFabricColl p s) := event_formed (taken_formed h).same

/-! ### Control transfers (Machine/Control) -/

theorem ctxTransfer_formed {x : Ctx} {m : Lanes} {tgt : Nat → Int} {also : State → State} (ha : Formed (also s)) :
    Formed (x.transfer m tgt also s) :=
  ite_formed (ctxRaise_formed h) (ite_formed (ctxRaise_formed h) ha.same)

theorem ctxBranchIf_formed {x : Ctx} {f : CFmt} {vote : Bool} : Formed (x.branchIf f vote s) :=
  ite_formed (ctxTransfer_formed h h) h

theorem execRcvRelease_formed {blk wave : Nat} : OutFormed (execRcvRelease blk wave s) := by
  unfold execRcvRelease
  split
  · exact refused_formed
  · exact event_formed (resumeLanes_formed h)

theorem execSleepEnd_formed {blk wave : Nat} : OutFormed (execSleepEnd blk wave s) := by
  unfold execSleepEnd
  split
  · exact refused_formed
  · exact event_formed h.same

/-! ### Conversions (Machine/Convert) -/

theorem hdrLane_formed {name : String} {hd : Head} {row : A3Row} {f : A3} {op : Nat → Nat → Nat} :
    OutFormed (hdrLane name hd row f op s) :=
  issueOp_formed h (fun _ => ite_formed (ctxRaise_formed h) h.same)

theorem execDqblk_formed {hd : Head} {f : A3} : OutFormed (execDqblk hd f s) := by
  unfold execDqblk
  refine issueOp_formed h (fun _ => waveOp_formed h ?_)
  dsimp only
  split
  · exact ctxRaise_formed h
  · exact h

theorem packLane_formed {name : String} {hd : Head} {f : A3} {w max : Nat} : OutFormed (packLane name hd f w max s) :=
  issueOp_formed h (fun _ => h.same)

theorem unpackLane_formed {name : String} {hd : Head} {f : A3} {w max : Nat} : OutFormed (unpackLane name hd f w max s) :=
  issueOp_formed h (fun _ => h.same)

/-! ### Faults and their answers (Machine/Faults) -/

theorem faultqBase_formed {v : DWord} : Formed (s.faultqBase v) := writeFaults_formed h.same

theorem faultqSize_formed {v : DWord} : Formed (s.faultqSize v) := ite_formed h (writeFaults_formed h.same)

theorem faultqRidx_formed {v : DWord} : Formed (s.faultqRidx v) := writeFaults_formed h.same

theorem refetch_formed {core asn page : Nat} : Formed (s.refetch core asn page) := h

theorem resumeCopies_formed {id : Nat} : Formed (s.resumeCopies id) :=
  foldl_formed (fun _ _ ht => ite_formed ht.same (presentCmd_formed ht.same)) h

theorem ackImages_formed {id : Nat} : Formed (s.ackImages id) := h

theorem endRefusal_formed {n : Nat} {q : Queue} {p : Pkt} {code : Nat} {w2 : DWord} : Formed (s.endRefusal n q p code w2) :=
  ite_formed (settleQueue_formed (queueReport_formed h.same)) (endPacket_formed (queueReport_formed h.same))

theorem settleRefusal_formed {again : Bool} {n code : Nat} : Formed (s.settleRefusal again n code) := by
  fun_cases State.settleRefusal s again n code
  · exact h
  · exact endRefusal_formed (updQueue_formed h)
  · exact endRefusal_formed (cpWrite_formed h)
  · exact endRefusal_formed (updQueue_formed h)
  · exact holdRefusal_formed h
  · exact endRefusal_formed (updQueue_formed (cpFatal_formed h))
  · exact h

theorem retryCp_formed {id : Nat} : Formed (s.retryCp id) :=
  foldl_formed (fun _ _ ht => writeRecord_formed ht) (foldl_formed (fun _ _ ht => settleQueue_formed ht.same)
    (foldl_formed (fun _ _ ht => settleRefusal_formed ht) h))

theorem resumeBreak_formed {id : Nat} : Formed (s.resumeBreak id) := by
  unfold State.resumeBreak
  refine foldl_formed (fun _ _ ht => foldl_formed (fun _ _ ht' => ?_) ht) h.same
  split
  · exact ht'
  · exact ite_formed ht' (resumeLanes_formed ht')

theorem faultRetry_formed {f : FaultRec} : Formed (s.faultRetry f) :=
  ite_formed (ackImages_formed (refetch_formed (resumeCopies_formed (replayFault_formed h.same))))
    (ite_formed (retryHeld_formed h.same) (ite_formed (resumeBreak_formed h.same) (ite_formed (retryCp_formed h.same) h.same)))

theorem execFaultAckRetry_formed {fault : Nat} : OutFormed (execFaultAckRetry fault s) := by
  unfold execFaultAckRetry
  refine next_formed ?_
  split
  · exact faultRetry_formed h
  · exact h

theorem fatalCp_formed {f : FaultRec} : Formed (s.fatalCp f) := by
  unfold State.fatalCp
  refine foldl_formed (fun t g ht => ?_) (foldl_formed (fun t n ht => ?_) (foldl_formed (fun t r ht => settleRefusal_formed ht) h))
  · split
    · exact gridLost_formed ht
    · exact ht
  · extract_lets u
    have hu : Formed u := updQueue_formed ht
    -- with the head of the queue opaque, the kernel does not evaluate it to check the case split
    obtain ⟨hd, hhd⟩ : ∃ hd, u.atHead = hd := ⟨_, rfl⟩
    rw [hhd]
    split
    · exact hu
    · split
      · exact ite_formed (refusePacket_formed hu) (ite_formed (refusePacket_formed hu) (refuseLaunch_formed hu))
      · exact hu

theorem fatalBreak_formed {id : Nat} : Formed (s.fatalBreak id) :=
  foldl_formed (fun _ _ ht => abortBlock_formed ht) (foldl_formed (fun _ _ ht => ht.same) h)

theorem faultFatal_formed {f : FaultRec} : Formed (s.faultFatal f) :=
  ite_formed (endJob_formed h.same) (ite_formed (endJob_formed h.same)
    (ite_formed (fatalBreak_formed h.same) (fatalCp_formed h.same)))

theorem execFaultAckFatal_formed {fault : Nat} : OutFormed (execFaultAckFatal fault s) := by
  unfold execFaultAckFatal
  refine next_formed ?_
  split
  · exact faultFatal_formed h
  · exact h

theorem faultAck_formed {v : DWord} : Formed (s.faultAck v) := by
  unfold State.faultAck
  split
  · exact h
  · refine ite_formed h ?_
    split
    · exact faultRetry_formed h
    · exact faultFatal_formed h
    · exact h

/-! ### Device registers (Machine/Device) -/

theorem tenCfgSet_formed {n : Nat} {v : DWord} : Formed (s.tenCfgSet n v) := ite_formed h (ite_formed h.same h.same)

theorem collSet_formed {g : Nat} {j : Option Nat} {v : DWord} : Formed (s.collSet g j v) := by
  unfold State.collSet
  refine ite_formed h ?_
  split <;> exact h

theorem updSheaf_formed {g : Nat} {f : Sheaf → Sheaf} : Formed (s.updSheaf g f) := h

theorem shfSet_formed {g : Nat} {v : DWord} : Formed (s.shfSet g v) := ite_formed h (ite_formed h.same h.same)

theorem granaryChunksSet_formed {v : DWord} : Formed (s.granaryChunksSet v) := ite_formed h h.same

theorem moduleNumSet_formed {v : DWord} : Formed (s.moduleNumSet v) := ite_formed h h.same

theorem qdescSet_formed {v : DWord} : Formed (s.qdescSet v) := ite_formed h h.same

theorem fabRouteSet_formed {m p : Nat} {v : DWord} : Formed (s.fabRouteSet m p v) := ite_formed h h.same

theorem powerLimitSet_formed {v : DWord} : Formed (s.powerLimitSet v) := ite_formed h h.same

theorem tickPeriodSet_formed {v : DWord} : Formed (s.tickPeriodSet v) := ite_formed h.same h

theorem devSet_formed {r : DevReg} {v : DWord} : Formed (s.devSet r v) := by
  cases r with
  | tenCfg => exact tenCfgSet_formed h
  | poolLow | poolHigh => exact thresholdWrite_formed h
  | t2Count => exact t2CountWrite_formed h
  | t2Push => exact t2Push_formed h
  | moveCtl => exact moveCtl_formed h
  | flushCtl => exact flushCtl_formed h
  | granaryChunks => exact granaryChunksSet_formed h
  | fqBase => exact faultqBase_formed h
  | fqSize => exact faultqSize_formed h
  | fqRidx => exact faultqRidx_formed h
  | faultAck => exact faultAck_formed h
  | shfCfg => exact shfSet_formed h
  | collCfg | collMap => exact collSet_formed h
  | moduleNum => exact moduleNumSet_formed h
  | qdescBase => exact qdescSet_formed h
  | powerLimit => exact powerLimitSet_formed h
  | devHealth => exact ite_formed h.same h
  | fabRoute => exact fabRouteSet_formed h
  | _ => exact h

theorem devWrite_formed {o : Nat} {v : DWord} : Formed (s.devWrite o v) := by
  unfold State.devWrite
  split
  · exact h
  · exact devSet_formed h

theorem devStore_formed {o : Nat} {bs : List Byte} : Formed (s.devStore o bs) := by
  unfold State.devStore
  split
  · exact h
  · exact ite_formed (devSet_formed h) (ite_formed (ite_formed (devSet_formed h) h) (devSet_formed h))

/-! ### Ports of the fabric (Machine/Wire) -/

theorem updPort_formed {p : Nat} {f : FabPort → FabPort} : Formed (s.updPort p f) := h

theorem sendOver_formed {port : Nat} {p : FabPacket} : Formed (s.sendOver port p) := by
  unfold State.sendOver
  split
  · exact h
  · dsimp only
    split <;> exact h

theorem resend_formed {port : Nat} : Formed (s.resend port) := by
  unfold State.resend
  split
  · exact h
  · exact foldl_formed (fun _ _ ht => ht.same) h.same

/-! ### Errors, fences and reset (Machine/Recover) -/

theorem toReset_formed : Formed s.toReset := State.toReset_wf s h

theorem fatal_formed {reason arg : Nat} : Formed (s.fatal reason arg) :=
  ite_formed (toReset_formed (store_formed h).same) (toReset_formed h)

theorem execResetRelease_formed {cfg : SignedConfig} {presented : Nat} : OutFormed (execResetRelease cfg presented s) := by
  unfold execResetRelease
  refine event_formed ?_
  split
  · exact ite_formed h.same h.same
  · exact h

theorem markJobLoss_formed {job : Nat} : Formed (s.markJobLoss job) := h

theorem zeroLine_formed {line job : Nat} : Formed (s.zeroLine line job) :=
  ite_formed (commitLine_formed (homeWrite_formed h)) (homeWrite_formed h)

theorem scrub_formed {line : Nat} {ecc : Ecc} : Formed (s.scrub line ecc) := by
  unfold State.scrub
  extract_lets pa full unit
  split
  · exact h
  · exact h
  · next owner job _ _ t =>
    have hzero : Formed (t.zeroLine line job) := zeroLine_formed (unitError_formed (logError_formed h.same))
    exact elim_formed hzero (fun _ => markJobLoss_formed hzero)

theorem blank_formed {x : Cell} : Formed (s.blank x) := by
  cases x with
  | home => exact zeroLine_formed h
  | _ => exact h

theorem homeDecay_formed {line : Nat} {inL2 : Bool} {grid : Nat} {corrected : Bool} :
    Formed (s.homeDecay line inL2 grid corrected) :=
  ite_formed h (ite_formed (scrub_formed h) (blank_formed (eccRead_formed h)))

theorem decay_formed {c : Cell} {corrected : Bool} : Formed (s.decay c corrected) := by
  unfold State.decay
  split
  · split
    · exact homeDecay_formed h
    · exact h
  · exact ite_formed h.same (foldl_formed (fun _ _ ht => ht.same)
      (unitError_formed (logError_formed (countError_formed (blank_formed h)))))

theorem moduleGone_formed {m : Nat} : Formed (s.moduleGone m) := by
  unfold State.moduleGone
  dsimp only [Formed]
  exact foldl_formed (fun _ _ ht => ht.same) h

theorem fencePort_formed {p : Nat} : Formed (s.fencePort p) :=
  foldl_formed (fun _ _ ht => ite_formed ht (moduleGone_formed ht)) h.same

theorem noteFence_formed : Formed s.noteFence := h

theorem fenceCore_formed {c : Nat} : Formed (s.fenceCore c) :=
  foldl_formed (fun _ _ ht => ite_formed ht (ite_formed (saveBegin_formed ht) (abortBlock_formed ht))) h.same

theorem fenceStack_formed {n : Nat} : Formed (s.fenceStack n) := h

theorem fence_formed {u : FenceUnit} {n : Nat} : Formed (s.fence u n) := by
  unfold State.fence
  split
  · exact fenceCore_formed (noteFence_formed h)
  · exact foldl_formed (fun t c ht => ite_formed ht (fenceCore_formed (noteFence_formed ht))) (noteFence_formed h).same
  · exact ite_formed (fenceStack_formed (noteFence_formed h)) (fatal_formed h)
  · exact fencePort_formed (noteFence_formed h)

theorem execUnitFence_formed {unit : FenceUnit} {number : Nat} : OutFormed (execUnitFence unit number s) :=
  event_formed (fence_formed h)

theorem lanesDropped_formed {port n : Nat} : Formed (s.lanesDropped port n) :=
  ite_formed (foldl_formed (fun _ _ ht => ht.same) h.same) (logError_formed (foldl_formed (fun _ _ ht => ht.same) h.same))

theorem execPortRetrain_formed {port lanes : Nat} : OutFormed (execPortRetrain port lanes s) := by
  unfold execPortRetrain
  split
  · exact refused_formed
  · refine event_formed ?_
    extract_lets t out
    have ht : Formed t := lanesDropped_formed h
    exact ite_formed (fencePort_formed (noteFence_formed ht.same)) (resend_formed ht.same)

/-! ### Packets (Machine/Fabric) -/

theorem sendSession_formed {port : Nat} {ps : List FabPacket} : Formed (s.sendSession port ps) := by
  induction ps generalizing s with
  | nil => exact h
  | cons p ps ih => exact ite_formed (ih (sendOver_formed h)) h

omit h in
theorem pumpOne_formed {a : Pump} {p : FabPacket} (ha : Formed a.s) : Formed (a.one p).s := by
  unfold Pump.one
  split
  · exact freeBuf_formed ha
  · dsimp only
    split
    · exact freeBuf_formed (sendOver_formed ha)
    · exact ha

omit h in
theorem pumpAll_formed {a : Pump} {ps : List FabPacket} (ha : Formed a.s) : Formed (ps.foldl Pump.one a).s := by
  induction ps generalizing a with
  | nil => exact ha
  | cons p ps ih => exact ih (pumpOne_formed ha)

theorem pump_formed : Formed s.pump := by
  have ht : Formed (s.ports.foldl (fun (t : State) e => t.sendSession e.1 e.2.sessOut) s) :=
    foldl_formed (fun _ _ hu => sendSession_formed hu) h
  exact (pumpAll_formed (a := { s := _, kept := [], full := [] }) ht).same

theorem control_formed {port : Nat} {hd : SeqHead} : Formed (s.control port hd) :=
  ite_formed (resend_formed h.same) (ite_formed h.same h.same)

theorem arrive_formed {port : Nat} {ok : Bool} {p : FabPacket} : Formed (s.arrive port ok p) :=
  ite_formed h.same (ite_formed h.same (ite_formed h.same (ite_formed h.same h.same)))

theorem openPacket_formed {port : Nat} {x : Session} {r : RawPacket} : OptFormed (s.openPacket port x r) := by
  unfold State.openPacket
  dsimp only
  split
  · exact some_formed (ite_formed h.same (arrive_formed h.same))
  · exact iteOpt_formed (map_formed (fun _ => ite_formed h.same (arrive_formed h.same))) none_formed

theorem arriveAll_formed {port : Nat} {rs : List RawPacket} : OptFormed (s.arriveAll port rs) := by
  induction rs generalizing s with
  | nil => exact some_formed h
  | cons r rs ih =>
    unfold State.arriveAll
    split
    · exact ih (arrive_formed h)
    · exact bindState_formed (openPacket_formed h) fun _ ht => ih ht

theorem receive_formed {port : Nat} {x : FabPort} {bs : List Byte} : Formed (s.receive port x bs) :=
  ite_formed h.same (ite_formed (control_formed h)
    (ite_formed (ite_formed h h.same) (getD_formed (arriveAll_formed (control_formed h).same) h.same)))

theorem execFabricSequence_formed {port : Nat} {bytes : List Byte} : OutFormed (execFabricSequence port bytes s) := by
  unfold execFabricSequence
  split
  · exact refused_formed
  · exact event_formed (receive_formed h)

theorem readFor_formed {p : FabPacket} {ecc : Ecc} {n : Nat} : Formed (s.readFor p ecc n).2 := eccRead_formed (l2Access_formed h)

theorem execFabricRead_formed {p : FabPacket} {ecc : Ecc} : OutFormed (execFabricRead p ecc s) :=
  event_formed (ite_formed (taken_formed h).same (ite_formed (taken_formed h).same (readFor_formed (taken_formed h)).same))

theorem packetWrite_formed {p : FabPacket} {ecc : Ecc} : Formed (s.packetWrite p ecc) := by
  have ht : Formed (s.taken p) := taken_formed h
  exact ite_formed (devStore_formed ht) (ite_formed ht.same (homeWrite_formed (ite_formed ht (eccMerge_formed ht))).same)

theorem execFabricWrite_formed {p : FabPacket} {ecc : Ecc} : OutFormed (execFabricWrite p ecc s) :=
  event_formed (packetWrite_formed h)

theorem packetAtomic_formed {p : FabPacket} {ecc : Ecc} : Formed (s.packetAtomic p ecc) := by
  unfold State.packetAtomic
  extract_lets n t u old new v
  have ht : Formed t := taken_formed h
  have hv : Formed v := (homeWrite_formed (eccMerge_formed ht)).same
  exact ite_formed ht.same (ite_formed hv hv.same)

theorem execFabricAtomic_formed {p : FabPacket} {ecc : Ecc} : OutFormed (execFabricAtomic p ecc s) :=
  event_formed (packetAtomic_formed h)

theorem answered1_formed {id : Nat} {r : Req} {tag : Nat} {data : List Byte} : Formed (s.answered1 id r tag data) := by
  unfold State.answered1
  split
  · exact h
  · exact codeArrives_formed h
  · exact loadFill_formed h.same
  · exact ite_formed (copyAdvance_formed (ite_formed h.same (sendRead_formed h))) (ite_formed h.same (sendRead_formed h))

theorem reply_formed {p : FabPacket} : Formed (s.reply p) := by
  unfold State.reply
  dsimp only
  split
  · exact ite_formed (fatalAccess_formed h.same) (ite_formed (answered1_formed h.same) (answered1_formed h.same))
  · split
    · exact ite_formed (fatalAccess_formed h.same) h.same
    · exact h

theorem execFabricReply_formed {p : FabPacket} : OutFormed (execFabricReply p s) := event_formed (reply_formed (taken_formed h))

theorem execMarker_formed {p : FabPacket} : OutFormed (execMarker p s) := event_formed (taken_formed h).same

theorem execMarkerAck_formed {p : FabPacket} : OutFormed (execMarkerAck p s) := by
  unfold execMarkerAck
  refine event_formed ?_
  dsimp only [Formed]
  exact elim_formed (taken_formed h) (fun _ => unpin_formed (taken_formed h))

theorem execFabricSession_formed {port : Nat} {p : FabPacket} : OutFormed (execFabricSession port p s) := event_formed h.same

theorem performHeld_formed {reqs : List (Nat × Req)} {pks : List FabPacket} : Formed (s.performHeld reqs pks) := by
  unfold State.performHeld
  extract_lets t
  have ht : Formed t := by
    refine foldl_formed (fun u e hu => ?_) h
    split
    · exact copyAdvance_formed hu
    · exact ite_formed (performWrite_formed hu) hu
    · exact hu
  exact foldl_formed (fun _ _ hu => ite_formed hu (ite_formed (packetWrite_formed hu) (packetAtomic_formed hu))) ht

theorem moveEnd_formed {m : Move} : Formed (s.moveEnd m) := moveFree_formed (performHeld_formed (moveCopy_formed h))

theorem execPageMoveComplete_formed {frame : Nat} : OutFormed (execPageMoveComplete frame s) := by
  unfold execPageMoveComplete
  split
  · exact event_formed (moveEnd_formed h)
  · exact refused_formed

/-! ### Accumulators (Machine/Matrix) -/

theorem updAcc_formed {b n : Nat} {f : Machine.Acc → Machine.Acc} : Formed (s.updAcc b n f) := h

theorem ctxWithAcc_formed {x : Ctx} {n : Nat} {go : Acc → State → State} (hgo : ∀ a, Formed (go a s)) :
    Formed (x.withAcc n go s) := by
  unfold Ctx.withAcc
  split
  · exact ctxRaise_formed h
  · split
    · exact ctxRaise_formed h
    · exact hgo _

theorem ctxQueueAcc_formed {x : Ctx} {n : Nat} {k : AccKind} : Formed (x.queueAcc n k s) :=
  updAcc_formed (ctxSetFlag_formed h.same)

theorem execConvDecl_formed {hd : Head} {f : EFmt} : OutFormed (execConvDecl hd f s) := by
  unfold execConvDecl
  refine issueOp_formed h (fun _ => waveOp_formed h ?_)
  dsimp only
  split
  · exact ctxRaise_formed h
  · refine ite_formed (ctxRaise_formed h) ?_
    split
    · exact ctxRaise_formed h
    · exact h

theorem ctxSign_formed {x : Ctx} {f : EFmt} {tiles : List Nat} : Formed (x.sign f tiles s) := by
  unfold Ctx.sign
  dsimp only
  split
  · exact h
  · exact ite_formed h.same h.same
  · exact h

theorem issueMma_formed {b cv : Nat} {g : Signed} {fmt : Word} {bs : List Nat} {ss : List Signer} :
    Formed (s.issueMma b cv g fmt bs ss) :=
  foldl_formed (fun _ _ ht => resumeLanes_formed ht) (foldl_formed (fun _ _ ht => setFlag_formed ht)
    (updBlock_formed (addReaders_formed h.same)))

theorem endRound_formed {b cv : Nat} {blk : Block} {ss : List Signer} : OptFormed (s.endRound b cv blk ss) := by
  unfold State.endRound
  split
  · exact none_formed
  · dsimp only
    split
    · exact some_formed h.same
    · split
      · exact some_formed (clearRecord_formed h.same)
      · split
        · exact some_formed (clearRecord_formed h.same)
        · exact iteOpt_formed (some_formed (issueMma_formed h)) none_formed

theorem execSigningRoundComplete_formed {blk conv : Nat} : OutFormed (execSigningRoundComplete blk conv s) := by
  unfold execSigningRoundComplete
  split
  · exact refused_formed
  · split
    · refine iteOut_formed refused_formed ?_
      split
      · exact next_formed (endRound_formed h _ ‹_›)
      · exact refused_formed
    · exact refused_formed

theorem discardAcc_formed {b : Nat} {c : AccCmd} : Formed (s.discardAcc b c) := by
  unfold State.discardAcc
  dsimp only
  split
  · exact setTile_formed (dropReaders_formed h.same)
  · exact dropReaders_formed h.same

theorem stopMma_formed {b n done addr : Nat} {q : List AccCmd} : Formed (s.stopMma b n done addr q) :=
  foldl_formed (fun _ _ ht => discardAcc_formed ht) h.same

theorem kstep_formed {b n : Nat} {blk : Block} {a : Machine.Acc} {c : AccCmd} {rest : List AccCmd} :
    Formed (s.kstep b n blk a c rest) := by
  unfold State.kstep
  split
  · dsimp only
    split
    · exact stopMma_formed h
    · exact ite_formed h.same (dropReaders_formed h.same)
  · exact h

theorem execMmaKstep_formed {blk acc : Nat} : OutFormed (execMmaKstep blk acc s) := by
  unfold execMmaKstep
  split
  · exact refused_formed
  · split
    · exact refused_formed
    · split
      · split
        · exact event_formed (kstep_formed h).same
        · exact refused_formed
      · exact refused_formed

theorem execMmaWait_formed {hd : Head} {f : EFmt} : OutFormed (execMmaWait hd f s) := by
  unfold execMmaWait
  refine issueOp_formed h (fun _ => waveOp_formed h ?_)
  split
  · exact ctxRaise_formed h
  · exact needState_formed h (ctxWithAcc_formed h (fun _ => h))

theorem accPlain_formed {name : String} {hd : Head} {f : EFmt} {k : AccKind} : OutFormed (accPlain name hd f k s) :=
  issueOp_formed h (fun _ => waveOp_formed h (ctxWithAcc_formed h (fun _ => needState_formed h (ctxQueueAcc_formed h))))

theorem execAccFlg_formed {hd : Head} {f : EFmt} : OutFormed (execAccFlg hd f s) :=
  issueOp_formed h (fun _ => waveOp_formed h (ctxWithAcc_formed h (fun _ => needState_formed h (ctxQueueAcc_formed h))))

theorem ctxAccTile_formed {x : Ctx} {f : EFmt} {suits : Tile → Bool} {st : TileState} {k : AccKind} {take : State → State}
    (ht : Formed (take s)) : Formed (x.accTile f suits st k take s) :=
  ctxWithAcc_formed h (fun _ => ctxWithTile_formed h (fun _ => needState_formed h
    (ite_formed (ctxRaise_formed h) (ctxQueueAcc_formed ht))))

theorem tileWritten_formed {b : Nat} {t : Tile} {w : Block} : Formed (s.tileWritten b t w) := dropShadow_formed h.same

theorem performAcc_formed {b n : Nat} {blk : Block} {a : Machine.Acc} {c : AccCmd} : Formed (s.performAcc b n blk a c) := by
  unfold State.performAcc
  dsimp only
  split
  · exact h
  · exact h
  · exact dropReaders_formed h.same
  · exact setTile_formed (tileWritten_formed h).same
  · exact setTile_formed (tileWritten_formed h).same
  · exact h
  · exact h

theorem execAccCommandPerform_formed {blk acc : Nat} : OutFormed (execAccCommandPerform blk acc s) := by
  unfold execAccCommandPerform
  split
  · exact refused_formed
  · split
    · exact refused_formed
    · split
      · split
        · exact refused_formed
        · exact event_formed (clearFlagAll_formed (performAcc_formed h.same))
      · exact refused_formed

theorem retiredOp_formed {name : String} {feat : Nat} : OutFormed (retiredOp name feat s) := by
  unfold retiredOp
  refine issueOp_formed h (fun _ => ?_)
  split <;> exact ctxRaise_formed h

/-! ### Memory instructions (Machine/Memory) -/

theorem devServe_formed {id : Nat} {r : Req} : Formed (s.devServe id r) := by
  unfold State.devServe
  refine ite_formed h ?_
  split
  · exact h.same
  · exact unparkReq_formed (foldl_formed (fun t a ht => devStore_formed ht) h).same
  · exact h

theorem armServe_formed {id : Nat} {r : Req} : Formed (s.armServe id r) := by
  unfold State.armServe
  split
  · exact ite_formed h (endProbe_formed (armMonitor_formed h.same))
  · exact h

theorem portDue_formed : Formed s.portDue := by
  unfold State.portDue
  refine foldl_formed (fun _ _ ht => ?_) h
  split
  · exact armServe_formed (devServe_formed ht)
  · exact ht

theorem performGlobal_formed {x : Ctx} {scalar : Bool} {o : OpInfo} {hits : List (Want × L1Line)} {c : Checked}
    {parks : List (ℤ × List Want)} : Formed (s.performGlobal x scalar o hits c parks) := by
  unfold State.performGlobal
  extract_lets filled idem flagged acquired hit presented parked
  have hidem : Formed idem := storeIdem_formed (fillAll_formed h)
  have hflagged : Formed flagged := ite_formed (ctxSetFlag_formed hidem) hidem
  have hacquired : Formed acquired := ite_formed hflagged hflagged.same
  have hhit : Formed hit := foldl_formed (fun _ _ ht => ht.same) hacquired
  exact sendDue_formed (finishOp_formed (park_formed (presentAll_formed hhit)))

theorem checkedAccess_formed {x : Ctx} {scalar : Bool} {c : Checked} {go : State → State} (hgo : Formed (go s)) :
    Formed (s.checkedAccess x scalar c go) := by
  unfold State.checkedAccess
  split
  · exact fatalAccess_formed h
  · exact ctxRaise_formed h
  · exact hgo

theorem globalAccess_formed {x : Ctx} {scalar : Bool} {o : OpInfo} {dev : Want → Bool} {parks : List Want → List (ℤ × List Want)}
    {ws : List Want} : Formed (s.globalAccess x scalar o dev parks ws) := by
  unfold State.globalAccess
  split
  · exact ctxRaise_formed h
  · exact checkedAccess_formed h (performGlobal_formed h)

theorem ctxAfterAcq_formed {x : Ctx} {go : State → State} (hgo : Formed (go s)) : Formed (x.afterAcq go s) := ite_formed hgo h

theorem ctxLoad_formed {x : Ctx} {f : MFmt} : Formed (x.load f s) := globalAccess_formed h.same

theorem ctxStore_formed {x : Ctx} {f : MFmt} : Formed (x.store f s) := globalAccess_formed h.same

theorem ctxBlkAccess_formed {x : Ctx} {o : OpInfo} {ws : List Want} : Formed (x.blkAccess o ws s) := by
  unfold Ctx.blkAccess
  split
  · exact ctxRaise_formed h
  · exact checkedAccess_formed h (performGlobal_formed (storeIdem_formed h))

theorem ctxLoadBlk_formed {x : Ctx} {f : MFmt} : Formed (x.loadBlk f s) := ctxBlkAccess_formed h.same

theorem ctxStoreBlk_formed {x : Ctx} {f : MFmt} : Formed (x.storeBlk f s) := ctxBlkAccess_formed h.same

theorem ctxSpadAccess_formed {x : Ctx} {f : MFmt} {ws : List Want} {go : State → State} (hgo : Formed (go s)) :
    Formed (x.spadAccess f ws go s) := by
  unfold Ctx.spadAccess
  split
  · exact ctxRaise_formed h
  · exact hgo

theorem ctxSpadResult_formed {x : Ctx} {f : MFmt} {sgn : Bool} {ws : List Want} {vals : List (Nat × List Byte)} :
    Formed (x.spadResult f sgn ws vals s) :=
  ite_formed h.same (present_formed (ctxSetFlag_formed h.same))

theorem execLds_formed {hd : Head} {f : MFmt} : OutFormed (execLds hd f s) :=
  issueOp_formed h (fun _ => waveOp_formed h (ctxAfterAcq_formed h (ctxSpadAccess_formed h (ctxSpadResult_formed h))))

theorem ctxSatom_formed {x : Ctx} {f : MFmt} {ws : List Want} : Formed (x.satom f ws s) := by
  unfold Ctx.satom
  extract_lets op t
  have ht : Formed t := ctxSpadResult_formed (updBlock_formed (keepIndex_formed h.same))
  exact ite_formed h.same (ite_formed (beginOpen_formed ht) ht)

theorem ctxAtomic_formed {x : Ctx} {f : MFmt} {op : Nat} {returns : Bool} : Formed (x.atomic f op returns s) :=
  globalAccess_formed h.same

theorem atomOp_formed {name : String} {op : Nat} {hd : Head} {f : MFmt} : OutFormed (atomOp name op hd f s) :=
  issueOp_formed h (fun _ => ite_formed (ctxAfterAcq_formed h (ctxAtomic_formed h)) h.same)

theorem execPhaseClComplete_formed {blk wave : Nat} : OutFormed (execPhaseClComplete blk wave s) := by
  unfold execPhaseClComplete
  split
  · exact refused_formed
  · split
    · exact event_formed h.same
    · exact refused_formed

theorem prefetchLine_formed {x : Ctx} {l1 : Bool} {hint v : Nat} : Formed (s.prefetchLine x l1 hint v) := by
  unfold State.prefetchLine
  dsimp only
  split
  · exact present_formed (fillAll_formed h)
  · exact fatalAccess_formed h
  · exact h

theorem probeAll_formed {x : Ctx} {f : MFmt} {c : Checked} : Formed (s.probeAll x f c) := by
  unfold State.probeAll
  split
  next id t hid =>
  extract_lets o filled presented held
  have ht : Formed t := formed_of_pair (newId_formed h) hid
  have hpresented : Formed presented := foldl_formed (fun _ _ hu => present_formed hu) (fillAll_formed ht)
  exact park_formed (ite_formed hpresented hpresented.same)

theorem execMprobe_formed {hd : Head} {f : MFmt} : OutFormed (execMprobe hd f s) := by
  unfold execMprobe
  refine issueOp_formed h (fun _ => waveOp_formed h (ctxAfterAcq_formed h ?_))
  dsimp only
  split
  · exact ctxRaise_formed h
  · exact checkedAccess_formed h (probeAll_formed h)

theorem armAll_formed {x : Ctx} {f : MFmt} {c : Checked} : Formed (s.armAll x f c) := by
  unfold State.armAll
  split
  next id t hid =>
  extract_lets _ o filled presented held
  have ht : Formed t := formed_of_pair (newId_formed h) hid
  have hpresented : Formed presented := foldl_formed (fun _ _ hu => present_formed hu) (fillAll_formed ht)
  exact park_formed (ite_formed hpresented hpresented.same)

theorem execMonArm_formed {hd : Head} {f : MFmt} : OutFormed (execMonArm hd f s) := by
  unfold execMonArm
  refine issueOp_formed h (fun _ => waveOp_formed h ?_)
  dsimp only
  split
  · exact ctxRaise_formed h
  · exact checkedAccess_formed h (ite_formed h.same (armAll_formed h))

theorem ctxMonWait_formed {x : Ctx} {f : MFmt} : Formed (x.monWait f s) := by
  unfold Ctx.monWait
  split <;> exact h

theorem execMonitorTrigger_formed {blk wave : Nat} : OutFormed (execMonitorTrigger blk wave s) := by
  unfold execMonitorTrigger
  split
  · exact refused_formed
  · exact event_formed (ite_formed h.same (endMonitor_formed h))

theorem execMonitorTimeout_formed {blk wave : Nat} : OutFormed (execMonitorTimeout blk wave s) := by
  unfold execMonitorTimeout
  split
  · exact refused_formed
  · exact event_formed (endMonitor_formed h)

theorem execMonitorSpuriousEnd_formed {blk wave : Nat} : OutFormed (execMonitorSpuriousEnd blk wave s) := by
  unfold execMonitorSpuriousEnd
  split
  · exact refused_formed
  · exact event_formed (endMonitor_formed h)

theorem execIclLock_formed {hd : Head} {f : MFmt} : OutFormed (execIclLock hd f s) :=
  issueOp_formed h fun _ => waveOp_formed h (ctxCommit_formed
    (ite_formed (updWave_formed (lockLines_formed h.same)) (lockLines_formed h.same)))

/-! ### Sessions (Machine/Sessions) -/

theorem framed_formed {f : FrameHead} {k : FrameForm} {ok : Session → Bool} {go : Session → State → State}
    (hgo : ∀ x t, Formed t → Formed (go x t)) : Formed (s.framed f k ok go) := by
  unfold State.framed
  split
  · exact ite_formed h h.same
  · exact ite_formed h (ite_formed (hgo _ _ h.same) h.same)

theorem ringStore_formed {q : Queue} {off : Nat} {bs : List Byte} {fuel : Nat} : Formed (s.ringStore q off bs fuel) := by
  induction fuel generalizing s off bs with
  | zero => exact h
  | succ fuel ih => exact ite_formed h (ih (store_formed h))

theorem commandPayload_formed {x : Session} {n offset : Nat} {payload : List DWord} :
    Formed (s.commandPayload x n offset payload) := by
  unfold State.commandPayload
  split
  · exact h
  · exact ite_formed h.same (settleQueue_formed (ringStore_formed h).same)

theorem sendMessage_formed {x : Option Session} {prot : Bool} {port : Option Nat} {msg : Nat} {body : List Byte} :
    Formed (s.sendMessage x prot port msg body) := by
  unfold State.sendMessage
  dsimp only
  split
  · exact emit_formed h
  · exact h

theorem sendProtected_formed {x : Session} {msg : Nat} {body : List Byte} : Formed (s.sendProtected x msg body) :=
  (sendMessage_formed h).same

theorem messageDone_formed {port : Option Nat} : Formed (s.messageDone port) := by
  unfold State.messageDone
  split <;> exact h

theorem dropMessages_formed : Formed s.dropMessages := by
  unfold State.dropMessages
  refine foldl_formed (fun _ _ ht => ?_) h
  split
  · exact ite_formed ht (messageDone_formed ht.same)
  · exact ht

theorem refuseSession_formed {x : Option Session} {port : Option Nat} {reason : Nat} : Formed (s.refuseSession x port reason) :=
  sendMessage_formed h

theorem offer_formed {port : Option Nat} {m : HelloMsg} : Formed (s.offer port m) := by
  unfold State.offer
  split
  · exact refuseSession_formed h
  · exact sendMessage_formed h.same

theorem execHello_formed {port : Option Nat} {m : HelloMsg} : OutFormed (execHello port m s) :=
  event_formed (ite_formed h (ite_formed (offer_formed (messageDone_formed h)) (messageDone_formed h).same))

theorem ready_formed {x : Session} {secret : List Byte} : Formed (s.ready x secret) := by
  unfold State.ready
  dsimp only
  split
  · exact sendProtected_formed h.same
  · refine updPort_formed ?_
    dsimp only [Formed]
    exact sendProtected_formed h.same

theorem keyed_formed {x : Session} {m : KeyMsg} : Formed (s.keyed x m) :=
  ite_formed (refuseSession_formed h).same (ready_formed h)

theorem execKey_formed {port : Option Nat} {m : KeyMsg} : OutFormed (execKey port m s) := by
  unfold execKey
  refine event_formed (ite_formed h ?_)
  split
  · exact (messageDone_formed h).same
  · exact ite_formed (keyed_formed (messageDone_formed h)) (messageDone_formed h).same

theorem rekeyed_formed {x : Session} {nonce cipher : List Byte} : Formed (s.rekeyed x nonce cipher) := by
  unfold State.rekeyed
  split
  · exact h
  · refine ite_formed h.same (updSession_formed ?_)
    split
    · exact sendProtected_formed h.same
    · exact sendSession_formed (sendProtected_formed h.same)

theorem execRekey_formed {f : FrameHead} {nonce cipher : List Byte} : OutFormed (execRekey f nonce cipher s) :=
  event_formed (framed_formed (messageDone_formed h) (fun _ _ ht => elim_formed ht (fun _ => rekeyed_formed ht)))

theorem sessionEnds_formed {x : Session} : Formed (s.sessionEnds x) := by
  unfold State.sessionEnds
  dsimp only
  split <;> exact h

/-! ### Services (Machine/Services) -/

theorem svcPut_formed {o : ObjAt} {off : Nat} {b : Byte} : Formed (s.svcPut o off b) := by
  unfold State.svcPut
  split
  · exact h
  · exact ite_formed (homeWrite_formed h) h.same

theorem mapQueue_formed {n : Nat} : SvcFormed (s.mapQueue n) := by
  unfold State.mapQueue
  refine iteSvc_formed (done_formed h.same) ?_
  split
  · exact done_formed h.same
  · split
    · exact done_formed h.same
    · exact done_formed (showQueue_formed h.same)

theorem unmapQueue_formed {n : Nat} : SvcFormed (s.unmapQueue n) := by
  unfold State.unmapQueue
  split
  · exact done_formed h
  · refine iteSvc_formed (done_formed ?_) (waits_formed h)
    dsimp only [Formed]
    exact showQueue_formed h.same

theorem svcPutAll_formed {o : ObjAt} {off : Nat} {bs : List Byte} : Formed (s.svcPutAll o off bs) :=
  foldl_formed (fun _ _ ht => svcPut_formed ht) h

theorem loadCommit_formed {o : ObjAt} {rs : List Routine} : Formed (s.loadCommit o rs) :=
  (svcPutAll_formed (svcPutAll_formed h)).same

theorem loadObject_formed {asn va size : Nat} : SvcFormed (s.loadObject asn va size) := by
  unfold State.loadObject
  split
  · exact done_formed h
  · refine iteSvc_formed (done_formed h) (iteSvc_formed (done_formed h.same) ?_)
    split
    · exact done_formed h.same
    · split
      · exact done_formed h.same
      · refine done_formed ?_
        dsimp only [Formed]
        exact loadCommit_formed h

theorem unload_formed {asn va : Nat} : SvcFormed (s.unload asn va) := by
  unfold State.unload
  split
  · exact done_formed h
  · exact iteSvc_formed (waits_formed h) (done_formed h.same)

theorem register_formed {asn bit va offset vregs sregs : Nat} : SvcFormed (s.register asn bit va offset vregs sregs) := by
  unfold State.register
  split
  · exact done_formed h
  · exact iteSvc_formed (done_formed h) (iteSvc_formed (done_formed h) (iteSvc_formed (done_formed h) (done_formed h.same)))

theorem handoverStart_formed {slot : Nat} {begun : Bool} : SvcFormed (s.handoverStart slot begun) :=
  iteSvc_formed (waits_formed h) (iteSvc_formed (done_formed h) (iteSvc_formed (done_formed h) (waits_formed h.same)))

theorem flashWrite_formed {slot offset : Nat} {data : List Byte} : SvcFormed (s.flashWrite slot offset data) :=
  iteSvc_formed (done_formed h) (done_formed h.same)

theorem regWrite_formed {offset : Nat} {v : DWord} : SvcFormed (s.regWrite offset v) := done_formed (devWrite_formed h)

theorem memSend_formed {addr : Nat} {data : List Byte} : Formed (s.memSend addr data) := foldl_formed (fun _ _ ht => ht.same) h

theorem svcWrite_formed {w : ServiceReq} {addr : Nat} {data : List Byte} : SvcFormed (s.svcWrite w addr data) := by
  unfold State.svcWrite
  refine iteSvc_formed (done_formed h) (iteSvc_formed ?_ (iteSvc_formed ?_ (iteSvc_formed (waits_formed h) (done_formed h))))
  · extract_lets lines t
    have ht : Formed t := ite_formed h (store_formed h)
    exact iteSvc_formed (waits_formed h) (iteSvc_formed (waits_formed ht) (done_formed ht))
  · split
    exact waits_formed (formed_of_pair (markersTo_formed (memSend_formed h)) ‹_›)

theorem svcRead_formed {addr n : Nat} : SvcFormed (s.svcRead addr n) :=
  iteSvc_formed (done_formed h) (iteSvc_formed (done_formed h) (done_formed h.same))

theorem attempt_formed {w : ServiceReq} : SvcFormed (s.attempt w) := by
  unfold State.attempt
  split
  · exact done_formed h.same
  · exact mapQueue_formed h
  · exact unmapQueue_formed h
  · exact loadObject_formed h
  · exact unload_formed h
  · exact register_formed h
  · exact handoverStart_formed h
  · exact flashWrite_formed h
  · exact done_formed h
  · exact regWrite_formed h
  · exact svcWrite_formed h
  · exact svcRead_formed h
  · exact done_formed h

theorem serve_formed {session fuel : Nat} : Formed (s.serve session fuel) := by
  induction fuel generalizing s with
  | zero => exact h
  | succ fuel ih =>
    unfold State.serve
    split
    · exact h
    · next w _ =>
      have ha : SvcFormed (s.attempt w) := attempt_formed h
      split
      · next he => rw [he] at ha; exact ha.same
      · next he => rw [he] at ha; exact ih (sendFrame_formed ha.same)

theorem serveAll_formed : Formed s.serveAll := foldl_formed (fun _ _ ht => serve_formed ht) h

theorem request_formed {f : FrameHead} {id : Nat} {r : Service} : Formed (s.request f id r) :=
  framed_formed h (fun _ _ ht => serve_formed ht.same)

theorem commitHandover_formed {w : ServiceReq} {slot : Nat} : Formed (s.commitHandover w slot) := sendFrame_formed h.same

theorem execHandoverCommit_formed : OutFormed (execHandoverCommit s) := by
  unfold execHandoverCommit
  split
  · exact refused_formed
  · exact event_formed (serveAll_formed (commitHandover_formed h))

theorem powerCut_formed : OutFormed s.powerCut := by
  unfold State.powerCut
  split
  · exact refused_formed
  · exact event_formed (toReset_formed h.same)

/-! ### Barriers, cancels and sheaves (Machine/Sync) -/

theorem completePhase_formed {b : Nat} {n : BarName} : Formed (s.completePhase b n) := by
  unfold State.completePhase
  split
  · exact h
  · refine foldl_formed (fun _ _ ht => ?_) h.same
    split
    · exact ht
    · exact ite_formed ht (beginOpen_formed (resumeLanes_formed ht.same))

theorem execBarrierPhaseComplete_formed {blk : Nat} {bar : BarName} : OutFormed (execBarrierPhaseComplete blk bar s) := by
  unfold execBarrierPhaseComplete
  split
  · exact refused_formed
  · exact event_formed (completePhase_formed h)

theorem ctxMisuse_formed {x : Ctx} {m : Lanes} : Formed (x.misuse m s) := h

theorem ctxBarrierArrive_formed {x : Ctx} {n : BarName} {count : Option Nat} {wait : Bool} :
    Formed (x.barrierArrive n count wait s) := by
  unfold Ctx.barrierArrive
  extract_lets t
  have ht : Formed t := ite_formed (completePhase_formed h) h
  split
  · exact ht.same
  · exact ite_formed ht.same (ite_formed ht.same (ite_formed ht.same ht.same))

theorem ctxBarrierWait_formed {x : Ctx} {n : BarName} : Formed (x.barrierWait n s) := by
  unfold Ctx.barrierWait
  extract_lets t
  have ht : Formed t := ite_formed (completePhase_formed h) h
  split
  · exact ctxMisuse_formed ht
  · extract_lets past u v
    have hv : Formed v := ite_formed ht.same (beginOpen_formed ht.same)
    exact ite_formed (ctxMisuse_formed ht) (ite_formed hv (ctxMakeWait_formed hv))

theorem cancelOp_formed {name : String} {level : Nat} {hd : Head} : OutFormed (cancelOp name level hd s) :=
  issueOp_formed h (fun _ => ite_formed h.same h.same)

theorem ctxManyResult_formed {x : Ctx} {f : YFmt} {ws : List Word} : Formed (x.manyResult f ws s) := ite_formed h.same h.same

theorem ctxSheafOp_formed {x : Ctx} {g : Nat} {go : Sheaf → State → State} (hgo : ∀ k, Formed (go k s)) :
    Formed (x.sheafOp g go s) :=
  ite_formed (hgo _) (ctxRaise_formed h)

theorem sheafIdem_formed {name : String} {hd : Head} {uses : List RegUse} {body : Ctx → State → State}
    (hb : ∀ x t, Formed t → Formed (body x t)) : OutFormed (sheafIdem name hd uses body s) :=
  issueOp_formed h fun _ => ite_formed (hb _ _ h.same) h.same

theorem dropTaker_formed {x : Ctx} {g : Nat} : Formed (s.dropTaker x g) := ite_formed h.same h

theorem dropProducer_formed {x : Ctx} {g : Nat} : Formed (s.dropProducer x g) := ite_formed h.same h.same

theorem execShfDone_formed {hd : Head} {f : EFmt} : OutFormed (execShfDone hd f s) :=
  sheafIdem_formed h fun _ _ ht => ctxSheafOp_formed ht fun _ =>
    ite_formed (dropProducer_formed (dropTaker_formed ht)) (dropTaker_formed ht)

theorem putItems_formed {ws : List (Nat × DWord)} : Formed (s.putItems ws) :=
  foldl_formed (fun _ _ ht => ite_formed (store_formed ht) ht) h

theorem execShfPutArrive_formed {put : Nat} : OutFormed (execShfPutArrive put s) := by
  unfold execShfPutArrive
  split
  · exact refused_formed
  · exact next_formed (commit_formed (putItems_formed h.same))

theorem execShfTake_formed {hd : Head} {f : EFmt} : OutFormed (execShfTake hd f s) :=
  sheafIdem_formed h (fun _ _ ht => ctxSheafOp_formed ht (fun _ => updWave_formed (dropTaker_formed ht.same)))

theorem returnTake_formed {b w : Nat} {t : Taking} : Formed (s.returnTake b w t) := by
  unfold State.returnTake
  extract_lets u g r v x
  have hu : Formed u := updWave_formed h
  have hv : Formed v := commit_formed (updSheaf_formed hu)
  have hx : Formed x := ite_formed hv (updWave_formed hv)
  exact ite_formed (resumeLanes_formed (commit_formed hu)) (resumeLanes_formed hx)

theorem execShfTakeReturn_formed {blk wave : Nat} : OutFormed (execShfTakeReturn blk wave s) := by
  unfold execShfTakeReturn
  split
  · exact refused_formed
  · exact next_formed (returnTake_formed h)

theorem execShfWait_formed {hd : Head} {f : EFmt} : OutFormed (execShfWait hd f s) := by
  unfold execShfWait
  exact issueOp_formed h (fun x => waveOp_formed h (ctxSheafOp_formed h (fun y => ite_formed h h.same)))

theorem quietWave_formed {g b w : Nat} : Formed (s.quietWave g b w) := by
  unfold State.quietWave
  split
  · exact h
  · extract_lets t m
    have ht : Formed t := foldl_formed (fun _ _ hu => returnTake_formed hu) h
    exact ite_formed ht (resumeLanes_formed ht)

theorem execStillwaterQuiet_formed {group : Nat} : OutFormed (execStillwaterQuiet group s) :=
  event_formed (foldl_formed (fun _ _ ht => foldl_formed (fun _ _ ht' => quietWave_formed ht') ht) h.same)

/-! ### Traps and system registers (Machine/Traps) -/

theorem softTrap_formed {name : String} {code : Nat} {hd : Head} {f : YFmt} : OutFormed (softTrap name code hd f s) :=
  issueOp_formed h (fun _ => waveOp_formed h (ctxRaise_formed h))

theorem ctxReturn_formed {x : Ctx} {next : Bool} : Formed (x.return_ next s) :=
  ite_formed (ctxRaise_formed h) (ite_formed h.same (ite_formed (ctxRaise_formed h) (ite_formed (ctxRaise_formed h) h.same)))

theorem sysWrite_formed {b w n : Nat} {v : DWord} : Formed (s.sysWrite b w n v) :=
  ite_formed h.same (ite_formed h.same (ite_formed h.same (ite_formed (tickPeriodSet_formed h) h)))

theorem execSysWr_formed {hd : Head} {f : YFmt} : OutFormed (execSysWr hd f s) := by
  unfold execSysWr
  exact issueOp_formed h (fun _ => ite_formed (sysWrite_formed h.same) h.same)

theorem invRange_formed {name : String} {size : Nat} {hd : Head} {f : YFmt} : OutFormed (invRange name size hd f s) :=
  issueOp_formed h (fun _ => waveOp_formed h h.same)

theorem errRd_formed {name : String} {hd : Head} {f : YFmt} {read : Health → Nat → DWord × Health} :
    OutFormed (errRd name hd f read s) :=
  issueOp_formed h (fun _ => waveOp_formed h h.same)

/-! ### Every instruction and event (Machine/Dispatch) -/

/-- Every instruction and event of the model. -/
theorem exec_formed {i : Instr} : OutFormed (exec i s) := by
  cases i <;> dsimp only [exec]
  case iadd | isub | imul | imad | imin | imax | iabs => exact intLane_formed h
  case imulh | idiv | irem | isad | idot4 | and | or | xor | andn | shl | shr | sar | rot | bfe | bfi | brev =>
    exact bitLane_formed h
  case imadw | iadd64 | lea | ltab | movi | icmp | scmp | sel | vany | vall | vmatch | mov | fscale | fdot2 | ftwosum | fcmp
      | exit | rcv | cvtFf | cvtIf | cvtFi | cvtIi | qblk | qhdr | hchk | fpk2 | fupk2 | idemEnd =>
    exact issueOp_formed h fun _ => h.same
  case iaddc | isubb => exact carryLane_formed h
  case popc | clz => exact countLane_formed h
  case pand | por | pxor | pmov => exact predLane_formed h
  case ballot | lanes | movs | smov | smovi | sltab | fmadFtz | cpSet | yield | fenceQ | iclFree | iclCount | progAdd | sysRd
      | tlbInvAsn | tlbInvAll => exact issueOp_formed h fun _ => waveOp_formed h h.same
  case movri | movwi => exact issueOp_formed h fun _ => ite_formed (ctxRaise_formed h) h.same
  case sadd | ssub | smul | smin | smax => exact intScal_formed h
  case sand | sor | sxor | sshl | sshr => exact bitScal_formed h
  case fadd | fsub | fmul | ffma => exact fltArith_formed h
  case fmin | fmax | fabs | fneg | fcpysgn | fdiv | frnd | fclass => exact fltLane_formed h
  case frcp | fsqrt | frsq | fexp2 | flog2 | fsinp | fcosp => exact sfuLane_formed h
  case cpLd | cpSt | cpGth | cpSct => exact copyIssue_formed h
  case collAr | collBc => exact collIssue_formed h
  case br | brx | ret => exact issueOp_formed h fun _ => ctxTransfer_formed h h
  case call | callx => exact issueOp_formed h fun _ => ctxTransfer_formed h h.same
  case brany | brall => exact issueOp_formed h fun _ => ctxBranchIf_formed h
  case sleep | cinv | cinvAll => exact issueOp_formed h fun _ => waveOp_formed h (ite_formed h.same h.same)
  case cvtE8 | cvtE4 | dcvtE8 | dcvtE4 => exact hdrLane_formed h
  case pack4 | pack8 => exact packLane_formed h
  case unpk4 | unpk8 => exact unpackLane_formed h
  case dumpRelease | powerSample | railRegulationChange | pfcPauseFrame => exact next_formed h.same
  case fatalError | powerOverlimitFault | railOutOfWindow => exact event_formed (fatal_formed h)
  case mma | mmaG => exact issueOp_formed h fun _ => waveOp_formed h (ctxSign_formed h)
  case accZero | accFclr => exact accPlain_formed h
  case accSt | accStq => exact issueOp_formed h fun _ => waveOp_formed h (ctxAccTile_formed h (setTile_formed h))
  case mma8 | wvote => exact retiredOp_formed h
  case atomAdd | atomMin | atomMax | atomAnd | atomOr | atomXor | atomXch | atomCas | atomFadd => exact atomOp_formed h
  case attest | mapQueue | unmapQueue | load | unload | registerEmulation | handover | flashWrite | regRead | regWrite
      | memWrite | memRead | serviceNotOffered => exact event_formed (request_formed h)
  case bar | barn | bara => exact issueOp_formed h fun _ => waveOp_formed h (ctxBarrierArrive_formed h)
  case cancelBlk | cancelGrid | cancelGraph | cancelJob => exact cancelOp_formed h
  case shfOpen | shfPut => exact sheafIdem_formed h (fun _ _ ht => ctxSheafOp_formed ht (fun _ => ht.same))
  case trap | brk => exact softTrap_formed h
  case rte | rteNext => exact issueOp_formed h fun _ => waveOp_formed h (ctxReturn_formed h)
  case tlbInvPage | tlbInvLarge => exact invRange_formed h
  case errRdCounter | errRdLog | errRdRetire => exact errRd_formed h
  case xperm => exact issueOp_formed h fun _ => ctxLongResult_formed h
  case portRefill => exact event_formed (refill_formed h)
  case moveStart => exact event_formed (moveCtl_formed h)
  case l2FlushStart => exact event_formed (flushCtl_formed h)
  case t2FreePush => exact next_formed (t2Push_formed h)
  case t2FreeCountWrite => exact next_formed (t2CountWrite_formed h)
  case poolThresholdWrite => exact next_formed (thresholdWrite_formed h)
  case tickBoundary => exact event_formed (tickFalls_formed h)
  case tileWait => exact issueOp_formed h (fun _ => waveOp_formed h (ctxWithTile_formed h (fun _ => ctxTileOp_formed h)))
  case tileQ => exact issueOp_formed h (fun _ => waveOp_formed h (ctxWithTile_formed h (fun _ => ctxScalLater_formed h)))
  case cpHint => exact issueOp_formed h fun _ => waveOp_formed h (needState_formed h (ctxEnqueue_formed h))
  case nop => exact issueOp_formed h fun _ => h
  case loop => exact issueOp_formed h fun _ => waveOp_formed h (ite_formed h.same (ctxTransfer_formed h h.same))
  case faultqBaseWrite => exact next_formed (faultqBase_formed h)
  case faultqSizeWrite => exact next_formed (faultqSize_formed h)
  case faultqRidxWrite => exact next_formed (faultqRidx_formed h)
  case tenCfgWrite => exact next_formed (tenCfgSet_formed h)
  case collCfgWrite => exact next_formed (collSet_formed h)
  case shfCfgWrite => exact next_formed (shfSet_formed h)
  case granaryChunksWrite => exact next_formed (granaryChunksSet_formed h)
  case moduleNumWrite => exact next_formed (moduleNumSet_formed h)
  case qdescBaseWrite => exact next_formed (qdescSet_formed h)
  case fabRouteWrite => exact next_formed (fabRouteSet_formed h)
  case powerLimitWrite => exact next_formed (powerLimitSet_formed h)
  case tickPeriodWrite => exact next_formed (tickPeriodSet_formed h)
  case registerWrite => exact next_formed (devWrite_formed h)
  case resetAssert => exact next_formed (toReset_formed h)
  case halt => exact issueOp_formed h fun _ => waveOp_formed h (fatal_formed h).same
  case temperatureSample => exact next_formed (ite_formed (fatal_formed h.same) h.same)
  case scrubRead => exact event_formed (scrub_formed h)
  case accLd => exact issueOp_formed h fun _ => waveOp_formed h (ctxAccTile_formed h h.same)
  case ld => exact issueOp_formed h fun _ => waveOp_formed h (ctxAfterAcq_formed h (ctxLoad_formed h))
  case st => exact issueOp_formed h fun _ => waveOp_formed h (ctxStore_formed h)
  case ldBlk => exact issueOp_formed h fun _ => waveOp_formed h (ctxAfterAcq_formed h (ctxLoadBlk_formed h))
  case stBlk => exact issueOp_formed h fun _ => waveOp_formed h (ctxStoreBlk_formed h)
  case sts => exact issueOp_formed h fun _ => waveOp_formed h (ctxSpadAccess_formed h (keepIndex_formed h).same)
  case satom => exact issueOp_formed h fun _ => ctxSpadAccess_formed h (ctxSatom_formed h)
  case red => exact issueOp_formed h fun _ => ite_formed (ctxAtomic_formed h) h.same
  case phaseCl => exact issueOp_formed h fun _ => waveOp_formed h (sendDue_formed h.same)
  case phaseOp => exact issueOp_formed h fun _ => waveOp_formed h (ite_formed h.same (openAt_formed h))
  case prefetch => exact issueOp_formed h (fun _ => waveOp_formed h (foldl_formed (fun _ _ ht => prefetchLine_formed ht) h))
  case monWait => exact issueOp_formed h fun _ => waveOp_formed h (ctxMonWait_formed h)
  case commandFrame => exact event_formed (framed_formed h (fun _ _ ht => commandPayload_formed ht))
  case sessionClose => exact event_formed (framed_formed (messageDone_formed h) (fun _ _ ht => sessionEnds_formed ht))
  case barw => exact issueOp_formed h fun _ => waveOp_formed h (ctxBarrierWait_formed h)
  case tickRd => exact issueOp_formed h fun _ => waveOp_formed h (ctxManyResult_formed h)
  case clk => exact issueOp_formed h fun _ => waveOp_formed h (ite_formed h.same (ctxManyResult_formed h))
  case rcvRelease => exact execRcvRelease_formed h
  case sleepEnd => exact execSleepEnd_formed h
  case sysWr => exact execSysWr_formed h
  case iclLock => exact execIclLock_formed h
  case spec => exact execSpec_formed h
  case sfuResult => exact execSfuResult_formed h
  case dqblk => exact execDqblk_formed h
  case lds => exact execLds_formed h
  case phaseClComplete => exact execPhaseClComplete_formed h
  case mprobe => exact execMprobe_formed h
  case monArm => exact execMonArm_formed h
  case monitorTrigger => exact execMonitorTrigger_formed h
  case monitorTimeout => exact execMonitorTimeout_formed h
  case tileDef => exact execTileDef_formed h
  case tileRel => exact execTileRel_formed h
  case copyBegin => exact execCopyBegin_formed h
  case copyComplete => exact execCopyComplete_formed h
  case collWait => exact execCollWait_formed h
  case collBegin => exact execCollBegin_formed h
  case collComplete => exact execCollComplete_formed h
  case convDecl => exact execConvDecl_formed h
  case signingRoundComplete => exact execSigningRoundComplete_formed h
  case mmaKstep => exact execMmaKstep_formed h
  case mmaWait => exact execMmaWait_formed h
  case accFlg => exact execAccFlg_formed h
  case accCommandPerform => exact execAccCommandPerform_formed h
  case barrierPhaseComplete => exact execBarrierPhaseComplete_formed h
  case shfPutArrive => exact execShfPutArrive_formed h
  case shfTake => exact execShfTake_formed h
  case shfTakeReturn => exact execShfTakeReturn_formed h
  case shfWait => exact execShfWait_formed h
  case shfDone => exact execShfDone_formed h
  case stillwaterQuiet => exact execStillwaterQuiet_formed h
  case loadResult => exact execLoadResult_formed h
  case writePerform => exact execWritePerform_formed h
  case fetchFault => exact execFetchFault_formed h
  case blockRetire => exact execBlockRetire_formed h
  case gridComplete => exact execGridComplete_formed h
  case launch => exact execLaunch_formed h
  case wait => exact execWait_formed h
  case waitSatisfied => exact execWaitSatisfied_formed h
  case signal => exact execSignal_formed h
  case cancel => exact execCancel_formed h
  case bind => exact execBind_formed h
  case tickalign => exact execTickalign_formed h
  case close => exact execClose_formed h
  case dispatchTakeGrid => exact execDispatchTakeGrid_formed h
  case blockPlace => exact execBlockPlace_formed h
  case backfill => exact execBackfill_formed h
  case weirRun => exact execWeirRun_formed h
  case saveImageWrite => exact execSaveImageWrite_formed h
  case resumeIssue => exact execResumeIssue_formed h
  case portSend => exact execPortSend_formed h
  case reedDemote => exact execReedDemote_formed h
  case heldWriteCommit => exact execHeldWriteCommit_formed h
  case pageMoveComplete => exact execPageMoveComplete_formed h
  case l2FlushDone => exact execL2FlushDone_formed h
  case faultAckRetry => exact execFaultAckRetry_formed h
  case faultAckFatal => exact execFaultAckFatal_formed h
  case resetRelease => exact execResetRelease_formed h
  case unitFence => exact execUnitFence_formed h
  case fabricSequence => exact execFabricSequence_formed h
  case portRetrain => exact execPortRetrain_formed h
  case fabricRead => exact execFabricRead_formed h
  case fabricWrite => exact execFabricWrite_formed h
  case fabricAtomic => exact execFabricAtomic_formed h
  case fabricReply => exact execFabricReply_formed h
  case marker => exact execMarker_formed h
  case markerAck => exact execMarkerAck_formed h
  case fabricSession => exact execFabricSession_formed h
  case fabricColl => exact execFabricColl_formed h
  case hello => exact execHello_formed h
  case key => exact execKey_formed h
  case rekey => exact execRekey_formed h
  case handoverCommit => exact execHandoverCommit_formed h
  case monitorSpuriousEnd => exact execMonitorSpuriousEnd_formed h

/-! ### Issue (Machine/Run) -/

theorem runSlots_formed {b w : Nat} {pre : Wave} {p : Issue} {base : Nat} {pend : List (Nat × Option Word)} {ks : List Nat}
    {n : Nat} : Formed (s.runSlots b w pre p base pend ks n).1 := by
  induction ks generalizing s n with
  | nil => exact h
  | cons k ks ih =>
    unfold State.runSlots
    extract_lets lanes u t
    have ht : Formed t := by
      dsimp only [t]
      split
      · exact takeTrap_formed h.same
      · split
        · exact exec_formed (s := u) h _ ‹_›
        · exact h
    split
    · exact h
    · split
      · exact ih ht
      · exact ht

theorem endGroup_formed {b w : Nat} {pre : Wave} {p : Issue} {after : Nat} {cutOff : Bool} :
    Formed (s.endGroup b w pre p after cutOff) := by
  unfold State.endGroup
  refine ite_formed (issuedLast_formed ?_) ?_
  · split
    · exact h
    · exact ite_formed h.same (ite_formed (settle_formed h.same) h.same)
  · split
    · exact h
    · exact ite_formed h.same (ite_formed (settle_formed h.same) h.same)

/-- A group that starts again after some of its lanes stood aside starts from the same memory. -/
theorem runGroup_formed {b w fuel : Nat} : GroupFormed (s.runGroup b w fuel) := by
  induction fuel generalizing s with
  | zero => exact held_formed
  | succ fuel ih =>
    unfold State.runGroup
    split
    · exact held_formed
    next pre _ =>
    split
    · exact issued_formed h
    next p _ =>
    extract_lets ks start src parked without
    have hstart : Formed start := h.same
    have hw : ∀ m, GroupFormed (without m) := fun m => iteGrp_formed held_formed (ih hstart.same)
    split
    next t after hrun =>
    have ht : Formed t := by
      have hslots := runSlots_formed hstart (b := b) (w := w) (pre := src) (p := p) (base := s.nextId)
        (pend := s.pending b w) (ks := ks) (n := p.slot)
      rwa [hrun] at hslots
    split
    · exact held_formed
    · exact stalled_formed
    · exact issued_formed (fatal_formed hstart).same
    · refine iteGrp_formed (hw _) ?_
      extract_lets set u
      have hu : Formed u := takeTrap_formed hstart.same
      split
      · exact held_formed
      · exact issued_formed hu.same
    · refine iteGrp_formed (hw _) ?_
      extract_lets u
      have hu : Formed u := takeTrap_formed hstart.same
      split
      · exact ih hu.same
      · exact hw _
    · exact issued_formed (endGroup_formed ht.same)
    · exact issued_formed (endGroup_formed ht.same)

theorem beginAt_formed {b w : Nat} {p : Pos} {pk : Packet} {m : Lanes} : GroupFormed (s.beginAt b w p pk m) := by
  unfold State.beginAt
  split
  · exact held_formed
  · refine iteGrp_formed ?_ (runGroup_formed h.same)
    dsimp only
    split
    · exact held_formed
    · refine issued_formed ?_
      dsimp only [Formed]
      exact takeTrap_formed h.same

theorem countRun_formed {b w : Nat} {packet : Bool} : Formed (s.countRun b w packet) := by
  unfold State.countRun
  split <;> exact h

theorem beginPacket_formed {b w : Nat} : OptFormed (s.beginPacket b w) := by
  unfold State.beginPacket
  split
  · exact none_formed
  · dsimp only
    split
    · exact none_formed
    · split
      · exact some_formed (beginAt_formed (updWave_formed (countRun_formed h)) _ ‹_›)
      · exact none_formed

theorem deliverHeld_formed {b w : Nat} : OptFormed (s.deliverHeld b w) := by
  unfold State.deliverHeld
  split
  · exact none_formed
  · split
    · exact none_formed
    · split
      · exact none_formed
      · refine some_formed ?_
        dsimp only [Formed]
        exact takeTrap_formed h.same

theorem fetchAway_formed {b w : Nat} : OptFormed (s.fetchAway b w) := by
  unfold State.fetchAway
  split
  · refine findSome_formed (fun _ => ?_)
    split
    · exact iteOpt_formed none_formed (some_formed (present_formed (tlbFill_formed h)))
    · exact none_formed
  · exact none_formed

theorem readChains_formed {b w : Nat} : Formed (s.readChains b w) := by
  unfold State.readChains
  split
  · exact ite_formed h.same h
  · exact h

theorem issueFresh_formed {b w : Nat} : OptFormed (s.issueFresh b w) := by
  unfold State.issueFresh
  split
  · exact some_formed (deliverHeld_formed h _ ‹_›)
  · exact iteOpt_formed (fetchAway_formed (readChains_formed h)) (beginPacket_formed (readChains_formed h))

theorem issueWave_formed {b w : Nat} : OptFormed (s.issueWave b w) := by
  unfold State.issueWave
  split
  · refine iteOpt_formed none_formed ?_
    split
    · exact issueFresh_formed h
    · split
      · exact some_formed (runGroup_formed (countRun_formed h) _ ‹_›)
      · exact issueFresh_formed h.same
      · exact none_formed
  · exact none_formed

theorem issueNow_formed {b w : Nat} : OptFormed (s.issueNow b w) := iteOpt_formed none_formed (issueWave_formed h)

theorem keepBack_formed {es : List (Nat × Nat)} {k : Nat} : Formed (s.keepBack es k) := foldl_formed (fun _ _ ht => ht.same) h

theorem issueChosen_formed {b w : Nat} : OptFormed (s.issueChosen b w) :=
  bind_formed (fun _ => issueNow_formed (keepBack_formed h))

theorem issueAll_formed : Formed s.issueAll := foldl_formed (fun _ _ ht => getD_formed (issueNow_formed ht) ht) h

theorem passClocks_formed {n : Nat} : Formed (s.passClocks n) :=
  ite_formed (keepBack_formed (keepBack_formed (refill_formed h))).same (keepBack_formed (keepBack_formed (refill_formed h))).same

end

/-! ### The events that fall by themselves -/

theorem eventsKeep_nil : EventsKeep [] ↔ True := iff_true_intro (List.forall_mem_nil _)

theorem eventsKeep_cons {f : State → Out} {fs : List (State → Out)} : EventsKeep (f :: fs) ↔ Keeps f ∧ EventsKeep fs :=
  List.forall_mem_cons

theorem eventsKeep_singleton {f : State → Out} : EventsKeep [f] ↔ Keeps f := List.forall_mem_singleton

theorem eventsKeep_append {fs gs : List (State → Out)} : EventsKeep (fs ++ gs) ↔ EventsKeep fs ∧ EventsKeep gs :=
  List.forall_mem_append

theorem eventsKeep_map {α : Type} {xs : List α} {f : α → State → Out} (hf : ∀ x, Keeps (f x)) : EventsKeep (xs.map f) :=
  List.forall_mem_map.2 fun x _ => hf x

theorem eventsKeep_flatMap {α : Type} {xs : List α} {f : α → List (State → Out)} (hf : ∀ x, EventsKeep (f x)) :
    EventsKeep (xs.flatMap f) :=
  List.forall_mem_flatMap.2 fun x _ => hf x

theorem eventsKeep_mapIdx {α : Type} {xs : List α} {f : Nat → α → List (State → Out)} (hf : ∀ i x, EventsKeep (f i x)) :
    EventsKeep (xs.mapIdx f).flatten := by
  intro g hg
  obtain ⟨fs, hfs, hmem⟩ := List.mem_flatten.1 hg
  obtain ⟨i, hi, rfl⟩ := List.mem_mapIdx.1 hfs
  exact hf _ _ g hmem

theorem blockEvents_keep {b : Nat} {x : Block} : EventsKeep (blockEvents b x) := by
  simp only [blockEvents, eventsKeep_append, eventsKeep_cons, eventsKeep_nil, and_true]
  refine ⟨⟨⟨⟨⟨eventsKeep_flatMap fun _ => ?_, eventsKeep_mapIdx fun _ _ => eventsKeep_map fun _ _ h => execSfuResult_formed h⟩,
    eventsKeep_map fun _ _ h => execSigningRoundComplete_formed h⟩, eventsKeep_flatMap fun _ => ?_⟩,
    fun _ h => execBarrierPhaseComplete_formed h, eventsKeep_map fun _ _ h => execBarrierPhaseComplete_formed h⟩,
    fun _ h => execSaveImageWrite_formed h, fun _ h => execResumeIssue_formed h, fun _ h => execBlockRetire_formed h⟩
  · simp only [eventsKeep_cons, eventsKeep_nil, and_true]
    exact ⟨fun _ h => execRcvRelease_formed h, fun _ h => execSleepEnd_formed h, fun _ h => execPhaseClComplete_formed h,
      fun _ h => execMonitorTrigger_formed h, fun _ h => execMonitorTimeout_formed h, fun _ h => execShfTakeReturn_formed h,
      fun _ h => execFetchFault_formed h⟩
  · simp only [eventsKeep_cons, eventsKeep_nil, and_true]
    exact ⟨fun _ h => execMmaKstep_formed h, fun _ h => execAccCommandPerform_formed h⟩

theorem coreEvents_keep {c : Nat} : EventsKeep (coreEvents c) := by
  refine eventsKeep_cons.2 ⟨fun _ h => execPortSend_formed h, eventsKeep_flatMap fun q => ?_⟩
  simp only [eventsKeep_cons, eventsKeep_nil, and_true]
  exact ⟨fun _ h => execCopyComplete_formed h, fun _ h => execCopyBegin_formed h, fun _ h => execCollComplete_formed h,
    fun _ h => execCollBegin_formed h⟩

theorem queueEvents_keep {q : Nat} : EventsKeep (queueEvents q) := by
  simp only [queueEvents, eventsKeep_cons, eventsKeep_nil, and_true]
  exact ⟨fun _ h => execLaunch_formed h, fun _ h => execWait_formed h, fun _ h => execWaitSatisfied_formed h,
    fun _ h => execSignal_formed h, fun _ h => execCancel_formed h, fun _ h => execBind_formed h,
    fun _ h => execTickalign_formed h, fun _ h => execClose_formed h⟩

theorem packetEvents_keep {p : FabPacket} : EventsKeep (packetEvents p) := by
  simp only [packetEvents, eventsKeep_cons, eventsKeep_nil, and_true]
  exact ⟨fun _ h => execFabricRead_formed h, fun _ h => execFabricWrite_formed h, fun _ h => execFabricAtomic_formed h,
    fun _ h => execFabricReply_formed h, fun _ h => execMarker_formed h, fun _ h => execMarkerAck_formed h,
    fun _ h => execFabricColl_formed h⟩

theorem fenceEvents_keep {key : Nat} : EventsKeep (fenceEvents key) := by
  have hf : ∀ u n, Keeps (execUnitFence u n) := fun _ _ _ h => execUnitFence_formed h
  unfold fenceEvents
  dsimp only
  split
  · exact eventsKeep_cons.2 ⟨hf _ _, eventsKeep_singleton.2 (hf _ _)⟩
  all_goals exact eventsKeep_singleton.2 (hf _ _)

theorem internalEvents_keep {s : State} : EventsKeep s.internalEvents := by
  simp only [State.internalEvents, eventsKeep_append, eventsKeep_cons, eventsKeep_nil, and_true]
  refine ⟨⟨⟨⟨⟨⟨⟨⟨⟨⟨⟨⟨⟨⟨eventsKeep_flatMap fun e => ?_, eventsKeep_flatMap fun _ => coreEvents_keep⟩,
    eventsKeep_flatMap fun _ => blockEvents_keep⟩, eventsKeep_flatMap fun e => ?_⟩,
    eventsKeep_map fun _ _ h => execShfPutArrive_formed h⟩, eventsKeep_map fun _ _ h => execStillwaterQuiet_formed h⟩,
    eventsKeep_flatMap fun _ => packetEvents_keep⟩, eventsKeep_map fun _ _ h => execHeldWriteCommit_formed h⟩,
    eventsKeep_map fun _ _ h => execPageMoveComplete_formed h⟩, fun _ h => execL2FlushDone_formed h⟩,
    eventsKeep_map fun _ _ h => execGridComplete_formed h⟩,
    fun _ h => execWeirRun_formed h, fun _ h => execBlockPlace_formed h, fun _ h => execDispatchTakeGrid_formed h,
    fun _ h => execBackfill_formed h, fun _ h => execBackfill_formed h, fun _ h => execBackfill_formed h⟩,
    eventsKeep_flatMap fun _ => queueEvents_keep⟩, fun _ h => execHandoverCommit_formed h⟩,
    eventsKeep_flatMap fun _ => fenceEvents_keep⟩
  · exact eventsKeep_cons.2 ⟨fun _ h => execLoadResult_formed h, eventsKeep_singleton.2 fun _ h => execWritePerform_formed h⟩
  · cases e.2.sessIn.head? with
    | none => exact eventsKeep_nil.2 trivial
    | some p => exact eventsKeep_singleton.2 fun _ h => execFabricSession_formed h

theorem promptEvents_keep {s : State} : EventsKeep s.promptEvents := by
  simp only [State.promptEvents, eventsKeep_append, eventsKeep_cons, eventsKeep_nil, and_true]
  exact ⟨eventsKeep_map fun _ _ h => execPortSend_formed h, fun _ h => execDispatchTakeGrid_formed h,
    fun _ h => execBlockPlace_formed h⟩

section
variable {s : State} (h : Formed s)
include h

theorem fireSome_formed {fs : List (State → Out)} (hfs : EventsKeep fs) : OptFormed (s.fireSome fs) := by
  induction fs with
  | nil => exact none_formed
  | cons f fs ih =>
    obtain ⟨hf, hrest⟩ := eventsKeep_cons.1 hfs
    unfold State.fireSome
    split
    · exact some_formed (hf s h _ ‹_›)
    · exact ih hrest

theorem idleEnd_formed : Formed s.idleEnd := ite_formed (refill_formed h) (passClocks_formed h)

theorem idleStep_formed : Formed s.idleStep := by
  unfold State.idleStep
  split
  · exact fireSome_formed h internalEvents_keep _ ‹_›
  · exact idleEnd_formed (issueAll_formed h)

theorem evict_formed {core asn vline : Nat} : Formed (s.evict core asn vline) := h

theorem sendAllDue_formed : Formed s.sendAllDue :=
  foldl_formed (fun _ _ ht => foldl_formed (fun _ _ ht' => sendDue_formed ht') ht) h

theorem healthReports_formed {before : DWord} : Formed (s.healthReports before) :=
  ite_formed h (foldl_formed (fun _ _ ht => sendFrame_formed ht) h)

theorem settled_formed : Formed { s with cur := none, note := .fine } := h

/-- What ends every step. -/
theorem rest_formed {health : DWord} : Formed (s.rest health) := by
  unfold State.rest
  extract_lets t
  have ht : Formed t := pump_formed (dropMessages_formed (noteHead_formed (serveAll_formed (sendAllDue_formed (gridMarkers_formed
    (blockMarkers_formed (refuseReserved_formed (departReads_formed (exhaustCheck_formed (flushWaiting_formed (hostGo_formed
      (advanceAll_formed (portDue_formed h)))))))))))))
  exact settled_formed (healthReports_formed ht)

theorem evictCode_formed {core asn vline : Nat} : Formed (s.evictCode core asn vline) := h

theorem act_formed {a : Machine.Action} : OutFormed (s.act a) := by
  unfold State.act
  dsimp only
  split
  · split
    · exact next_formed (rest_formed (exec_formed h _ ‹_›))
    · exact exec_formed h
  · split
    · exact next_formed (rest_formed (issueChosen_formed h _ ‹_›))
    · exact refused_formed
  · exact next_formed (evict_formed h)
  · exact next_formed (evictCode_formed h)
  · exact next_formed (rest_formed (writeback_formed h))
  · split
    · exact next_formed (setPart_formed h _ ‹_›)
    · exact refused_formed
  · exact next_formed (rest_formed (decay_formed h))
  · exact powerCut_formed h
  · refine next_formed (rest_formed ?_)
    split
    · exact fireSome_formed h promptEvents_keep _ ‹_›
    · split
      · exact getD_formed (issueNow_formed h) h
      · exact passClocks_formed h

theorem stepOf_formed : OutFormed s.stepOf := by
  unfold State.stepOf
  refine iteOut_formed (next_formed (rest_formed (fatal_formed h))) (iteOut_formed (act_formed h) ?_)
  split
  · exact next_formed (rest_formed (idleStep_formed h))
  · exact act_formed h.same

/-! ### The step (Machine/Step) -/

theorem step_formed : OutFormed (step s) := stepOf_formed h

end

/-- Settles O59: no function of the model that a step reaches leaves the memory out of canonical form. -/
theorem stepKeepsMemoryForm : Obligations.StepKeepsMemoryForm := fun _ _ hs ht => step_formed hs _ ht

end Sys2Proof.Proofs

/-! Memory instructions (spec/07): ordering, the cache instructions and the global accesses that present their requests. -/

namespace Sys2Proof.Proofs

open Sys2Proof.Machine Sys2Proof.Claims

/-- An instruction of the wave that is being issued with an active thread has its own effect. -/
theorem issueWave_next {s : State} {h : Head} {x : Ctx} (hx : s.ctx h = some x) (hact : x.act ≠ 0) {o : Out} {name : String}
    {us : List RegUse} {body : Ctx → State → State} (hu : firstBeyond x.blk.kern us = none)
    (ho : o = issueOp name h false us (waveOp body) s := by rfl) : o = .next (body x s) := by
  rw [ho, issueOp_next name h false us _ s x hx (by simp) hu, waveOp, if_pos (any_of_act hact)]

/-! ### Cache drops (R200, R202, R206, R234, R235) -/

/-- The lines that satisfy `p` leave the core's L1, and nothing else of the module changes but what may fill it. -/
theorem l1Drop_dropped (s : State) (core : Nat) (p : L1Line → Bool) {q : L1Line → Prop} (hq : ∀ l, p l = true ↔ q l) :
    L1Dropped s (s.l1Drop core p) core q := by
  obtain ⟨hreqs, hrest⟩ := l1Drop_fillFrame s core p
  have hcore : (s.l1Drop core p).core core = { s.core core with l1 := (s.core core).l1.filter (fun l => !p l) } := by
    simp only [State.l1Drop, State.updCore, State.core, Tbl.get_put_self]
    rfl
  refine ⟨fun l => ?_, by rw [hcore], fun d hd => ?_, hreqs, hrest⟩
  · rw [hcore, List.mem_filter, ← hq]
    simp
  · simp only [State.l1Drop, State.updCore, State.core, Tbl.get_put_ne _ _ _ _ hd]
    rfl

/-- The lines that an address of the form names. -/
theorem mem_linesNamed (x : Ctx) (f : MFmt) (v : Nat) :
    v ∈ x.linesNamed f ↔ ∃ m ∈ x.accessLanes f, canonicalInt (x.address f m) = true ∧ v = (x.address f m).toNat / 128 := by
  simp only [Ctx.linesNamed, List.mem_eraseDups, List.mem_map, List.mem_filter]
  constructor
  · rintro ⟨a, ⟨⟨m, hm, rfl⟩, hc⟩, rfl⟩
    exact ⟨m, hm, hc, rfl⟩
  · rintro ⟨m, hm, hc, rfl⟩
    exact ⟨_, ⟨⟨m, hm, rfl⟩, hc⟩, rfl⟩

theorem cacheDropResults : CacheDropResults := by
  intro s h f x hx hact hout
  have hgo {o : Out} {name : String} {us : List RegUse} {t : Ctx → State → State}
      (hu : firstBeyond x.blk.kern us = none)
      (ho : o = issueOp name h false us (waveOp fun x s => if s.readsOut x.b x.w then s.hold else t x s) s := by rfl) : o = .next (t x s) := by
    rw [issueWave_next hx hact hu ho, hout, if_neg Bool.false_ne_true]
  have hphase : exec (.phaseOp h f) s = .next (s.openAt x.blk.core f.scope) := hgo (us := []) rfl
  refine ⟨fun hu => ⟨_, hgo hu, l1Drop_dropped s _ _ fun l => ?named⟩,
    ⟨_, hgo (us := []) rfl, l1Drop_dropped s _ _ fun _ => ⟨fun _ => trivial, fun _ => rfl⟩⟩,
    fun hscope => ⟨_, hphase.trans (congrArg _ (if_neg hscope)), l1Drop_dropped s _ _ fun l => by simp⟩,
    fun hscope => hphase.trans (congrArg _ (if_pos hscope))⟩
  case named => simp [mem_linesNamed]

/-! ### Phases and queue fences (R199, R201, R234) -/

/-- A wave whose close is complete: it waits no longer, and forgets what has performed. -/
def closedWave (s : State) (v : Wave) : Wave :=
  { v with hold := .none, seen := v.seen.filter (fun o => !s.writesDone 2 [o]), seenLines := v.seenLines.filter s.lagging,
           wrote := v.wrote.filter s.lagging }

theorem phaseClComplete_results {s : State} {b w : Nat} {v : Wave} {c : Close} (hv : s.wave b w = some v) (hhold : v.hold = .close c)
    (hmet : s.closeMet c = true) : ∃ t v', exec (.phaseClComplete b w) s = .next t ∧ t.wave b w = some v' ∧ v'.hold = .none ∧
      { v' with hold := v.hold, seen := v.seen, seenLines := v.seenLines, wrote := v.wrote } = v ∧
      (∀ o, o ∈ v'.seen ↔ o ∈ v.seen ∧ s.writesDone 2 [o] = false) ∧
      (∀ l, (l ∈ v'.seenLines ↔ l ∈ v.seenLines ∧ s.lagging l = true) ∧ (l ∈ v'.wrote ↔ l ∈ v.wrote ∧ s.lagging l = true)) ∧
      { t with blocks := s.blocks } = s := by
  have hexec : exec (.phaseClComplete b w) s = .next ((s.forgetDone b w).updWave b w (fun x => { x with hold := .none })) := by
    show execPhaseClComplete b w s = _
    simp only [execPhaseClComplete, hv, hhold]
    exact event_next _ _ _ hmet
  refine ⟨_, closedWave s v, hexec, ?_, rfl, rfl, fun o => ?_, fun l => ⟨List.mem_filter, List.mem_filter⟩, rfl⟩
  · rw [State.wave_updWave_self, State.forgetDone, State.wave_updWave_self, hv]
    rfl
  · simp [closedWave]

theorem phaseAndFenceResults : PhaseAndFenceResults := by
  intro s h f x hx hact
  refine ⟨issueWave_next hx hact (us := []) rfl, ?fence, fun b w v c hv hhold hmet => phaseClComplete_results hv hhold hmet⟩
  case fence =>
    refine (issueWave_next hx hact (us := []) rfl).trans ?_
    have hmask : s.cmdsOn x.b x.blk.core (f.off.setWidth 4) = (List.range 4).flatMap (fun q => if f.off.getLsbD q then
        ((s.queueOf x.blk.core q).filter (fun c => c.blk = x.b)).map (fun c => c.id) else []) := by
      refine List.flatMap_congr fun q hq => ?_
      simp [List.mem_range.1 hq]
    rw [← hmask]

/-- Settles O19: cache drops by `l1Drop_dropped`, the end of a close by what it forgets. -/
theorem orderingResults : Obligations.OrderingResults := ⟨cacheDropResults, phaseAndFenceResults⟩

end Sys2Proof.Proofs

/-! Memory instructions (spec/07): loads, stores and block-atomic accesses that pass their checks present their requests. -/

namespace Sys2Proof.Proofs

open Sys2Proof.Machine Sys2Proof.Claims

/-! ### What a store leaves of its wave (R46, R192) -/

/-- The kinds whose issue clears IDEM at a page that is not idempotent-safe. -/
def StoreKind (k : ReqKind) : Prop := k = .store ∨ k = .storeBlk

/-- A store clears IDEM when one of its pages is not idempotent-safe, and changes nothing else. -/
theorem storeIdem_issueKeeps (s : State) (b w : Nat) {k : ReqKind} (hk : StoreKind k) (gs : List Got) :
    IssueKeeps b w s (s.storeIdem b w k gs) ∧ (s.storeIdem b w k gs).nextId = s.nextId ∧
      ∀ v, s.wave b w = some v →
        (s.storeIdem b w k gs).wave b w = some { v with idem := v.idem && gs.all (fun g => leafIds g.leaf) } := by
  have hcase : s.storeIdem b w k gs =
      if gs.any (fun g => !leafIds g.leaf) then s.updWave b w (fun v => { v with idem := false }) else s := by
    rcases hk with rfl | rfl <;> rfl
  rw [hcase]
  split
  · rename_i hany
    refine ⟨issueKeeps_updWave s _ _ _ fun _ => rfl, rfl, fun v hv => ?_⟩
    have hall : gs.all (fun g => leafIds g.leaf) = false := by simpa using hany
    rw [State.wave_updWave_self, hv, hall, Bool.and_false]
    rfl
  · rename_i hany
    refine ⟨(MoreReqs.refl s).issueKeeps _ _, rfl, fun v hv => ?_⟩
    have hall : gs.all (fun g => leafIds g.leaf) = true := by simpa using hany
    rw [hv, hall, Bool.and_true]

/-- THE REQUESTS OF A STORE whose checks have all passed, from the state `s` in which it takes its operation's number. -/
theorem performGlobal_stored {s s₁ : State} {x : Ctx} (scalar : Bool) {o : OpInfo} {gs : List Got} (need : Need) {v : Wave}
    (hkind : StoreKind o.kind) (hacq : o.acqScope = 0) (hs : IssueKeeps x.b x.w s s₁) (hn : s₁.nextId = s.nextId + 1)
    (hop : o.op = s.nextId) (hx : s.wave x.b x.w = some x.wv) (hv : s₁.wave x.b x.w = some v) :
    ∃ u v', s₁.performGlobal x scalar o [] { got := gs, absent := [], denied := [], fatal := [], need := need } [] = u.sendDue x.b x.w ∧
      Presented s u x o.kind o.dst o.after 0 o.rel gs ∧ u.wave x.b x.w = some v' ∧
      v'.idem = (v.idem && gs.all (fun g => leafIds g.leaf)) := by
  have hret : o.kind.returns = false := by rcases hkind with h | h <;> rw [h] <;> rfl
  obtain ⟨tl, htl⟩ := fillAll_eq s₁ x.blk gs
  obtain ⟨hki, hni, hwi⟩ := storeIdem_issueKeeps { s₁ with tlb := tl } x.b x.w hkind gs
  obtain ⟨hmore, hhas⟩ := presentAll_more (({ s₁ with tlb := tl } : State).storeIdem x.b x.w o.kind gs) x.blk x.b x.w o false gs
  obtain ⟨hkf, hwf⟩ := finishOp_issueKeeps
    ((({ s₁ with tlb := tl } : State).storeIdem x.b x.w o.kind gs).presentAll x.blk x.b x.w o false gs) x.b x.w o.op x.blk.core
  have hkeeps := (((hs.trans (issueKeeps_tlb s₁ tl _ _)).trans hki).trans (hmore.issueKeeps _ _)).trans hkf
  obtain ⟨bs, as_, hwu⟩ := hwf _ ((hmore.wave_eq _ _).trans (hwi v hv))
  obtain ⟨v', hv', hrest⟩ := hkeeps.wave _ hx
  refine ⟨_, v', ?performed, ⟨fun g hg => ?_, hkeeps.older, hkeeps.rest, hkeeps.block, v', hv', hrest, fun h => ?_⟩, hv', ?_⟩
  case performed =>
    unfold State.performGlobal
    simp only [htl, hret, hacq, Bool.false_eq_true, if_false, if_true]
    rfl
  · obtain ⟨grp, hgrp, hmem⟩ := mem_requestGroups o hg
    obtain ⟨id, r, m, hr, hid, rfl⟩ := ((hhas grp hgrp).of_older hkf.next_le hkf.older).elim
    have hfirst : (({ s₁ with tlb := tl } : State).storeIdem x.b x.w o.kind gs).nextId = s.nextId + 1 := hni.trans hn
    exact ⟨id, _, hr, by omega, hop, rfl, rfl, rfl, rfl, rfl, hacq, rfl, rfl, rfl, List.mem_map_of_mem hmem⟩
  · rw [hret] at h
    cases h
  · rw [hwu] at hv'
    cases hv'
    rfl

/-! ### `ld` and `st` (R187, R188, R191, R192) -/

/-- The operation of a lane or scalar form differs from what it is made of in the threads it stands for. -/
theorem ctxInfo_eq (x : Ctx) (f : MFmt) (o : OpInfo) : ∃ m, x.info f o = { o with thr := m } := by
  unfold Ctx.info
  split
  · exact ⟨x.act, rfl⟩
  · exact ⟨o.thr, rfl⟩

theorem load_presented {s : State} {x : Ctx} {f : MFmt} {gs : List Got} (hx : s.wave x.b x.w = some x.wv) (hact : x.act ≠ 0)
    (h : Translates s x Need.load devWidth (x.wants f f.n 0 0) gs) (hmiss : ∀ w ∈ x.wants f f.n 0 0, s.l1Hit x.blk w.va.toNat = none) :
    ∃ u, x.load f s = u.sendDue x.b x.w ∧ Presented s u x (.load (f.b = 1) f.ht.toNat) f.dst [] 0 0 gs := by
  obtain ⟨m, hm⟩ := ctxInfo_eq x f (opInfo s.nextId (.load (f.b = 1) f.ht.toNat) f.dst f.ht.toNat Need.load)
  have hkeep := newId_moreReqs s
  obtain ⟨u, -, hu, hp, -⟩ := performGlobal_presented f.ak Need.load
    (o := { opInfo s.nextId (.load (f.b = 1) f.ht.toNat) f.dst f.ht.toNat Need.load with thr := m }) (fun _ => rfl)
    (hkeep.issueKeeps _ _) rfl rfl hx ((hkeep.wave_eq _ _).trans hx) rfl (gots_ne_nil h (wants_ne_nil hact _ _ _))
  refine ⟨u, ?_, hp⟩
  rw [← hu]
  simp only [Ctx.load, State.newId, hm]
  exact globalAccess_of_translates (translates_of_issue h s.blocks (s.nextId + 1)) (fun _ _ _ => hmiss) rfl

theorem store_presented {s : State} {x : Ctx} {f : MFmt} {gs : List Got} (hx : s.wave x.b x.w = some x.wv)
    (h : Translates s x Need.store devWidth (x.wants f f.n f.n f.b.toNat) gs) :
    ∃ u v', x.store f s = u.sendDue x.b x.w ∧ Presented s u x .store .none [] 0 0 gs ∧ u.wave x.b x.w = some v' ∧
      v'.idem = (x.wv.idem && gs.all (fun g => leafIds g.leaf)) := by
  obtain ⟨m, hm⟩ := ctxInfo_eq x f (opInfo s.nextId .store .none f.ht.toNat Need.store)
  have hkeep := newId_moreReqs s
  obtain ⟨u, v', hu, hp, hw, hi⟩ := performGlobal_stored (gs := gs) f.ak Need.store
    (o := { opInfo s.nextId .store .none f.ht.toNat Need.store with thr := m }) (.inl rfl) rfl (hkeep.issueKeeps _ _) rfl rfl hx
    ((hkeep.wave_eq _ _).trans hx)
  refine ⟨u, v', ?_, hp, hw, hi⟩
  rw [← hu]
  simp only [Ctx.store, State.newId, hm]
  exact globalAccess_of_translates (translates_of_issue h s.blocks (s.nextId + 1)) nofun rfl

/-- An operation that awaits the wave's opens goes on where there are none. -/
theorem afterAcq_of_nil {x : Ctx} (hacq : x.wv.acq = []) (go : State → State) (s : State) : x.afterAcq go s = go s := by
  rw [Ctx.afterAcq, hacq]
  rfl

/-- Settles O20: the two forms are `load_presented` and `store_presented`. -/
theorem loadStoreIssue : Obligations.LoadStoreIssue := by
  intro s h f x gs hx hact
  refine ⟨fun hu hacq htr hmiss => ?ld, fun hu htr => ?st⟩
  case ld =>
    obtain ⟨u, hu', hp⟩ := load_presented (wave_of_ctx hx) hact htr hmiss
    refine ⟨u, (issueWave_next hx hact hu).trans ?_, hp⟩
    rw [afterAcq_of_nil hacq, hu']
  case st =>
    obtain ⟨u, v', hu', hp, hw, hi⟩ := store_presented (wave_of_ctx hx) htr
    refine ⟨u, v', (issueWave_next hx hact hu).trans ?_, hp, hw, hi⟩
    rw [hu']

/-! ### Block-atomic accesses (R190, R193) -/

/-- A block-atomic access both of whose parts pass is performed. -/
theorem blkAccess_of_translates {s : State} {x : Ctx} {o : OpInfo} {ws : List Want} {gs : List Got}
    (h : Translates s x o.need (fun _ => false) ws gs) :
    x.blkAccess o ws s = (s.storeIdem x.b x.w o.kind gs).performGlobal x true { o with thr := x.act } []
      { got := gs, absent := [], denied := [], fatal := [], need := o.need } [] := by
  have hpark : ∀ w ∈ ws, s.lineParked x.b x.w true w.lane w.va.toNat = false := fun w hw => lineParked_of_apart (h.2.1 w hw)
  have hpart : ws.partition (fun w => s.lineParked x.b x.w true w.lane w.va.toNat) = ([], ws) := by
    rw [List.partition_eq_filter_filter, List.filter_eq_nil_iff.2 fun w hw => by simp [hpark w hw],
      List.filter_eq_self.2 fun w hw => by simp [hpark w hw]]
  unfold Ctx.blkAccess
  rw [addressTrap_none h.1]
  simp only [hpart, checkAll_of_got (translates_got h)]
  rfl

/-- Settles O21: a load presents its request by `performGlobal_presented`, a store by `performGlobal_stored`. That `ld.blk` presents
one also where its line is in the L1 is the model's reading (notes/assumptions/28.md). -/
theorem blockAccessIssue : Obligations.BlockAccessIssue := by
  intro s h f x gs hx hact size wants
  have hkeep := (newId_moreReqs s).issueKeeps x.b x.w
  have hwave := ((newId_moreReqs s).wave_eq x.b x.w).trans (wave_of_ctx hx)
  refine ⟨fun hu hacq htr => ?ld, fun hu htr => ?st⟩
  case ld =>
    obtain ⟨u, -, hu', hp, -⟩ := performGlobal_presented true Need.load
      (o := { opInfo s.nextId .loadBlk (.blk f.d.toNat x.act) f.ht.toNat Need.load with thr := x.act }) (fun _ => rfl) hkeep rfl rfl
      (wave_of_ctx hx) hwave rfl (gots_ne_nil htr (List.cons_ne_nil _ _))
    refine ⟨u, (issueWave_next hx hact hu).trans ?_, hp⟩
    rw [afterAcq_of_nil hacq, ← hu']
    exact congrArg _ (blkAccess_of_translates (translates_of_issue htr s.blocks (s.nextId + 1)))
  case st =>
    obtain ⟨hki, hni, hwi⟩ := storeIdem_issueKeeps s.newId.2 x.b x.w (.inr rfl) gs
    obtain ⟨u, -, hu', hp, -⟩ := performGlobal_stored (gs := gs) true Need.store
      (o := { opInfo s.nextId .storeBlk .none f.ht.toNat Need.store with thr := x.act }) (.inr rfl) rfl (hkeep.trans hki) hni rfl
      (wave_of_ctx hx) (hwi _ hwave)
    refine ⟨u, (issueWave_next hx hact hu).trans ?_, hp⟩
    rw [← hu']
    exact congrArg _ (blkAccess_of_translates (translates_of_issue htr s.blocks (s.nextId + 1)))

end Sys2Proof.Proofs

/-! Scratchpad accesses (spec/07): R151, R153, R189, R194, R195, R217, R235. -/

namespace Sys2Proof.Proofs

open Sys2Proof.Machine Sys2Proof.Claims

/-! ### Writes to the window (R153, R189) -/

/-- A block that differs from `p` in the bytes of its window, and in the rows marked touched. -/
def WindowOf (p q : Block) : Prop := { q with spad := p.spad, touched := p.touched } = p

theorem WindowOf.trans {p q r : Block} (h : WindowOf p q) (k : WindowOf q r) : WindowOf p r := by
  unfold WindowOf at *
  rw [← h, ← k]

theorem spadWrite_windowOf (p : Block) (o : Nat) (bs : List Byte) : WindowOf p (p.spadWrite o bs) := by
  induction bs generalizing p o with
  | nil => rfl
  | cons b bs ih => exact WindowOf.trans (q := { p with spad := p.spad.put o b, touched := insertNat (o / 296) p.touched }) rfl (ih _ _)

theorem spadWrite_get_out (p : Block) (o a : Nat) (bs : List Byte) (h : a < o ∨ o + bs.length ≤ a) :
    (p.spadWrite o bs).spad.get a = p.spad.get a := by
  induction bs generalizing p o with
  | nil => rfl
  | cons b bs ih =>
    rw [List.length_cons] at h
    rw [Block.spadWrite, ih _ _ (by omega)]
    exact Tbl.get_put_ne _ _ _ _ (by omega)

theorem spadWrite_get_in (p : Block) (o i : Nat) (bs : List Byte) {b : Byte} (h : bs[i]? = some b) :
    (p.spadWrite o bs).spad.get (o + i) = some b := by
  induction bs generalizing p o i with
  | nil => simp at h
  | cons c bs ih =>
    cases i with
    | zero =>
      obtain rfl := Option.some.inj h
      rw [Block.spadWrite, spadWrite_get_out _ _ _ _ (by omega)]
      exact Tbl.get_put_self _ _ _
    | succ i =>
      rw [Block.spadWrite, show o + (i + 1) = o + 1 + i by omega]
      exact ih _ _ _ h

/-! ### `sts` (R153, R194) -/

theorem spadStore_windowOf (p : Block) (ws : List Want) : WindowOf p (p.spadStore ws) := by
  induction ws generalizing p with
  | nil => rfl
  | cons w ws ih => exact (spadWrite_windowOf p _ _).trans (ih _)

theorem spadStore_get_out (p : Block) (ws : List Want) (o : Nat)
    (h : ∀ w ∈ ws, o < w.va.toNat ∨ w.va.toNat + w.data.length ≤ o) : (p.spadStore ws).spad.get o = p.spad.get o := by
  induction ws generalizing p with
  | nil => rfl
  | cons w ws ih =>
    rw [List.forall_mem_cons] at h
    exact (ih _ h.2).trans (spadWrite_get_out p _ _ _ h.1)

/-- A lane's bytes stand in the window after a store whose other lanes name none of them. -/
theorem spadStore_get_in (p : Block) (ws : List Want) {w : Want} (hw : w ∈ ws)
    (hapart : ∀ w' ∈ ws, w' ≠ w → w'.va.toNat + w'.data.length ≤ w.va.toNat ∨ w.va.toNat + w.data.length ≤ w'.va.toNat) {i : Nat}
    {b : Byte} (hb : w.data[i]? = some b) : (p.spadStore ws).spad.get (w.va.toNat + i) = some b := by
  have hi : i < w.data.length := (List.getElem?_eq_some_iff.1 hb).1
  induction ws generalizing p with
  | nil => cases hw
  | cons v ws ih =>
    rw [List.forall_mem_cons] at hapart
    by_cases hmem : w ∈ ws
    · exact ih _ hmem hapart.2
    · obtain rfl : w = v := (List.mem_cons.1 hw).resolve_right hmem
      refine (spadStore_get_out _ ws _ fun w' hw' => ?_).trans (spadWrite_get_in p _ i _ hb)
      have := hapart.2 w' hw' fun h => hmem (h ▸ hw')
      omega

/-! ### Commands that have not read their index arrays (R217) -/

/-- A change of a core's queues that concerns the kept bytes of index arrays only. -/
theorem bareCore_of_shadow (k : Core) (f : CopyCmd → CopyCmd) (hf : ∀ c, { f c with shadow := [] } = { c with shadow := [] }) :
    bareCore { k with queues := k.queues.map (fun q => q.map f) } = bareCore k := by
  simp only [bareCore, List.map_map]
  congr 1
  refine List.map_congr_left fun q _ => ?_
  simp only [Function.comp, List.map_map]
  exact List.map_congr_left fun c _ => hf c

theorem bareCore_updCore (s : State) (c d : Nat) (f : Core → Core) (hf : ∀ k, bareCore (f k) = bareCore k) :
    bareCore ((s.updCore c f).core d) = bareCore (s.core d) := by
  by_cases h : d = c
  · subst h
    simp only [State.updCore, State.core, Tbl.get_put_self, Option.getD_some]
    exact hf _
  · simp only [State.updCore, State.core, Tbl.get_put_ne _ _ _ _ h]

/-- Before lanes write to a window, the commands issued before keep what they would have read of it. -/
theorem keepIndex_keeps (s : State) (b : Nat) (os : List Nat) :
    { s.keepIndex b os with cores := s.cores } = s ∧ ∀ d, bareCore ((s.keepIndex b os).core d) = bareCore (s.core d) := by
  unfold State.keepIndex
  split
  · exact ⟨rfl, fun _ => rfl⟩
  · refine ⟨rfl, fun d => bareCore_updCore s _ d _ fun k => bareCore_of_shadow k _ fun c => ?_⟩
    split <;> rfl

theorem keepIndex_blocks (s : State) (b : Nat) (os : List Nat) : (s.keepIndex b os).blocks = s.blocks := by
  have h := congrArg State.blocks (keepIndex_keeps s b os).1
  exact h

/-! ### The instructions -/

/-- An access within the window and aligned. -/
def FitsWindow (x : Ctx) (w : Want) : Prop := w.va % (w.align : Int) = 0 ∧ 0 ≤ w.va ∧ w.va + w.n ≤ (x.blk.kern.spad : Int)

/-- Accesses that all fit take no trap. -/
theorem spadAccess_of_fits {x : Ctx} {f : MFmt} {ws : List Want} (h : ∀ w ∈ ws, FitsWindow x w) (go : State → State) (s : State) :
    x.spadAccess f ws go s = go s := by
  have hout : ws.filter (fun w => w.va < 0 || (x.blk.kern.spad : Int) < w.va + w.n) = [] :=
    List.filter_eq_nil_iff.2 fun w hw => by
      obtain ⟨-, hlo, hhi⟩ := h w hw
      simpa using ⟨hlo, hhi⟩
  have hodd : ws.filter (fun w => w.va % (w.align : Int) ≠ 0) = [] :=
    List.filter_eq_nil_iff.2 fun w hw => by simp [(h w hw).1]
  simp only [Ctx.spadAccess, Ctx.spadTrap, hout, hodd]
  rfl

theorem spadWants_ne_nil {x : Ctx} {f : MFmt} (h : x.act ≠ 0) (off : Int) (n data r : Nat) : x.spadWants f off n data r ≠ [] := by
  simpa [Ctx.spadWants] using accessLanes_ne_nil h

theorem storeScratch_results {s : State} {h : Head} {f : MFmt} {x : Ctx} (hx : s.ctx h = some x) (hact : x.act ≠ 0)
    (hu : firstBeyond x.blk.kern (f.uses 0 1 (wdRegs f.wd)) = none) {ws : List Want}
    (hws : ws = x.spadWants f f.off.toInt f.n f.n f.b.toNat) (hfits : ∀ w ∈ ws, FitsWindow x w) :
    ∃ t, exec (.sts h f) s = .next t ∧ t.block x.b = some (x.blk.spadStore ws) ∧ (∀ c, c ≠ x.b → t.block c = s.block c) ∧
      { t with blocks := s.blocks, cores := s.cores } = s ∧ ∀ c, bareCore (t.core c) = bareCore (s.core c) := by
  subst hws
  obtain ⟨-, hb, -, -⟩ := s.ctx_some h x hx
  obtain ⟨hrest, hcores⟩ := keepIndex_keeps s x.b (wantBytes (x.spadWants f f.off.toInt f.n f.n f.b.toNat))
  have hblocks := keepIndex_blocks s x.b (wantBytes (x.spadWants f f.off.toInt f.n f.n f.b.toNat))
  have hexec : exec (.sts h f) s = .next ((s.keepIndex x.b (wantBytes (x.spadWants f f.off.toInt f.n f.n f.b.toNat))).updBlock x.b
      (fun b => b.spadStore (x.spadWants f f.off.toInt f.n f.n f.b.toNat))) := by
    refine (issueWave_next hx hact hu).trans ?_
    rw [spadAccess_of_fits hfits]
  refine ⟨_, hexec, ?_, fun c hc => ?_, ?_, hcores⟩
  · rw [State.block_updBlock_self, State.block, hblocks]
    exact congrArg (Option.map _) hb
  · rw [State.block_updBlock_ne _ _ _ _ hc, State.block, hblocks]
    rfl
  · exact congrArg (fun t : State => { t with blocks := s.blocks }) hrest

/-- Settles O26: each form issues without a trap by `spadAccess_of_fits`; what `sts` leaves in the window is `spadStore_get_in` and
`spadStore_get_out`. -/
theorem scratchpadResults : Obligations.ScratchpadResults := by
  intro s h f x hx hact fits out later
  refine ⟨?sts, ?lds, ?satom⟩
  case sts =>
    intro hu ws hfits
    obtain ⟨t, hexec, hblock, hother, hrest, hcores⟩ := storeScratch_results hx hact hu rfl hfits
    exact ⟨t, _, hexec, hblock, hother, hrest, hcores, spadStore_windowOf _ _, fun o ho => spadStore_get_out _ _ _ ho,
      fun w hw hapart i b hb => spadStore_get_in _ _ hw hapart hb⟩
  case lds =>
    intro hu ws hfits hacq
    have hne : ws.isEmpty = false := List.isEmpty_eq_false_iff.2 (spadWants_ne_nil hact _ _ _ _)
    refine (issueWave_next hx hact hu).trans (congrArg _ ?_)
    rw [afterAcq_of_nil hacq]
    refine (spadAccess_of_fits hfits _ s).trans ?_
    show x.spadResult f (f.b = 1) ws _ s = _
    simp only [Ctx.spadResult, hne, Bool.false_eq_true, if_false]
    rfl
  case satom =>
    intro op hu ws hfits hacq hrel
    have hne : ws.isEmpty = false := List.isEmpty_eq_false_iff.2 (spadWants_ne_nil hact _ _ _ _)
    have hparked : (f.ht.getLsbD 1 && s.writesParked x.b x.w) = false := by
      refine Bool.and_eq_false_imp.2 fun hr => List.any_eq_false.2 fun r hmem => ?_
      simpa using hrel hr r hmem
    refine Eq.trans (show exec (.satom h f) s = _ from issueOp_next "SATOM" h false _ _ s x hx (by simp) hu) (congrArg _ ?_)
    refine (spadAccess_of_fits hfits _ s).trans ?_
    show x.satom f ws s = _
    simp only [Ctx.satom, hacq, List.isEmpty_nil, Bool.not_true, Bool.false_or, hparked, Bool.false_eq_true, if_false, any_of_act hact,
      Bool.and_true, Ctx.spadResult, hne]
    rfl

end Sys2Proof.Proofs

/-! Device registers (spec/06, spec/14, spec/18, spec/20, spec/22): what a write does, what refuses it, and what it reads as (R512). -/

namespace Sys2Proof.Proofs

open Sys2Proof.Machine Sys2Proof.Claims

/-! ### Fields of a written value -/

theorem fld_bit (v : DWord) (i : Nat) : (fld v i 1 == 1) = v.getLsbD i := by
  rw [Bool.eq_iff_iff, beq_iff_eq, ← BitVec.toNat_inj, fld_toNat, BitVec.getLsbD, Nat.testBit_eq_decide_div_mod_eq, decide_eq_true_eq]
  rfl

theorem loOf_toNat (v : DWord) : (loOf v).toNat = v.toNat % 2 ^ 32 := BitVec.toNat_setWidth 32 v

/-- A mask that clears one bit of a wave's Sheaf bits. -/
theorem getLsbD_clearBit (y : BitVec 64) {g : Nat} (hg : g < 64) (m : Nat) :
    (y &&& ~~~(1#64 <<< g)).getLsbD m = (y.getLsbD m && decide (m ≠ g)) := by
  by_cases hm : m < 64
  · by_cases h : m = g
    · subst h
      simp [hm]
    · have : ¬ (m - g = 0 ∧ g ≤ m) := by omega
      simp [hm, h]
      omega
  · rw [BitVec.getLsbD_of_ge _ _ (by omega), BitVec.getLsbD_of_ge _ _ (by omega), Bool.false_and]

/-! ### Sheaf groups (R385, R387) -/

theorem shfRefused_iff (v : DWord) : shfRefused v = true ↔ v.toNat / 2 ^ 56 % 2 ^ 7 ≠ 0 ∨ 11 ≤ v.toNat / 2 ^ 52 % 16 := by
  have hres : (fld v 56 7 != 0) = true ↔ v.toNat / 2 ^ 56 % 2 ^ 7 ≠ 0 := by
    rw [bne_iff_ne, ne_eq, ← BitVec.toNat_inj, fld_toNat]
    rfl
  rw [shfRefused, Bool.or_eq_true, hres, decide_eq_true_eq, fld_toNat]
  exact Iff.rfl

/-- The state as SHF_CFGg arms group `g`: no wave, resident or in an image, is its producer or taker any more. -/
def disbanded (s : State) (g : Nat) : State :=
  { s with blocks := s.blocks.mapAll (fun _ b => b.leaveSheaf g),
           images := s.images.map (fun i => { i with blk := i.blk.leaveSheaf g }) }

theorem disbanded_wave (s : State) (g b w : Nat) : (disbanded s g).wave b w = (s.wave b w).map (Wave.leaveSheaf g) := by
  simp only [State.wave, State.block, disbanded, Tbl.get_mapAll]
  cases s.blocks.get b with
  | none => rfl
  | some p => simp [Block.wave, Block.leaveSheaf]

theorem sheaf_updSheaf (s : State) (g m : Nat) (f : Sheaf → Sheaf) :
    (s.updSheaf g f).sheaf m = if m = g then f (s.sheaf g) else s.sheaf m := by
  rw [State.updSheaf, State.sheaf, Tbl.get_put]
  split <;> rfl

theorem shfCfgWrite_results (s : State) (v : DWord) {g : Nat} (hg : g < 64) :
    let refused := v.toNat / 2 ^ 56 % 2 ^ 7 ≠ 0 ∨ 11 ≤ v.toNat / 2 ^ 52 % 16
    (refused → exec (.shfCfgWrite g v) s = .next s) ∧
    (¬ refused → v.getLsbD 63 = false → exec (.shfCfgWrite g v) s =
      .next { s with sheafs := s.sheafs.put g { s.sheaf g with cfg := v, state := 3 } }) ∧
    (¬ refused → v.getLsbD 63 = true → ∃ t, exec (.shfCfgWrite g v) s = .next t ∧
      t.sheaf g = { cfg := v, state := 0, producers := 0, takers := 0, regerr := false, fullerr := false, lists := [], used := [] } ∧
      (∀ m, m ≠ g → t.sheaf m = s.sheaf m) ∧ { t with sheafs := s.sheafs, blocks := s.blocks, images := s.images } = s ∧
      (∀ b w y, s.wave b w = some y → ∃ y', t.wave b w = some y' ∧ { y' with producer := y.producer, taker := y.taker } = y ∧
        y'.producer.getLsbD g = false ∧ y'.taker.getLsbD g = false ∧
        ∀ m, m ≠ g → y'.producer.getLsbD m = y.producer.getLsbD m ∧ y'.taker.getLsbD m = y.taker.getLsbD m)) := by
  intro refused
  have hexec : exec (.shfCfgWrite g v) s = .next (s.shfSet g v) := rfl
  have hgo (hr : ¬ refused) : s.shfSet g v = if v.getLsbD 63 then (disbanded s g).updSheaf g (fun _ => { Sheaf.reset with cfg := v, state := 0 })
      else s.updSheaf g (fun x => { x with cfg := v, state := 3 }) := by
    rw [State.shfSet, if_neg (mt (shfRefused_iff v).1 hr), fld_bit]
    rfl
  refine ⟨fun hr => ?_, fun hr hen => ?_, fun hr hen => ⟨_, rfl, ?_⟩⟩
  · rw [hexec, State.shfSet, if_pos ((shfRefused_iff v).2 hr)]
  · rw [hexec, hgo hr, hen]
    rfl
  · rw [hgo hr, hen, if_pos rfl]
    refine ⟨(sheaf_updSheaf _ g g _).trans (if_pos rfl), fun m hm => (sheaf_updSheaf _ g m _).trans (if_neg hm), rfl, fun b w y hy => ?_⟩
    refine ⟨y.leaveSheaf g, ?_, rfl, ?_, ?_, fun m hm => ⟨?_, ?_⟩⟩
    · exact (disbanded_wave s g b w).trans (by rw [hy]; rfl)
    all_goals simp only [Wave.leaveSheaf, getLsbD_clearBit _ hg]; simp_all

/-! ### Tenancies (R439, R466) -/

theorem tenEnabled_eq (cfg : DWord) : tenEnabled cfg = cfg.getLsbD 63 := fld_bit cfg 63

theorem zeroShares_share {s : State} {n c : Nat} {k : Core} {h : Share} (hk : (s.zeroShares n).cores.get c = some k)
    (hh : k.shares.get n = some h) : h.b = 0 ∧ h.e = 0 := by
  simp only [State.zeroShares, Tbl.get_mapAll, Option.map_eq_some_iff] at hk
  obtain ⟨k', -, rfl⟩ := hk
  simp only [Tbl.get_upd_self, Option.map_eq_some_iff] at hh
  obtain ⟨h', -, rfl⟩ := hh
  exact ⟨rfl, rfl⟩

theorem tenCfgWrite_results (s : State) (v : DWord) {n : Nat} (hn : n < s.dev.tenCfg.length) :
    let new := (v &&& 0x87FF0000FFFF0000#64) ||| (s.tenCfg n &&& 0x0000FFFF00000000#64)
    let refused := 1024 < tenQuota new ∨ 1024 < s.quotaSum n new ∨ (new.getLsbD 63 = false ∧ s.tenBusy n = true)
    (refused → exec (.tenCfgWrite n v) s = .next s) ∧
    (¬ refused → ∃ t, exec (.tenCfgWrite n v) s = .next t ∧ t.tenCfg n = new ∧ (∀ m, m ≠ n → t.tenCfg m = s.tenCfg m) ∧
      { t with dev := s.dev, cores := s.cores } = s ∧ { t.dev with tenCfg := s.dev.tenCfg } = s.dev ∧
      (new.getLsbD 63 = true → (s.tenCfg n).getLsbD 63 = false → ∀ c k h, t.cores.get c = some k → k.shares.get n = some h →
        h.b = 0 ∧ h.e = 0) ∧
      (new.getLsbD 63 = false ∨ (s.tenCfg n).getLsbD 63 = true → t.cores = s.cores)) := by
  intro new refused
  have hexec : exec (.tenCfgWrite n v) s = .next (s.tenCfgSet n v) := rfl
  have hrefused : s.tenCfgRefused n v = true ↔ refused := by
    show (decide (1024 < tenQuota new) || decide (1024 < s.quotaSum n new) || (!tenEnabled new && s.tenBusy n)) = true ↔ _
    simp only [tenEnabled_eq, Bool.or_eq_true, decide_eq_true_eq, Bool.and_eq_true, Bool.not_eq_true', or_assoc, refused]
  refine ⟨fun hr => ?_, fun hr => ?_⟩
  · rw [hexec, State.tenCfgSet, if_pos (hrefused.2 hr)]
  · have hset : s.tenCfgSet n v = if new.getLsbD 63 && !(s.tenCfg n).getLsbD 63 then
        (s.setDev (fun d => { d with tenCfg := d.tenCfg.set n new })).zeroShares n
        else s.setDev (fun d => { d with tenCfg := d.tenCfg.set n new }) := by
      rw [State.tenCfgSet, if_neg (mt hrefused.1 hr), ← tenEnabled_eq, ← tenEnabled_eq]
      rfl
    have hdev : (s.tenCfgSet n v).dev = { s.dev with tenCfg := s.dev.tenCfg.set n new } := by
      rw [hset]
      split <;> rfl
    refine ⟨_, hexec, ?_, fun m hm => ?_, ?_, ?_, fun hen hold => ?_, fun hsame => ?_⟩
    · rw [State.tenCfg, hdev]
      simp [hn]
    · rw [State.tenCfg, hdev]
      simp [State.tenCfg, List.getD_eq_getElem?_getD, List.getElem?_set_ne hm.symm]
    · rw [hset]
      split <;> rfl
    · rw [hdev]
    · intro c k h hk hh
      rw [hset, hen, hold, Bool.not_false, Bool.and_self, if_pos rfl] at hk
      exact zeroShares_share hk hh
    · have hno : (new.getLsbD 63 && !(s.tenCfg n).getLsbD 63) = false := by
        rcases hsame with h | h
        · rw [h, Bool.false_and]
        · rw [h, Bool.not_true, Bool.and_false]
      rw [hset, hno]
      rfl

/-! ### Collective groups (R222) -/

theorem coll_updColl (s : State) (g m : Nat) (f : CollGroup → CollGroup) :
    (s.updColl g f).coll m = if m = g then f (s.coll g) else s.coll m := by
  rw [State.updColl, State.coll, Tbl.get_put]
  split <;> rfl

/-- A group with a collective queued or in flight refuses every write of its registers. -/
theorem collSet_of_busy {s : State} {g : Nat} (h : s.collBusy g = true) (j : Option Nat) (v : DWord) : s.collSet g j v = s := by
  simp [State.collSet, State.collRefused, h]

theorem collRefused_map {s : State} {g : Nat} (h : s.collBusy g = false) (j : Nat) (v : DWord) : s.collRefused g (some j) v = false := by
  simp [State.collRefused, h]

theorem collRefused_cfg {s : State} {g : Nat} (h : s.collBusy g = false) (v : DWord) :
    s.collRefused g none v = (v.getLsbD 63 && !s.collDefOk (v &&& 0x8000000F007F007F#64) (s.coll g).map) := by
  rw [State.collRefused, h, collEn, fld_bit]
  rfl

theorem collCfgWrite_results (s : State) (v : DWord) (g : Nat) :
    (s.collBusy g = true → exec (.collCfgWrite g none v) s = .next s ∧ ∀ j, exec (.collCfgWrite g (some j) v) s = .next s) ∧
    (s.collBusy g = false → ∀ j, j < (s.coll g).map.length → ∃ t, exec (.collCfgWrite g (some j) v) s = .next t ∧
      (t.coll g).map[j]? = some v ∧ (t.coll g).cfg = (s.coll g).cfg ∧ { t with colls := s.colls } = s) ∧
    (s.collBusy g = false → v.getLsbD 63 = true → s.collDefOk (v &&& 0x8000000F007F007F#64) (s.coll g).map = false →
      exec (.collCfgWrite g none v) s = .next s) ∧
    (s.collBusy g = false → (v.getLsbD 63 = true → s.collDefOk (v &&& 0x8000000F007F007F#64) (s.coll g).map = true) →
      ∃ t, exec (.collCfgWrite g none v) s = .next t ∧ (t.coll g).cfg = v &&& 0x8000000F007F007F#64 ∧
        (t.coll g).map = (s.coll g).map ∧ (∀ m, m ≠ g → t.coll m = s.coll m) ∧ { t with colls := s.colls } = s) := by
  have hexec (j : Option Nat) : exec (.collCfgWrite g j v) s = .next (s.collSet g j v) := rfl
  refine ⟨fun hb => ⟨?_, fun j => ?_⟩, fun hb j hj => ⟨_, hexec _, ?_⟩, fun hb hen hbad => ?_, fun hb hok => ⟨_, hexec _, ?_⟩⟩
  · rw [hexec, collSet_of_busy hb]
  · rw [hexec, collSet_of_busy hb]
  · rw [State.collSet, collRefused_map hb, if_neg Bool.false_ne_true]
    rw [coll_updColl, if_pos rfl]
    exact ⟨List.getElem?_set_self hj, rfl, rfl⟩
  · rw [hexec, State.collSet, collRefused_cfg hb, hen, hbad]
    rfl
  · have hgo : s.collRefused g none v = false := by
      rw [collRefused_cfg hb]
      cases hen : v.getLsbD 63 <;> simp_all
    rw [State.collSet, hgo, if_neg Bool.false_ne_true]
    have hself := (coll_updColl s g g (fun x => { x with cfg := v &&& collMask })).trans (if_pos rfl)
    have hcfg := congrArg CollGroup.cfg hself
    have hmap := congrArg CollGroup.map hself
    exact ⟨hcfg, hmap, fun m hm => (coll_updColl s g m _).trans (if_neg hm), rfl⟩

/-! ### Single registers (R16, R364, R411, R500, R505, R510) -/

theorem granaryRefused_iff (s : State) : s.granaryRefused = true ↔ (s.images ≠ [] ∨ ∃ e ∈ s.blocks, e.2.chunks ≠ []) := by
  simp [State.granaryRefused]

theorem granaryChunksWrite_results (s : State) (v : DWord) :
    ((s.images ≠ [] ∨ ∃ e ∈ s.blocks, e.2.chunks ≠ []) → exec (.granaryChunksWrite v) s = .next s) ∧
    (¬ (s.images ≠ [] ∨ ∃ e ∈ s.blocks, e.2.chunks ≠ []) → exec (.granaryChunksWrite v) s =
      .next { s with dev := { s.dev with granaryChunks := v.toNat % 2 ^ 32, granaryFree := List.range (v.toNat % 2 ^ 32) } }) := by
  have hexec : exec (.granaryChunksWrite v) s = .next (s.granaryChunksSet v) := rfl
  rw [← granaryRefused_iff, hexec, State.granaryChunksSet, ← loOf_toNat]
  exact ⟨fun h => by rw [if_pos h], fun h => by rw [if_neg h]; rfl⟩

theorem qdescBaseWrite_results (s : State) (v : DWord) :
    (s.queues ≠ [] → exec (.qdescBaseWrite v) s = .next s) ∧
    (s.queues = [] → exec (.qdescBaseWrite v) s = .next { s with dev := { s.dev with qdescBase := v &&& 0xFFFFFFFFFFFF0000#64 } }) := by
  have hexec : exec (.qdescBaseWrite v) s = .next (s.qdescSet v) := rfl
  rw [hexec, State.qdescSet]
  exact ⟨fun h => by rw [if_pos (by simpa using h)], fun h => by rw [if_neg (by simp [h])]; rfl⟩

/-- The valid bit and the port number of a route. -/
theorem routeBits_toNat (v : DWord) : (v &&& 0x803F#64).toNat = (v.toNat / 2 ^ 15 % 2) * 2 ^ 15 + v.toNat % 64 := by
  have hmask : (0x803F#64).toNat = 2 ^ 15 ||| (2 ^ 6 - 1) := rfl
  rw [BitVec.toNat_and, hmask, Nat.and_or_distrib_left, Nat.and_two_pow_sub_one_eq_mod, Nat.and_two_pow, Nat.toNat_testBit,
    Nat.mul_comm, ← Nat.two_pow_add_eq_or_of_lt]
  omega

theorem fabRouteWrite_results (s : State) (v : DWord) (m p : Nat) :
    ∃ t, exec (.fabRouteWrite m p v) s = .next t ∧ { t with dev := { t.dev with fabRoute := s.dev.fabRoute } } = s ∧
      (s.pathBusy m p = true → t = s) ∧
      (s.pathBusy m p = false → t.dev.fabRoute.get (16 * m + p) = some ((v.toNat / 2 ^ 15 % 2) * 2 ^ 15 + v.toNat % 64)) := by
  refine ⟨s.fabRouteSet m p v, rfl, ?_⟩
  rw [State.fabRouteSet, ← routeBits_toNat]
  cases s.pathBusy m p
  · exact ⟨rfl, nofun, fun _ => Tbl.get_put_self _ _ _⟩
  · exact ⟨rfl, fun _ => rfl, nofun⟩

theorem powerLimitWrite_result (s : State) (v : DWord) : exec (.powerLimitWrite v) s =
    .next (if 2000 ≤ v.toNat % 2 ^ 32 ∧ v.toNat % 2 ^ 32 ≤ 8000 then
      { s with power := { s.power with limit := v.toNat % 2 ^ 32,
                                       overSince := if v.toNat % 2 ^ 32 < s.power.now then s.power.overSince else none } } else s) := by
  have hexec : exec (.powerLimitWrite v) s = .next (s.powerLimitSet v) := rfl
  have hrefused : powerLimitRefused v = true ↔ ¬ (2000 ≤ v.toNat % 2 ^ 32 ∧ v.toNat % 2 ^ 32 ≤ 8000) := by
    rw [powerLimitRefused, loOf_toNat, Bool.or_eq_true, decide_eq_true_eq, decide_eq_true_eq]
    omega
  rw [hexec, State.powerLimitSet, loOf_toNat]
  simp only [hrefused, ite_not]

theorem tickPeriodWrite_result (s : State) (v : DWord) : exec (.tickPeriodWrite v) s =
    .next (if 1000 ≤ v.toNat % 2 ^ 32 ∧ v.toNat % 2 ^ 32 ≤ 4000000 then { s with tickPeriod := v.toNat % 2 ^ 32 } else s) := by
  have hexec : exec (.tickPeriodWrite v) s = .next (s.tickPeriodSet v) := rfl
  rw [hexec, State.tickPeriodSet]
  simp only [loOf_toNat, Bool.and_eq_true, decide_eq_true_eq]

theorem moduleNumWrite_result (s : State) (v : DWord) : exec (.moduleNumWrite v) s =
    .next (if s.fabricOpen then s else { s with dev := { s.dev with moduleNum := v.toNat % 128 } }) := by
  have hexec : exec (.moduleNumWrite v) s = .next (s.moduleNumSet v) := rfl
  rw [hexec, State.moduleNumSet, fld_low]
  rfl

/-! ### The registers by offset (Table 22-7) -/

theorem registerWrite_of_regAt {s : State} {v : DWord} {o : Nat} {r : DevReg} (h : regAt (o / 8 * 8) = some r) :
    exec (.registerWrite o v) s = .next (s.devSet r v) := by
  have hexec : exec (.registerWrite o v) s = .next (s.devWrite o v) := rfl
  rw [hexec, State.devWrite, h]

theorem regAt_shfCfg {n : Nat} (h : n < 64) : regAt ((0x5000 + 8 * n) / 8 * 8) = some (.shfCfg n) := by
  have hslot : (0x5000 + 8 * n) / 8 * 8 = 0x5000 + 8 * n := by omega
  have hbank : (0x5000 + 8 * n - 0x5000) / 8 = n := by omega
  rw [hslot]
  simp (disch := omega) only [regAt, if_neg, if_pos, hbank]

theorem regAt_collCfg {n : Nat} (h : n < 64) : regAt ((0x6000 + 8 * n) / 8 * 8) = some (.collCfg n) := by
  have hslot : (0x6000 + 8 * n) / 8 * 8 = 0x6000 + 8 * n := by omega
  have hbank : (0x6000 + 8 * n - 0x6000) / 8 = n := by omega
  rw [hslot]
  simp (disch := omega) only [regAt, if_neg, if_pos, hbank]

theorem regAt_collMap {n j : Nat} (h : n < 64) (hj : j < 16) : regAt ((0x6200 + 128 * n + 8 * j) / 8 * 8) = some (.collMap n j) := by
  have hslot : (0x6200 + 128 * n + 8 * j) / 8 * 8 = 0x6200 + 128 * n + 8 * j := by omega
  have hbank : (0x6200 + 128 * n + 8 * j - 0x6200) / 128 = n := by omega
  have hword : (0x6200 + 128 * n + 8 * j - 0x6200) / 8 % 16 = j := by omega
  rw [hslot]
  simp (disch := omega) only [regAt, if_neg, if_pos, hbank, hword]

theorem regAt_fabRoute {m p : Nat} (h : m < 128) (hp : p < 16) : regAt ((0x40000 + 128 * m + 8 * p) / 8 * 8) = some (.fabRoute m p) := by
  have hslot : (0x40000 + 128 * m + 8 * p) / 8 * 8 = 0x40000 + 128 * m + 8 * p := by omega
  have hbank : (0x40000 + 128 * m + 8 * p - 0x40000) / 128 = m := by omega
  have hword : (0x40000 + 128 * m + 8 * p - 0x40000) / 8 % 16 = p := by omega
  rw [hslot]
  simp (disch := omega) only [regAt, if_neg, if_pos, hbank, hword]

theorem writeOf_regAt (s : State) (v : DWord) : WriteOf s v := by
  refine ⟨fun n hn => ?_, registerWrite_of_regAt (r := .t2Count) rfl, registerWrite_of_regAt (r := .t2Push) rfl,
    registerWrite_of_regAt (r := .granaryChunks) rfl, registerWrite_of_regAt (r := .fqBase) rfl, registerWrite_of_regAt (r := .fqSize) rfl,
    registerWrite_of_regAt (r := .fqRidx) rfl, fun n hn => ?_, registerWrite_of_regAt (r := .moduleNum) rfl,
    registerWrite_of_regAt (r := .qdescBase) rfl, registerWrite_of_regAt (r := .powerLimit) rfl,
    fun m p hm hp => registerWrite_of_regAt (regAt_fabRoute hm hp)⟩
  · obtain ⟨hcfg, hlow, hhigh⟩ := regAt_banks n hn
    exact ⟨registerWrite_of_regAt hcfg, registerWrite_of_regAt hlow, registerWrite_of_regAt hhigh⟩
  · exact ⟨registerWrite_of_regAt (regAt_shfCfg hn), registerWrite_of_regAt (regAt_collCfg hn),
      fun j hj => registerWrite_of_regAt (regAt_collMap hn hj)⟩

/-- A register that only holds its fields (the model's choice: notes/assumptions/57.md) reads as what its write left. -/
theorem write_then_read {s : State} {v x : DWord} {o : Nat} (r : DevReg) (hr : regAt (o / 8 * 8) = some r)
    (hx : (s.devSet r v).devValue r = x) (hkeeps : { s.devSet r v with dev := s.dev, reed := s.reed, health := s.health } = s) :
    ∃ t, exec (.registerWrite o v) s = .next t ∧ t.devRead o = x ∧ { t with dev := s.dev, reed := s.reed, health := s.health } = s :=
  ⟨_, registerWrite_of_regAt hr, (devRead_of_regAt hr).trans hx, hkeeps⟩

/-- A 32-bit register holds the low half of what is written. -/
theorem lowHalf (v : DWord) : BitVec.ofNat 64 (loOf v).toNat = v &&& 0x00000000FFFFFFFF#64 := by
  apply BitVec.eq_of_toNat_eq
  have hmask : (0x00000000FFFFFFFF#64).toNat = 2 ^ 32 - 1 := rfl
  rw [loOf_toNat, BitVec.toNat_and, hmask, Nat.and_two_pow_sub_one_eq_mod, BitVec.toNat_ofNat]
  omega

/-- Settles O48: each register's write by what refuses it, then the offset of each (Table 22-7). The registers that only hold their
fields and the low bits that OWNER_BASE drops are the model's choice (notes/assumptions/57.md, notes/assumptions/82.md). -/
theorem deviceRegisterResults : Obligations.DeviceRegisterResults := by
  unfold Obligations.DeviceRegisterResults
  intro s v
  refine ⟨fun g hg => shfCfgWrite_results s v hg, fun n hn => tenCfgWrite_results s v hn, collCfgWrite_results s v,
    granaryChunksWrite_results s v, moduleNumWrite_result s v, (qdescBaseWrite_results s v).1, (qdescBaseWrite_results s v).2,
    fun m p _ => fabRouteWrite_results s v m p, ⟨powerLimitWrite_result s v, tickPeriodWrite_result s v⟩, rfl, writeOf_regAt s v, ?_, ?_⟩
  · exact ⟨write_then_read .ownerBase rfl rfl rfl, write_then_read .t2Base rfl rfl rfl,
      write_then_read .t2Cap rfl (lowHalf v) rfl, write_then_read .movePte rfl rfl rfl, write_then_read .moveDst rfl rfl rfl,
      write_then_read .flushAddr rfl rfl rfl, write_then_read .granaryBase rfl rfl rfl,
      write_then_read .weirDispatch rfl (lowHalf v) rfl, write_then_read .dumpBase rfl rfl rfl⟩
  · simp only [List.forall_mem_cons]
    exact ⟨rfl, rfl, rfl, rfl, rfl, rfl, rfl, rfl, rfl, rfl, rfl, rfl, rfl, rfl, rfl, nofun⟩

end Sys2Proof.Proofs

/-! Tiles (spec/07): `tile.def`, `tile.rel`, `tile.wait`, `tile.q` and the settling of the tiles (R207 to R211). -/

namespace Sys2Proof.Proofs

open Sys2Proof.Machine Sys2Proof.Claims

/-! ### `tile.def` (R208) -/

theorem rowsBeyond_none {spad base pitch len n i : Nat} (h : ∀ j, j < n → base + pitch * (i + j) + len ≤ spad) :
    rowsBeyond spad base pitch len n i = none := by
  induction n generalizing i with
  | zero => rfl
  | succ n ih =>
    have hrow : ¬ spad < base + pitch * i + len := Nat.not_lt.2 (h 0 n.succ_pos)
    have hrest : ∀ j, j < n → base + pitch * (i + 1 + j) + len ≤ spad := fun j hj => by
      rw [Nat.add_assoc i, Nat.add_comm 1 j]
      exact h (j + 1) (Nat.succ_lt_succ hj)
    simp only [rowsBeyond, if_neg hrow, ih hrest]

theorem rowsBeyond_of_rowsFit {spad base pitch len rows : Nat} (h : rowsFit spad base pitch len rows) :
    rowsBeyond spad base pitch len rows 0 = none :=
  rowsBeyond_none fun j hj => by
    rw [Nat.zero_add]
    exact h j hj

theorem beyond_none {d : Tile} {spad : Nat} (hdata : rowsFit spad d.base (8 * d.pitch) (8 * d.len) d.rows)
    (hhead : d.hslots ≠ 0 → rowsFit spad d.hbase (8 * d.hslots) (8 * d.hslots) d.rows) : d.beyond spad = none := by
  simp only [Tile.beyond, rowsBeyond_of_rowsFit hdata]
  exact ite_eq_left_iff.2 fun h => rowsBeyond_of_rowsFit (hhead h)

theorem limitsOk_of {d : Tile} (hbase : d.base % 8 = 0) (hhead : d.hslots ≠ 0 → d.hbase % 8 = 0) (hlen : 1 ≤ d.len)
    (hpitch : d.len ≤ d.pitch) (hwidth : 2 ≤ d.width → d.hslots = 0) : d.limitsOk = true := by
  simp only [Tile.limitsOk, Bool.and_eq_true, Bool.or_eq_true, decide_eq_true_eq]
  omega

theorem definable_of {t : Tile} (h : t.st = .undefined ∨ t.st = .empty ∨ (t.st = .ready ∧ t.readers = 0)) : t.definable = true := by
  rcases h with h | h | ⟨h, hr⟩
  · simp [Tile.definable, h]
  · simp [Tile.definable, h]
  · simp [Tile.definable, h, hr]

theorem withTile_of {x : Ctx} {n : Nat} {t : Tile} {undef : Bool} (ht : x.blk.tiles[n]? = some t) (hf : t.fault = none)
    (hst : undef = true ∨ t.st ≠ .undefined) (go : Tile → State → State) (s : State) : x.withTile n undef go s = go t s := by
  have hno : (t.st == .undefined && !undef) = false := by
    rcases hst with h | h
    · rw [h, Bool.not_true, Bool.and_false]
    · rw [beq_eq_false_iff_ne.2 h, Bool.false_and]
  simp only [Ctx.withTile, ht, hf, hno, Bool.false_eq_true, if_false]

theorem defineTile_of {x : Ctx} {f : EFmt} {t : Tile} (hok : (newTile x f t).limitsOk = true)
    (hfit : (newTile x f t).beyond x.blk.kern.spad = none) (s : State) :
    x.defineTile f t s = (s.updTile x.b f.x.toNat (fun _ =>
      { newTile x f t with st := if t.st = .ready then .ready else .empty })).settleTiles x.b := by
  have hdesc : x.tileDesc f t = newTile x f t := rfl
  simp only [Ctx.defineTile, hdesc, hok, hfit, Bool.not_true, Bool.false_eq_true, if_false, beq_iff_eq]

/-! ### `tile.q` (R211) -/

theorem setFlag_reqs (s : State) (b w n op : Nat) : (s.setFlag b w n op).reqs = s.reqs ∧ (s.setFlag b w n op).nextId = s.nextId := by
  unfold State.setFlag
  split <;> exact ⟨rfl, rfl⟩

/-- The finished request of operation `op` that carries a value read at issue to a scalar. -/
def scalarReq (x : Ctx) (op d v : Nat) : Req :=
  x.readyReq { op := op, kind := .scratch, dst := .scal d, hint := 0, after := [], acqScope := 0, rel := 0, need := Need.load }
    [{ lane := 0, va := 0, pa := 0, n := 4, data := [] }] [(0, bytesOfNat v 4)]

theorem present_of_sent {r : Req} (h : r.sent = true) (s : State) :
    s.present r = { s with reqs := s.reqs.put s.nextId r, nextId := s.nextId + 1 } := by
  simp only [State.present, h, if_true]

theorem scalLater_eq (s : State) (x : Ctx) (d v : Nat) : x.scalLater d v s =
    { (begun s x) with reqs := s.reqs.put (s.nextId + 1) (scalarReq x s.nextId d v), nextId := s.nextId + 2 } := by
  obtain ⟨hreqs, hid⟩ := setFlag_reqs { s with nextId := s.nextId + 1 } x.b x.w x.c.flag s.nextId
  have hput : x.scalLater d v s = (begun s x).present (scalarReq x s.nextId d v) := rfl
  rw [hput, present_of_sent rfl, begun, hreqs, hid]

/-! ### Settling (R209) -/

/-- The tiles once those that were only waiting for their readers are EMPTY. -/
def emptiedTiles (p : Block) : List Tile := p.tiles.mapIdx (fun n t => if t.empties n p.tileOps then { t with st := .empty } else t)

/-- A wave whose flags of some operations have cleared. -/
def flagsCleared (os : List TileOp) (v : Wave) : Wave := { v with busy := v.busy.filter (fun e => os.all (fun o => e.2 ≠ o.id)) }

/-- A block whose waves' flags of some operations have cleared. -/
def waveFlagsCleared (os : List TileOp) (p : Block) : Block := { p with waves := p.waves.map (flagsCleared os) }

/-- A block with the tiles of `p` settled. -/
def settledBlock (p x : Block) : Block :=
  waveFlagsCleared (p.tileOps.filter (fun o => o.met (emptiedTiles p)))
    { x with tiles := emptiedTiles p, tileOps := p.tileOps.filter (fun o => !o.met (emptiedTiles p)) }

theorem updBlock_updBlock (s : State) (b : Nat) (f g : Block → Block) : (s.updBlock b f).updBlock b g = s.updBlock b (g ∘ f) := by
  simp only [State.updBlock, upd_upd, Function.comp_def]

theorem waveFlagsCleared_nil : waveFlagsCleared [] = id := by
  have hid : flagsCleared [] = id := by
    funext v
    simp [flagsCleared]
  funext p
  simp only [waveFlagsCleared, hid, List.map_id]
  rfl

theorem waveFlagsCleared_cons (o : TileOp) (os : List TileOp) :
    waveFlagsCleared os ∘ waveFlagsCleared [o] = waveFlagsCleared (o :: os) := by
  have hcomp : flagsCleared os ∘ flagsCleared [o] = flagsCleared (o :: os) := by
    funext v
    simp [flagsCleared, List.filter_filter, Bool.and_comm]
  funext p
  simp only [waveFlagsCleared, Function.comp_apply, List.map_map, hcomp]

theorem clearFlagAll_eq (s : State) (b : Nat) (o : TileOp) : s.clearFlagAll b o.id = s.updBlock b (waveFlagsCleared [o]) := by
  have hone : flagsCleared [o] = fun w => { w with busy := w.busy.filter (fun e => e.2 ≠ o.id) } := by
    funext v
    simp [flagsCleared]
  unfold waveFlagsCleared
  rw [hone]
  rfl

theorem foldl_clearFlagAll (os : List TileOp) (s : State) (b : Nat) (f : Block → Block) :
    os.foldl (fun t o => t.clearFlagAll b o.id) (s.updBlock b f) = s.updBlock b (waveFlagsCleared os ∘ f) := by
  induction os generalizing f with
  | nil => rw [waveFlagsCleared_nil, Function.id_comp, List.foldl_nil]
  | cons o os ih => rw [List.foldl_cons, clearFlagAll_eq, updBlock_updBlock, ih, ← Function.comp_assoc, waveFlagsCleared_cons]

theorem settleTiles_eq {s : State} {b : Nat} {p : Block} (hb : s.block b = some p) :
    s.settleTiles b = s.updBlock b (settledBlock p) := by
  simp only [State.settleTiles, hb, List.partition_eq_filter_filter]
  exact foldl_clearFlagAll _ _ _ _

theorem met_eq_false_iff {o : TileOp} {ts : List Tile} :
    o.met ts = false ↔ ∃ t, ts[o.tile]? = some t ∧ t.st ≠ (if o.goal = .ready then .ready else .empty) := by
  unfold TileOp.met
  cases ts[o.tile]? with
  | none => simp
  | some t => by_cases h : o.goal = .ready <;> simp [h]

theorem empties_iff {t : Tile} {n : Nat} {os : List TileOp} :
    t.empties n os = true ↔ t.readers = 0 ∧ ∃ o ∈ os, o.tile = n ∧
      ((o.goal = .release ∧ t.st = .ready) ∨ (o.goal = .drained ∧ t.st = .draining)) := by
  simp [Tile.empties]

theorem emptiedTiles_get {p : Block} {i : Nat} {t : Tile} (h : p.tiles[i]? = some t) :
    (emptiedTiles p)[i]? = some (if t.empties i p.tileOps then { t with st := .empty } else t) := by
  rw [emptiedTiles, List.getElem?_mapIdx, h]
  rfl

theorem mem_flagsCleared {os : List TileOp} {v : Wave} {e : Nat × Nat} :
    e ∈ (flagsCleared os v).busy ↔ e ∈ v.busy ∧ ∀ o ∈ os, o.id ≠ e.2 := by
  simp only [flagsCleared, List.mem_filter, List.all_eq_true, decide_eq_true_eq, ne_comm (a := e.2)]

/-- What becomes of the tiles, their operations and the waves' flags of a block. -/
theorem settledBlock_results (p : Block) :
    let ends := fun (i : Nat) (t : Tile) => t.readers = 0 ∧ ∃ o ∈ p.tileOps, o.tile = i ∧
      ((o.goal = .release ∧ t.st = .ready) ∨ (o.goal = .drained ∧ t.st = .draining))
    let q := settledBlock p p
    q.tiles.length = p.tiles.length ∧
      (∀ i t, p.tiles[i]? = some t → ∃ t', q.tiles[i]? = some t' ∧ { t' with st := t.st } = t ∧
        (ends i t → t'.st = .empty) ∧ (¬ ends i t → t'.st = t.st)) ∧
      (∀ o, o ∈ q.tileOps ↔ o ∈ p.tileOps ∧ ∃ t', q.tiles[o.tile]? = some t' ∧
        t'.st ≠ (if o.goal = .ready then .ready else .empty)) ∧
      (∀ (i : Nat) (v : Wave), p.waves[i]? = some v → ∃ v' : Wave, q.waves[i]? = some v' ∧ { v' with busy := v.busy } = v ∧
        ∀ e, e ∈ v'.busy ↔ e ∈ v.busy ∧ ∀ o ∈ p.tileOps, o.id = e.2 → o ∈ q.tileOps) ∧
      { q with tiles := p.tiles, tileOps := p.tileOps, waves := p.waves } = p := by
  have hleft (o : TileOp) : o ∈ (settledBlock p p).tileOps ↔ o ∈ p.tileOps ∧ o.met (emptiedTiles p) = false := by
    simp [settledBlock, waveFlagsCleared]
  intro ends q
  refine ⟨List.length_mapIdx, fun i t ht => ⟨_, emptiedTiles_get ht, ?_⟩, fun o => (hleft o).trans (and_congr_right' met_eq_false_iff),
    fun i v hv => ⟨flagsCleared (p.tileOps.filter (fun o => o.met (emptiedTiles p))) v, ?_, rfl, fun e => ?_⟩, rfl⟩
  · have hends : t.empties i p.tileOps = true ↔ ends i t := empties_iff
    split
    · exact ⟨rfl, fun _ => rfl, fun h => absurd (hends.1 ‹_›) h⟩
    · exact ⟨rfl, fun h => absurd (hends.2 h) ‹_›, fun _ => rfl⟩
  · exact List.getElem?_map.trans (congrArg _ hv)
  · rw [mem_flagsCleared]
    refine and_congr_right' ⟨fun h o ho hid => (hleft o).2 ⟨ho, ?_⟩, fun h o ho hid => ?_⟩
    · by_contra hmet
      exact h o (List.mem_filter.2 ⟨ho, Bool.not_eq_false _ ▸ hmet⟩) hid
    · obtain ⟨hop, hmet⟩ := List.mem_filter.1 ho
      rw [((hleft o).1 (h o hop hid)).2] at hmet
      cases hmet

/-- Settles O33: each form by what the tile's state lets it do, the settling by `settledBlock_results`. -/
theorem tileResults : Obligations.TileResults := by
  intro s
  refine ⟨fun h f x t hx hact ht hf => ?_, fun b p hb => ?_⟩
  · refine ⟨fun hu hst hbase hhead hlen hpitch hwidth hdata hhdr => ?_, fun hst => ?_, fun hst hdef => ?_, fun hdef => ?_, fun hu => ?_⟩
    · refine (issueWave_next hx hact hu).trans ?_
      rw [withTile_of ht hf (.inl rfl), needState, definable_of hst, if_pos rfl,
        defineTile_of (limitsOk_of hbase hhead hlen hpitch hwidth) (beyond_none hdata hhdr)]
    · refine (issueWave_next hx hact (us := []) rfl).trans ?_
      rw [withTile_of ht hf (.inr (by rw [hst]; nofun)), needState, hst]
      rfl
    · refine (issueWave_next hx hact (us := []) rfl).trans ?_
      rw [withTile_of ht hf (.inr hdef), needState, beq_eq_false_iff_ne.2 hst]
      rfl
    · refine (issueWave_next hx hact (us := []) rfl).trans ?_
      rw [withTile_of ht hf (.inr hdef)]
      rfl
    · refine ⟨_, scalarReq x s.nextId f.a.toNat t.st.code, (issueWave_next hx hact hu).trans ?_, rfl, rfl, rfl, rfl, rfl, ?_, rfl⟩
      · rw [withTile_of ht hf (.inl rfl), scalLater_eq]
      · cases t.st <;> rfl
  · have hset := settleTiles_eq hb
    have hq : (s.settleTiles b).block b = some (settledBlock p p) := by
      rw [hset, State.block_updBlock_self, hb, Option.map_some]
    obtain ⟨hlen, htiles, hops, hwaves, hkeep⟩ := settledBlock_results p
    exact ⟨_, hq, hlen, htiles, hops, hwaves, hkeep, by rw [hset]; rfl, fun c hc => by rw [hset, State.block_updBlock_ne _ _ _ _ hc]⟩

end Sys2Proof.Proofs

/-! Copy commands as they issue (spec/07; R213 to R220). -/

namespace Sys2Proof.Proofs

open Sys2Proof.Machine Sys2Proof.Claims

/-! ### The checks of a copy at issue (R215, R217) -/

theorem copyCheck_none {c : CopyCmd} {t : Tile} {spad : Nat} (h : copyFits c t spad c.indexed) : copyCheck c t spad = none := by
  obtain ⟨hd, hds, hhead, hix, hrows⟩ := h
  have hh : (t.hslots ≠ 0 && c.h % 2 ≠ 0) = false := by
    by_cases h0 : t.hslots = 0 <;> simp_all
  have hhs : (t.hslots ≠ 0 && c.hs % 2 ≠ 0) = false := by
    by_cases h0 : t.hslots = 0 <;> simp_all
  unfold copyCheck
  rw [if_neg (not_not.2 hd), if_neg (not_not.2 hds), if_neg (by simpa using hh), if_neg (by simpa using hhs)]
  cases hi : c.indexed with
  | true =>
    obtain ⟨halign, hfit⟩ := hix hi
    rw [if_pos rfl, if_neg (not_not.2 halign), if_neg (Nat.not_lt.2 hfit)]
  | false =>
    obtain ⟨⟨hlo, hhi⟩, hends⟩ := hrows hi
    have hdata : spanOk c.d c.ds t.rows (8 * t.len) = true := by
      rw [spanOk, hlo]
      exact hhi
    have hhdr : (t.hslots ≠ 0 && !spanOk c.h c.hs t.rows (8 * t.hslots)) = false := by
      by_cases h0 : t.hslots = 0
      · simp [h0]
      · obtain ⟨hlo, hhi⟩ := hends h0
        have hspan : spanOk c.h c.hs t.rows (8 * t.hslots) = true := by
          rw [spanOk, hlo]
          exact hhi
        rw [hspan, Bool.not_true, Bool.and_false]
    rw [if_neg Bool.false_ne_true, hdata, if_neg (by simp), hhdr, if_neg Bool.false_ne_true]

theorem copyOf_copyCmdOf (s : State) (x : Ctx) (f : EFmt) (k : CopyKind) (t : Tile) : copyCmdOf s x f t (x.copyOf f k t s.nextId) := by
  have hmask (i : Nat) (l : List Fence → List Nat) (g : Fence → List Nat) (hl : ∀ fs, l fs = (fs.flatMap g).eraseDups) :
      i ∈ l (x.blk.fencesFor (f.bits 16 15)) ↔ ∃ e ∈ x.blk.fences, e.mask.getLsbD (f.bits 16 15) = true ∧ i ∈ g e := by
    simp [hl, Block.fencesFor, List.mem_eraseDups, and_assoc]
  exact ⟨rfl, rfl, rfl, rfl, rfl, rfl, rfl, rfl, rfl, rfl, rfl, rfl, rfl, rfl, rfl, fun i => hmask i _ Fence.cmds fun _ => rfl,
    fun i => hmask i _ Fence.ops fun _ => rfl, fun i => hmask i _ Fence.lines fun _ => rfl⟩

theorem queueRoom_of {s : State} {core q : Nat} (h : (s.queueOf core q).length < 64) : s.queueRoom core q = true :=
  decide_eq_true h

/-! ### A copy joins its queue (R213) -/

/-- What a copy at issue decides of the wave's IDEM (R46). -/
theorem drainIdem_cases (s : State) (x : Ctx) (c : CopyCmd) (t : Tile) :
    s.drainIdem x c t = s ∨
      (c.isDrain = true ∧ c.indexed = false ∧ s.drainIdem x c t = s.updWave x.b x.w (fun v => { v with idem := false })) := by
  unfold State.drainIdem
  split
  · next h =>
    simp only [Bool.and_eq_true, Bool.not_eq_true'] at h
    exact .inr ⟨h.1.1, h.1.2, rfl⟩
  · exact .inl rfl

theorem enqueue_eq (x : Ctx) (q : Nat) (mk : Nat → CopyCmd) (s : State) :
    x.enqueue q mk s = (begun s x).updQueueOf x.blk.core q (fun l => l ++ [mk s.nextId]) := rfl

theorem issueCopy_of_fits {s : State} {x : Ctx} {f : EFmt} {k : CopyKind} {t : Tile} {c : CopyCmd} (hc : c = x.copyOf f k t s.nextId)
    (h : copyFits c t x.blk.kern.spad c.indexed) :
    x.issueCopy f k t s = ((begun (s.drainIdem x c t) x).updQueueOf x.blk.core (f.bits 16 15)
      (fun l => l ++ [{ c with undecided := s.drainPending x c t }])).updTile x.b f.x.toNat
        (fun y => { y with st := if c.isDrain then .draining else .filling }) := by
  subst hc
  have hcheck : copyCheck (x.copyOf f k t 0) t x.blk.kern.spad = none := copyCheck_none h
  have hid : (s.drainIdem x (x.copyOf f k t 0) t).nextId = s.nextId := by
    obtain h | ⟨-, -, h⟩ := drainIdem_cases s x (x.copyOf f k t 0) t
    · rw [h]
    · rw [h]
      rfl
  simp only [Ctx.issueCopy, hcheck, enqueue_eq, hid]
  rfl

theorem copyIssue_next {s : State} {name : String} {h : Head} {f : EFmt} {k : CopyKind} {st : TileState} {us : List RegUse} {x : Ctx}
    {t : Tile} (hx : s.ctx h = some x) (hact : x.act ≠ 0) (ht : x.blk.tiles[f.x.toNat]? = some t) (hf : t.fault = none)
    (hroom : (s.queueOf x.blk.core (f.bits 16 15)).length < 64) (hst : t.st = st) (hdef : st ≠ .undefined)
    (hu : firstBeyond x.blk.kern us = none) : copyIssue name h f k st us s = .next (x.issueCopy f k t s) := by
  subst hst
  refine (issueWave_next hx hact hu).trans ?_
  rw [withTile_of ht hf (.inr hdef), needState, queueRoom_of hroom, beq_self_eq_true]
  rfl

theorem kind_of_drain {c : CopyCmd} (hd : c.isDrain = true) (hi : c.indexed = false) : c.kind = .st := by
  cases hk : c.kind <;> simp_all [CopyCmd.isDrain, CopyCmd.indexed]

/-- A copy of a tile in the state it needs joins its queue once its operands pass the checks. -/
theorem copyIssue_results {s : State} {name : String} {h : Head} {f : EFmt} {k : CopyKind} {st : TileState} {us : List RegUse} {x : Ctx}
    {t : Tile} {indexed drain : Bool} (hx : s.ctx h = some x) (hact : x.act ≠ 0) (ht : x.blk.tiles[f.x.toNat]? = some t)
    (hf : t.fault = none) (hroom : (s.queueOf x.blk.core (f.bits 16 15)).length < 64) (hst : t.st = st) (hdef : st ≠ .undefined)
    (hu : firstBeyond x.blk.kern us = none) (hi : (x.copyOf f k t s.nextId).indexed = indexed)
    (hd : (x.copyOf f k t s.nextId).isDrain = drain) :
    ∃ (c : CopyCmd), copyCmdOf s x f t c ∧ c.kind = k ∧
      (copyFits c t x.blk.kern.spad indexed → ∃ u, (u = s ∨ (k = .st ∧ u = s.updWave x.b x.w (fun v => { v with idem := false }))) ∧
        copyIssue name h f k st us s = .next (((begun u x).updQueueOf x.blk.core (f.bits 16 15)
          (fun l => l ++ [{ c with undecided := drain && (s.drainPending x c t) }])).updTile
            x.b f.x.toNat (fun y => { y with st := if drain then .draining else .filling }))) := by
  refine ⟨_, copyOf_copyCmdOf s x f k t, rfl, fun hfit => ⟨s.drainIdem x (x.copyOf f k t s.nextId) t, ?_, ?_⟩⟩
  · obtain h | ⟨hdrain, hix, h⟩ := drainIdem_cases s x (x.copyOf f k t s.nextId) t
    · exact .inl h
    · exact .inr ⟨kind_of_drain hdrain hix, h⟩
  · have hpend : s.drainPending x (x.copyOf f k t s.nextId) t = (drain && s.drainPending x (x.copyOf f k t s.nextId) t) := by
      rw [← hd, State.drainPending, ← Bool.and_assoc, Bool.and_self]
    rw [copyIssue_next hx hact ht hf hroom hst hdef hu, issueCopy_of_fits rfl (hi ▸ hfit), hd, ← hpend]

theorem cpHint_next {s : State} {h : Head} {f : EFmt} {x : Ctx} (hx : s.ctx h = some x) (hact : x.act ≠ 0)
    (hu : firstBeyond x.blk.kern [.s f.a.toNat 2, .s f.b.toNat 1] = none) (hroom : (s.queueOf x.blk.core (f.bits 16 15)).length < 64) :
    ∃ c : CopyCmd, c.id = s.nextId ∧ c.blk = x.b ∧ c.begun = false ∧ c.kind = .hint (x.scalPair f.a.toNat).toNat (x.scal f.b.toNat).toNat ∧
      exec (.cpHint h f) s = .next ((begun s x).updQueueOf x.blk.core (f.bits 16 15) (fun l => l ++ [c])) := by
  refine ⟨x.newCmd s.nextId (f.bits 16 15) (.hint (x.scalPair f.a.toNat).toNat (x.scal f.b.toNat).toNat), rfl, rfl, rfl, rfl,
    (issueWave_next hx hact hu).trans ?_⟩
  simp only [needState, queueRoom_of hroom, if_true, enqueue_eq]

theorem cpSet_next {s : State} {h : Head} {f : EFmt} {x : Ctx} (hx : s.ctx h = some x) (hact : x.act ≠ 0)
    (hu : firstBeyond x.blk.kern [.s f.a.toNat 2] = none) :
    (f.n % 2 = 0 → exec (.cpSet h f) s = .next (s.updBlock x.b (fun b => { b with dstride := x.scalPair f.a.toNat }))) ∧
    (f.n % 2 = 1 → exec (.cpSet h f) s = .next (s.updBlock x.b (fun b => { b with hstride := x.scalPair f.a.toNat }))) := by
  refine ⟨fun hn => (issueWave_next hx hact hu).trans ?_, fun hn => (issueWave_next hx hact hu).trans ?_⟩
  · simp only [hn, if_true]
  · simp only [hn, Nat.one_ne_zero, if_false]

/-! ### The commands of a core -/

theorem core_updCore (s : State) (c : Nat) (f : Core → Core) : (s.updCore c f).core c = f (s.core c) := by
  simp only [State.core, State.updCore, Tbl.get_put_self, Option.getD_some]

theorem cmd_updCmd {s : State} {core id : Nat} {f : CopyCmd → CopyCmd} {c : CopyCmd} (hc : s.cmd core id = some c)
    (hf : ∀ c, (f c).id = c.id) : (s.updCmd core id f).cmd core id = some (f c) := by
  have hsame : (fun c : CopyCmd => decide (c.id = id)) ∘ (fun x => if x.id = id then f x else x) = fun c => decide (c.id = id) := by
    funext c
    by_cases h : c.id = id <;> simp [h, hf]
  have hid : c.id = id := by simpa using List.find?_some hc
  rw [State.cmd] at hc
  simp only [State.cmd, State.updCmd, core_updCore, ← List.map_flatten, List.find?_map, hsame, hc, Option.map_some, hid, if_true]

/-- The cores of `t` hold the commands that they hold in `s`. -/
def SameCmds (s t : State) : Prop := ∀ core, (t.core core).queues = (s.core core).queues

theorem SameCmds.trans {s t u : State} (h : SameCmds s t) (k : SameCmds t u) : SameCmds s u := fun core => (k core).trans (h core)

theorem SameCmds.cmd_eq {s t : State} (h : SameCmds s t) (core id : Nat) : t.cmd core id = s.cmd core id := by
  rw [State.cmd, State.cmd, h core]

theorem updCore_sameCmds (s : State) (c : Nat) {f : Core → Core} (hf : ∀ k, (f k).queues = k.queues) : SameCmds s (s.updCore c f) := by
  intro core
  by_cases h : core = c
  · rw [h, core_updCore, hf]
  · simp only [State.core, State.updCore, Tbl.get_put_ne _ _ _ _ h]

theorem sameCmds_of_cores {s t : State} (h : t.cores = s.cores) : SameCmds s t := fun core => by
  rw [State.core, State.core, h]

/-- The cores of `t` are those of `s` but for their ports' counts. -/
def SharesOnly (s t : State) : Prop := ∀ c, ∃ sh, t.core c = { s.core c with shares := sh }

theorem SharesOnly.trans {s t u : State} (h : SharesOnly s t) (k : SharesOnly t u) : SharesOnly s u := fun c => by
  obtain ⟨sh, hs⟩ := h c
  obtain ⟨sh', ht⟩ := k c
  exact ⟨sh', by rw [ht, hs]⟩

theorem SharesOnly.sameCmds {s t : State} (h : SharesOnly s t) : SameCmds s t := fun c => by
  obtain ⟨sh, hc⟩ := h c
  rw [hc]

theorem sharesOnly_of_cores {s t : State} (h : t.cores = s.cores) : SharesOnly s t := fun c =>
  ⟨(s.core c).shares, by rw [State.core, State.core, h]⟩

theorem updCore_sharesOnly (s : State) (c : Nat) {f : Core → Core} (hf : ∀ k, ∃ sh, f k = { k with shares := sh }) :
    SharesOnly s (s.updCore c f) := by
  intro core
  by_cases h : core = c
  · rw [h, core_updCore]
    exact hf _
  · exact ⟨(s.core core).shares, by simp only [State.core, State.updCore, Tbl.get_put_ne _ _ _ _ h]⟩

theorem updShare_sharesOnly (s : State) (core n : Nat) (f : Share → Share) : SharesOnly s (s.updShare core n f) :=
  updCore_sharesOnly s core fun k => ⟨k.shares.put n (f (k.share n)), rfl⟩

theorem shareOut_sharesOnly (s : State) (core : Nat) (late : Bool) : SharesOnly s (s.shareOut core late) := by
  unfold State.shareOut
  refine updCore_sharesOnly s core ?_
  intro k
  exact ⟨_, rfl⟩

theorem present_sharesOnly (s : State) (r : Req) (h : r.sent = false) : SharesOnly s (s.present r) := by
  unfold State.present
  extract_lets t u
  have hput : SharesOnly s t := sharesOnly_of_cores rfl
  have hasked : SharesOnly s u := hput.trans (updShare_sharesOnly t r.core r.ten _)
  rw [h, if_neg Bool.false_ne_true]
  split
  · exact hasked.trans (shareOut_sharesOnly u r.core true)
  · exact hasked

/-! ### The requests of rows (R215, R467) -/

theorem present_more (s : State) (r : Req) (h : r.sent = false) : MoreReqs s (s.present r) ∧ HasReq (s.present r) s.nextId r := by
  obtain ⟨hf, hreqs⟩ := present_unsent s r h
  have hn : (s.present r).nextId = s.nextId + 1 := congrArg State.nextId hf.2
  refine ⟨⟨by omega, fun id hid => ?_, ?_⟩, s.nextId, le_refl _, by omega, ?_⟩
  · rw [hreqs, Tbl.get_put_ne _ _ _ _ (by omega)]
  · exact congrArg (fun t : State => { t with reqs := s.reqs, nextId := s.nextId }) hf.2
  · rw [hreqs, Tbl.get_put_self]
    rfl

/-- Requests presented one after the other all wait in their cores, whose commands are as before. -/
theorem foldl_present_reqs {rs : List Req} (hs : ∀ r ∈ rs, r.sent = false) (s : State) :
    MoreReqs s (rs.foldl (fun t r => t.present r) s) ∧ SameCmds s (rs.foldl (fun t r => t.present r) s) ∧
      ∀ r ∈ rs, HasReq (rs.foldl (fun t r => t.present r) s) s.nextId r := by
  induction rs generalizing s with
  | nil => exact ⟨.refl s, sameCmds_of_cores rfl, List.forall_mem_nil _⟩
  | cons r rs ih =>
    obtain ⟨hr, hrest⟩ := List.forall_mem_cons.1 hs
    obtain ⟨hmore, hhas⟩ := present_more s r hr
    obtain ⟨imore, icmds, ihas⟩ := ih hrest (s.present r)
    refine ⟨hmore.trans imore, (present_sharesOnly s r hr).sameCmds.trans icmds, fun e he => ?_⟩
    rcases List.mem_cons.1 he with rfl | he
    · exact hhas.of_older imore.next_le imore.older
    · exact (ihas e he).mono hmore.next_le

theorem rowReqs_unsent {c : CopyCmd} {b : Block} {i : Nat} {gs : List (Piece × Nat × DWord × Bool)} : ∀ r ∈ rowReqs c b i gs, r.sent = false := by
  intro r hr
  obtain ⟨line, -, rfl⟩ := List.mem_map.1 hr
  rfl

/-- Each piece of a row is an access of a request of that row. -/
theorem mem_rowReqs (c : CopyCmd) (b : Block) (i : Nat) {gs : List (Piece × Nat × DWord × Bool)} {g : Piece × Nat × DWord × Bool}
    (hg : g ∈ gs) : ∃ r ∈ rowReqs c b i gs, r.cmd = some c.id ∧ r.dst = .window i ∧
      r.kind = (if c.isDrain then .copyWrite else .copyRead) ∧ ∃ a ∈ r.accs, a.lane = g.1.off ∧ a.pa = g.2.1 ∧ a.n = g.1.n := by
  refine ⟨_, List.mem_map.2 ⟨lineOf g.2.1, List.mem_eraseDups.2 (List.mem_map_of_mem hg), rfl⟩, rfl, rfl, rfl, _,
    List.mem_map_of_mem (List.mem_filter.2 ⟨hg, decide_eq_true rfl⟩), rfl, rfl, rfl⟩

/-- A walk reads memory, the map of modules and the presented capacity alone. -/
theorem walk_congr {s t : State} (hm : t.mem = s.mem) (hd : t.dev = s.dev) (hp : t.ports = s.ports) (hc : t.presented = s.presented)
    (root va : Nat) : t.walk root va = s.walk root va := by
  have hbacked (pa : Nat) : t.backed pa = s.backed pa := by rw [State.backed, State.backed, region_congr hd hp hc]
  have hread (a : Nat) : t.rd64 a = s.rd64 a := by rw [State.rd64, State.rd64, State.rdNat, State.rdNat, State.rd, State.rd, hm]
  have hfrom (table : Nat) (sb : Bool) (lvl fuel : Nat) : t.walkFrom va table sb lvl fuel = s.walkFrom va table sb lvl fuel := by
    induction fuel generalizing table sb lvl with
    | zero => rfl
    | succ fuel ih => simp only [State.walkFrom, hbacked, hread, ih]
  exact hfrom _ _ _ _

theorem xlateFor_congr {s t : State} (hm : t.mem = s.mem) (hd : t.dev = s.dev) (hp : t.ports = s.ports) (hc : t.presented = s.presented)
    (ht : t.tlb = s.tlb) (hg : t.grids = s.grids) (b : Block) (need : Need) (dev : Bool) (va : Nat) :
    t.xlateFor b need dev va = s.xlateFor b need dev va := by
  simp only [State.xlateFor, State.xlate, State.leafFor, State.rootOf, walk_congr hm hd hp hc, region_congr hd hp hc, ht, hg]

theorem rowXl_of_cores (s : State) (ks : Tbl Core) (b : Block) (need : Need) (ps : List Piece) (acc : List (Piece × Nat × DWord × Bool)) :
    ({ s with cores := ks } : State).rowXl b need ps acc = s.rowXl b need ps acc := by
  have hxl (va : Nat) : ({ s with cores := ks } : State).xlateFor b need false va = s.xlateFor b need false va :=
    xlateFor_congr rfl rfl rfl rfl rfl rfl b need false va
  induction ps generalizing acc with
  | nil => rfl
  | cons p ps ih => simp only [State.rowXl, hxl, ih]

theorem rowPages_eq (s : State) (c : CopyCmd) (b : Block) (gs : List (Piece × Nat × DWord × Bool)) :
    ∃ tl bs, s.rowPages c b gs = { s with tlb := tl, blocks := bs } := by
  have hfill : ∃ tl, gs.foldl (fun t g => t.tlbFill (clusterOf b.core) b.asn (s.rootOf b) g.1.va.toNat) s = { s with tlb := tl } := by
    generalize s.rootOf b = root
    induction gs generalizing s with
    | nil => exact ⟨s.tlb, rfl⟩
    | cons g gs ih =>
      obtain ⟨tl, ht⟩ := tlbFill_eq s (clusterOf b.core) b.asn root g.1.va.toNat
      obtain ⟨tl', ht'⟩ := ih { s with tlb := tl }
      exact ⟨tl', by rw [List.foldl_cons, ht, ht']⟩
  obtain ⟨tl, hfill⟩ := hfill
  unfold State.rowPages
  rw [hfill]
  split
  · exact ⟨tl, _, rfl⟩
  · exact ⟨tl, s.blocks, rfl⟩

/-! ### COPY_BEGIN -/

theorem canBegin_of {s : State} {core q : Nat} {c : CopyCmd} {rest : List CopyCmd} {p : Block} {can : CopyCmd → Bool}
    (hq : s.queueOf core q = c :: rest) (hb : s.block c.blk = some p) (hc : can c = true) (hbegun : c.begun = false)
    (hmode : p.mode ≠ .saving) (hfences : s.fencesMet core c = true) : s.canBegin core q can = some (c, p) := by
  simp only [State.canBegin, hq, hb, hc, hbegun, hfences, bne_iff_ne.2 hmode, Bool.not_false, Bool.true_or, Bool.and_self, if_true]

/-- The state once a command's first row, of which every piece translates, is presented. -/
theorem presentRow_results {s : State} {core id : Nat} {c : CopyCmd} {p : Block} {t : Tile} {gs : List (Piece × Nat × DWord × Bool)}
    (hc : s.cmd core id = some c) (hxl : s.rowXl p c.need (c.rowPieces t 0) [] = .ok gs) :
    (s.presentRows core id p t [0]).cmd core id = some { c with row := 1, undecided := false } ∧
      (∀ r ∈ rowReqs c p 0 gs, HasReq (s.presentRows core id p t [0]) s.nextId r) ∧ (s.presentRows core id p t [0]).mem = s.mem := by
  obtain ⟨tl, bs, hpages⟩ := rowPages_eq s c p gs
  obtain ⟨hmore, hcmds, hhas⟩ := foldl_present_reqs (rowReqs_unsent (c := c) (b := p) (i := 0) (gs := gs))
    { s with tlb := tl, blocks := bs }
  have hpres := (hcmds.cmd_eq core id).trans hc
  have hmem := congrArg State.mem hmore.rest
  simp only [State.presentRows, hc, hxl, hpages]
  have hrow := cmd_updCmd (f := fun x => { x with row := 1 }) hpres fun _ => rfl
  exact ⟨cmd_updCmd (f := fun x => { x with undecided := false }) hrow fun _ => rfl, hhas, hmem⟩

end Sys2Proof.Proofs

/-! Copy commands under way (spec/07; R213 to R220): a command begins, and completes. -/

namespace Sys2Proof.Proofs

open Sys2Proof.Machine Sys2Proof.Claims

/-! ### COPY_BEGIN -/

/-- A command that has begun and reads no index array. -/
def plainBegun (c : CopyCmd) : CopyCmd := { c with begun := true, index := [] }

section

variable {s : State} {core q : Nat} {c : CopyCmd} {p : Block}

theorem plain_of_rows (hk : c.kind = .ld ∨ c.kind = .st) : c.indexed = false ∧ c.isColl = false := by
  rcases hk with hk | hk <;> simp [CopyCmd.indexed, CopyCmd.isColl, hk]

theorem copyBegin_rows (hk : c.kind = .ld ∨ c.kind = .st) (hcan : s.canBegin core q (fun c => !c.isColl) = some (c, p)) :
    exec (.copyBegin core q) s =
      .next ((s.updCmd core c.id plainBegun).presentCmd core c.id) := by
  have hexec : exec (.copyBegin core q) s = execCopyBegin core q s := rfl
  obtain ⟨hplain, -⟩ := plain_of_rows hk
  rw [hexec]
  simp only [execCopyBegin, hcan, hplain, Bool.false_eq_true, if_false]
  rcases hk with hk | hk <;>
  · simp only [hk]
    rfl

theorem presentCmd_of {id : Nat} {t : Tile} (hc : s.cmd core id = some c) (hb : s.block c.blk = some p)
    (ht : p.tiles[c.tile]? = some t) : s.presentCmd core id = s.presentRows core id p t ((List.range t.rows).drop c.row) := by
  simp only [State.presentCmd, hc, hb, ht]

theorem copyBegin_oneRow {t : Tile} {gs : List (Piece × Nat × DWord × Bool)} (hk : c.kind = .ld ∨ c.kind = .st)
    (hcan : s.canBegin core q (fun c => !c.isColl) = some (c, p)) (hc : s.cmd core c.id = some c) (hb : s.block c.blk = some p)
    (ht : p.tiles[c.tile]? = some t) (hrows : t.rows = 1) (hrow : c.row = 0)
    (hxl : s.rowXl p c.need (c.rowPieces t 0) [] = .ok gs) :
    ∃ u c', exec (.copyBegin core q) s = .next u ∧ u.cmd core c.id = some c' ∧ c'.begun = true ∧ c'.row = 1 ∧ c'.moved = c.moved ∧
      (∀ g ∈ gs, ∃ id r, u.reqs.get id = some r ∧ s.nextId ≤ id ∧ r.cmd = some c.id ∧ r.dst = .window 0 ∧ r.sent = false ∧
        r.kind = (if c.kind = .st then .copyWrite else .copyRead) ∧ ∃ a ∈ r.accs, a.lane = g.1.off ∧ a.pa = g.2.1 ∧ a.n = g.1.n) ∧
      u.mem = s.mem := by
  have hc0 : (s.updCmd core c.id plainBegun).cmd core c.id = some (plainBegun c) := cmd_updCmd hc fun _ => rfl
  have hpieces : (plainBegun c).rowPieces t 0 = c.rowPieces t 0 := by
    have hplain : (plainBegun c).indexed = false ∧ c.indexed = false := ⟨(plain_of_rows hk).1, (plain_of_rows hk).1⟩
    simp only [CopyCmd.rowPieces, CopyCmd.dataVa, CopyCmd.hdrVa, CopyCmd.rowNum, hplain, Bool.false_eq_true, if_false]
    rfl
  have hxl0 : (s.updCmd core c.id plainBegun).rowXl p (plainBegun c).need ((plainBegun c).rowPieces t 0) [] = .ok gs := by
    rw [hpieces]
    exact (rowXl_of_cores s _ p _ _ _).trans hxl
  have hpres : (s.updCmd core c.id plainBegun).presentCmd core c.id = (s.updCmd core c.id plainBegun).presentRows core c.id p t [0] := by
    have hrow0 : (plainBegun c).row = 0 := hrow
    rw [presentCmd_of (p := p) hc0 hb ht, hrows, hrow0]
    rfl
  obtain ⟨hcmd, hhas, hmem⟩ := presentRow_results (t := t) hc0 hxl0
  rw [← hpres] at hcmd hhas hmem
  refine ⟨_, { plainBegun c with row := 1, undecided := false }, copyBegin_rows hk hcan, hcmd, rfl, rfl, rfl, fun g hg => ?_, hmem⟩
  obtain ⟨r, hr, hid, hdst, hkind, a, ha⟩ := mem_rowReqs (plainBegun c) p 0 hg
  obtain ⟨id, r', m, hget, hge, rfl⟩ := (hhas r hr).elim
  refine ⟨id, _, hget, hge, hid, hdst, rowReqs_unsent r hr, hkind.trans ?_, a, ha⟩
  rcases hk with hk | hk <;> simp [CopyCmd.isDrain, plainBegun, hk]

/-! ### COPY_COMPLETE -/

/-- A command of whose presented rows all have moved moves none. -/
theorem copyAdvance_of_moved (ecc : Ecc) (hc : s.cmd core c.id = some c) (hmoved : c.moved = c.row) : s.copyAdvance ecc core c.id = s := by
  have hready : s.rowReady c = false := by simp [State.rowReady, hmoved]
  have hstay (fuel : Nat) : s.moveRows ecc core c.id (fuel + 1) = s := by
    simp only [State.moveRows, hc, hready, Bool.false_and, Bool.false_eq_true, if_false]
  exact hstay 255

theorem copyComplete_of_over {rest : List CopyCmd} (hq : s.queueOf core q = c :: rest) (hc : s.cmd core c.id = some c)
    (hb : s.block c.blk = some p) (hbegun : c.begun = true) (hcoll : c.isColl = false) (hmoved : c.moved = c.row)
    (hover : s.copyOver c ((p.tiles[c.tile]?).elim 0 (fun t => t.rows)) = true) :
    exec (.copyComplete core q .clean) s = .next (s.copyFinish core c) := by
  have hexec : exec (.copyComplete core q .clean) s = execCopyComplete core q .clean s := rfl
  rw [hexec]
  simp only [execCopyComplete, hq, hbegun, hcoll, Bool.not_true, Bool.or_self, Bool.false_eq_true, if_false,
    copyAdvance_of_moved .clean hc hmoved, hc, hb, Option.bind_some]
  exact event_next _ _ _ hover

/-- What is left of the copies of tiles: neither a hint nor a collective. -/
theorem not_coll_of_tileKind (hk : c.kind = .ld ∨ c.kind = .gth ∨ c.kind = .st ∨ c.kind = .sct) : c.isColl = false := by
  rcases hk with hk | hk | hk | hk <;> simp [CopyCmd.isColl, hk]

theorem isDrain_iff (hk : c.kind = .ld ∨ c.kind = .gth ∨ c.kind = .st ∨ c.kind = .sct) :
    c.isDrain = true ↔ c.kind = .st ∨ c.kind = .sct := by
  rcases hk with hk | hk | hk | hk <;> simp [CopyCmd.isDrain, hk]

theorem copyOver_of_tileKind (hk : c.kind = .ld ∨ c.kind = .gth ∨ c.kind = .st ∨ c.kind = .sct) (rows : Nat) :
    s.copyOver c rows = (c.fault.isNone && c.moved = c.row && (c.failed.isSome || c.row = rows) && c.lines.all (fun l => !s.lineHeld l)) := by
  rcases hk with hk | hk | hk | hk <;> simp only [State.copyOver, hk]

theorem copyFinish_of_tileKind (hk : c.kind = .ld ∨ c.kind = .gth ∨ c.kind = .st ∨ c.kind = .sct) :
    (∀ e, c.failed = some e → s.copyFinish core c = (((s.dropCmd core c.id).updTile c.blk c.tile (fun t => { t with fault := some e })).setTile
      c.blk c.tile (if c.isDrain then .ready else .empty)).clearFlagAll c.blk c.id) ∧
    (c.failed = none → s.copyFinish core c = if c.isDrain then
        ((s.dropCmd core c.id).updBlock c.blk (fun x => { x with tileOps := x.tileOps ++ [⟨c.id, c.wave, c.tile, .drained⟩] })).settleTiles c.blk
      else ((s.dropCmd core c.id).setTile c.blk c.tile .ready).clearFlagAll c.blk c.id) := by
  refine ⟨fun e he => ?_, fun he => ?_⟩
  · rcases hk with hk | hk | hk | hk <;> simp only [State.copyFinish, hk, he]
  · rcases hk with hk | hk | hk | hk <;> simp only [State.copyFinish, hk, he]

/-! ### A tile with a fault record (R219) -/

theorem settleTiles_mem (s : State) (b : Nat) : (s.settleTiles b).mem = s.mem := by
  cases hb : s.block b with
  | none => rw [State.settleTiles, hb]
  | some p =>
    rw [settleTiles_eq hb]
    rfl

theorem settleTiles_tile {b i : Nat} {t : Tile} (hb : s.block b = some p) (ht : p.tiles[i]? = some t) :
    ∃ q t', (s.settleTiles b).block b = some q ∧ q.tiles[i]? = some t' ∧ t'.fault = t.fault := by
  obtain ⟨-, htiles, -⟩ := settledBlock_results p
  obtain ⟨t', ht', hkeep, -⟩ := htiles i t ht
  have hfault := congrArg Tile.fault hkeep
  refine ⟨_, t', ?_, ht', hfault⟩
  rw [settleTiles_eq hb, State.block_updBlock_self, hb, Option.map_some]

theorem updTile_tile {b i : Nat} {t : Tile} (hb : s.block b = some p) (ht : p.tiles[i]? = some t) (f : Tile → Tile) :
    ∃ q, (s.updTile b i f).block b = some q ∧ q.tiles[i]? = some (f t) := by
  refine ⟨{ p with tiles := updAt p.tiles i f }, ?_, ?_⟩
  · rw [State.updTile, State.block_updBlock_self, hb, Option.map_some]
  · rw [updAt_get, if_pos rfl, ht, Option.map_some]

theorem faulted_tile {b i op : Nat} {t : Tile} (hb : s.block b = some p) (ht : p.tiles[i]? = some t) (e : CopyFault) (st : TileState) :
    ∃ q t', (((s.updTile b i (fun t => { t with fault := some e })).setTile b i st).clearFlagAll b op).block b = some q ∧
      q.tiles[i]? = some t' ∧ t'.fault = some e := by
  obtain ⟨p1, hb1, ht1⟩ := updTile_tile hb ht (fun t => { t with fault := some e })
  obtain ⟨p2, hb2, ht2⟩ := updTile_tile hb1 ht1 (fun t => { t with st := st })
  obtain ⟨q, t', hq, ht', hf⟩ := settleTiles_tile hb2 ht2
  exact ⟨_, t', (State.block_updBlock_self _ b _).trans (congrArg (Option.map _) hq), ht', hf⟩

end

theorem copyBegin_results {s : State} {core q : Nat} {c : CopyCmd} {rest : List CopyCmd} {p : Block} (hq : s.queueOf core q = c :: rest)
    (hb : s.block c.blk = some p) (hc : s.cmd core c.id = some c) (hbegun : c.begun = false) (hmode : p.mode ≠ .saving)
    (hfences : s.fencesMet core c = true) (hcoll : c.isColl = false) :
    (∃ u, exec (.copyBegin core q) s = .next u) ∧
      (∀ (t : Tile) gs, p.tiles[c.tile]? = some t → t.rows = 1 → c.row = 0 → (c.kind = .ld ∨ c.kind = .st) →
        s.rowXl p c.need (c.rowPieces t 0) [] = .ok gs →
        ∃ u c', exec (.copyBegin core q) s = .next u ∧ u.cmd core c.id = some c' ∧ c'.begun = true ∧ c'.row = 1 ∧ c'.moved = c.moved ∧
          (∀ g ∈ gs, ∃ id r, u.reqs.get id = some r ∧ s.nextId ≤ id ∧ r.cmd = some c.id ∧ r.dst = .window 0 ∧ r.sent = false ∧
            r.kind = (if c.kind = .st then .copyWrite else .copyRead) ∧ ∃ a ∈ r.accs, a.lane = g.1.off ∧ a.pa = g.2.1 ∧ a.n = g.1.n) ∧
          u.mem = s.mem) := by
  have hcan : s.canBegin core q (fun c => !c.isColl) = some (c, p) := canBegin_of hq hb (by rw [hcoll]; rfl) hbegun hmode hfences
  exact ⟨copyBegin_answers hcan, fun t gs ht hrows hrow hk hxl => copyBegin_oneRow hk hcan hc hb ht hrows hrow hxl⟩

theorem copyComplete_results {s : State} {core q : Nat} {c : CopyCmd} {rest : List CopyCmd} {p : Block} (hq : s.queueOf core q = c :: rest)
    (hb : s.block c.blk = some p) (hc : s.cmd core c.id = some c) (hbegun : c.begun = true) (hfault : c.fault = none)
    (hmoved : c.moved = c.row) :
    (∀ a n, c.kind = .hint a n → (∀ e ∈ s.reqs, e.2.cmd ≠ some c.id) →
      exec (.copyComplete core q .clean) s = .next ((s.dropCmd core c.id).clearFlagAll c.blk c.id)) ∧
    (∀ t : Tile, p.tiles[c.tile]? = some t → (c.kind = .ld ∨ c.kind = .gth ∨ c.kind = .st ∨ c.kind = .sct) →
      (∀ l ∈ c.lines, s.lineHeld l = false) →
      let drains := c.kind = .st ∨ c.kind = .sct
      (c.failed = none → c.row = t.rows →
        (¬ drains → exec (.copyComplete core q .clean) s =
          .next (((s.dropCmd core c.id).setTile c.blk c.tile .ready).clearFlagAll c.blk c.id)) ∧
        (drains → exec (.copyComplete core q .clean) s = .next (((s.dropCmd core c.id).updBlock c.blk
          (fun b => { b with tileOps := b.tileOps ++ [⟨c.id, c.wave, c.tile, .drained⟩] })).settleTiles c.blk))) ∧
      (∀ e, c.failed = some e → ∃ u v' t', exec (.copyComplete core q .clean) s = .next u ∧ u.block c.blk = some v' ∧
        v'.tiles[c.tile]? = some t' ∧ t'.fault = some e ∧ u.mem = s.mem)) := by
  refine ⟨fun a n hk hnone => ?hint, fun t ht hk hfree => ?tile⟩
  case hint =>
    have hover (rows : Nat) : s.copyOver c rows = true := by
      have hany : s.reqs.any (fun e => e.2.cmd = some c.id) = false := by simpa using fun i r h => hnone (i, r) h
      simp only [State.copyOver, hk, hany, Bool.not_false]
    rw [copyComplete_of_over hq hc hb hbegun (by simp [CopyCmd.isColl, hk]) hmoved (hover _), State.copyFinish, hk]
  case tile =>
    have hlines : c.lines.all (fun l => !s.lineHeld l) = true := List.all_eq_true.2 fun l hl => by simp [hfree l hl]
    obtain ⟨hfailed, hdone⟩ := copyFinish_of_tileKind (s := s) (core := core) hk
    refine ⟨fun hnf hrows => ?_, fun e he => ?_⟩
    · have hover : s.copyOver c ((p.tiles[c.tile]?).elim 0 (fun t => t.rows)) = true := by
        rw [copyOver_of_tileKind hk, ht]
        simp [hfault, hmoved, hrows, hlines]
      rw [copyComplete_of_over hq hc hb hbegun (not_coll_of_tileKind hk) hmoved hover, hdone hnf]
      exact ⟨fun hnd => by rw [if_neg (mt (isDrain_iff hk).1 hnd)], fun hd => by rw [if_pos ((isDrain_iff hk).2 hd)]⟩
    · have hover : s.copyOver c ((p.tiles[c.tile]?).elim 0 (fun t => t.rows)) = true := by
        rw [copyOver_of_tileKind hk, he]
        simp [hfault, hmoved, hlines]
      have hdrop : (s.dropCmd core c.id).block c.blk = some p := hb
      obtain ⟨v', t', hv', ht', hf⟩ := faulted_tile (op := c.id) hdrop ht e (if c.isDrain then .ready else .empty)
      refine ⟨_, v', t', copyComplete_of_over hq hc hb hbegun (not_coll_of_tileKind hk) hmoved hover, ?_⟩
      rw [hfailed e he]
      exact ⟨hv', ht', hf, settleTiles_mem _ _⟩

/-- R213 to R220 (Claims.CopyResults). -/
theorem copyResults : CopyResults := by
  intro s
  refine ⟨fun h f x hx hact => ⟨fun t ht hf hroom => ⟨fun hst hu => ?_, fun hst hu => ?_, fun hst hu => ?_, fun hst hu => ?_⟩,
    cpHint_next hx hact, cpSet_next hx hact⟩,
    fun core q c rest p hq hb hc => ⟨copyBegin_results hq hb hc, copyComplete_results hq hb hc⟩⟩
  · exact copyIssue_results hx hact ht hf hroom hst nofun hu rfl rfl
  · exact copyIssue_results hx hact ht hf hroom hst nofun hu rfl rfl
  · exact copyIssue_results hx hact ht hf hroom hst nofun hu rfl rfl
  · exact copyIssue_results hx hact ht hf hroom hst nofun hu rfl rfl

end Sys2Proof.Proofs

/-! The movement of a copy's row (spec/07; R215, R218). -/

namespace Sys2Proof.Proofs

open Sys2Proof.Machine Sys2Proof.Claims

/-! ### Reads at the home slice (R163 to R167) -/

/-- `t` is `s` but for the L2 and the controllers: memory and the blocks are as before. -/
def L2Frame (s t : State) : Prop := { t with lag := s.lag, l2 := s.l2, reed := s.reed, fresh := s.fresh } = s

theorem L2Frame.refl (s : State) : L2Frame s s := rfl

theorem L2Frame.trans {s t u : State} (h : L2Frame s t) (k : L2Frame t u) : L2Frame s u := by
  unfold L2Frame at *
  rw [← h, ← k]

theorem L2Frame.mem {s t : State} (h : L2Frame s t) : t.mem = s.mem := by
  have := congrArg State.mem h
  exact this

theorem L2Frame.blocks {s t : State} (h : L2Frame s t) : t.blocks = s.blocks := by
  have := congrArg State.blocks h
  exact this

theorem setReed_l2Frame (s : State) (f : Reed → Reed) : L2Frame s (s.setReed f) := rfl

theorem commitLine_l2Frame (s : State) (line job : Nat) : L2Frame s (s.commitLine line job) := by
  unfold State.commitLine
  simp only []
  have htouch : L2Frame s (s.touchFrame line) := setReed_l2Frame s _
  refine L2Frame.trans ?_ (setReed_l2Frame _ _)
  split
  · exact htouch.trans rfl
  · split
    · exact htouch.trans rfl
    · exact htouch.trans rfl

theorem writeBack_l2Frame (s : State) (line : Nat) : L2Frame s (s.writeBack line) := by
  unfold State.writeBack
  split
  · split
    · exact .refl s
    · exact commitLine_l2Frame s _ _
  · exact .refl s

theorem l2Evict_l2Frame {s t : State} {line : Nat} (h : s.l2Evict line = some t) : L2Frame s t := by
  unfold State.l2Evict at h
  split at h
  · cases h
  · obtain rfl := Option.some.inj h
    exact (writeBack_l2Frame s line).trans rfl

theorem l2Alloc_l2Frame (s : State) (line : Nat) (a : Alloc) : L2Frame s (s.l2Alloc line a) := by
  unfold State.l2Alloc
  simp only []
  split
  · rfl
  · split
    · split
      · next t ht => exact (l2Evict_l2Frame ht).trans rfl
      · exact .refl s
    · exact .refl s

theorem l2Access_l2Frame (s : State) (line : Nat) (a : Alloc) : L2Frame s (s.l2Access line a) := by
  have ht : L2Frame s (s.touchFrame line) := setReed_l2Frame s _
  unfold State.l2Access
  split
  · rfl
  · dsimp only
    split
    · exact ht
    · exact ht.trans (l2Alloc_l2Frame _ line a)

theorem l2Read_l2Frame (s : State) (r : Req) (line : Nat) : L2Frame s (s.l2Read r line) := by
  unfold State.l2Read
  split
  · exact l2Access_l2Frame s _ _
  · exact .refl s

/-! ### The window, written by an engine (R218) -/

theorem dropShadow_frame (s : State) (b : Nat) (p : Nat → Bool) : { s.dropShadow b p with cores := s.cores } = s := by
  unfold State.dropShadow
  split <;> rfl

theorem engineWrite_block {s : State} {b : Nat} {p : Block} (hb : s.block b = some p) (o : Nat) (bs : List Byte) :
    (s.engineWrite b o bs).block b = some (p.spadWrite o bs) := by
  have hframe := congrArg State.blocks (dropShadow_frame (s.updBlock b (fun x => x.spadWrite o bs)) b (fun a => o ≤ a && a < o + bs.length))
  have hblocks : (s.engineWrite b o bs).blocks = (s.updBlock b (fun x => x.spadWrite o bs)).blocks := hframe
  have hself := State.block_updBlock_self s b (fun x => x.spadWrite o bs)
  rw [hb] at hself
  rw [State.block, hblocks]
  exact hself

theorem engineWrite_mem (s : State) (b o : Nat) (bs : List Byte) : (s.engineWrite b o bs).mem = s.mem := by
  have hframe := congrArg State.mem (dropShadow_frame (s.updBlock b (fun x => x.spadWrite o bs)) b (fun a => o ≤ a && a < o + bs.length))
  exact hframe

/-! ### A row of one request (R190, R215) -/

theorem rd_get {s : State} {m n i : Nat} (hi : i < n) : (s.rd m n)[i]? = some (byteAt s (m + i)) := by
  simp [State.rd, memRead, byteAt, hi]

/-- What the home slice has done for a row before its bytes move. -/
def rowServed (s : State) (id : Nat) (r : Req) : State :=
  { s.served r with reqs := (s.served r).reqs.filter (fun e => !([(id, r)] : List (Nat × Req)).any (fun f => f.1 = e.1)) }

theorem moveRow_fill {s : State} {b id : Nat} {r : Req} {a : LaneAcc} (haccs : r.accs = [a]) (haway : s.away r.line = false)
    (hk : r.kind = .copyRead) : ∃ t, L2Frame (rowServed s id r) t ∧
      s.moveRow .clean b [(id, r)] = t.engineWrite b a.lane (t.rd (localOf a.pa) a.n) := by
  have haway' : (rowServed s id r).away r.line = false := haway
  refine ⟨(rowServed s id r).l2Read r r.line, l2Read_l2Frame _ r r.line, ?_⟩
  have hrow : s.moveRow .clean b [(id, r)] = ((rowServed s id r).fillBytes .clean r).1.foldl (fun (u : State) v => u.engineWrite b v.1 v.2)
      ((rowServed s id r).fillBytes .clean r).2 := by
    simp only [State.moveRow, List.foldl_cons, List.foldl_nil, haway, Bool.false_eq_true, if_false, hk]
    rfl
  have hbytes : (rowServed s id r).fillBytes .clean r = ([(a.lane, ((rowServed s id r).l2Read r r.line).rd (localOf a.pa) a.n)],
      (rowServed s id r).l2Read r r.line) := by
    simp only [State.fillBytes, haway', Bool.false_eq_true, if_false, haccs, List.foldl_cons, List.foldl_nil]
    rfl
  rw [hrow, hbytes]
  rfl

/-- The state of a drain's row of one request whose bytes stand in memory. -/
def drained (s : State) (r : Req) (a : LaneAcc) (bs : List Byte) : State :=
  (s.l1Store r.core r.line (a.pa % 128) bs).rawWrite (localOf a.pa) bs (s.allocOf r) (if r.cmd.isNone then some (r.blk, r.wave) else none)
    ((s.l1Store r.core r.line (a.pa % 128) bs).chargedJob (localOf a.pa) r.job)

theorem FillFrame.home {s t : State} (h : FillFrame s t) : t.mem = s.mem ∧ t.queues = s.queues ∧ t.dev = s.dev := by
  have hmem := congrArg State.mem h.2
  have hqueues := congrArg State.queues h.2
  have hdev := congrArg State.dev h.2
  exact ⟨hmem, hqueues, hdev⟩

theorem drained_mem (s : State) (r : Req) (a : LaneAcc) (bs : List Byte) : (drained s r a bs).mem = memWrite s.mem (localOf a.pa) bs := by
  rw [drained, State.rawWrite_mem, (l1Store_fillFrame s r.core r.line (a.pa % 128) bs).home.1]

theorem drainReq_apart {s : State} {p : Block} {r : Req} {a : LaneAcc} (haccs : r.accs = [a]) (haway : s.away r.line = false)
    (hapart : ∀ e ∈ s.queues, localOf a.pa + a.n ≤ s.descOf e.1 ∨ s.descOf e.1 + 64 ≤ localOf a.pa) :
    s.drainReq .clean p r = (drained s r a (p.spadRead a.lane a.n)).noteDrained r := by
  generalize hbs : p.spadRead a.lane a.n = bs
  have hlen : bs.length = a.n := by rw [← hbs, Block.spadRead, List.length_map, List.length_range]
  obtain ⟨-, hqueues, hdev⟩ := (l1Store_fillFrame s r.core r.line (a.pa % 128) bs).home
  have haway1 : (s.l1Store r.core r.line (a.pa % 128) bs).away r.line = false := by
    rw [State.away, hdev]
    exact haway
  have hwrite : (s.l1Store r.core r.line (a.pa % 128) bs).writeHome r a.pa bs = drained s r a bs := by
    have halloc : (s.l1Store r.core r.line (a.pa % 128) bs).allocOf r = s.allocOf r := by
      simp only [State.allocOf, State.allocIn, State.tenCfg, hdev]
    rw [State.writeHome, homeWrite_apart, halloc, drained]
    intro e he
    rw [hlen, State.descOf, hdev]
    exact hapart e (hqueues ▸ he)
  have haway2 : (drained s r a bs).away r.line = false := by
    have hdev2 := (rawWrite_homeFrame (s.l1Store r.core r.line (a.pa % 128) bs) (localOf a.pa) bs (s.allocOf r)
      (if r.cmd.isNone then some (r.blk, r.wave) else none)
      ((s.l1Store r.core r.line (a.pa % 128) bs).chargedJob (localOf a.pa) r.job)).dev
    rw [State.away, drained, hdev2, hdev]
    exact haway
  simp only [State.drainReq, haccs, List.foldl_cons, List.foldl_nil, hbs, haway1, Bool.false_eq_true, if_false, State.eccMerge, hwrite, haway2]

theorem moveRow_drain {s : State} {b id : Nat} {p : Block} {r : Req} {a : LaneAcc} (hb : s.block b = some p) (haccs : r.accs = [a])
    (haway : s.away r.line = false) (hk : r.kind = .copyWrite)
    (hapart : ∀ e ∈ s.queues, localOf a.pa + a.n ≤ s.descOf e.1 ∨ s.descOf e.1 + 64 ≤ localOf a.pa) :
    s.moveRow .clean b [(id, r)] = (drained (rowServed s id r) r a (p.spadRead a.lane a.n)).noteDrained r := by
  have hrow : s.moveRow .clean b [(id, r)] = (rowServed s id r).drainReq .clean p r := by
    have hb' : (rowServed s id r).block b = some p := hb
    simp only [State.moveRow, List.foldl_cons, List.foldl_nil, haway, Bool.false_eq_true, if_false, hk]
    rw [rowServed] at hb'
    simp only [hb']
    rfl
  exact hrow.trans (drainReq_apart (s := rowServed s id r) haccs haway hapart)

theorem noteDrained_mem (s : State) (r : Req) : (s.noteDrained r).mem = s.mem := by
  unfold State.noteDrained
  split <;> rfl

/-- R215, R218 (Claims.RowMovement). -/
theorem rowMovement : RowMovement := by
  intro s b p id r a hb hblk haccs haway hline hin
  refine ⟨fun hk => ?fill, fun hk hapart => ?drain⟩
  case fill =>
    obtain ⟨t, ht, hrow⟩ := moveRow_fill (b := b) (id := id) haccs haway hk
    have hmem : t.mem = s.mem := ht.mem
    have htb : t.block b = some p := by
      rw [State.block, ht.blocks]
      exact hb
    have hlen : (t.rd (localOf a.pa) a.n).length = a.n := by simp [State.rd, memRead]
    refine ⟨_, hrow ▸ engineWrite_block htb _ _, fun i hi => ?_, fun o ho => ?_, ?_⟩
    · have hget := spadWrite_get_in p a.lane i _ (rd_get (s := t) (m := localOf a.pa) hi)
      rw [hget, byteAt, byteAt, hmem]
    · exact spadWrite_get_out p _ _ _ (by rwa [hlen])
    · rw [hrow, engineWrite_mem, hmem]
  case drain =>
    have hlen : (p.spadRead a.lane a.n).length = a.n := by simp [Block.spadRead]
    have hrow := moveRow_drain (id := id) hb haccs haway hk fun e he => by
      have := hapart e he
      omega
    have hmem : (s.moveRow .clean b [(id, r)]).mem = memWrite s.mem (localOf a.pa) (p.spadRead a.lane a.n) := by
      rw [hrow, noteDrained_mem, drained_mem]
      rfl
    refine ⟨fun i hi => ?_, fun m hm => ?_⟩
    · rw [byteAt, hmem, memGet_memWrite_in _ _ _ i (by omega)]
      simp [Block.spadRead]
    · rw [byteAt, hmem, memGet_memWrite_out _ _ _ m (by rwa [hlen])]
      rfl

/-- Settles O34: the commands (`copyResults`) and the movement of a row (`rowMovement`). -/
theorem copyEngineResults : Obligations.CopyEngineResults := ⟨copyResults, rowMovement⟩

end Sys2Proof.Proofs

/-! Collectives as they issue, and `coll.wait` (spec/07; R221 to R223, R227). -/

namespace Sys2Proof.Proofs

open Sys2Proof.Machine Sys2Proof.Claims

/-! ### Issue (R223) -/

/-- A collective within the limits of R223, root aside. -/
def CollFits (s : State) (x : Ctx) (f : EFmt) (elem : Nat) : Prop :=
  (x.scalPair f.a.toNat).toNat % 8 = 0 ∧ 4 ≤ (x.scal f.b.toNat).toNat ∧ (x.scal f.b.toNat).toNat ≤ 4096 ∧
  (x.scal f.b.toNat).toNat % elem = 0 ∧ (x.scal f.c.toNat).toNat % 65536 < 64 ∧
  collEn (s.coll ((x.scal f.c.toNat).toNat % 65536)).cfg = true ∧ collTen (s.coll ((x.scal f.c.toNat).toNat % 65536)).cfg = x.blk.ten

theorem collBad_iff {s : State} {x : Ctx} {f : EFmt} {elem : Nat} {bc : Bool} :
    x.collBad s f elem bc = true ↔ ¬ CollFits s x f elem ∨
      (bc = true ∧ (s.coll ((x.scal f.c.toNat).toNat % 65536)).size ≤ (x.scal f.c.toNat).toNat / 65536) := by
  simp only [Ctx.collBad, CollFits, Bool.or_eq_true, Bool.and_eq_true, decide_eq_true_eq, Bool.not_eq_true', not_and_or, Nat.not_le,
    Nat.not_lt, Bool.not_eq_true, ne_eq]
  tauto

/-- The kind of the command that a collective queues. -/
def collKind (x : Ctx) (f : EFmt) (bc : Bool) : CopyKind :=
  if bc then .collBc ((x.scal f.c.toNat).toNat / 65536) else .collAr (f.bits 14 13) (f.bits 12 10)

/-- The command that a collective queues. -/
def collCmd (s : State) (x : Ctx) (f : EFmt) (bc : Bool) : CopyCmd :=
  { x.newCmd s.nextId (f.bits 16 15) (collKind x f bc) with
    d := ((x.scalPair f.a.toNat).toNat : Int), idx := (x.scal f.b.toNat).toNat, group := (x.scal f.c.toNat).toNat % 65536,
    num := (s.coll ((x.scal f.c.toNat).toNat % 65536)).count }

section

variable {s : State} {name : String} {h : Head} {f : EFmt} {x : Ctx} {elem : Nat} {bc : Bool}

theorem collIssue_inactive (hx : Issues s h [.s f.a.toNat 2, .s f.b.toNat 1, .s f.c.toNat 1] x) (hact : x.act = 0) :
    collIssue name h f elem bc s = .next (s.updWave x.b x.w (fun v => { v with idem := false })) := by
  refine (issueOp_next name h false _ _ s x hx.1 (by simp) hx.2).trans ?_
  have hany : x.any = false := by simp [Ctx.any, hact]
  rw [waveOp, hany]
  rfl

theorem collIssue_refused (hx : Issues s h [.s f.a.toNat 2, .s f.b.toNat 1, .s f.c.toNat 1] x) (hact : x.act ≠ 0)
    (hbad : x.collBad s f elem bc = true) : collIssue name h f elem bc s =
      .next ((s.updWave x.b x.w (fun v => { v with idem := false })).updBlock x.b
        (fun b => { b with collStatus := updAt b.collStatus (f.bits 16 15) (fun w => w ||| 1) })) := by
  refine (issueOp_next name h false _ _ s x hx.1 (by simp) hx.2).trans ?_
  have hbad' : x.collBad (x.clearIdem s) f elem bc = true := hbad
  rw [waveOp, if_pos (any_of_act hact)]
  simp only [hbad', if_true]
  rfl

theorem collIssue_queued (hx : Issues s h [.s f.a.toNat 2, .s f.b.toNat 1, .s f.c.toNat 1] x) (hact : x.act ≠ 0)
    (hgood : x.collBad s f elem bc = false) (hroom : (s.queueOf x.blk.core (f.bits 16 15)).length < 64) :
    collIssue name h f elem bc s =
      .next (((begun (s.updWave x.b x.w (fun v => { v with idem := false })) x).updQueueOf x.blk.core (f.bits 16 15)
        (fun l => l ++ [collCmd s x f bc])).updColl ((x.scal f.c.toNat).toNat % 65536) (fun g => { g with count := g.count + 1 })) := by
  refine (issueOp_next name h false _ _ s x hx.1 (by simp) hx.2).trans ?_
  have hgood' : x.collBad (x.clearIdem s) f elem bc = false := hgood
  have hroom' : (x.clearIdem s).queueRoom x.blk.core (f.bits 16 15) = true := queueRoom_of hroom
  rw [waveOp, if_pos (any_of_act hact)]
  simp only [hgood', hroom', Bool.false_eq_true, if_false, needState, if_true, enqueue_eq]
  rfl

end

/-! ### `coll.wait` (R227) -/

theorem begun_block {s : State} {h : Head} {x : Ctx} (hx : s.ctx h = some x) :
    ∃ ws, (begun s x).block x.b = some { x.blk with waves := ws } ∧ (begun s x).cores = s.cores ∧ (begun s x).reqs = s.reqs ∧
      (begun s x).nextId = s.nextId + 1 ∧ (begun s x).mem = s.mem := by
  obtain ⟨-, hb, -, -⟩ := s.ctx_some h x hx
  unfold begun State.setFlag
  split
  · exact ⟨x.blk.waves, hb, rfl, rfl, rfl, rfl⟩
  · exact ⟨_, (State.block_updBlock_self _ _ _).trans (congrArg _ hb), rfl, rfl, rfl, rfl⟩

theorem cmdLeft_of_queue {s : State} {core q : Nat} {c : CopyCmd} (h : c ∈ s.queueOf core q) : s.cmdLeft core c.id = true := by
  have hmem : c ∈ (s.core core).queues.flatten := by
    rw [State.queueOf, List.getD_eq_getElem?_getD] at h
    cases hq : (s.core core).queues[q]? with
    | none => simp [hq] at h
    | some l => exact List.mem_flatten.2 ⟨l, List.mem_of_getElem? hq, by simpa [hq] using h⟩
  exact List.find?_isSome.2 ⟨c, hmem, decide_eq_true rfl⟩

/-- The wait that `coll.wait` begins on queue `q`. -/
def collWait (s : State) (x : Ctx) (f : EFmt) : CollWait :=
  ⟨s.nextId, x.w, f.bits 16 15, f.x.toNat,
    ((s.queueOf x.blk.core (f.bits 16 15)).filter (fun c => c.blk = x.b && c.isColl)).map (fun c => c.id), []⟩

theorem collWait_next {s : State} {h : Head} {f : EFmt} {x : Ctx} (hx : Issues s h [.s f.x.toNat 1] x) (hact : x.act ≠ 0) :
    exec (.collWait h f) s =
      .next (((begun s x).updBlock x.b (fun b => { b with collWaits := b.collWaits ++ [collWait s x f] })).settleColls x.b) :=
  issueWave_next hx.1 hact hx.2

/-- A wait some of whose collectives are left stays. -/
theorem settleColls_left {s : State} {b : Nat} {p : Block} {w : CollWait} (hb : s.block b = some p) (hw : p.collWaits = [w])
    (hleft : w.cmds.all (fun id => !s.cmdLeft p.core id) = false) : (s.settleColls b).block b = some p := by
  simp only [State.settleColls, hb, hw, List.partition_eq_filter_filter, hleft, List.filter_cons, List.filter_nil,
    Bool.false_eq_true, if_false, Function.comp, Bool.not_false, if_true, List.foldl_nil]
  rw [State.block_updBlock_self, hb, Option.map_some, ← hw]

/-- The request that brings the queue's status record to a wait that is over. -/
def collReturn (b : Nat) (p : Block) (w : CollWait) : Req :=
  { op := w.id, grid := p.grid, core := p.core, blk := b, wave := w.wave, cmd := none, ten := p.ten, asn := p.asn,
    job := p.job, user := false, kind := .scratch, vline := 0, line := 0, pol := 3, stable := false,
    accs := [{ lane := 0, va := 0, pa := 0, n := 4, data := [] }], dst := .scal w.dst, after := [], sent := true,
    visible := true, remoteTag := none, olds := [(0, bytesOfNat (p.collStatus.getD w.queue 0).toNat 4)], acqScope := 0, rel := 0,
    clobbered := w.clobbered, replayed := false }

/-- A wait whose collectives are over takes the status record, and clears it. -/
theorem settleColls_over {s : State} {b : Nat} {p : Block} {w : CollWait} (hb : s.block b = some p) (hw : p.collWaits = [w])
    (hover : w.cmds.all (fun id => !s.cmdLeft p.core id) = true) :
    (s.settleColls b).block b = some { p with collWaits := [], collStatus := updAt p.collStatus w.queue (fun _ => 0) } ∧
      (s.settleColls b).reqs = s.reqs.put s.nextId (collReturn b p w) ∧ (s.settleColls b).mem = s.mem := by
  have hblk : (s.updBlock b (fun x => { x with collWaits := [] })).block b = some { p with collWaits := [] } :=
    (State.block_updBlock_self s b _).trans (congrArg _ hb)
  have hset : s.settleColls b = ((s.updBlock b (fun x => { x with collWaits := [] })).updBlock b
      (fun x => { x with collStatus := updAt x.collStatus w.queue (fun _ => 0) })).present (collReturn b p w) := by
    simp only [State.settleColls, hb, hw, List.partition_eq_filter_filter, hover, List.filter_cons, List.filter_nil, if_true,
      Function.comp, Bool.not_true, Bool.false_eq_true, if_false, List.foldl_cons, List.foldl_nil, hblk]
    rfl
  rw [hset, present_of_sent rfl]
  exact ⟨(State.block_updBlock_self _ b _).trans (congrArg _ hblk), rfl, rfl⟩

theorem cleared_get {vs : List Word} {q i : Nat} {w : Word} (hw : (updAt vs q (fun _ => 0))[i]? = some w) :
    w = if i = q then 0 else vs.getD i 0 := by
  rw [updAt_get] at hw
  split at hw
  · next hi =>
    obtain ⟨v, -, hv⟩ := Option.map_eq_some_iff.1 hw
    rw [if_pos hi, hv]
  · next hi => rw [if_neg hi, List.getD_eq_getElem?_getD, hw, Option.getD_some]

/-- R227: a wait stays while a collective of its queue is left, and else takes the status record. -/
theorem collWait_results {s : State} {h : Head} {f : EFmt} {x : Ctx} (hx : Issues s h [.s f.x.toNat 1] x) (hact : x.act ≠ 0)
    (hnone : x.blk.collWaits = []) :
    ((collWait s x f).cmds ≠ [] → ∃ t p, exec (.collWait h f) s = .next t ∧ t.block x.b = some p ∧
      p.collStatus = x.blk.collStatus ∧ p.collWaits = [collWait s x f]) ∧
    ((collWait s x f).cmds = [] → ∃ t p r, exec (.collWait h f) s = .next t ∧ t.block x.b = some p ∧ p.collWaits = [] ∧
      (∀ i w, p.collStatus[i]? = some w → w = (if i = f.bits 16 15 then 0 else x.blk.collStatus.getD i 0)) ∧
      t.reqs.get (s.nextId + 1) = some r ∧ r.op = s.nextId ∧ r.dst = .scal f.x.toNat ∧ r.visible = true ∧
      r.olds = [(0, bytesOfNat (x.blk.collStatus.getD (f.bits 16 15) 0).toNat 4)] ∧ t.mem = s.mem) := by
  obtain ⟨ws, hb, hcores, hreqs, hid, hmem⟩ := begun_block hx.1
  have hblk : ((begun s x).updBlock x.b (fun b => { b with collWaits := b.collWaits ++ [collWait s x f] })).block x.b =
      some { x.blk with waves := ws, collWaits := [collWait s x f] } := by
    refine (State.block_updBlock_self _ _ _).trans ?_
    rw [hb, Option.map_some, hnone]
    rfl
  refine ⟨fun hne => ?_, fun hnil => ?_⟩
  · obtain ⟨i, hi⟩ := List.exists_mem_of_ne_nil _ hne
    obtain ⟨c, hc, rfl⟩ := List.mem_map.1 hi
    have hcmd : (begun s x).cmdLeft x.blk.core c.id = true := by
      rw [State.cmdLeft, (sameCmds_of_cores hcores).cmd_eq]
      exact cmdLeft_of_queue (List.mem_of_mem_filter hc)
    refine ⟨_, _, collWait_next hx hact, settleColls_left hblk rfl ?_, rfl, rfl⟩
    exact List.all_eq_false.2 ⟨c.id, hi, by rw [Bool.not_eq_true, Bool.not_eq_false']; exact hcmd⟩
  · obtain ⟨hp, hr, hm⟩ := settleColls_over hblk rfl (by rw [hnil]; rfl)
    refine ⟨_, _, collReturn x.b { x.blk with waves := ws, collWaits := [collWait s x f] } (collWait s x f), collWait_next hx hact, hp, rfl,
      fun i w hw => cleared_get hw, ?_, rfl, rfl, rfl, rfl, hm.trans hmem⟩
    rw [hr]
    exact (congrArg _ hid.symm).trans (Tbl.get_put_self _ _ _)

end Sys2Proof.Proofs

/-! Collectives under way (spec/07; R224 to R227): a collective begins, receives, and completes. -/

namespace Sys2Proof.Proofs

open Sys2Proof.Machine Sys2Proof.Claims

/-! ### Sending the buffer (R225, R226) -/

/-- `t` is `s` with more packets to send. -/
def Sends (s t : State) : Prop :=
  { t with fabOut := s.fabOut, pins := s.pins, fresh := s.fresh, nextTag := s.nextTag } = s ∧ ∀ k ∈ s.fabOut, k ∈ t.fabOut

theorem Sends.refl (s : State) : Sends s s := ⟨rfl, fun _ h => h⟩

theorem Sends.trans {s t u : State} (h : Sends s t) (k : Sends t u) : Sends s u :=
  ⟨by rw [← h.1, ← k.1], fun p hp => k.2 p (h.2 p hp)⟩

/-- A packet of a collective with these bytes waits for module `m`. -/
def SentTo (m : Nat) (data : List Byte) (t : State) : Prop := ∃ k ∈ t.fabOut, k.typ = 8 ∧ k.dst = m ∧ k.data = data

theorem SentTo.mono {s t : State} {m : Nat} {data : List Byte} (h : SentTo m data s) (k : Sends s t) : SentTo m data t := by
  obtain ⟨p, hp, hk⟩ := h
  exact ⟨p, k.2 p hp, hk⟩

theorem foldl_sends {α : Type} {f : State → α → State} (hf : ∀ t x, Sends t (f t x)) (xs : List α) (s : State) :
    Sends s (xs.foldl f s) := by
  induction xs generalizing s with
  | nil => exact .refl s
  | cons x xs ih => exact (hf s x).trans (ih _)

theorem foldl_sentTo {α : Type} {f : State → α → State} (hf : ∀ t x, Sends t (f t x)) {xs : List α} {x : α} (hx : x ∈ xs) {m : Nat}
    {data : List Byte} (hsent : ∀ t, SentTo m data (f t x)) (s : State) : SentTo m data (xs.foldl f s) := by
  induction xs generalizing s with
  | nil => cases hx
  | cons y xs ih =>
    rcases List.mem_cons.1 hx with rfl | hx
    · exact (hsent s).mono (foldl_sends hf xs _)
    · exact ih hx _

/-- A fragment of a member's buffer is sent to module `m`. -/
def sendFragment (g : CollGroup) (c : CopyCmd) (m : Nat) (t : State) (e : Nat × List Byte) : State :=
  t.newTag.2.fabSend noCore 8 m t.newTag.1 0
    (m * 2 ^ 45 + c.group + e.1 * 2 ^ 6 + c.num % 256 * 2 ^ 18 + nodeOf g.rank 1 * 2 ^ 26) e.2

theorem sendFragment_sends (g : CollGroup) (c : CopyCmd) (m : Nat) (t : State) (e : Nat × List Byte) :
    Sends t (sendFragment g c m t e) ∧ SentTo m e.2 (sendFragment g c m t e) :=
  ⟨⟨rfl, fun _ hk => List.mem_append_left _ hk⟩, _, List.mem_append_right _ (List.mem_singleton_self _), rfl, rfl, rfl⟩

/-- A member's buffer is sent to all others. -/
def sendBuffer (s : State) (g : CollGroup) (c : CopyCmd) (bs : List Byte) : State :=
  g.others.foldl (fun t m => (fragments bs).foldl (sendFragment g c m) t) s

theorem mem_fragments {bs : List Byte} {i : Nat} (h : 128 * i < bs.length) : (128 * i, (bs.drop (128 * i)).take 128) ∈ fragments bs :=
  List.mem_map.2 ⟨i, List.mem_range.2 (by omega), rfl⟩

theorem sendFragments_sends (g : CollGroup) (c : CopyCmd) (bs : List Byte) (t : State) (m : Nat) :
    Sends t ((fragments bs).foldl (sendFragment g c m) t) :=
  foldl_sends (fun t e => (sendFragment_sends g c m t e).1) _ t

theorem sendBuffer_sends (s : State) (g : CollGroup) (c : CopyCmd) (bs : List Byte) : Sends s (sendBuffer s g c bs) :=
  foldl_sends (sendFragments_sends g c bs) _ s

theorem sendBuffer_sentTo (s : State) {g : CollGroup} (c : CopyCmd) {bs : List Byte} {m i : Nat} (hm : m ∈ g.others)
    (hi : 128 * i < bs.length) : SentTo m ((bs.drop (128 * i)).take 128) (sendBuffer s g c bs) :=
  foldl_sentTo (sendFragments_sends g c bs) hm
    (foldl_sentTo (fun t e => (sendFragment_sends g c m t e).1) (mem_fragments hi) fun t => (sendFragment_sends g c m t _).2) s

theorem collSend_eq {s : State} {c : CopyCmd} (hroot : ∀ root, c.kind = .collBc root → root = (s.coll c.group).rank) (bs : List Byte) :
    s.collSend c bs = sendBuffer s (s.coll c.group) c bs := by
  unfold State.collSend
  cases hk : c.kind with
  | collBc root =>
    have hisRoot : (s.coll c.group).isRoot c = true := by simpa [CollGroup.isRoot, hk] using hroot root hk
    simp only [hisRoot, Bool.not_true, Bool.false_eq_true, if_false]
    rfl
  | _ => rfl

theorem collSend_sends (s : State) (c : CopyCmd) (bs : List Byte) : Sends s (s.collSend c bs) := by
  unfold State.collSend
  dsimp only
  split
  · split
    · exact .refl s
    · exact sendBuffer_sends s _ c bs
  · exact sendBuffer_sends s _ c bs

theorem mem_others {g : CollGroup} {r : Nat} (hr : r < g.size) (hne : r ≠ g.rank) : g.module r ∈ g.others :=
  List.mem_map_of_mem (List.mem_filter.2 ⟨List.mem_range.2 hr, decide_eq_true hne⟩)

/-! ### COLL_BEGIN -/

theorem bufPass_l2Frame (s : State) (ps : List BufPiece) : L2Frame s (s.bufPass ps) := by
  unfold State.bufPass
  induction ps generalizing s with
  | nil => exact .refl s
  | cons p ps ih =>
    refine L2Frame.trans (t := if s.isOwn p.pa then s.l2Access (lineOf (localOf p.pa)) p.al else s) ?_ (ih _)
    split
    · exact l2Access_l2Frame s _ _
    · exact .refl s

theorem L2Frame.colls {s t : State} (h : L2Frame s t) : t.colls = s.colls := by
  have := congrArg State.colls h
  exact this

theorem L2Frame.sameCmds {s t : State} (h : L2Frame s t) : SameCmds s t := by
  have hcores := congrArg State.cores h
  exact sameCmds_of_cores hcores

theorem Sends.keeps {s t : State} (h : Sends s t) : SameCmds s t ∧ t.mem = s.mem := by
  have hcores := congrArg State.cores h.1
  have hmem := congrArg State.mem h.1
  exact ⟨sameCmds_of_cores hcores, hmem⟩

/-- A collective with this module's buffer as it stood when it began. -/
def collBegun (bs : List Byte) (c : CopyCmd) : CopyCmd := { c with begun := true, local_ := bs }

section

variable {s : State} {core q : Nat} {c : CopyCmd} {p : Block}

theorem collBegin_refused (hcan : s.canBegin core q (fun c => c.isColl && c.fault.isNone) = some (c, p))
    (hbuf : s.collBuf c p = .refused) : exec (.collBegin core q) s = .next (s.collFinish core q c 1) := by
  have hexec : exec (.collBegin core q) s = execCollBegin core q s := rfl
  rw [hexec]
  simp only [execCollBegin, hcan, hbuf]

theorem collBegin_ok {ps : List BufPiece} (hcan : s.canBegin core q (fun c => c.isColl && c.fault.isNone) = some (c, p))
    (hbuf : s.collBuf c p = .ok ps) : exec (.collBegin core q) s =
      .next { ((s.bufPass ps).updCmd core c.id (collBegun (s.bufRead ps))).collSend c (s.bufRead ps) with fresh := s.fresh + 1 } := by
  have hexec : exec (.collBegin core q) s = execCollBegin core q s := rfl
  rw [hexec]
  simp only [execCollBegin, hcan, hbuf]
  rfl

theorem collBegin_results {ps : List BufPiece} (hcan : s.canBegin core q (fun c => c.isColl && c.fault.isNone) = some (c, p))
    (hc : s.cmd core c.id = some c) (hbuf : s.collBuf c p = .ok ps) :
    ∃ t c', exec (.collBegin core q) s = .next t ∧ t.cmd core c.id = some c' ∧ c'.begun = true ∧ c'.local_ = s.bufRead ps ∧ t.mem = s.mem ∧
      (∀ r, r < (s.coll c.group).size → r ≠ (s.coll c.group).rank → (∀ root, c.kind = .collBc root → root = (s.coll c.group).rank) →
        ∀ i, 128 * i < (s.bufRead ps).length → SentTo ((s.coll c.group).module r) (((s.bufRead ps).drop (128 * i)).take 128) t) := by
  have hpass := bufPass_l2Frame s ps
  have hcoll : ((s.bufPass ps).updCmd core c.id (collBegun (s.bufRead ps))).coll c.group = s.coll c.group := by
    have hcolls : ((s.bufPass ps).updCmd core c.id (collBegun (s.bufRead ps))).colls = s.colls := hpass.colls
    rw [State.coll, hcolls]
    rfl
  have hcmd := cmd_updCmd (f := collBegun (s.bufRead ps)) ((hpass.sameCmds.cmd_eq core c.id).trans hc) fun _ => rfl
  obtain ⟨hcmds, hmem⟩ := (collSend_sends ((s.bufPass ps).updCmd core c.id (collBegun (s.bufRead ps))) c (s.bufRead ps)).keeps
  refine ⟨_, _, collBegin_ok hcan hbuf, (hcmds.cmd_eq core c.id).trans hcmd, rfl, rfl, hmem.trans hpass.mem, fun r hr hne hroot i hi => ?_⟩
  have hsend := collSend_eq (s := (s.bufPass ps).updCmd core c.id (collBegun (s.bufRead ps))) (c := c) (by rwa [hcoll]) (s.bufRead ps)
  rw [hsend, hcoll]
  exact sendBuffer_sentTo _ c (mem_others hr hne) hi

end

end Sys2Proof.Proofs

/-! Collectives as they complete (spec/07; R224, R226, R227). -/

namespace Sys2Proof.Proofs

open Sys2Proof.Machine Sys2Proof.Claims

/-! ### What a completion reads of the count of free values -/

theorem collBuf_of_fresh (s : State) (n : Nat) (c : CopyCmd) (b : Block) : ({ s with fresh := n } : State).collBuf c b = s.collBuf c b := by
  have hxl (need : Need) (va : Nat) : ({ s with fresh := n } : State).xlateFor b need false va = s.xlateFor b need false va :=
    xlateFor_congr rfl rfl rfl rfl rfl rfl b need false va
  have hbuf (need : Need) (ps : List Piece) (acc : List BufPiece) :
      ({ s with fresh := n } : State).bufXl b need ps acc = s.bufXl b need ps acc := by
    induction ps generalizing acc with
    | nil => rfl
    | cons p ps ih =>
      simp only [State.bufXl, hxl, ih]
      rfl
  exact hbuf _ _ _

theorem commitLine_l2 (s : State) (line job : Nat) : (s.commitLine line job).l2 = s.l2 := by
  unfold State.commitLine
  dsimp only
  split
  · rfl
  · split <;> rfl

theorem writeBack_l2 (s : State) (line : Nat) : (s.writeBack line).l2 = s.l2 := by
  unfold State.writeBack
  split
  · split
    · rfl
    · exact commitLine_l2 s _ _
  · rfl

/-- The lines that the L2 holds after an eviction. -/
theorem l2Evict_l2 (s : State) (line : Nat) : (s.l2Evict line).map State.l2 =
    if s.dirty line && s.ctlFull line then none else some (s.l2.filter (fun e => !decide (e.line = line))) := by
  unfold State.l2Evict
  split
  · rfl
  · simp only [Option.map_some, State.l2Drop, writeBack_l2]

theorem l2Alloc_l2_of_fresh (s : State) (n line : Nat) (a : Alloc) :
    (({ s with fresh := n } : State).l2Alloc line a).l2 = (s.l2Alloc line a).l2 := by
  have hevict (v : Nat) : (({ s with fresh := n } : State).l2Evict v).map State.l2 = (s.l2Evict v).map State.l2 := by
    rw [l2Evict_l2, l2Evict_l2]
    rfl
  have hvictim : ({ s with fresh := n } : State).l2Victim line a = s.l2Victim line a := rfl
  unfold State.l2Alloc
  dsimp only
  split
  · rfl
  · rw [hvictim]
    split
    · next v _ =>
      have h := hevict v.line
      cases h1 : ({ s with fresh := n } : State).l2Evict v.line <;> cases h2 : s.l2Evict v.line <;> simp_all [State.l2Put]
    · rfl

theorem roomAt_of_fresh (s : State) (n line : Nat) (a : Alloc) : ({ s with fresh := n } : State).roomAt line a = s.roomAt line a := by
  have hl2 : (({ s with fresh := n } : State).l2Access line a).l2 = (s.l2Access line a).l2 := by
    unfold State.l2Access
    dsimp only
    split
    · rfl
    · have hmoving : ({ s with fresh := n } : State).moving (128 * line) = s.moving (128 * line) := rfl
      rw [hmoving]
      split
      · rfl
      · exact l2Alloc_l2_of_fresh (s.touchFrame line) n line a
  rw [State.roomAt, State.l2Has, State.l2Has, hl2]
  rfl

/-! ### Completion of a collective: what it leaves (R226, R227) -/

theorem l1Store_sameCmds (s : State) (core pline off : Nat) (bs : List Byte) : SameCmds s (s.l1Store core pline off bs) := by
  unfold State.l1Store
  dsimp only
  have hstale : SameCmds s (s.stale (fun r => r.core = core && r.line = pline && r.captured)) := sameCmds_of_cores rfl
  split
  · exact hstale.trans (updCore_sameCmds _ _ fun _ => rfl)
  · exact hstale

/-- `t` is `s` but for the blocks and the requests. -/
def BlocksFrame (s t : State) : Prop := { t with blocks := s.blocks, reqs := s.reqs, nextId := s.nextId } = s

theorem BlocksFrame.trans {s t u : State} (h : BlocksFrame s t) (k : BlocksFrame t u) : BlocksFrame s u := by
  unfold BlocksFrame at *
  rw [← h, ← k]

theorem foldl_blocksFrame {α : Type} {f : State → α → State} (hf : ∀ t x, BlocksFrame t (f t x)) (xs : List α) (s : State) :
    BlocksFrame s (xs.foldl f s) := by
  induction xs generalizing s with
  | nil => rfl
  | cons x xs ih => exact (hf s x).trans (ih _)

theorem present_blocksFrame (s : State) {r : Req} (h : r.sent = true) : BlocksFrame s (s.present r) := by
  rw [present_of_sent h]
  rfl

theorem settleColls_blocksFrame (s : State) (b : Nat) : BlocksFrame s (s.settleColls b) := by
  unfold State.settleColls
  split
  · rfl
  · next blk _ =>
    have hleft : BlocksFrame s (s.updBlock b (fun x => { x with
        collWaits := (blk.collWaits.partition fun w => w.cmds.all fun id => !s.cmdLeft blk.core id).2 })) := rfl
    refine hleft.trans (foldl_blocksFrame (fun t w => ?_) _ _)
    have hcleared : BlocksFrame t (t.updBlock b (fun x => { x with collStatus := updAt x.collStatus w.queue (fun _ => 0) })) := rfl
    exact hcleared.trans (present_blocksFrame _ rfl)

theorem cmd_dropCmd (s : State) (core id : Nat) : (s.dropCmd core id).cmd core id = none := by
  simp only [State.cmd, State.dropCmd, core_updCore, List.find?_eq_none]
  intro c hc
  obtain ⟨q, hq, hcq⟩ := List.mem_flatten.1 hc
  obtain ⟨q', -, rfl⟩ := List.mem_map.1 hq
  simpa using (List.mem_filter.1 hcq).2

theorem BlocksFrame.keeps {s t : State} (h : BlocksFrame s t) : SameCmds s t ∧ t.mem = s.mem ∧ t.dev = s.dev ∧ t.lag = s.lag := by
  have hcores := congrArg State.cores h
  have hmem := congrArg State.mem h
  have hdev := congrArg State.dev h
  have hlag := congrArg State.lag h
  exact ⟨sameCmds_of_cores hcores, hmem, hdev, hlag⟩

/-- A collective that ends leaves its queue; memory and its controllers are as before. -/
theorem collFinish_results (s : State) (core q : Nat) (c : CopyCmd) (bits : Word) :
    (s.collFinish core q c bits).cmd core c.id = none ∧ (s.collFinish core q c bits).mem = s.mem ∧
      (s.collFinish core q c bits).dev = s.dev ∧ (s.collFinish core q c bits).lag = s.lag := by
  unfold State.collFinish
  extract_lets noted taken
  obtain ⟨hcmds, hmem, hdev, hlag⟩ := (settleColls_blocksFrame (taken.clearFlagAll c.blk c.id) c.blk).keeps
  have hdrop : SameCmds (s.dropCmd core c.id) (taken.clearFlagAll c.blk c.id) := sameCmds_of_cores rfl
  exact ⟨((hdrop.trans hcmds).cmd_eq core c.id).trans (cmd_dropCmd s core c.id), hmem, hdev, hlag⟩

theorem lineHeld_congr {s t : State} (hdev : t.dev = s.dev) (hlag : t.lag = s.lag) (line : Nat) : t.lineHeld line = s.lineHeld line := by
  rw [State.lineHeld, State.lineHeld, State.away, State.away, State.heldAt, State.heldAt, hdev, hlag]

theorem lagging_of_held {s : State} {line : Nat} (h : s.lineHeld line = true) : s.lagging line = true := by
  rw [State.lineHeld, Bool.and_eq_true] at h
  rw [State.lagging, Bool.and_eq_true]
  refine ⟨h.1, ?_⟩
  have hheld := h.2
  rw [State.heldAt] at hheld
  cases hg : s.lag.get (line % 274877906944) with
  | none => simp [hg] at hheld
  | some g => rfl

/-- A collective whose buffer is one piece of this module ends, or stays while that line is held. -/
theorem collWritten_results {s : State} {core q : Nat} {c : CopyCmd} {e : BufPiece} (hc : s.cmd core c.id = some c) :
    (s.collWritten core q c [e] 0).mem = s.mem ∧
    ((s.collWritten core q c [e] 0).lineHeld (lineOf e.pa) = false → (s.collWritten core q c [e] 0).cmd core c.id = none) ∧
    ((s.collWritten core q c [e] 0).lineHeld (lineOf e.pa) = true → ∃ c', (s.collWritten core q c [e] 0).cmd core c.id = some c' ∧
      c'.row = 1 ∧ c'.lines = [lineOf e.pa] ∧ c'.status = 0) := by
  cases hheld : s.lineHeld (lineOf e.pa) with
  | false =>
    have hall : (([e].map (fun p => lineOf p.pa)).filter s.lagging).all (fun l => !s.lineHeld l) = true := by
      rw [List.all_eq_true]
      intro l hl
      obtain rfl : l = lineOf e.pa := by simpa using List.mem_of_mem_filter hl
      rw [hheld]
      rfl
    obtain ⟨hcmd, hmem, hdev, hlag⟩ := collFinish_results s core q c 0
    rw [State.collWritten, if_pos hall, lineHeld_congr hdev hlag, hheld]
    exact ⟨hmem, fun _ => hcmd, nofun⟩
  | true =>
    have hlines : ([e].map (fun p => lineOf p.pa)).filter s.lagging = [lineOf e.pa] := by
      simp [lagging_of_held hheld]
    have hall : ([lineOf e.pa]).all (fun l => !s.lineHeld l) = false := by simp [hheld]
    simp only [State.collWritten, hlines, hall, Bool.false_eq_true, if_false]
    have hkeep : (s.updCmd core c.id (fun x => { x with row := 1, lines := [lineOf e.pa], status := 0 })).lineHeld (lineOf e.pa) = true :=
      hheld
    rw [hkeep]
    exact ⟨rfl, nofun, fun _ => ⟨_, cmd_updCmd hc fun _ => rfl, rfl, rfl, rfl⟩⟩

end Sys2Proof.Proofs

namespace Sys2Proof.Proofs

open Sys2Proof.Machine Sys2Proof.Claims

theorem HomeFrame.sameCmds {s t : State} (h : HomeFrame s t) : SameCmds s t := by
  have hcores := congrArg State.cores h.rest
  exact sameCmds_of_cores hcores

/-- The buffer's one piece is written, at its home and in the core's copy of its line. -/
theorem bufWrite_results {s : State} {p : Block} {e : BufPiece} {bs : List Byte} {core id : Nat} {c : CopyCmd} (hc : s.cmd core id = some c)
    (hown : s.isOwn e.pa = true) (hlen : e.p.n ≤ 128)
    (hapart : ∀ d ∈ s.queues, localOf e.pa + 128 ≤ s.descOf d.1 ∨ s.descOf d.1 + 64 ≤ localOf e.pa) :
    (s.bufWrite p [e] bs).mem = memWrite s.mem (localOf e.pa) ((bs.drop e.p.off).take e.p.n) ∧
      (s.bufWrite p [e] bs).cmd core id = some c := by
  generalize hx : (bs.drop e.p.off).take e.p.n = x
  have hxlen : x.length ≤ 128 := by
    rw [← hx]
    exact (List.length_take_le _ _).trans hlen
  obtain ⟨hmem, hqueues, hdev⟩ := (l1Store_fillFrame s p.core (lineOf e.pa) (e.pa % 128) x).home
  have hown1 : (s.l1Store p.core (lineOf e.pa) (e.pa % 128) x).isOwn e.pa = true := by
    rw [State.isOwn, hdev]
    exact hown
  have hwrite : s.bufWrite p [e] bs = (s.l1Store p.core (lineOf e.pa) (e.pa % 128) x).rawWrite (localOf e.pa) x e.al none
      ((s.l1Store p.core (lineOf e.pa) (e.pa % 128) x).chargedJob (localOf e.pa) p.job) := by
    simp only [State.bufWrite, List.foldl_cons, List.foldl_nil, hx, hown1, if_true]
    refine homeWrite_apart _ _ _ fun d hd => ?_
    rw [State.descOf, hdev]
    have := hapart d (hqueues ▸ hd)
    rw [State.descOf] at this
    omega
  have hframe := (rawWrite_homeFrame (s.l1Store p.core (lineOf e.pa) (e.pa % 128) x) (localOf e.pa) x e.al none
    ((s.l1Store p.core (lineOf e.pa) (e.pa % 128) x).chargedJob (localOf e.pa) p.job))
  have hcmds := (l1Store_sameCmds s p.core (lineOf e.pa) (e.pa % 128) x).trans hframe.sameCmds
  rw [hwrite]
  exact ⟨by rw [State.rawWrite_mem, hmem], (hcmds.cmd_eq core id).trans hc⟩

/-! ### COLL_COMPLETE -/

section

variable {s : State} {core q : Nat} {c : CopyCmd} {rest : List CopyCmd} {p : Block} {bs : List Byte}

theorem collComplete_written (hq : s.queueOf core q = c :: rest) (hcoll : c.isColl = true) (hrow : c.row = 1)
    (hfree : ∀ l ∈ c.lines, s.lineHeld l = false) :
    exec (.collComplete core q false false) s = .next (s.collFinish core q c c.status) := by
  have hexec : exec (.collComplete core q false false) s = execCollComplete core q false false s := rfl
  have hlines : c.lines.all (fun l => !s.lineHeld l) = true := List.all_eq_true.2 fun l hl => by simp [hfree l hl]
  rw [hexec]
  simp only [execCollComplete, hq, hrow, if_true, hcoll, hlines, Bool.and_self]
  exact event_next _ _ _ rfl

/-- A collective whose members agree and are all within reach, and whose result is there. -/
structure CollWhole (s : State) (core q : Nat) (c : CopyCmd) (rest : List CopyCmd) (p : Block) (bs : List Byte) : Prop where
  queue : s.queueOf core q = c :: rest
  block : s.block c.blk = some p
  cmd : s.cmd core c.id = some c
  coll : c.isColl = true
  fault : c.fault = none
  begun : c.begun = true
  row : c.row = 0
  coming : s.collComing c = false
  agrees : (s.coll c.group).disagrees c = false
  routes : ∀ r, r < (s.coll c.group).size → r ≠ (s.coll c.group).rank → s.hasRoute ((s.coll c.group).module r) = true
  result : (s.coll c.group).result c = some bs

theorem CollWhole.reached (w : CollWhole s core q c rest p bs) : (s.coll c.group).others.any (fun m => !s.hasRoute m) = false := by
  rw [List.any_eq_false]
  intro m hm
  obtain ⟨r, hr, rfl⟩ := List.mem_map.1 hm
  obtain ⟨hlt, hne⟩ := List.mem_filter.1 hr
  rw [w.routes r (List.mem_range.1 hlt) (of_decide_eq_true hne)]
  exact Bool.false_ne_true

theorem collComplete_root (w : CollWhole s core q c rest p bs) (hroot : (s.coll c.group).isRoot c = true) :
    exec (.collComplete core q false false) s = .next (({ s with fresh := s.fresh + 1 } : State).collFinish core q c 0) := by
  have hexec : exec (.collComplete core q false false) s = execCollComplete core q false false s := rfl
  rw [hexec]
  simp only [execCollComplete, w.queue, w.row, w.block, w.reached, w.agrees, State.collBytesOf, w.result, w.begun, w.coll, w.fault, w.coming,
    hroot, Bool.or_self, Bool.not_true, Bool.not_false, Bool.false_eq_true, if_false, Bool.and_true, if_true, Option.isSome_none,
    Nat.zero_ne_one, Bool.false_and]
  rfl

theorem collComplete_piece {e : BufPiece} (w : CollWhole s core q c rest p bs) (hroot : (s.coll c.group).isRoot c = false)
    (hbuf : s.collBuf c p = .ok [e]) (hown : s.isOwn e.pa = true) (hstill : s.moving (localOf e.pa) = false)
    (hroom : s.roomAt (lineOf (localOf e.pa)) e.al = true) :
    exec (.collComplete core q false false) s =
      .next ((({ s with fresh := s.fresh + 1 } : State).bufWrite p [e] bs).collWritten core q c [e] 0) := by
  have hexec : exec (.collComplete core q false false) s = execCollComplete core q false false s := rfl
  have hbuf' := (collBuf_of_fresh s (s.fresh + 1) c p).trans hbuf
  have hroom' : ({ s with fresh := s.fresh + 1 } : State).bufRoom [e] = true := by
    have hown' : ({ s with fresh := s.fresh + 1 } : State).isOwn e.pa = true := hown
    have hstill' : ({ s with fresh := s.fresh + 1 } : State).moving (localOf e.pa) = false := hstill
    simp only [State.bufRoom, hown', hstill', roomAt_of_fresh, hroom, if_true, Bool.not_false, Bool.and_self]
  rw [hexec]
  simp only [execCollComplete, w.queue, w.row, w.block, w.reached, w.agrees, State.collBytesOf, w.result, w.begun, w.coll, w.fault, w.coming,
    hroot, hbuf', Bool.or_self, Bool.not_true, Bool.not_false, Bool.false_eq_true, if_false, Bool.and_true, Option.isSome_none,
    Nat.zero_ne_one, Bool.false_and]
  exact event_next _ _ _ hroom'

theorem collComplete_results {e : Piece} {pa : Nat} {al : Alloc} (w : CollWhole s core q c rest p bs)
    (hroot : (s.coll c.group).isRoot c = false) (hbuf : s.collBuf c p = .ok [⟨e, pa, al⟩]) (hown : s.isOwn pa = true)
    (hstill : s.moving (localOf pa) = false) (hroom : s.roomAt (lineOf (localOf pa)) al = true) (hlen : e.n ≤ 128)
    (hapart : ∀ d ∈ s.queues, localOf pa + 128 ≤ s.descOf d.1 ∨ s.descOf d.1 + 64 ≤ localOf pa) :
    ∃ t, exec (.collComplete core q false false) s = .next t ∧ t.mem = memWrite s.mem (localOf pa) ((bs.drop e.off).take e.n) ∧
      (t.lineHeld (lineOf pa) = false → t.cmd core c.id = none) ∧
      (t.lineHeld (lineOf pa) = true → ∃ c', t.cmd core c.id = some c' ∧ c'.row = 1 ∧ c'.lines = [lineOf pa] ∧ c'.status = 0) := by
  have hcmd : ({ s with fresh := s.fresh + 1 } : State).cmd core c.id = some c := w.cmd
  obtain ⟨hmem, hcmd'⟩ := bufWrite_results (s := { s with fresh := s.fresh + 1 }) (p := p) (e := ⟨e, pa, al⟩) (bs := bs) hcmd hown hlen hapart
  obtain ⟨hkeep, hend, hstay⟩ := collWritten_results (q := q) (e := ⟨e, pa, al⟩) hcmd'
  exact ⟨_, collComplete_piece w hroot hbuf hown hstill hroom, hkeep.trans hmem, hend, hstay⟩

end

/-! ### The combine of two members (R224) -/

/-- With two members the root of the tree is node 1, with rank 0 at node 0 and rank 1 at node 2. -/
theorem result_of_two {g : CollGroup} {c : CopyCmd} {op ty : Nat} {a b : List Byte} (hk : c.kind = .collAr op ty) (hsize : g.size = 2)
    (hnone : g.arrived c.num 1 c.idx = none)
    (h0 : (if 0 = nodeOf g.rank 1 then some c.local_ else g.arrived c.num 0 c.idx) = some a)
    (h2 : (if 2 = nodeOf g.rank 1 then some c.local_ else g.arrived c.num 2 c.idx) = some b) :
    g.result c = some (combineBytes op ty a b) := by
  have hleaf (k first : Nat) (known : Nat → Option (List Byte)) (x : List Byte) (h : known (2 * first) = some x) :
      treeOf op ty known (k + 1) first 1 = some x := by
    have hnode : nodeOf first 1 = 2 * first := rfl
    rw [treeOf, hnode, h]
  have hodd : (if 1 = nodeOf g.rank 1 then some c.local_ else g.arrived c.num 1 c.idx) = none := by
    have hnode : nodeOf g.rank 1 = 2 * g.rank := rfl
    rw [if_neg (by omega), hnone]
  have hsplit : splitAt 2 = 1 := by decide
  have hnode : nodeOf 0 2 = 1 := by decide
  simp only [CollGroup.result, hk, hsize]
  rw [treeOf, hnode, hodd]
  simp only [hsplit, Nat.zero_add]
  rw [hleaf 7 0 _ a h0, hleaf 7 1 _ b h2]
  rfl

/-- Settles O39: each form at issue, the wait, the beginning, the completion and the arrival of a fragment by the lemmas above. The
limits without an element type and the ARG status that takes no number are the model's choices (notes/assumptions/60.md), so are the
ARG of a refused buffer (notes/assumptions/52.md) and the node numbers of the fragments (notes/assumptions/21.md). -/
theorem collectiveResults : Obligations.CollectiveResults := by
  intro s
  refine ⟨fun h f x hx => ?issue, fun h f x hx hact hnone => ?wait, fun core q c rest p hq hb hc hcoll hfault => ⟨fun hbegun hmode hfences => ?begins,
    fun hrow hfree => collComplete_written hq hcoll hrow hfree, fun bs hbegun hrow hcoming hagrees hroutes hres => ?completes⟩, ?combine,
    fun k hk hin => ?arrives⟩
  case issue =>
    have har : exec (.collAr h f) s = collIssue "COLL_AR" h f (collBytes (f.bits 12 10)) false s := rfl
    have hbc : exec (.collBc h f) s = collIssue "COLL_BC" h f 1 true s := rfl
    refine ⟨fun hact => ⟨har.trans (collIssue_inactive hx hact), hbc.trans (collIssue_inactive hx hact)⟩, fun hact => ⟨fun hfit hroom => ?_,
      fun hbad => har.trans (collIssue_refused hx hact (collBad_iff.2 (.inl hbad))), fun hfit hroot hroom => ?_,
      fun hbad => hbc.trans (collIssue_refused hx hact (collBad_iff.2 (hbad.imp_right fun h => ⟨rfl, h⟩)))⟩⟩
    · have hgood : x.collBad s f (collBytes (f.bits 12 10)) false = false := by
        rw [← Bool.not_eq_true, collBad_iff]
        exact not_or.2 ⟨not_not.2 hfit, fun h => Bool.false_ne_true h.1⟩
      exact ⟨collCmd s x f false, rfl, rfl, rfl, rfl, rfl, rfl, rfl, rfl, har.trans (collIssue_queued hx hact hgood hroom)⟩
    · have hgood : x.collBad s f 1 true = false := by
        rw [← Bool.not_eq_true, collBad_iff]
        exact not_or.2 ⟨not_not.2 hfit, fun h => Nat.not_le.2 hroot h.2⟩
      exact ⟨collCmd s x f true, rfl, rfl, rfl, rfl, rfl, rfl, rfl, rfl, hbc.trans (collIssue_queued hx hact hgood hroom)⟩
  case wait =>
    obtain ⟨hleft, hover⟩ := collWait_results hx hact hnone
    exact ⟨fun hne => ⟨collWait_next hx hact, hleft fun h => hne (List.map_eq_nil_iff.1 h)⟩, fun hnil => hover (List.map_eq_nil_iff.2 hnil)⟩
  case begins =>
    have hcan : s.canBegin core q (fun c => c.isColl && c.fault.isNone) = some (c, p) :=
      canBegin_of hq hb (by rw [hcoll, hfault]; rfl) hbegun hmode hfences
    exact ⟨collBegin_refused hcan, fun ps hbuf => collBegin_results hcan hc hbuf⟩
  case completes =>
    have w : CollWhole s core q c rest p bs := ⟨hq, hb, hc, hcoll, hfault, hbegun, hrow, hcoming, hagrees, hroutes, hres⟩
    exact ⟨collComplete_root w, fun e pa al hroot hbuf hown hstill hroom hlen hapart =>
      collComplete_results w hroot hbuf hown hstill hroom hlen hapart⟩
  case combine =>
    refine fun g c op ty other hk hsize hnone => ⟨fun hrank hother => ?_, fun hrank hother => ?_⟩
    · exact result_of_two hk hsize hnone (by rw [hrank]; rfl) (by rw [hrank]; exact hother)
    · exact result_of_two hk hsize hnone (by rw [hrank]; exact hother) (by rw [hrank]; rfl)
  case arrives =>
    refine event_next _ _ _ ?_
    simp [hk, hin]

end Sys2Proof.Proofs

/-! `mprobe` and `prefetch` (spec/07; R203, R204, R243). -/

namespace Sys2Proof.Proofs

open Sys2Proof.Machine Sys2Proof.Claims

/-! ### The report of a line at its home (R204, Table 7-4) -/

theorem probeOwned_frame (s : State) (pa : Nat) : L2Frame s (s.probeOwned pa).2 := by
  unfold State.probeOwned
  dsimp only
  split
  · exact writeBack_l2Frame s _
  · exact .refl s

theorem probeOwned_tier2 {s : State} {pa : Nat} (h : s.region pa ≠ .hbm) : (s.probeOwned pa).1 =
    BitVec.ofNat 32 (1024 * (s.moving (localOf pa)).toNat + 512 * (s.heldMoving (pa / 128)).toNat + 256 + 4 * 16 + 7) := by
  unfold State.probeOwned
  rw [if_neg (by simpa using h)]
  simp only [probeWord, b2n_eq_toNat, if_true]
  rfl

theorem probeOwned_hbm {s : State} {pa : Nat} (h : s.region pa = .hbm) (hlag : s.lag.get (localOf pa / 128) = none) :
    (s.probeOwned pa).1 = BitVec.ofNat 32 (1024 * (s.moving (localOf pa)).toNat + 512 * (s.heldMoving (pa / 128)).toNat +
      16 * codeSectors (lineCode (s.rd (128 * (localOf pa / 128)) 128)) + lineCode (s.rd (128 * (localOf pa / 128)) 128)) := by
  have hback : s.writeBack (lineOf (localOf pa)) = s := by simp only [State.writeBack, lineOf, hlag]
  have hheld : s.heldAt (lineOf (localOf pa)) = false := by simp only [State.heldAt, lineOf, hlag, Option.elim_none]
  have hvalue : s.committed (lineOf (localOf pa)) = s.rd (128 * (localOf pa / 128)) 128 := by simp only [State.committed, lineOf, hlag]
  unfold State.probeOwned
  rw [if_pos (by simp [h])]
  simp only [hback, hheld, hvalue, Bool.false_or, probeWord, b2n_eq_toNat, Bool.false_eq_true, if_false, ← Nat.add_assoc]
  rfl

/-- The report of a line of this module: of one whose owner record names another tenancy, nothing but that. -/
theorem probe_results {s : State} {pa ten : Nat} (hown : moduleOf pa = s.dev.moduleNum) :
    L2Frame s (s.probe pa ten).2 ∧
      (¬ (∀ o, s.ownerOf pa = some o → o.2 = ten) → (s.probe pa ten).1 = 0x80000000) ∧
      ((∀ o, s.ownerOf pa = some o → o.2 = ten) → (s.probe pa ten).1 = (s.probeOwned pa).1) := by
  have hprobe : s.probe pa ten = s.probeLine pa ten := by rw [State.probe, if_neg (not_not.2 hown)]
  rw [hprobe, State.probeLine]
  cases ho : s.ownerOf pa with
  | none => exact ⟨probeOwned_frame s pa, fun h => absurd nofun h, fun _ => rfl⟩
  | some o =>
    obtain ⟨job, owner⟩ := o
    by_cases hten : owner = ten
    · dsimp only
      rw [if_neg (not_not.2 hten)]
      exact ⟨probeOwned_frame s pa, fun h => absurd (fun o h => by rw [← Option.some.inj h]; exact hten) h, fun _ => rfl⟩
    · dsimp only
      rw [if_pos hten]
      exact ⟨.refl s, fun _ => rfl, fun h => absurd (h _ rfl) hten⟩

/-! ### LOAD_RESULT of a probe (R204) -/

/-- Register writes keep what holds the wave. -/
theorem hold_foldl_wr (ws : List Wr) (v : Wave) : (ws.foldl Wave.wr v).hold = v.hold := by
  induction ws generalizing v with
  | nil => rfl
  | cons a ws ih => exact (ih _).trans (by cases a <;> rfl)

theorem wave_commit_eq {s : State} {b w : Nat} {v : Wave} (hv : s.wave b w = some v) (ws : List Wr) :
    (s.commit b w ws).wave b w = some (markSfu (ws.flatMap Wr.keys) (ws.foldl Wave.wr v)) := by
  obtain ⟨p, hb, hw⟩ := Option.bind_eq_some_iff.1 hv
  rw [State.wave, block_commit, hb]
  exact (writtenBlock_wave ..).trans ((if_pos rfl).trans (congrArg (Option.map _) hw))

theorem ne_of_mem_del {α : Type} {t : Tbl α} {k : Nat} {e : Nat × α} (h : e ∈ t.del k) : e.1 ≠ k := by
  induction t with
  | nil => cases h
  | cons d t ih =>
    rw [Tbl.del] at h
    split at h
    · exact ih h
    · next hne =>
      rcases List.mem_cons.1 h with rfl | h
      · exact fun hk => hne hk.symm
      · exact ih h

/-- The wave goes on once nothing else is left of the probe; its registers are as before. -/
theorem endProbe_wave {s : State} {r : Req} {v : Wave} (hv : s.wave r.blk r.wave = some v) :
    (∃ h, (s.endProbe r).wave r.blk r.wave = some { v with hold := h }) ∧
    ((∀ e ∈ s.reqs, ¬ (e.2.op = r.op ∧ e.2.blk = r.blk ∧ e.2.wave = r.wave)) → v.hold = .probe r.op →
      (s.endProbe r).wave r.blk r.wave = some { v with hold := .none }) := by
  have hend := State.wave_updWave_self s r.blk r.wave (fun w => { w with hold := if w.hold = .probe r.op then .none else w.hold })
  rw [hv] at hend
  unfold State.endProbe
  split
  · next hany =>
    refine ⟨⟨v.hold, hv⟩, fun hnone => absurd hany ?_⟩
    rw [Bool.not_eq_true, List.any_eq_false]
    intro e he
    have := hnone e he
    simp only [Bool.and_eq_true, decide_eq_true_eq]
    tauto
  · exact ⟨⟨_, hend⟩, fun _ hhold => by rw [hend, Option.map_some, if_pos hhold]⟩

theorem endProbe_keeps (s : State) (r : Req) : (s.endProbe r).mem = s.mem ∧ (s.endProbe r).reqs = s.reqs := by
  unfold State.endProbe
  split <;> exact ⟨rfl, rfl⟩

theorem commit_get_none {s : State} {id : Nat} (h : s.reqs.get id = none) (b w : Nat) (ws : List Wr) :
    (s.commit b w ws).reqs.get id = none := by
  have hreqs : (s.commit b w ws).reqs = s.reqs.mapAll (fun _ r => if r.blk = b && r.wave = w then
    { r with clobbered := r.clobbered ++ (ws.flatMap Wr.keys).filter (fun k => r.keys.contains k) } else r) := rfl
  rw [hreqs, Tbl.get_mapAll, h, Option.map_none]

/-- The state in which a probe's result is written. -/
def probed (s : State) (id : Nat) (r : Req) (a : LaneAcc) : State :=
  { (s.probe a.pa r.ten).2 with reqs := (s.probe a.pa r.ten).2.reqs.del id }

theorem probeResult_eq {s : State} {id : Nat} {r : Req} {a : LaneAcc} (haccs : r.accs = [a]) (hrep : r.replayed = false) :
    s.probeResult id r = ((probed s id r a).commit r.blk r.wave (dstWrites r.dst a.lane [(s.probe a.pa r.ten).1])).endProbe r := by
  simp only [State.probeResult, haccs, List.foldl_cons, List.foldl_nil, List.nil_append, State.unparkReq, hrep, Bool.false_eq_true, if_false]
  rfl

/-- A result of one word stands in the register that the destination names. -/
theorem written_dst {s : State} {b w lane : Nat} {v : Wave} (hv : s.wave b w = some v) (hlane : lane < 32) (d : Dst) (y : Word) :
    ∃ u, (s.commit b w (dstWrites d lane [y])).wave b w = some u ∧ u.hold = v.hold ∧
      ((∃ k, d = .vec k ∧ u.v.vec k lane = y) ∨ (∃ k, d = .scal k ∧ u.s.scal k = y) ∨ ∀ k, d ≠ .vec k ∧ d ≠ .scal k) := by
  refine ⟨_, wave_commit_eq hv _, hold_foldl_wr _ v, ?_⟩
  cases d with
  | vec k =>
    refine .inl ⟨k, rfl, vec_foldl_wr (ws := dstWrites (.vec k) lane [y]) (List.mem_singleton_self _) (fun q m z hz => ?_) (fun z hz => ?_) v⟩
    · obtain ⟨rfl, rfl, rfl⟩ : q = k ∧ m = lane ∧ z = y := by simpa [dstWrites] using hz
      exact hlane
    · simpa [dstWrites] using hz
  | scal k =>
    refine .inr (.inl ⟨k, rfl, scal_foldl_wr (ws := dstWrites (.scal k) lane [y]) (List.mem_singleton_self _) (fun z hz => ?_) v⟩)
    simpa [dstWrites] using hz
  | _ => exact .inr (.inr fun k => ⟨nofun, nofun⟩)

/-- The requests after register writes, one by one. -/
theorem mem_reqs_commit {s : State} {b w : Nat} {ws : List Wr} {e : Nat × Req} (h : e ∈ (s.commit b w ws).reqs) :
    ∃ e0 ∈ s.reqs, e.1 = e0.1 ∧ e.2.op = e0.2.op ∧ e.2.blk = e0.2.blk ∧ e.2.wave = e0.2.wave := by
  obtain ⟨e0, he0, rfl⟩ := List.mem_map.1 h
  refine ⟨e0, he0, rfl, ?_⟩
  dsimp only
  split <;> exact ⟨rfl, rfl, rfl⟩

section

variable {s : State} {id : Nat} {r : Req} {a : LaneAcc} {v : Wave}

theorem probed_reqs (hown : moduleOf a.pa = s.dev.moduleNum) : (probed s id r a).reqs = s.reqs.del id := by
  have hreqs := congrArg State.reqs (probe_results (ten := r.ten) hown).1
  exact congrArg (Tbl.del · id) hreqs

theorem probed_mem (hown : moduleOf a.pa = s.dev.moduleNum) : (probed s id r a).mem = s.mem := by
  have hmem : (probed s id r a).mem = (s.probe a.pa r.ten).2.mem := rfl
  rw [hmem, (probe_results hown).1.mem]

theorem probeResult_keeps (haccs : r.accs = [a]) (hrep : r.replayed = false) (hown : moduleOf a.pa = s.dev.moduleNum) :
    (s.probeResult id r).mem = s.mem ∧ (s.probeResult id r).reqs.get id = none := by
  obtain ⟨hmem, hreqs⟩ := endProbe_keeps ((probed s id r a).commit r.blk r.wave (dstWrites r.dst a.lane [(s.probe a.pa r.ten).1])) r
  have hcommit := congrArg State.mem
    (State.commit_keeps (probed s id r a) r.blk r.wave (dstWrites r.dst a.lane [(s.probe a.pa r.ten).1])).1
  rw [probeResult_eq haccs hrep, hreqs]
  exact ⟨(hmem.trans hcommit).trans (probed_mem hown), commit_get_none (by rw [probed_reqs hown, Tbl.get_del_self]) _ _ _⟩

theorem probeResult_wave (haccs : r.accs = [a]) (hrep : r.replayed = false) (hown : moduleOf a.pa = s.dev.moduleNum) (hlane : a.lane < 32)
    (hv : s.wave r.blk r.wave = some v) :
    ((∃ d, r.dst = .vec d ∧ vreg (s.probeResult id r) r.blk r.wave d a.lane = some (s.probe a.pa r.ten).1) ∨
      (∃ d, r.dst = .scal d ∧ sreg (s.probeResult id r) r.blk r.wave d = some (s.probe a.pa r.ten).1) ∨
      (∀ d, r.dst ≠ .vec d ∧ r.dst ≠ .scal d)) ∧
    ((∀ e ∈ s.reqs, e.1 ≠ id → ¬ (e.2.op = r.op ∧ e.2.blk = r.blk ∧ e.2.wave = r.wave)) → v.hold = .probe r.op →
      ∃ v', (s.probeResult id r).wave r.blk r.wave = some v' ∧ v'.hold = .none) := by
  have hv' : (probed s id r a).wave r.blk r.wave = some v := by
    have hblocks : (probed s id r a).blocks = s.blocks := (probe_results (ten := r.ten) hown).1.blocks
    rw [State.wave, State.block, hblocks]
    exact hv
  obtain ⟨u, hu, hhold, hreg⟩ := written_dst hv' hlane r.dst (s.probe a.pa r.ten).1
  obtain ⟨⟨hd, hwave⟩, hfree⟩ := endProbe_wave hu
  rw [probeResult_eq haccs hrep]
  refine ⟨?_, fun hnone hprobe => ⟨_, hfree (fun e he => ?_) (hhold.trans hprobe), rfl⟩⟩
  · rcases hreg with ⟨k, hk, hy⟩ | ⟨k, hk, hy⟩ | hother
    · exact .inl ⟨k, hk, (congrArg (Option.map _) hwave).trans (congrArg some hy)⟩
    · exact .inr (.inl ⟨k, hk, (congrArg (Option.map _) hwave).trans (congrArg some hy)⟩)
    · exact .inr (.inr hother)
  · obtain ⟨e0, he0, hkey, hop, hblk, hwv⟩ := mem_reqs_commit he
    rw [probed_reqs hown] at he0
    rw [hop, hblk, hwv]
    exact hnone e0 (Tbl.mem_del _ _ _ he0) (ne_of_mem_del he0)

theorem loadResult_probe (hr : s.reqs.get id = some r) (hk : r.kind = .probe) (hready : s.probeReady id r = true) :
    exec (.loadResult id .clean) s = .next (s.probeResult id r) := by
  have hexec : exec (.loadResult id .clean) s = execLoadResult id .clean s := rfl
  rw [hexec]
  simp only [execLoadResult, hr, hk, beq_self_eq_true, if_true]
  exact event_next _ _ _ hready

end

/-! ### `prefetch` (R203) -/

theorem prefetchLine_results {u : State} {x : Ctx} {l1 : Bool} {hint a pa : Nat} {e : DWord} {st : Bool}
    (h : u.xlateFor x.blk Need.load false (128 * a) = .ok pa e st) :
    ∃ id r, (u.prefetchLine x l1 hint a).reqs.get id = some r ∧ r.kind = .prefetch l1 ∧ r.line = pa / 128 ∧ r.blk = x.b ∧
      r.wave = x.w ∧ r.sent = false ∧
      { u.prefetchLine x l1 hint a with reqs := u.reqs, cores := u.cores, tlb := u.tlb, nextId := u.nextId } = u := by
  simp only [State.prefetchLine, h]
  generalize hg : ([⟨Want.at_ { lane := 0, va := ((128 * a : Nat) : Int), n := 1, align := 1, data := [] } pa, e, st⟩] : List Got) = gs
  generalize ho : opInfo u.nextId (.prefetch l1) .none hint Need.load = o
  obtain ⟨tl, htl⟩ := fillAll_eq u x.blk gs
  rw [htl]
  obtain ⟨hmore, hhas⟩ := present_more { u with tlb := tl } (mkReq x.blk x.b x.w o gs) rfl
  obtain ⟨id, r, m, hget, -, rfl⟩ := hhas.elim
  have hrest := congrArg (fun t : State => { t with tlb := u.tlb }) hmore.rest
  refine ⟨id, _, hget, ?_, ?_, rfl, rfl, rfl, hrest⟩
  · rw [← ho]
    rfl
  · rw [← hg]
    rfl

/-! ### `mprobe` presents its requests (R204) -/

theorem park_nil (s : State) (x : Ctx) (scalar : Bool) (o : OpInfo) : s.park x scalar o [] = s := by
  simp [State.park]

/-- What the requests of a probe of `gs` are made of. -/
theorem probeReqs_results {s : State} {x : Ctx} {o : OpInfo} {gs : List Got} :
    let u := (byLine gs).foldl (fun t g => t.present (mkReq x.blk x.b x.w o g)) s
    MoreReqs s u ∧ ∀ g ∈ gs, ∃ grp, g ∈ grp ∧ (∀ e ∈ grp, e.acc.va / 128 = g.acc.va / 128) ∧
      HasReq u s.nextId (mkReq x.blk x.b x.w o grp) := by
  intro u
  have hunsent : ∀ r ∈ (byLine gs).map (mkReq x.blk x.b x.w o), r.sent = false := fun r hr => by
    obtain ⟨grp, -, rfl⟩ := List.mem_map.1 hr
    rfl
  obtain ⟨hmore, -, hhas⟩ := foldl_present_reqs hunsent s
  rw [List.foldl_map] at hmore hhas
  refine ⟨hmore, fun g hg => ?_⟩
  have hgrp : gs.filter (fun e => lineOf e.acc.va = lineOf g.acc.va) ∈ byLine gs :=
    List.mem_map.2 ⟨lineOf g.acc.va, List.mem_eraseDups.2 (List.mem_map_of_mem hg), rfl⟩
  exact ⟨_, List.mem_filter.2 ⟨hg, decide_eq_true rfl⟩, fun e he => of_decide_eq_true (List.mem_filter.1 he).2,
    hhas _ (List.mem_map_of_mem hgrp)⟩

theorem probeAll_results {s : State} {x : Ctx} {f : MFmt} {gs : List Got} (hx : s.wave x.b x.w = some x.wv) (hne : gs ≠ []) :
    ∃ t, s.probeAll x f { got := gs, absent := [], denied := [], fatal := [], need := Need.load } = t ∧
      t.wave x.b x.w = some { x.wv with hold := .probe s.nextId } ∧
      (∀ g ∈ gs, ∃ id r, t.reqs.get id = some r ∧
        s.nextId < id ∧ r.kind = .probe ∧ r.op = s.nextId ∧ g.acc ∈ r.accs ∧ r.dst = f.dst ∧
        (∀ a ∈ r.accs, a.va / 128 = g.acc.va / 128) ∧
        r.blk = x.b ∧ r.wave = x.w ∧ r.ten = x.blk.ten ∧ r.sent = false ∧ r.replayed = false) ∧
      { t with blocks := s.blocks, reqs := s.reqs, cores := s.cores, tlb := s.tlb, nextId := s.nextId } = s := by
  obtain ⟨m, hm⟩ := ctxInfo_eq x f (opInfo s.nextId .probe f.dst 0 Need.load)
  obtain ⟨tl, htl⟩ := fillAll_eq { s with nextId := s.nextId + 1 } x.blk gs
  obtain ⟨hmore, hhas⟩ := probeReqs_results (s := { s with nextId := s.nextId + 1, tlb := tl }) (x := x) (gs := gs)
    (o := { opInfo s.nextId .probe f.dst 0 Need.load with thr := m })
  have hempty : gs.isEmpty = false := by simpa using hne
  have hrest := congrArg (fun t : State => { t with tlb := s.tlb, nextId := s.nextId, blocks := s.blocks }) hmore.rest
  have hblocks := congrArg State.blocks hmore.rest
  refine ⟨_, rfl, ?_⟩
  simp only [State.probeAll, State.newId, hm, htl, hempty, Bool.false_eq_true, if_false, parkEach, List.map_nil, park_nil]
  refine ⟨?_, fun g hg => ?_, hrest⟩
  · rw [State.wave_updWave_self, State.wave, State.block, hblocks]
    exact congrArg _ hx
  · obtain ⟨grp, hmem, hline, hreq⟩ := hhas g hg
    obtain ⟨id, r, m', hget, hid, rfl⟩ := hreq.elim
    refine ⟨id, _, hget, hid, rfl, rfl, List.mem_map_of_mem hmem, rfl, fun a ha => ?_, rfl, rfl, rfl, rfl, rfl⟩
    obtain ⟨e, he, rfl⟩ := List.mem_map.1 ha
    exact hline e he

theorem mprobe_next {s : State} {h : Head} {f : MFmt} {x : Ctx} {gs : List Got} (hx : s.ctx h = some x) (hact : x.act ≠ 0)
    (hu : firstBeyond x.blk.kern (f.uses 1 2 0) = none) (hacq : x.wv.acq = [])
    (htr : Translates s x Need.load (fun _ => false) (x.wants f 1 0 0) gs) :
    exec (.mprobe h f) s = .next (s.probeAll x f { got := gs, absent := [], denied := [], fatal := [], need := Need.load }) := by
  refine (issueWave_next hx hact hu).trans ?_
  rw [afterAcq_of_nil hacq]
  dsimp only [Ctx.byteWants]
  rw [addressTrap_none htr.1]
  simp only [checkAll_of_got (translates_got htr), State.checkedAccess]

end Sys2Proof.Proofs

/-! Instruction-cache locks (spec/07; R205, R206). -/

namespace Sys2Proof.Proofs

open Sys2Proof.Machine Sys2Proof.Claims

/-! ### What the TLB can hold while lines are locked (R159, R430) -/

/-- A walk names its entry at each level by the bits of the address above the page. -/
theorem walkFrom_of_page {s : State} {va vb : Nat} (h : va / 65536 = vb / 65536) (table : Nat) (sb : Bool) (lvl fuel : Nat) :
    s.walkFrom va table sb lvl fuel = s.walkFrom vb table sb lvl fuel := by
  induction fuel generalizing table sb lvl with
  | zero => rfl
  | succ fuel ih =>
    have hidx : va / 2 ^ (16 + 10 * (4 - lvl)) = vb / 2 ^ (16 + 10 * (4 - lvl)) := by
      rw [Nat.pow_add, ← Nat.div_div_eq_div_mul, ← Nat.div_div_eq_div_mul]
      exact congrArg (· / 2 ^ (10 * (4 - lvl))) h
    simp only [State.walkFrom, hidx, ih]

/-- A leaf of a large page stands at level 3, whose entries the bits above the large page name. -/
theorem walkFrom_of_largePage {s : State} {va vb : Nat} (h : va / 67108864 = vb / 67108864) {table : Nat} {sb : Bool} {lvl fuel : Nat}
    (hlvl : lvl + fuel ≤ 5) {e : DWord} {st : Bool} (hw : s.walkFrom va table sb lvl fuel = .leaf e true st) :
    s.walkFrom vb table sb lvl fuel = .leaf e true st := by
  induction fuel generalizing table sb lvl with
  | zero => cases hw
  | succ fuel ih =>
    have hidx (hl : lvl ≤ 3) : va / 2 ^ (16 + 10 * (4 - lvl)) = vb / 2 ^ (16 + 10 * (4 - lvl)) := by
      have hsplit : 16 + 10 * (4 - lvl) = 26 + 10 * (3 - lvl) := by omega
      rw [hsplit, Nat.pow_add, ← Nat.div_div_eq_div_mul, ← Nat.div_div_eq_div_mul]
      exact congrArg (· / 2 ^ (10 * (3 - lvl))) h
    have hrest {table : Nat} {sb : Bool} := ih (table := table) (sb := sb) (lvl := lvl + 1) (by omega)
    by_cases hl : lvl ≤ 3
    · simp only [State.walkFrom, hidx hl] at hw ⊢
      generalize s.rd64 (localOf table + 8 * (vb / 2 ^ (16 + 10 * (4 - lvl)) % 1024)) = entry at hw ⊢
      split_ifs at hw ⊢
      · exact hw
      · exact hrest hw
    · obtain rfl : lvl = 4 := by omega
      simp only [State.walkFrom] at hw
      generalize s.rd64 (localOf table + 8 * (va / 2 ^ (16 + 10 * (4 - 4)) % 1024)) = entry at hw
      split_ifs at hw <;> simp_all

/-- An entry that a walk fills stands for every address of its page. -/
theorem walk_of_page {s : State} {root va vb : Nat} {e : DWord} {large st : Bool} (hw : s.walk root va = .leaf e large st)
    (hpage : (if large then va / 67108864 else va / 65536) = if large then vb / 67108864 else vb / 65536) :
    s.walk root vb = .leaf e large st := by
  cases large with
  | true => exact walkFrom_of_largePage hpage (le_refl _) hw
  | false => exact (walkFrom_of_page hpage _ _ _ _).symm.trans hw

/-- Every entry stands in the TLB of `s`, or is the leaf that a walk in `s` gives each address of its page. -/
def TlbKnown (s : State) (root : Nat) (tl : List TlbEntry) : Prop :=
  ∀ t ∈ tl, t ∈ s.tlb ∨ ∀ va, t.vpage = (if t.large then va / 67108864 else va / 65536) → s.walk root va = .leaf t.leaf t.large t.stable

/-- The state while lines are locked: cores, requests and TLB have changed. -/
def lockState (s : State) (ks : Tbl Core) (rs : Tbl Req) (tl : List TlbEntry) (n : Nat) : State :=
  { s with cores := ks, reqs := rs, tlb := tl, nextId := n }

theorem walk_lockState (s : State) (ks : Tbl Core) (rs : Tbl Req) (tl : List TlbEntry) (n root va : Nat) :
    (lockState s ks rs tl n).walk root va = s.walk root va := walk_congr rfl rfl rfl rfl root va

/-- Whether an entry of cluster `cl` translates an address. -/
def hits (cl asn va : Nat) (t : TlbEntry) : Bool :=
  t.cluster = cl && t.asn = asn && t.vpage = (if t.large then va / 67108864 else va / 65536)

theorem leafFor_eq (s : State) (cl asn root va : Nat) : s.leafFor (some cl) asn root va =
    (s.tlb.find? (hits cl asn va)).elim (s.walk root va) (fun t => .leaf t.leaf t.large t.stable) := by
  have h : s.leafFor (some cl) asn root va = match s.tlb.find? (hits cl asn va) with
    | some t => .leaf t.leaf t.large t.stable
    | none => s.walk root va := rfl
  rw [h]
  cases s.tlb.find? (hits cl asn va) <;> rfl

/-- What is looked up meanwhile is what `s` would find with some of its own entries. -/
theorem leafFor_lockState {s : State} {root : Nat} {tl : List TlbEntry} (hk : TlbKnown s root tl) (ks : Tbl Core) (rs : Tbl Req)
    (n cl asn va : Nat) : ∃ ts, (∀ e ∈ ts, e ∈ s.tlb) ∧
      (lockState s ks rs tl n).leafFor (some cl) asn root va = ({ s with tlb := ts } : State).leafFor (some cl) asn root va := by
  have hwalk (ts : List TlbEntry) : ({ s with tlb := ts } : State).walk root va = s.walk root va := walk_congr rfl rfl rfl rfl root va
  simp only [leafFor_eq, hwalk, walk_lockState]
  have htlb : (lockState s ks rs tl n).tlb = tl := rfl
  rw [htlb]
  cases hf : tl.find? (hits cl asn va) with
  | none => exact ⟨[], nofun, rfl⟩
  | some t =>
    have hhit : hits cl asn va t = true := List.find?_some hf
    rcases hk t (List.mem_of_find?_eq_some hf) with hmem | hwalk
    · refine ⟨[t], fun e he => List.mem_singleton.1 he ▸ hmem, ?_⟩
      rw [List.find?_cons, hhit]
    · refine ⟨[], nofun, ?_⟩
      simp only [hits, Bool.and_eq_true, decide_eq_true_eq] at hhit
      exact (hwalk va hhit.2).symm

theorem xlateFor_lockState {s : State} {blk : Block} {tl : List TlbEntry} (hk : TlbKnown s (s.rootOf blk) tl) (ks : Tbl Core)
    (rs : Tbl Req) (n : Nat) (need : Need) (va : Nat) : ∃ ts, (∀ e ∈ ts, e ∈ s.tlb) ∧
      (lockState s ks rs tl n).xlateFor blk need false va = ({ s with tlb := ts } : State).xlateFor blk need false va := by
  obtain ⟨ts, hts, hleaf⟩ := leafFor_lockState hk ks rs n (clusterOf blk.core) blk.asn va
  refine ⟨ts, hts, ?_⟩
  have hroot : (lockState s ks rs tl n).rootOf blk = s.rootOf blk ∧ ({ s with tlb := ts } : State).rootOf blk = s.rootOf blk := ⟨rfl, rfl⟩
  simp only [State.xlateFor, State.xlate, hroot, hleaf]
  rfl

/-- A fill adds an entry that is known. -/
theorem tlbFill_lockState {s : State} {root : Nat} {tl : List TlbEntry} (hk : TlbKnown s root tl) (ks : Tbl Core) (rs : Tbl Req)
    (n cl asn va : Nat) : ∃ tl', TlbKnown s root tl' ∧ (lockState s ks rs tl n).tlbFill cl asn root va = lockState s ks rs tl' n := by
  have htlb : (lockState s ks rs tl n).tlb = tl := rfl
  unfold State.tlbFill
  rw [leafFor_eq, walk_lockState, htlb]
  cases hf : tl.find? (hits cl asn va) with
  | some t =>
    have hhit : hits cl asn va t = true := List.find?_some hf
    simp only [hits, Bool.and_eq_true, decide_eq_true_eq] at hhit
    have hsame : (⟨cl, asn, if t.large then va / 67108864 else va / 65536, t.large, t.leaf, t.stable⟩ : TlbEntry) = t := by
      rw [← hhit.1.1, ← hhit.1.2, ← hhit.2]
    refine ⟨tl, hk, ?_⟩
    simp only [Option.elim_some, hsame, List.contains_iff_mem.2 (List.mem_of_find?_eq_some hf), if_true]
  | none =>
    rw [Option.elim_none]
    cases hw : s.walk root va with
    | leaf e large st =>
      dsimp only
      generalize hnew : (⟨cl, asn, if large then va / 67108864 else va / 65536, large, e, st⟩ : TlbEntry) = t
      by_cases hin : tl.contains t = true
      · exact ⟨tl, hk, if_pos hin⟩
      · refine ⟨_, fun u hu => ?_, if_neg hin⟩
        rcases List.mem_cons.1 hu with rfl | hu
        · rw [← hnew]
          exact .inr fun vb hvb => walk_of_page hw hvb
        · rcases List.mem_append.1 hu with hu | hu
          · exact hk u (List.mem_of_mem_filter (List.mem_of_mem_take hu))
          · exact hk u (List.mem_of_mem_filter hu)
    | absent => exact ⟨tl, hk, rfl⟩
    | malformed => exact ⟨tl, hk, rfl⟩

/-! ### Locking (R205, R206) -/

/-- A line stays locked for those it was locked for. -/
def LocksKept (ls ls' : List LockedLine) : Prop := ∀ l ∈ ls, ∃ m ∈ ls', m.asn = l.asn ∧ m.vline = l.vline ∧ ∀ b ∈ l.holders, b ∈ m.holders

theorem LocksKept.refl (ls : List LockedLine) : LocksKept ls ls := fun l hl => ⟨l, hl, rfl, rfl, fun _ h => h⟩

theorem LocksKept.trans {a b c : List LockedLine} (h : LocksKept a b) (k : LocksKept b c) : LocksKept a c := fun l hl => by
  obtain ⟨m, hm, hasn, hline, hheld⟩ := h l hl
  obtain ⟨m', hm', hasn', hline', hheld'⟩ := k m hm
  exact ⟨m', hm', hasn'.trans hasn, hline'.trans hline, fun b hb => hheld' b (hheld b hb)⟩

theorem lockLine_results {ls ls' : List LockedLine} {b asn v : Nat} (h : lockLine ls b asn v = some ls') :
    LocksKept ls ls' ∧ ls'.length ≤ max 256 ls.length := by
  unfold lockLine at h
  split at h
  · obtain rfl := Option.some.inj h
    refine ⟨fun l hl => ⟨_, List.mem_map_of_mem hl, ?_⟩, by simp⟩
    split
    · exact ⟨rfl, rfl, fun b hb => List.mem_append_left _ hb⟩
    · exact ⟨rfl, rfl, fun b hb => hb⟩
  · split at h
    · next hroom =>
      obtain rfl := Option.some.inj h
      have hlt : ls.length < 256 := hroom
      refine ⟨fun l hl => ⟨l, List.mem_append_left _ hl, rfl, rfl, fun _ h => h⟩, ?_⟩
      rw [List.length_append, List.length_singleton]
      omega
    · cases h

/-- What locking has changed so far: the lines a core holds locked, what waits at its port, and known entries of the TLB. -/
structure Locking (s : State) (c root : Nat) (u : State) : Prop where
  state : ∃ ks rs tl n, u = lockState s ks rs tl n ∧ TlbKnown s root tl
  core : ∃ sh, u.core c = { s.core c with locked := (u.core c).locked, shares := sh }
  kept : LocksKept (s.core c).locked (u.core c).locked
  short : (u.core c).locked.length ≤ max 256 (s.core c).locked.length

theorem Locking.refl (s : State) (c root : Nat) : Locking s c root s :=
  ⟨⟨s.cores, s.reqs, s.tlb, s.nextId, rfl, fun _ h => .inl h⟩, ⟨(s.core c).shares, rfl⟩, .refl _, le_max_right _ _⟩

/-- A line that is locked: its code is asked for, if need be. -/
theorem Locking.lockOne {s u : State} {blk : Block} {b w id v pa : Nat} {leaf : DWord} {ls : List LockedLine}
    (h : Locking s blk.core (s.rootOf blk) u) (hl : lockLine (u.core blk.core).locked b blk.asn v = some ls) :
    Locking s blk.core (s.rootOf blk) ((u.codeNeeded blk b w id v pa leaf).updCore blk.core (fun k => { k with locked := ls })) := by
  obtain ⟨⟨ks, rs, tl, n, rfl, hk⟩, ⟨sh, hcore⟩, hkept, hshort⟩ := h
  obtain ⟨hlock, hlen⟩ := lockLine_results hl
  obtain ⟨tl', hk', hfill⟩ := tlbFill_lockState hk ks rs n (clusterOf blk.core) blk.asn (128 * v)
  have hroot : (lockState s ks rs tl n).rootOf blk = s.rootOf blk := rfl
  have hneeded : ∃ ks' rs' n' sh', (lockState s ks rs tl n).codeNeeded blk b w id v pa leaf = lockState s ks' rs' tl' n' ∧
      (lockState s ks' rs' tl' n').core blk.core = { (lockState s ks rs tl n).core blk.core with shares := sh' } := by
    unfold State.codeNeeded
    rw [hroot, hfill]
    dsimp only
    split
    · exact ⟨ks, rs, n, ((lockState s ks rs tl n).core blk.core).shares, rfl, rfl⟩
    · have hrest := (present_more (lockState s ks rs tl' n) (fetchReq blk b w id (128 * v) pa leaf) rfl).1.rest
      obtain ⟨sh', hsh⟩ := present_sharesOnly (lockState s ks rs tl' n) (fetchReq blk b w id (128 * v) pa leaf) rfl blk.core
      generalize (lockState s ks rs tl' n).present (fetchReq blk b w id (128 * v) pa leaf) = t at hrest hsh
      have ht : t = lockState s t.cores t.reqs tl' t.nextId :=
        congrArg (fun x : State => { x with cores := t.cores, reqs := t.reqs, nextId := t.nextId }) hrest
      exact ⟨t.cores, t.reqs, t.nextId, sh', ht, by rw [← ht, hsh]; rfl⟩
  obtain ⟨ks', rs', n', sh', hstate, hcore'⟩ := hneeded
  have hnew := core_updCore (lockState s ks' rs' tl' n') blk.core (fun k => { k with locked := ls })
  rw [hstate]
  refine ⟨⟨_, rs', tl', n', rfl, hk'⟩, ⟨sh', ?_⟩, ?_, ?_⟩
  · rw [hnew, hcore', hcore]
  · rw [hnew]
    exact hkept.trans hlock
  · rw [hnew]
    dsimp only
    omega

/-- The lines of a range are locked up to one that cannot be; none of them ends the job. -/
theorem lockLines_locking {s : State} {blk : Block} (hsafe : ∀ ts, (∀ e ∈ ts, e ∈ s.tlb) → ∀ v, canonicalInt (128 * v) = true →
    ({ s with tlb := ts } : State).xlateFor blk Need.fetch false (128 * v.toNat) ≠ .fatal) (b w id : Nat) (last : Int) (fuel : Nat)
    {u : State} (h : Locking s blk.core (s.rootOf blk) u) (v : Int) :
    Locking s blk.core (s.rootOf blk) (u.lockLines blk b w id v last fuel) := by
  induction fuel generalizing u v with
  | zero => exact h
  | succ fuel ih =>
    rw [State.lockLines]
    by_cases hend : (decide (last ≤ v) || !canonicalInt (128 * v)) = true
    · rwa [if_pos hend]
    · rw [if_neg hend]
      have hcan : canonicalInt (128 * v) = true := by
        simp only [Bool.or_eq_true, Bool.not_eq_true', not_or, Bool.not_eq_false] at hend
        exact hend.2
      have hfatal : u.xlateFor blk Need.fetch false (128 * v.toNat) ≠ .fatal := by
        obtain ⟨ks, rs, tl, n, rfl, hk⟩ := h.state
        obtain ⟨ts, hts, heq⟩ := xlateFor_lockState hk ks rs n Need.fetch (128 * v.toNat)
        rw [heq]
        exact hsafe ts hts v hcan
      cases hx : u.xlateFor blk Need.fetch false (128 * v.toNat) with
      | ok pa e st =>
        dsimp only
        cases hl : lockLine (u.core blk.core).locked b blk.asn v.toNat with
        | none => exact h
        | some ls => exact ih (h.lockOne hl) (v + 1)
      | fatal => exact absurd hx hfatal
      | absent => exact h
      | denied sub => exact h

/-! ### `icl.lock` -/

/-- The wave of an `icl.lock` goes on once the code that it asked for has arrived. -/
theorem lockHold_results {s : State} {x : Ctx} {id : Nat} {v : Wave} (hv : s.wave x.b x.w = some v) (c : Bool) :
    ∃ bs u, (if c then s.updWave x.b x.w (fun w => { w with hold := .probe id }) else s) = { s with blocks := bs } ∧
      (if c then s.updWave x.b x.w (fun w => { w with hold := .probe id }) else s).wave x.b x.w = some u := by
  cases c with
  | false => exact ⟨s.blocks, v, rfl, hv⟩
  | true => exact ⟨_, _, rfl, (State.wave_updWave_self ..).trans (congrArg _ hv)⟩

theorem commit_scal {s : State} {b w : Nat} {v : Wave} (hv : s.wave b w = some v) (r : Nat) (y : Word) :
    sreg (s.commit b w [.s r y]) b w r = some y := by
  refine (congrArg (Option.map _) (wave_commit_eq hv _)).trans (congrArg some ?_)
  refine scal_foldl_wr (ws := [.s r y]) (List.mem_singleton_self _) (fun z hz => ?_) v
  simpa using hz

theorem commit_frame (s : State) (b w : Nat) (ws : List Wr) :
    { s.commit b w ws with blocks := s.blocks, reqs := s.reqs } = s ∧ (∀ c, (s.commit b w ws).core c = s.core c) ∧
      (s.commit b w ws).mem = s.mem := by
  have hkeeps := (State.commit_keeps s b w ws).1
  have hcores := congrArg State.cores hkeeps
  have hmem := congrArg State.mem hkeeps
  refine ⟨hkeeps, fun c => ?_, hmem⟩
  have hcores : (s.commit b w ws).cores = s.cores := hcores
  rw [State.core, State.core, hcores]

theorem iclLock_results {s : State} {h : Head} {f : MFmt} {x : Ctx} (hx : s.ctx h = some x) (hact : x.act ≠ 0)
    (hu : firstBeyond x.blk.kern [.s f.d.toNat 1, .s f.a.toNat 2, .s f.b.toNat 1] = none)
    (hsafe : ∀ ts, (∀ e ∈ ts, e ∈ s.tlb) → ∀ v, canonicalInt (128 * v) = true →
      ({ s with tlb := ts } : State).xlateFor x.blk Need.fetch false (128 * v.toNat) ≠ .fatal) :
    ∃ t ls, exec (.iclLock h f) s = .next t ∧
      { t with cores := s.cores, blocks := s.blocks, reqs := s.reqs, tlb := s.tlb, nextId := s.nextId } = s ∧
      (∃ sh, t.core x.blk.core = { s.core x.blk.core with locked := ls, shares := sh }) ∧ t.mem = s.mem ∧
      sreg t x.b x.w f.d.toNat = some (BitVec.ofNat 32 (128 * (ls.filter (fun l => l.holders.contains x.b && (l.asn = x.blk.asn &&
        inRange (x.iclRange f) l))).length)) ∧
      ls.length ≤ max 256 (s.core x.blk.core).locked.length ∧ LocksKept (s.core x.blk.core).locked ls := by
  have hsafe' : ∀ ts, (∀ e ∈ ts, e ∈ s.tlb) → ∀ v, canonicalInt (128 * v) = true →
      ({ ({ s with nextId := s.nextId + 1 } : State) with tlb := ts } : State).xlateFor x.blk Need.fetch false (128 * v.toNat) ≠ .fatal := by
    intro ts hts v hv
    have heq := xlateFor_of_issue { s with tlb := ts } s.blocks (s.nextId + 1) x.blk Need.fetch false (128 * v.toNat)
    exact heq ▸ hsafe ts hts v hv
  obtain ⟨⟨ks, rs, tl, n, hstate, -⟩, hcore, hkept, hshort⟩ := lockLines_locking (s := { s with nextId := s.nextId + 1 }) hsafe'
    x.b x.w s.nextId (x.iclRange f).2
    (Config.icLinesPerCore + 1) (.refl _ x.blk.core _) (x.iclRange f).1
  generalize hlocked : ({ s with nextId := s.nextId + 1 } : State).lockLines x.blk x.b x.w s.nextId (x.iclRange f).1 (x.iclRange f).2
    (Config.icLinesPerCore + 1) = u at hstate hcore hkept hshort
  have huw : u.wave x.b x.w = some x.wv := by
    rw [hstate]
    exact wave_of_ctx hx
  obtain ⟨bs, v, hhold, hv⟩ := lockHold_results (id := s.nextId) huw (u.reqs.any (fun e => e.2.op = s.nextId))
  rw [hhold] at hv
  have hrest : { ({ u with blocks := bs } : State) with
      cores := s.cores, blocks := s.blocks, reqs := s.reqs, tlb := s.tlb, nextId := s.nextId } = s := by
    rw [hstate]
    rfl
  have hcores : ({ u with blocks := bs } : State).core x.blk.core = u.core x.blk.core := rfl
  have hexec : exec (.iclLock h f) s = .next (x.commit [.s f.d.toNat (BitVec.ofNat 32 (128 *
      ({ u with blocks := bs } : State).lockedFor x.blk.core x.b (fun l => l.asn = x.blk.asn && inRange (x.iclRange f) l)))]
        { u with blocks := bs }) := by
    refine (issueWave_next hx hact hu).trans ?_
    simp only [State.newId, hlocked]
    rw [← hhold]
    rfl
  generalize ({ u with blocks := bs } : State) = y at hv hrest hcores hexec
  obtain ⟨hframe, hkeep, hmem⟩ := commit_frame y x.b x.w [.s f.d.toNat (BitVec.ofNat 32 (128 *
    y.lockedFor x.blk.core x.b (fun l => l.asn = x.blk.asn && inRange (x.iclRange f) l)))]
  have hmem' := congrArg State.mem hrest
  have hframe' := (congrArg (fun t : State => { t with
    cores := s.cores, blocks := s.blocks, reqs := s.reqs, tlb := s.tlb, nextId := s.nextId }) hframe).trans hrest
  obtain ⟨sh, hsh⟩ := hcore
  refine ⟨_, (u.core x.blk.core).locked, hexec, hframe', ⟨sh, ?_⟩, hmem.trans hmem', ?_, hshort, hkept⟩
  · exact ((hkeep _).trans hcores).trans hsh
  · rw [← hcores]
    exact commit_scal hv _ _

/-! ### `icl.free` -/

/-- A locked line once block `b` holds none of a range. -/
def lineFreed (b asn : Nat) (r : Int × Int) (l : LockedLine) : LockedLine :=
  if l.asn = asn && inRange r l then { l with holders := l.holders.filter (· ≠ b) } else l

theorem lineFreed_results (b asn : Nat) (r : Int × Int) (l : LockedLine) (c : Nat) :
    (lineFreed b asn r l).asn = l.asn ∧ (lineFreed b asn r l).vline = l.vline ∧
      (c ∈ (lineFreed b asn r l).holders ↔ c ∈ l.holders ∧ ¬ (c = b ∧ l.asn = asn ∧ r.1 ≤ (l.vline : Int) ∧ (l.vline : Int) < r.2)) := by
  unfold lineFreed
  split
  · next h =>
    simp only [inRange, Bool.and_eq_true, decide_eq_true_eq] at h
    exact ⟨rfl, rfl, by simp [h]⟩
  · next h =>
    simp only [inRange, Bool.and_eq_true, decide_eq_true_eq] at h
    exact ⟨rfl, rfl, by tauto⟩

/-- Who holds which lines once a block's locks on a range are gone. -/
theorem mem_freeLines (ls : List LockedLine) (b asn : Nat) (r : Int × Int) (c line : Nat) :
    (∃ m ∈ freeLines ls b asn r, m.vline = line ∧ m.asn = asn ∧ c ∈ m.holders) ↔
      (∃ m ∈ ls, m.vline = line ∧ m.asn = asn ∧ c ∈ m.holders) ∧ ¬ (c = b ∧ r.1 ≤ (line : Int) ∧ (line : Int) < r.2) := by
  have hfree : freeLines ls b asn r = (ls.map (lineFreed b asn r)).filter (fun l => !l.holders.isEmpty) := rfl
  rw [hfree]
  constructor
  · rintro ⟨m, hm, hline, hasn, hc⟩
    obtain ⟨l, hl, rfl⟩ := List.mem_map.1 (List.mem_of_mem_filter hm)
    obtain ⟨ha, hv, hh⟩ := lineFreed_results b asn r l c
    rw [hv] at hline
    rw [ha] at hasn
    obtain ⟨hheld, hnot⟩ := hh.1 hc
    exact ⟨⟨l, hl, hline, hasn, hheld⟩, fun ⟨hb, hrange⟩ => hnot ⟨hb, hasn, by rwa [hline]⟩⟩
  · rintro ⟨⟨l, hl, hline, hasn, hc⟩, hnot⟩
    obtain ⟨ha, hv, hh⟩ := lineFreed_results b asn r l c
    have hheld : c ∈ (lineFreed b asn r l).holders := hh.2 ⟨hc, fun ⟨hb, _, hrange⟩ => hnot ⟨hb, by rwa [hline] at hrange⟩⟩
    refine ⟨_, List.mem_filter.2 ⟨List.mem_map_of_mem hl, ?_⟩, hv.trans hline, ha.trans hasn, hheld⟩
    rw [Bool.not_eq_true', List.isEmpty_eq_false_iff]
    exact List.ne_nil_of_mem hheld

/-! ### The instructions together -/

/-- Settles O32: the report of a probe, the requests of `prefetch` and `mprobe`, and the three lock instructions. A line of another
module, whose report stays open (notes/assumptions/54.md), is not among those reported here. -/
theorem probeAndLockResults : Obligations.ProbeAndLockResults := by
  intro s
  refine ⟨fun id r a v hr hk haccs hrep hready hown hlane hv => ?report, fun h f x hx hact => ⟨fun hu => ?prefetch,
    fun u l1 hint a pa e st hxl => prefetchLine_results hxl, fun gs hu hacq htr => ?mprobe, fun hu hsafe => iclLock_results hx hact hu hsafe,
    fun hu => ?free, fun hu => ?count⟩⟩
  case report =>
    obtain ⟨hmem, hgone⟩ := probeResult_keeps (id := id) haccs hrep hown
    obtain ⟨hreg, hhold⟩ := probeResult_wave (id := id) haccs hrep hown hlane hv
    obtain ⟨-, hforeign, howned⟩ := probe_results (ten := r.ten) hown
    exact ⟨_, _, loadResult_probe hr hk hready, hmem, hgone, hreg, hforeign, fun ho hreg => (howned ho).trans (probeOwned_tier2 hreg),
      fun ho hreg hlag => (howned ho).trans (probeOwned_hbm hreg hlag), hhold⟩
  case prefetch => exact issueWave_next hx hact hu
  case mprobe =>
    obtain ⟨t, ht, hwave, hreqs, hrest⟩ := probeAll_results (f := f) (wave_of_ctx hx) (gots_ne_nil htr (wants_ne_nil hact _ _ _))
    exact ⟨t, _, (mprobe_next hx hact hu hacq htr).trans (congrArg _ ht), hwave, rfl, hreqs, hrest⟩
  case free => exact ⟨_, _, issueWave_next hx hact hu, rfl, fun b l => mem_freeLines _ x.b x.blk.asn (x.iclRange f) b l⟩
  case count =>
    obtain ⟨hvalue, hframe⟩ := commit_scal_done hx f.d.toNat
      (BitVec.ofNat 32 (128 * s.lockedFor x.blk.core x.b (fun _ => true)))
    have hall : s.lockedFor x.blk.core x.b (fun _ => true) = ((s.core x.blk.core).locked.filter (fun l => l.holders.contains x.b)).length := by
      simp only [State.lockedFor, Bool.and_true]
    exact ⟨_, issueWave_next hx hact hu, by rw [hvalue, hall], hframe⟩

end Sys2Proof.Proofs

/-! The fabric (spec/22): sequences and the packets that they carry (R249, R497, R508, R511). -/

namespace Sys2Proof.Proofs

open Sys2Proof.Machine Sys2Proof.Claims

/-! ### The retry buffer and what a sequence acknowledges (R508) -/

theorem acked_keeps (x : FabPort) (n : Nat) (incl : Bool) :
    { x.acked n incl with unacked := x.unacked, nakAt := x.nakAt, retries := x.retries } = x := by
  unfold FabPort.acked
  split
  · split <;> rfl
  · dsimp only
    split_ifs <;> rfl

theorem naked_keeps (x : FabPort) (n : Nat) :
    { x.naked n with unacked := x.unacked, nakAt := x.nakAt, retries := x.retries } = x := by
  unfold FabPort.naked
  dsimp only
  split <;> exact acked_keeps x n false

/-- An acknowledgement leaves what was sent after the sequence it names. -/
theorem acked_through {x : FabPort} {n : Nat} {pre rest : List Unacked} {k : Unacked} (hx : x.unacked = pre ++ k :: rest) (hk : k.seq = n)
    (hpre : ∀ e ∈ pre, e.seq ≠ n) : (x.acked n true).unacked = rest := by
  have hfind : x.unacked.findIdx? (fun e => e.seq = n) = some pre.length := by
    rw [hx, List.findIdx?_append, List.findIdx?_eq_none_iff.2 fun e he => decide_eq_false (hpre e he), List.findIdx?_cons]
    simp [hk]
  rw [FabPort.acked, hfind]
  simp [hx]

/-- `t` is `s` but for the ports and the counters of errors. -/
def LinkFrame (s t : State) : Prop := { t with ports := s.ports, health := s.health } = s

theorem LinkFrame.trans {s t u : State} (h : LinkFrame s t) (k : LinkFrame t u) : LinkFrame s u := by
  unfold LinkFrame at *
  rw [← h, ← k]

theorem updPort_linkFrame (s : State) (port : Nat) (f : FabPort → FabPort) : LinkFrame s (s.updPort port f) := rfl

theorem updPort_get {s : State} {port : Nat} {x : FabPort} (hx : s.ports.get port = some x) (f : FabPort → FabPort) :
    (s.updPort port f).ports.get port = some (f x) :=
  (Tbl.get_upd_self _ _ _).trans (congrArg _ hx)

theorem foldl_countError {α : Type} (xs : List α) (n : Nat) (s : State) :
    LinkFrame s (xs.foldl (fun (t : State) _ => t.countError n) s) ∧
      (xs.foldl (fun (t : State) _ => t.countError n) s).ports = s.ports := by
  induction xs generalizing s with
  | nil => exact ⟨rfl, rfl⟩
  | cons x xs ih =>
    obtain ⟨hframe, hports⟩ := ih (s.countError n)
    have hone : LinkFrame s (s.countError n) := rfl
    exact ⟨hone.trans hframe, hports⟩

/-- A port whose retry buffer has been sent again. -/
def resent (x : FabPort) : FabPort := { x with wire := x.wire ++ x.unacked.map (fun u => u.bytes) }

theorem resend_results {s : State} {port : Nat} {x : FabPort} (hx : s.ports.get port = some x) :
    LinkFrame s (s.resend port) ∧ (s.resend port).ports.get port = some (resent x) := by
  have hresend : s.resend port = x.unacked.foldl (fun (t : State) _ => t.countError 8) (s.updPort port resent) := by
    simp only [State.resend, hx]
    rfl
  obtain ⟨hframe, hports⟩ := foldl_countError x.unacked 8 (s.updPort port resent)
  rw [hresend, hports]
  exact ⟨(updPort_linkFrame s port resent).trans hframe, updPort_get hx resent⟩

/-- A port to which the credits of a sequence have been returned. -/
def credited (x : FabPort) (h : SeqHead) : FabPort := { x with credReq := x.credReq + h.creditReq, credRep := x.credRep + h.creditRep }

/-- A port after the acknowledgement and the credits of a sequence. -/
def controlled (x : FabPort) (h : SeqHead) : FabPort :=
  if h.nak then resent ((credited x h).naked h.ack) else if h.ackv then (credited x h).acked h.ack true else credited x h

theorem control_results {s : State} {port : Nat} {x : FabPort} (hx : s.ports.get port = some x) (h : SeqHead) :
    LinkFrame s (s.control port h) ∧ (s.control port h).ports.get port = some (controlled x h) := by
  have hcredit := updPort_get hx (fun y => credited y h)
  have hframe := updPort_linkFrame s port (fun y => credited y h)
  have hcontrol : s.control port h = if h.nak then ((s.updPort port (fun y => credited y h)).updPort port (fun y => y.naked h.ack)).resend port
    else if h.ackv then (s.updPort port (fun y => credited y h)).updPort port (fun y => y.acked h.ack true)
    else s.updPort port (fun y => credited y h) := rfl
  rw [hcontrol, controlled]
  split
  · obtain ⟨hresend, hget⟩ := resend_results (updPort_get hcredit (fun y => y.naked h.ack))
    exact ⟨(hframe.trans (updPort_linkFrame _ _ _)).trans hresend, hget⟩
  · split
    · exact ⟨hframe.trans (updPort_linkFrame _ _ _), updPort_get hcredit _⟩
    · exact ⟨hframe, hcredit⟩

theorem controlled_keeps (x : FabPort) (h : SeqHead) :
    { controlled x h with unacked := x.unacked, nakAt := x.nakAt, retries := x.retries, wire := x.wire } =
      credited x h := by
  unfold controlled
  split
  · exact congrArg (fun y : FabPort => { y with wire := x.wire }) (naked_keeps _ _)
  · split
    · exact congrArg (fun y : FabPort => { y with wire := x.wire }) (acked_keeps _ _ _)
    · rfl

theorem controlled_nak {x : FabPort} {h : SeqHead} (hn : h.nak = true) :
    (controlled x h).wire = x.wire ++ (controlled x h).unacked.map (fun u => u.bytes) := by
  have hkeep := congrArg FabPort.wire (naked_keeps (credited x h) h.ack)
  simp only [controlled, hn, if_true, resent]
  exact congrArg (· ++ _) hkeep

theorem controlled_ack {x : FabPort} {h : SeqHead} {pre rest : List Unacked} {k : Unacked} (ha : h.ackv = true) (hn : h.nak = false)
    (hx : x.unacked = pre ++ k :: rest) (hk : k.seq = h.ack) (hpre : ∀ e ∈ pre, e.seq ≠ h.ack) : (controlled x h).unacked = rest := by
  simp only [controlled, ha, hn, if_true, Bool.false_eq_true, if_false]
  exact acked_through (x := credited x h) hx hk hpre

theorem controlled_silent {x : FabPort} {h : SeqHead} (ha : h.ackv = false) (hn : h.nak = false) : (controlled x h).unacked = x.unacked := by
  simp only [controlled, ha, hn, Bool.false_eq_true, if_false, credited]

/-! ### Packets that arrive (R508, R509, R511) -/

/-- A packet of no reserved type goes to the port's session, onward, or to this module; before READY only a SESSION packet does. -/
theorem arrive_results {s : State} {port : Nat} {y : FabPort} {p : FabPacket} (hy : s.ports.get port = some y) (htyp : p.typ < 9) :
    ∃ z, (s.arrive port true p).ports.get port = some z ∧
      { z with sessIn := y.sessIn, bufs := y.bufs, oweReq := y.oweReq, oweRep := y.oweRep } = y ∧
      z.sessIn = (if p.typ = 7 then y.sessIn ++ [p] else y.sessIn) ∧ (s.arrive port true p).mem = s.mem ∧
      (s.arrive port true p).fabIn = (if p.typ ≠ 7 ∧ y.ready = true ∧ p.dst = s.dev.moduleNum then s.fabIn ++ [p] else s.fabIn) ∧
      (s.arrive port true p).fabOut = (if p.typ ≠ 7 ∧ y.ready = true ∧ p.dst ≠ s.dev.moduleNum then s.fabOut ++ [p] else s.fabOut) := by
  have hres : (!true || decide (9 ≤ p.typ)) = false := by simp [htyp]
  unfold State.arrive
  rw [hres]
  by_cases h7 : p.typ = 7
  · simp only [h7, if_true, Bool.false_eq_true, if_false, ne_eq, not_true, false_and]
    exact ⟨_, updPort_get hy _, rfl, rfl, rfl, rfl, rfl⟩
  · cases hready : y.ready with
    | false =>
      simp only [h7, hy, hready, Bool.false_eq_true, if_false, Option.elim_some, Bool.not_false, if_true, false_and, and_false]
      exact ⟨_, updPort_get hy _, rfl, rfl, rfl, rfl, rfl⟩
    | true =>
      by_cases hdst : p.dst = s.dev.moduleNum <;>
        simp only [h7, hy, hready, hdst, Bool.false_eq_true, if_false, Option.elim_some, Bool.not_true, ne_eq, not_false_eq_true,
          not_true, and_self, and_false, if_true, State.updPort_dev] <;>
        exact ⟨_, updPort_get hy _, rfl, rfl, rfl, rfl, rfl⟩

section

variable {s : State} {port : Nat} {y : FabPort} {r : RawPacket}

theorem arriveAll_plain (hy : s.ports.get port = some y) (hkey : y.ready = false ∨ s.portSession port = none) :
    s.arriveAll port [r] = some (s.arrive port r.formOk (r.packet r.body)) := by
  have hnone : (if (s.ports.get port).elim false (fun x => x.ready) then s.portSession port else none) = none := by
    rcases hkey with h | h <;> simp [hy, h]
  simp only [State.arriveAll, hnone]

theorem arriveAll_keyed {k : Session} (hy : s.ports.get port = some y) (hready : y.ready = true) (hk : s.portSession port = some k) :
    s.arriveAll port [r] = s.openPacket port k r := by
  simp only [State.arriveAll, hy, Option.elim_some, hready, if_true, hk, Option.bind_fun_some]

/-- A packet that the session's key opens, under a counter that is new. -/
theorem openPacket_new {k : Session} {d : List Byte} (hy : s.ports.get port = some y)
    (hopen : Config.gcmOpen (k.keys.take 32) (gcmNonce (s.direction y false) r.counter) r.head r.body = some d)
    (hlow : k.lastIn < r.counter) (hhigh : r.counter ≤ 2 ^ 48) :
    s.openPacket port k r =
      some ((s.updSession k.number (fun z => { z with lastIn := r.counter })).arrive port r.formOk (r.packet d)) := by
  have hfresh : (decide (r.counter ≤ k.lastIn) || decide (2 ^ 48 < r.counter)) = false := by
    rw [decide_eq_false (Nat.not_le.2 hlow), decide_eq_false (Nat.not_lt.2 hhigh), Bool.or_self]
  simp only [State.openPacket, hy, Option.elim_some, hopen, hfresh, Bool.false_eq_true, if_false, id_eq]

theorem openPacket_replayed {k : Session} {d : List Byte} (hy : s.ports.get port = some y)
    (hopen : Config.gcmOpen (k.keys.take 32) (gcmNonce (s.direction y false) r.counter) r.head r.body = some d)
    (hlow : r.counter ≤ k.lastIn) : s.openPacket port k r = some ((s.countError 10).skip port (r.packet d)) := by
  have hold : (decide (r.counter ≤ k.lastIn) || decide (2 ^ 48 < r.counter)) = true := by simp [hlow]
  simp only [State.openPacket, hy, Option.elim_some, hopen, hold, if_true]

theorem openPacket_damaged {k : Session} (hy : s.ports.get port = some y) (hphase : k.phase ≠ .rekeying)
    (hopen : Config.gcmOpen (k.keys.take 32) (gcmNonce (s.direction y false) r.counter) r.head r.body = none) :
    s.openPacket port k r = none := by
  simp only [State.openPacket, hy, Option.elim_some, hopen, beq_eq_false_iff_ne.2 hphase, Bool.false_eq_true, if_false]

end

/-! ### FABRIC_SEQUENCE -/

/-- The port of a sequence that was expected, before its packets arrive. -/
def admittedPort (x : FabPort) (bs : List Byte) : FabPort :=
  { controlled x (seqHead bs) with nextRecv := (x.nextRecv + 1) % 4096, discarding := false, oweAck := true, rx := (x.parse bs).2 }

/-- The state in which the packets of an expected sequence arrive. -/
def admitted (s : State) (port : Nat) (x : FabPort) (bs : List Byte) : State :=
  (s.control port (seqHead bs)).updPort port (fun y =>
    { y with nextRecv := (x.nextRecv + 1) % 4096, discarding := false, oweAck := true, rx := (x.parse bs).2 })

/-- What an expected sequence changes before its packets arrive: the ports and the counters of errors. -/
structure Admitted (s : State) (port : Nat) (x : FabPort) (bs : List Byte) (u : State) : Prop where
  frame : LinkFrame s u
  ready : u.ports.get port = some (admittedPort x bs)
  receive : s.receive port x bs = (u.arriveAll port (x.parse bs).1).getD (s.again port)

section

variable {s : State} {port : Nat} {x : FabPort} {bs : List Byte}

theorem sequence_next (hx : s.ports.get port = some x) (htrained : x.trained = true) (hfenced : x.fenced = false) :
    exec (.fabricSequence port bs) s = .next (s.receive port x bs) := by
  have hexec : exec (.fabricSequence port bs) s = execFabricSequence port bs s := rfl
  rw [hexec]
  simp only [execFabricSequence, hx]
  exact event_next _ _ _ (by simp [htrained, hfenced])

theorem receive_damaged (hgood : seqGood bs = false) : s.receive port x bs = s.again port := by
  simp [State.receive, hgood]

theorem receive_control (hgood : seqGood bs = true) (hctrl : (seqHead bs).ctrl = true) :
    s.receive port x bs = s.control port (seqHead bs) := by
  simp [State.receive, hgood, hctrl]

theorem receive_other (hgood : seqGood bs = true) (hctrl : (seqHead bs).ctrl = false) (hseq : (seqHead bs).seq ≠ x.nextRecv) :
    s.receive port x bs = if x.discarding then s else s.again port := by
  simp [State.receive, hgood, hctrl, hseq]

theorem receive_expected (hx : s.ports.get port = some x) (hgood : seqGood bs = true) (hctrl : (seqHead bs).ctrl = false)
    (hseq : (seqHead bs).seq = x.nextRecv) : Admitted s port x bs (admitted s port x bs) := by
  obtain ⟨hframe, hport⟩ := control_results hx (seqHead bs)
  exact ⟨hframe.trans (updPort_linkFrame _ _ _), updPort_get hport _, by simp [State.receive, admitted, hgood, hctrl, hseq]⟩

/-- A control sequence changes what it acknowledges and the credits that it returns. -/
theorem sequence_control (hx : s.ports.get port = some x) (h : SeqHead) : ∃ y, (s.control port h).ports.get port = some y ∧
    (s.control port h).fabIn = s.fabIn ∧ (s.control port h).fabOut = s.fabOut ∧ y.nextRecv = x.nextRecv ∧ y.sessIn = x.sessIn ∧
    y.credReq = x.credReq + h.creditReq ∧ y.credRep = x.credRep + h.creditRep ∧
    (h.nak = true → y.wire = x.wire ++ y.unacked.map (fun u => u.bytes)) ∧
    (∀ pre k rest, h.ackv = true → h.nak = false → x.unacked = pre ++ k :: rest → k.seq = h.ack → (∀ e ∈ pre, e.seq ≠ h.ack) →
      y.unacked = rest) := by
  obtain ⟨hframe, hport⟩ := control_results hx h
  have hin := congrArg State.fabIn hframe
  have hout := congrArg State.fabOut hframe
  have hkeep := controlled_keeps x h
  have hrecv := congrArg FabPort.nextRecv hkeep
  have hsess := congrArg FabPort.sessIn hkeep
  have hreq := congrArg FabPort.credReq hkeep
  have hrep := congrArg FabPort.credRep hkeep
  exact ⟨_, hport, hin, hout, hrecv, hsess, hreq, hrep, controlled_nak, fun pre k rest ha hn => controlled_ack ha hn⟩

theorem direction_admitted {u : State} (a : Admitted s port x bs u) : u.direction (admittedPort x bs) false = s.direction x false := by
  have hdev := congrArg State.dev a.frame
  have hdev : u.dev = s.dev := hdev
  have hpeer := congrArg FabPort.peer (controlled_keeps x (seqHead bs))
  have hpeer : (admittedPort x bs).peer = x.peer := hpeer
  rw [State.direction, State.direction, hpeer, hdev]

theorem admittedPort_ready (x : FabPort) (bs : List Byte) : (admittedPort x bs).ready = x.ready := by
  have := congrArg FabPort.ready (controlled_keeps x (seqHead bs))
  exact this

theorem portSession_admitted {u : State} (a : Admitted s port x bs u) : u.portSession port = s.portSession port := by
  have hsessions := congrArg State.sessions a.frame
  have hsessions : u.sessions = s.sessions := hsessions
  rw [State.portSession, State.portSession, hsessions]

/-- Whether a packet is taken, and with which data: as it came on a port that is not keyed, else as the session's key opens it. -/
def Opens (s : State) (port : Nat) (x : FabPort) (r : RawPacket) (data : List Byte) : Prop :=
  (x.ready = false ∨ s.portSession port = none) ∧ data = r.body ∨
    x.ready = true ∧ ∃ k, s.portSession port = some k ∧ k.lastIn < r.counter ∧ r.counter ≤ 2 ^ 48 ∧
      Config.gcmOpen (k.keys.take 32) (gcmNonce (s.direction x false) r.counter) r.head r.body = some data

theorem LinkFrame.keeps {u : State} (h : LinkFrame s u) : u.mem = s.mem ∧ u.fabIn = s.fabIn ∧ u.fabOut = s.fabOut ∧ u.dev = s.dev := by
  have hmem := congrArg State.mem h
  have hin := congrArg State.fabIn h
  have hout := congrArg State.fabOut h
  have hdev := congrArg State.dev h
  exact ⟨hmem, hin, hout, hdev⟩

/-- The one packet of an expected sequence arrives, once it has been opened. -/
theorem receive_opened {u : State} {r : RawPacket} {rest data : List Byte} (a : Admitted s port x bs u) (hparse : x.parse bs = ([r], rest))
    (hopen : Opens s port x r data) : ∃ v : State, s.receive port x bs = v.arrive port r.formOk (r.packet data) ∧
      v.ports.get port = some (admittedPort x bs) ∧ v.mem = s.mem ∧ v.fabIn = s.fabIn ∧ v.fabOut = s.fabOut ∧ v.dev = s.dev := by
  rw [a.receive, hparse]
  rcases hopen with ⟨hplain, rfl⟩ | ⟨hready, k, hk, hlow, hhigh, hkey⟩
  · have hplain : (admittedPort x bs).ready = false ∨ u.portSession port = none := by rwa [admittedPort_ready, portSession_admitted a]
    exact ⟨u, by rw [arriveAll_plain a.ready hplain]; rfl, a.ready, a.frame.keeps⟩
  · rw [arriveAll_keyed a.ready ((admittedPort_ready x bs).trans hready) ((portSession_admitted a).trans hk),
      openPacket_new a.ready (by rwa [direction_admitted a]) hlow hhigh]
    exact ⟨u.updSession k.number (fun z => { z with lastIn := r.counter }), rfl, a.ready, a.frame.keeps⟩

/-- The expected sequence is accepted, and its packet goes to this module, onward, or to the port's session. -/
theorem sequence_accepted {u : State} {r : RawPacket} {rest data : List Byte} (a : Admitted s port x bs u)
    (hparse : x.parse bs = ([r], rest)) (hform : r.formOk = true) (hopen : Opens s port x r data) (htyp : (r.packet data).typ < 9) :
    ∃ y, (s.receive port x bs).ports.get port = some y ∧ y.nextRecv = (x.nextRecv + 1) % 4096 ∧
      y.discarding = false ∧ y.oweAck = true ∧ y.rx = rest ∧ y.credReq = x.credReq + (seqHead bs).creditReq ∧
      y.credRep = x.credRep + (seqHead bs).creditRep ∧ (s.receive port x bs).mem = s.mem ∧
      y.sessIn = (if (r.packet data).typ = 7 then x.sessIn ++ [r.packet data] else x.sessIn) ∧
      (s.receive port x bs).fabIn = (if (r.packet data).typ ≠ 7 ∧ x.ready = true ∧ (r.packet data).dst = s.dev.moduleNum
        then s.fabIn ++ [r.packet data] else s.fabIn) ∧
      (s.receive port x bs).fabOut = (if (r.packet data).typ ≠ 7 ∧ x.ready = true ∧ (r.packet data).dst ≠ s.dev.moduleNum
        then s.fabOut ++ [r.packet data] else s.fabOut) ∧
      ((seqHead bs).ackv = false → (seqHead bs).nak = false → y.unacked = x.unacked) := by
  obtain ⟨v, hreceive, hport, hvmem, hvin, hvout, hvdev⟩ := receive_opened a hparse hopen
  obtain ⟨z, hz, hkeep, hsess, hmem, hin, hout⟩ := arrive_results hport htyp
  rw [admittedPort_ready, hvdev] at hin hout
  have hcontrol := controlled_keeps x (seqHead bs)
  have hrx : (x.parse bs).2 = rest := congrArg Prod.snd hparse
  have hrecv := congrArg FabPort.nextRecv hkeep
  have hdisc := congrArg FabPort.discarding hkeep
  have hack := congrArg FabPort.oweAck hkeep
  have hzrx := congrArg FabPort.rx hkeep
  have hreq := congrArg FabPort.credReq hkeep
  have hrep := congrArg FabPort.credRep hkeep
  have hunacked := congrArg FabPort.unacked hkeep
  have hcreq := congrArg FabPort.credReq hcontrol
  have hcrep := congrArg FabPort.credRep hcontrol
  have hcsess : (admittedPort x bs).sessIn = x.sessIn := by
    have := congrArg FabPort.sessIn hcontrol
    exact this
  rw [hreceive, hform]
  exact ⟨z, hz, hrecv, hdisc, hack, hzrx.trans hrx, hreq.trans hcreq, hrep.trans hcrep, hmem.trans hvmem, by rw [hsess, hcsess],
    by rw [hin, hvin], by rw [hout, hvout], fun ha hn => hunacked.trans (controlled_silent ha hn)⟩

section

variable {u : State} {r : RawPacket} {tail : List Byte} {k : Session}

/-- The one packet of an expected sequence, on a keyed port. -/
theorem receive_keyed (a : Admitted s port x bs u) (hparse : x.parse bs = ([r], tail)) (hready : x.ready = true)
    (hk : s.portSession port = some k) : s.receive port x bs = (u.openPacket port k r).getD (s.again port) := by
  rw [a.receive, hparse, arriveAll_keyed a.ready ((admittedPort_ready x bs).trans hready) ((portSession_admitted a).trans hk)]

/-- A packet whose tag fails has its sequence asked for again. -/
theorem sequence_unauthentic (a : Admitted s port x bs u) (hparse : x.parse bs = ([r], tail)) (hready : x.ready = true)
    (hk : s.portSession port = some k) (hphase : k.phase ≠ .rekeying)
    (hopen : Config.gcmOpen (k.keys.take 32) (gcmNonce (s.direction x false) r.counter) r.head r.body = none) :
    s.receive port x bs = s.again port := by
  rw [receive_keyed a hparse hready hk, openPacket_damaged a.ready hphase (by rwa [direction_admitted a])]
  rfl

/-- A packet under a counter that was used before is dropped. -/
theorem sequence_replayed {data : List Byte} (a : Admitted s port x bs u) (hparse : x.parse bs = ([r], tail)) (hready : x.ready = true)
    (hk : s.portSession port = some k) (hlow : r.counter ≤ k.lastIn)
    (hopen : Config.gcmOpen (k.keys.take 32) (gcmNonce (s.direction x false) r.counter) r.head r.body = some data) :
    (s.receive port x bs).fabIn = s.fabIn ∧ (s.receive port x bs).fabOut = s.fabOut ∧ (s.receive port x bs).mem = s.mem := by
  rw [receive_keyed a hparse hready hk, openPacket_replayed a.ready (by rwa [direction_admitted a]) hlow]
  obtain ⟨hmem, hin, hout, -⟩ := a.frame.keeps
  exact ⟨hin, hout, hmem⟩

end

end

end Sys2Proof.Proofs

/-! The fabric (spec/22): what a home does with the packets that arrive (R146, R249, R509, R512). -/

namespace Sys2Proof.Proofs

open Sys2Proof.Machine Sys2Proof.Claims

/-! ### A packet that has arrived is taken in (R508) -/

/-- `t` is `s` but for the ports, whose fences stand as before. -/
structure BufFrame (s t : State) : Prop where
  rest : { t with ports := s.ports } = s
  fenced : ∀ q, t.portFenced q = s.portFenced q

theorem freeBuf_bufFrame (s : State) (p : FabPacket) : BufFrame s (s.freeBuf p) := by
  unfold State.freeBuf
  split
  · next e _ =>
    refine ⟨rfl, fun q => ?_⟩
    by_cases hq : q = e.1
    · subst hq
      simp only [State.portFenced, Tbl.get_upd_self]
      cases s.ports.get e.1 <;> rfl
    · simp only [State.portFenced, Tbl.get_upd_ne _ _ _ _ hq]
  · exact ⟨rfl, fun _ => rfl⟩

theorem taken_bufFrame (s : State) (p : FabPacket) : BufFrame { s with fabIn := s.fabIn.erase p } (s.taken p) := freeBuf_bufFrame _ p

/-- `t` is `s` without the packet `p`; nothing has been sent meanwhile. -/
structure PacketTaken (s : State) (p : FabPacket) (t : State) : Prop where
  arrived : t.fabIn = s.fabIn.erase p
  sent : t.fabOut = s.fabOut
  dev : t.dev = s.dev

theorem taken_packetTaken (s : State) (p : FabPacket) : PacketTaken s p (s.taken p) := by
  have hrest := (taken_bufFrame s p).rest
  have hin := congrArg State.fabIn hrest
  have hout := congrArg State.fabOut hrest
  have hdev := congrArg State.dev hrest
  exact ⟨hin, hout, hdev⟩

theorem PacketTaken.home {s t u : State} {p : FabPacket} (h : PacketTaken s p t) (k : HomeFrame t u) : PacketTaken s p u := by
  have hin := congrArg State.fabIn k.rest
  have hout := congrArg State.fabOut k.rest
  exact ⟨hin.trans h.arrived, hout.trans h.sent, k.dev.trans h.dev⟩

/-- An answer goes to the source of its packet, under the packet's tag. -/
theorem PacketTaken.answers {s t : State} {p : FabPacket} (h : PacketTaken s p t) (typ status : Nat) (data : List Byte) :
    AnswersPacket s (t.answerTo p typ status data) p typ status data := by
  refine ⟨h.arrived, _, congrArg (· ++ _) h.sent, rfl, rfl, rfl, ?_, rfl, rfl⟩
  exact congrArg Dev.moduleNum h.dev

theorem taken_region (s : State) (p : FabPacket) (pa : Nat) : (s.taken p).region pa = s.region pa := by
  obtain ⟨hrest, hfenced⟩ := taken_bufFrame s p
  have hdev := congrArg State.dev hrest
  have hpresented := congrArg State.presented hrest
  have hdev : (s.taken p).dev = s.dev := hdev
  have hpresented : (s.taken p).presented = s.presented := hpresented
  have hfenced (q : Nat) : (s.taken p).portFenced q = s.portFenced q := hfenced q
  have hpaths : (s.taken p).paths = s.paths := by
    funext m
    simp only [State.paths, hdev, hfenced]
  unfold State.region State.hasRoute State.hbmBytes
  rw [hpaths, hdev, hpresented]

theorem taken_backed (s : State) (p : FabPacket) (pa : Nat) : (s.taken p).backed pa = s.backed pa := by
  rw [State.backed, State.backed, taken_region]

theorem taken_homeAddr (s : State) (p : FabPacket) (addr n : Nat) : (s.taken p).homeAddr addr n = s.homeAddr addr n := by
  rw [State.homeAddr, State.homeAddr, taken_backed, taken_backed, (taken_packetTaken s p).dev]

theorem taken_regAddr (s : State) (p : FabPacket) (addr n : Nat) : (s.taken p).regAddr addr n = s.regAddr addr n := by
  rw [State.regAddr, State.regAddr, taken_region, (taken_packetTaken s p).dev]

theorem taken_mem (s : State) (p : FabPacket) : (s.taken p).mem = s.mem := by
  have hmem := congrArg State.mem (taken_bufFrame s p).rest
  exact hmem

/-- An address of this module's memory names no device register (Table 6-1). -/
theorem regAddr_of_homeAddr {s : State} {addr m : Nat} (n : Nat) (h : s.homeAddr addr m = true) : s.regAddr addr n = false := by
  simp only [State.homeAddr, State.backed, Bool.and_eq_true, Bool.or_eq_true, decide_eq_true_eq] at h
  obtain ⟨⟨-, hmem⟩, -⟩ := h
  rcases hmem with hr | hr <;> simp [State.regAddr, hr]

/-- A packet whose first byte is not of this module's memory waits for no page and no room. -/
theorem packetWaits_of_not_home {s : State} {p : FabPacket} (h : s.homeAddr p.addr 1 = false) : s.packetWaits p = false := by
  simp [State.packetWaits, h]

theorem homeAddr_one_of_regAddr {s : State} {addr n : Nat} (h : s.regAddr addr n = true) : s.homeAddr addr 1 = false := by
  cases hhome : s.homeAddr addr 1 with
  | false => rfl
  | true => rw [regAddr_of_homeAddr n hhome] at h; cases h

/-! ### FABRIC_READ -/

section

variable {s : State} {p : FabPacket}

theorem read_next (htyp : p.typ = 1) (hturn : s.turn p = true) : exec (.fabricRead p .clean) s = .next (
    if (s.taken p).regAddr p.addr p.data.length then
      (s.taken p).answerTo p 4 0 ((s.taken p).devLoad (localOf p.addr - Config.devBase) p.data.length)
    else if !(s.taken p).homeAddr p.addr p.data.length then (s.taken p).answerTo p 4 1 []
    else ((s.taken p).l2Access (lineOf (localOf p.addr)) .all).answerTo p 4 0 ((s.taken p).rd (localOf p.addr) p.data.length)) := by
  refine event_next _ _ _ ?_
  rw [hturn, decide_eq_true htyp]
  rfl

/-- R509: a read of this module's memory is answered with its bytes. -/
theorem fabricRead_home (htyp : p.typ = 1) (hturn : s.turn p = true) (hhome : s.homeAddr p.addr p.data.length = true) :
    ∃ t, exec (.fabricRead p .clean) s = .next t ∧ AnswersPacket s t p 4 0 (s.rd (localOf p.addr) p.data.length) ∧ t.mem = s.mem := by
  rw [read_next htyp hturn, taken_regAddr, regAddr_of_homeAddr _ hhome, taken_homeAddr, hhome, State.rd, taken_mem]
  exact ⟨_, rfl, ((taken_packetTaken s p).home (l2Access_homeFrame _ _ _)).answers _ _ _,
    (State.l2Access_mem _ _ _).trans (taken_mem s p)⟩

/-- R512: a read of a device register of this module is answered with what the register holds. -/
theorem fabricRead_register (htyp : p.typ = 1) (hturn : s.turn p = true) (hreg : s.regAddr p.addr p.data.length = true) :
    ∃ t, exec (.fabricRead p .clean) s = .next t ∧
      AnswersPacket s t p 4 0 ((s.taken p).devLoad (localOf p.addr - Config.devBase) p.data.length) ∧ t.mem = s.mem := by
  rw [read_next htyp hturn, taken_regAddr, if_pos hreg]
  exact ⟨_, rfl, (taken_packetTaken s p).answers _ _ _, taken_mem s p⟩

/-- R146, R509: a read of an address that is not this module's is refused. -/
theorem fabricRead_refused (htyp : p.typ = 1) (hturn : s.turn p = true) (hhome : s.homeAddr p.addr p.data.length = false)
    (hreg : s.regAddr p.addr p.data.length = false) :
    ∃ t, exec (.fabricRead p .clean) s = .next t ∧ AnswersPacket s t p 4 1 [] ∧ t.mem = s.mem := by
  rw [read_next htyp hturn, taken_regAddr, hreg, taken_homeAddr, hhome]
  exact ⟨_, rfl, (taken_packetTaken s p).answers _ _ _, taken_mem s p⟩

/-! ### FABRIC_WRITE and FABRIC_ATOMIC -/

theorem write_next (htyp : p.typ = 2) (hturn : s.turn p = true) (hwaits : s.packetWaits p = false) :
    exec (.fabricWrite p .clean) s = .next (s.packetWrite p .clean) := by
  refine event_next _ _ _ ?_
  rw [hturn, hwaits, decide_eq_true htyp]
  rfl

theorem atomic_next (htyp : p.typ = 3) (hturn : s.turn p = true) (hwaits : s.packetWaits p = false) :
    exec (.fabricAtomic p .clean) s = .next (s.packetAtomic p .clean) := by
  refine event_next _ _ _ ?_
  rw [hturn, hwaits, decide_eq_true htyp]
  rfl

theorem packetWrite_register (hreg : s.regAddr p.addr p.data.length = true) :
    s.packetWrite p .clean = (s.taken p).devStore (localOf p.addr - Config.devBase) p.data := by
  simp only [State.packetWrite, taken_regAddr, hreg, if_true]

theorem packetWrite_refused (hhome : s.homeAddr p.addr p.data.length = false) (hreg : s.regAddr p.addr p.data.length = false) :
    s.packetWrite p .clean = (s.taken p).answerTo p 4 1 [] := by
  simp only [State.packetWrite, taken_regAddr, taken_homeAddr, hreg, hhome, Bool.false_eq_true, if_false, Bool.not_false, if_true]

/-- The state in which a packet of this module's memory has left `bs` at its address. -/
def packetStored (s : State) (p : FabPacket) (bs : List Byte) : State :=
  ((s.taken p).homeWrite (localOf p.addr) bs .all none ((s.taken p).chargedJob p.addr 0)).noteFab p

theorem packetWrite_home (hhome : s.homeAddr p.addr p.data.length = true) : s.packetWrite p .clean = packetStored s p p.data := by
  simp only [State.packetWrite, taken_regAddr, taken_homeAddr, regAddr_of_homeAddr _ hhome, hhome, Bool.false_eq_true, if_false,
    Bool.not_true, State.eccMerge, ite_self, packetStored]

theorem noteFab_keeps (s : State) (p : FabPacket) :
    (s.noteFab p).fabIn = s.fabIn ∧ (s.noteFab p).fabOut = s.fabOut ∧ (s.noteFab p).dev = s.dev ∧ (s.noteFab p).mem = s.mem :=
  ⟨rfl, rfl, rfl, rfl⟩

theorem packetStored_results {bs : List Byte} (hclear : Clear s (localOf p.addr) bs.length) :
    PacketTaken s p (packetStored s p bs) ∧ (packetStored s p bs).mem = memWrite s.mem (localOf p.addr) bs := by
  have htaken := taken_packetTaken s p
  have hqueues := congrArg State.queues (taken_bufFrame s p).rest
  have hqueues : (s.taken p).queues = s.queues := hqueues
  have hapart : Clear (s.taken p) (localOf p.addr) bs.length := by
    intro e he
    rw [State.descOf, htaken.dev]
    exact hclear e (hqueues ▸ he)
  rw [packetStored, homeWrite_apart _ _ _ hapart]
  obtain ⟨hin, hout, hdev⟩ := htaken.home (rawWrite_homeFrame (s.taken p) (localOf p.addr) bs .all none
    ((s.taken p).chargedJob (localOf p.addr) ((s.taken p).chargedJob p.addr 0)))
  obtain ⟨hnin, hnout, hndev, hnmem⟩ := noteFab_keeps ((s.taken p).rawWrite (localOf p.addr) bs .all none
    ((s.taken p).chargedJob (localOf p.addr) ((s.taken p).chargedJob p.addr 0))) p
  exact ⟨⟨hnin.trans hin, hnout.trans hout, hndev.trans hdev⟩, by rw [hnmem, State.rawWrite_mem, taken_mem]⟩

/-- The bytes that a packet wrote, and the others. -/
theorem packetStored_bytes {bs : List Byte} (hclear : Clear s (localOf p.addr) bs.length) :
    (packetStored s p bs).rd (localOf p.addr) bs.length = bs ∧
      ∀ a, (a < localOf p.addr ∨ localOf p.addr + bs.length ≤ a) → byteAt (packetStored s p bs) a = byteAt s a := by
  obtain ⟨-, hmem⟩ := packetStored_results hclear
  simp only [State.rd, byteAt, hmem]
  exact ⟨memRead_memWrite _ _ _, fun a ha => memGet_memWrite_out _ _ _ _ ha⟩

/-- The bytes that an ATOMIC packet operates on (Table 22-10). -/
def atomicLen (p : FabPacket) : Nat := if p.atop / 16 % 2 = 1 then 8 else 4

/-- What an ATOMIC packet leaves at its address. -/
def packetNew (s : State) (p : FabPacket) : List Byte :=
  atomicBytes (p.atop % 16) (Config.freeBit s.fresh 0) (atomicLen p) (s.rd (localOf p.addr) (atomicLen p)) p.data

theorem packetNew_length (s : State) (p : FabPacket) : (packetNew s p).length = atomicLen p := bytesOfNat_length _ _

theorem packetNew_taken (s : State) (p : FabPacket) : packetNew (s.taken p) p = packetNew s p := by
  have hfresh := congrArg State.fresh (taken_bufFrame s p).rest
  have hfresh : (s.taken p).fresh = s.fresh := hfresh
  rw [packetNew, packetNew, State.rd, State.rd, taken_mem, hfresh]

/-- The state in which an ATOMIC packet has been performed, before its old value is answered. -/
def packetOperated (s : State) (p : FabPacket) (bs : List Byte) : State :=
  { packetStored s p bs with fresh := (s.taken p).fresh + 1 }

theorem packetAtomic_eq (s : State) (p : FabPacket) : s.packetAtomic p .clean =
    if !(s.taken p).homeAddr p.addr (atomicLen p) then (s.taken p).answerTo p 4 1 []
    else if p.atop / 32 % 2 = 1 then packetOperated s p (packetNew (s.taken p) p)
    else (packetOperated s p (packetNew (s.taken p) p)).answerTo p 4 0 ((s.taken p).rd (localOf p.addr) (atomicLen p)) := rfl

theorem packetAtomic_refused (hhome : s.homeAddr p.addr (atomicLen p) = false) :
    s.packetAtomic p .clean = (s.taken p).answerTo p 4 1 [] := by
  rw [packetAtomic_eq, taken_homeAddr, hhome]
  rfl

theorem packetAtomic_home (hhome : s.homeAddr p.addr (atomicLen p) = true) :
    s.packetAtomic p .clean = if p.atop / 32 % 2 = 1 then packetOperated s p (packetNew s p)
      else (packetOperated s p (packetNew s p)).answerTo p 4 0 (s.rd (localOf p.addr) (atomicLen p)) := by
  rw [packetAtomic_eq, taken_homeAddr, hhome, packetNew_taken, State.rd, taken_mem]
  rfl

/-- R512: a write of a device register of this module is performed there. -/
theorem fabricWrite_register (htyp : p.typ = 2) (hturn : s.turn p = true) (hreg : s.regAddr p.addr p.data.length = true) :
    exec (.fabricWrite p .clean) s = .next ((s.taken p).devStore (localOf p.addr - Config.devBase) p.data) := by
  rw [write_next htyp hturn (packetWaits_of_not_home (homeAddr_one_of_regAddr hreg)), packetWrite_register hreg]

/-- R509: a write acts at its home. -/
theorem fabricWrite_home (htyp : p.typ = 2) (hturn : s.turn p = true) (hhome : s.homeAddr p.addr p.data.length = true)
    (hwaits : s.packetWaits p = false) (hclear : Clear s (localOf p.addr) p.data.length) :
    ∃ t, exec (.fabricWrite p .clean) s = .next t ∧ t.fabIn = s.fabIn.erase p ∧ t.fabOut = s.fabOut ∧
      t.rd (localOf p.addr) p.data.length = p.data ∧
      ∀ a, (a < localOf p.addr ∨ localOf p.addr + p.data.length ≤ a) → byteAt t a = byteAt s a := by
  obtain ⟨⟨hin, hout, -⟩, -⟩ := packetStored_results hclear
  exact ⟨_, (write_next htyp hturn hwaits).trans (congrArg _ (packetWrite_home hhome)), hin, hout, packetStored_bytes hclear⟩

/-- R146, R509: a write of an address that is not this module's is refused. -/
theorem fabricWrite_refused (htyp : p.typ = 2) (hturn : s.turn p = true) (hhome : s.homeAddr p.addr p.data.length = false)
    (hfirst : s.homeAddr p.addr 1 = false) (hreg : s.regAddr p.addr p.data.length = false) :
    ∃ t, exec (.fabricWrite p .clean) s = .next t ∧ AnswersPacket s t p 4 1 [] ∧ t.mem = s.mem :=
  ⟨_, (write_next htyp hturn (packetWaits_of_not_home hfirst)).trans (congrArg _ (packetWrite_refused hhome hreg)),
    (taken_packetTaken s p).answers _ _ _, taken_mem s p⟩

/-- R509: an atomic acts at its home, and brings its source the old bytes unless it says NORET. -/
theorem fabricAtomic_home (htyp : p.typ = 3) (hturn : s.turn p = true) (hwaits : s.packetWaits p = false)
    (hhome : s.homeAddr p.addr (atomicLen p) = true) (hclear : Clear s (localOf p.addr) (atomicLen p)) :
    ∃ t uns, exec (.fabricAtomic p .clean) s = .next t ∧
      t.rd (localOf p.addr) (atomicLen p) =
        atomicBytes (p.atop % 16) uns (atomicLen p) (s.rd (localOf p.addr) (atomicLen p)) p.data ∧
      (∀ a, (a < localOf p.addr ∨ localOf p.addr + atomicLen p ≤ a) → byteAt t a = byteAt s a) ∧
      (p.atop / 32 % 2 = 0 → AnswersPacket s t p 4 0 (s.rd (localOf p.addr) (atomicLen p))) ∧
      (p.atop / 32 % 2 = 1 → t.fabIn = s.fabIn.erase p ∧ t.fabOut = s.fabOut) := by
  rw [← packetNew_length s p] at hclear
  obtain ⟨⟨hin, hout, hdev⟩, -⟩ := packetStored_results hclear
  obtain ⟨hread, hother⟩ := packetStored_bytes hclear
  have htaken : PacketTaken s p (packetOperated s p (packetNew s p)) := ⟨hin, hout, hdev⟩
  rw [packetNew_length] at hread hother
  rw [atomic_next htyp hturn hwaits, packetAtomic_home hhome]
  by_cases hnoret : p.atop / 32 % 2 = 1
  · rw [if_pos hnoret]
    exact ⟨_, Config.freeBit s.fresh 0, rfl, hread, hother, fun h0 => absurd h0 (by omega), fun _ => ⟨hin, hout⟩⟩
  · rw [if_neg hnoret]
    exact ⟨_, Config.freeBit s.fresh 0, rfl, hread, hother, fun _ => htaken.answers _ _ _, fun h1 => absurd h1 hnoret⟩

/-- R146, R509: an atomic on an address that is not this module's is refused. -/
theorem fabricAtomic_refused (htyp : p.typ = 3) (hturn : s.turn p = true) (hwaits : s.packetWaits p = false)
    (hhome : s.homeAddr p.addr (atomicLen p) = false) :
    ∃ t, exec (.fabricAtomic p .clean) s = .next t ∧ AnswersPacket s t p 4 1 [] ∧ t.mem = s.mem :=
  ⟨_, (atomic_next htyp hturn hwaits).trans (congrArg _ (packetAtomic_refused hhome)), (taken_packetTaken s p).answers _ _ _, taken_mem s p⟩

end

end Sys2Proof.Proofs

/-! Jobs that end (spec/21): what the end of a job with a job-level code leaves (R178, R485), and a fatal access (R146, R432). -/

namespace Sys2Proof.Proofs

open Sys2Proof.Machine Sys2Proof.Claims

/-! ### What steps towards the end of a job keep -/

/-- A block keeps its grid; one that has not aborted may abort with `code`. -/
structure BlockEnds (code : Nat) (p q : Block) : Prop where
  grid : q.grid = p.grid
  cancelled : q.cancelled = p.cancelled
  aborted : q.aborted = p.aborted ∨ p.aborted = none ∧ q.aborted = some code

/-- The blocks that a grid is made of. -/
def gridSize (g : Grid) : Nat := g.gdim.1 * g.gdim.2.1 * g.gdim.2.2

/-- A grid keeps what names it, and the marks of a job that has ended with `code`. -/
structure GridEnds (code : Nat) (g h : Grid) : Prop where
  job : h.job = g.job
  cancelled : h.cancelled = g.cancelled
  gdim : h.gdim = g.gdim
  done : h.place = .done ↔ g.place = .done
  trapcode : g.trapcode = code → h.trapcode = code
  anyAbort : g.anyAbort = true → h.anyAbort = true
  nextIndex : g.nextIndex = gridSize g → h.nextIndex = gridSize g

/-- From `s` to `t` blocks may abort with `code` and grids be marked with it; what the fabric brought or awaits is as before. -/
structure Ending (code : Nat) (s t : State) : Prop where
  blocks : ∀ b p, s.block b = some p → ∃ q, t.block b = some q ∧ BlockEnds code p q
  grids : ∀ g gr, s.grids.get g = some gr → ∃ h, t.grids.get g = some h ∧ GridEnds code gr h
  arrived : t.fabIn = s.fabIn
  sent : t.sent = s.sent

theorem BlockEnds.refl (code : Nat) (p : Block) : BlockEnds code p p := ⟨rfl, rfl, .inl rfl⟩

theorem BlockEnds.trans {code : Nat} {p q r : Block} (h : BlockEnds code p q) (k : BlockEnds code q r) : BlockEnds code p r where
  grid := k.grid.trans h.grid
  cancelled := k.cancelled.trans h.cancelled
  aborted := by
    rcases k.aborted with hk | ⟨hk, hcode⟩
    · rw [hk]
      exact h.aborted
    · rcases h.aborted with hh | ⟨hh, -⟩
      · exact .inr ⟨hh ▸ hk, hcode⟩
      · exact .inr ⟨hh, hcode⟩

theorem BlockEnds.stays {code : Nat} {p q : Block} (h : BlockEnds code p q) (ha : p.aborted = some code) : q.aborted = some code := by
  rcases h.aborted with h | ⟨-, h⟩
  · exact h.trans ha
  · exact h

theorem BlockEnds.unended {code : Nat} {p q : Block} (h : BlockEnds code p q) (ha : p.aborted = none ∨ p.aborted = some code) :
    q.aborted = none ∨ q.aborted = some code := by
  rcases h.aborted with h | ⟨-, h⟩
  · rwa [h]
  · exact .inr h

theorem GridEnds.refl (code : Nat) (g : Grid) : GridEnds code g g := ⟨rfl, rfl, rfl, .rfl, id, id, id⟩

theorem GridEnds.size {code : Nat} {g h : Grid} (e : GridEnds code g h) : gridSize h = gridSize g := by
  rw [gridSize, gridSize, e.gdim]

theorem GridEnds.trans {code : Nat} {g h k : Grid} (e : GridEnds code g h) (f : GridEnds code h k) : GridEnds code g k where
  job := f.job.trans e.job
  cancelled := f.cancelled.trans e.cancelled
  gdim := f.gdim.trans e.gdim
  done := f.done.trans e.done
  trapcode := f.trapcode ∘ e.trapcode
  anyAbort := f.anyAbort ∘ e.anyAbort
  nextIndex hg := (f.nextIndex ((e.nextIndex hg).trans e.size.symm)).trans e.size

section

variable {code : Nat} {s t u : State}

theorem Ending.of_same (hb : t.blocks = s.blocks := by rfl) (hg : t.grids = s.grids := by rfl) (hin : t.fabIn = s.fabIn := by rfl)
    (hs : t.sent = s.sent := by rfl) : Ending code s t where
  blocks b p hp := ⟨p, by rwa [State.block, hb], .refl code p⟩
  grids g gr hgr := ⟨gr, by rwa [hg], .refl code gr⟩
  arrived := hin
  sent := hs

theorem Ending.refl (code : Nat) (s : State) : Ending code s s := .of_same

theorem Ending.trans (h : Ending code s t) (k : Ending code t u) : Ending code s u where
  blocks b p hp := by
    obtain ⟨q, hq, e⟩ := h.blocks b p hp
    obtain ⟨r, hr, f⟩ := k.blocks b q hq
    exact ⟨r, hr, e.trans f⟩
  grids g gr hgr := by
    obtain ⟨h', hh, e⟩ := h.grids g gr hgr
    obtain ⟨k', hk, f⟩ := k.grids g h' hh
    exact ⟨k', hk, e.trans f⟩
  arrived := k.arrived.trans h.arrived
  sent := k.sent.trans h.sent

theorem ite_ending {c : Prop} [Decidable c] (ht : Ending code s t) (hu : Ending code s u) : Ending code s (if c then t else u) := by
  split
  · exact ht
  · exact hu

theorem foldl_ending {α : Type} {f : State → α → State} (hf : ∀ t x, Ending code t (f t x)) (xs : List α) (s : State) :
    Ending code s (xs.foldl f s) := by
  induction xs generalizing s with
  | nil => exact .refl code s
  | cons x xs ih => exact (hf s x).trans (ih _)

/-- The step of a fold for one of its elements, between what comes before and after it. -/
theorem foldl_ending_at {α : Type} {f : State → α → State} (hf : ∀ t x, Ending code t (f t x)) {x : α} {xs : List α} (hx : x ∈ xs)
    (s : State) : ∃ t, Ending code s t ∧ Ending code (f t x) (xs.foldl f s) := by
  obtain ⟨pre, post, rfl⟩ := List.append_of_mem hx
  rw [List.foldl_append, List.foldl_cons]
  exact ⟨_, foldl_ending hf pre s, foldl_ending hf post _⟩

theorem updBlock_ending {b : Nat} {f : Block → Block} (hf : ∀ p, s.block b = some p → BlockEnds code p (f p)) :
    Ending code s (s.updBlock b f) where
  blocks c p hp := by
    by_cases hc : c = b
    · subst hc
      exact ⟨f p, by rw [State.block_updBlock_self, hp, Option.map_some], hf p hp⟩
    · exact ⟨p, by rwa [State.block_updBlock_ne _ _ _ _ hc], .refl code p⟩
  grids g gr hg := ⟨gr, hg, .refl code gr⟩
  arrived := rfl
  sent := rfl

theorem updGrid_ending (g : Nat) {f : Grid → Grid} (hf : ∀ x, GridEnds code x (f x)) : Ending code s (s.updGrid g f) where
  blocks b p hp := ⟨p, hp, .refl code p⟩
  grids n gr hgr := by
    by_cases hn : n = g
    · subst hn
      exact ⟨f gr, (Tbl.get_upd_self _ _ _).trans (by rw [hgr, Option.map_some]), hf gr⟩
    · exact ⟨gr, (Tbl.get_upd_ne _ _ _ _ hn).trans hgr, .refl code gr⟩
  arrived := rfl
  sent := rfl

/-! ### Reporting a fault (R482) -/

theorem L2Frame.ending (h : L2Frame s t) : Ending code s t := by
  have hgrids := congrArg State.grids h
  have hin := congrArg State.fabIn h
  have hsent := congrArg State.sent h
  exact .of_same h.blocks hgrids hin hsent

theorem l2Touch_l2Frame (s : State) (pa : Nat) (a : Alloc) : L2Frame s (s.l2Touch pa a) := by
  unfold State.l2Touch
  split
  · exact l2Access_l2Frame s _ _
  · exact .refl s

theorem putDirty_l2Frame (s : State) (line job : Nat) (before : List Byte) (lagging : Bool) :
    L2Frame s (s.putDirty line job before lagging) := by
  unfold State.putDirty
  dsimp only
  have hlag (l : Tbl Lag) : L2Frame s { s with lag := l } := rfl
  split
  · exact (hlag _).trans (commitLine_l2Frame _ _ _)
  · exact hlag _

theorem monSees_ending (s : State) (line : Nat) (who : Option (Nat × Nat)) : Ending code s (s.monSees line who) where
  blocks b p hp := by
    refine ⟨{ p with waves := p.waves.mapIdx (fun i w => w.monSees line (who == some (b, i))) }, ?_, rfl, rfl, .inl rfl⟩
    have hp : s.blocks.get b = some p := hp
    rw [State.block, State.monSees, Tbl.get_mapAll, hp, Option.map_some]
  grids g gr hg := ⟨gr, hg, .refl code gr⟩
  arrived := rfl
  sent := rfl

theorem mem_ending (s : State) (m : List Host.Cell) : Ending code s { s with mem := m } := .of_same

theorem rawWrite_ending (s : State) (pa : Nat) (bs : List Byte) (a : Alloc) (who : Option (Nat × Nat)) (job : Nat) :
    Ending code s (s.rawWrite pa bs a who job) := by
  have hm : Ending code s { s.l2Touch pa a with mem := memWrite (s.l2Touch pa a).mem pa bs } :=
    (l2Touch_l2Frame s pa a).ending.trans (mem_ending _ _)
  unfold State.rawWrite
  exact (ite_ending (hm.trans (putDirty_l2Frame _ _ _ _ _).ending) hm).trans (monSees_ending _ _ _)

theorem showWord_ending (s : State) (a v : Nat) : Ending code s (s.showWord a v) := ite_ending (.refl code s) (rawWrite_ending s _ _ _ _ _)

theorem showQueue_ending (s : State) (n : Nat) : Ending code s (s.showQueue n) := by
  unfold State.showQueue
  split
  · exact .refl code s
  · iterate 5 refine Ending.trans ?_ (showWord_ending _ _ _)
    exact showWord_ending s _ _

theorem homeWrite_ending (s : State) (pa : Nat) (bs : List Byte) (a : Alloc) (who : Option (Nat × Nat)) (job : Nat) :
    Ending code s (s.homeWrite pa bs a who job) := by
  have hraw : Ending code s (s.rawWrite pa bs a who (s.chargedJob pa job)) := rawWrite_ending s pa bs a who _
  refine ite_ending hraw (hraw.trans (foldl_ending (fun t e => ?_) _ _))
  exact Ending.trans .of_same (showQueue_ending _ _)

theorem writeFault_ending (s : State) : Ending code s s.writeFault := by
  unfold State.writeFault
  split
  · exact .refl code s
  · exact ite_ending ((homeWrite_ending s _ _ _ _ _).trans .of_same) (.refl code s)

theorem report_ending (s : State) (kind core asn ten job need addr grid : Nat) (awaits : Bool) :
    Ending code s (s.report kind core asn ten job need addr grid awaits).2 := by
  unfold State.report
  split
  · exact .refl code s
  · exact Ending.trans .of_same (foldl_ending (fun t _ => writeFault_ending t) _ _)

/-! ### Aborting blocks (R30, R478) -/

theorem updWave_ending (s : State) (b w : Nat) (f : Wave → Wave) : Ending code s (s.updWave b w f) :=
  updBlock_ending fun _ _ => ⟨rfl, rfl, .inl rfl⟩

theorem dropSheafBits_ending (s : State) (b w : Nat) : Ending code s (s.dropSheafBits b w) := by
  unfold State.dropSheafBits
  split
  · exact .refl code s
  · exact Ending.trans .of_same (updWave_ending _ b w _)

theorem reqs_ending (s : State) (rs : Tbl Req) (ps : List Replay) : Ending code s { s with reqs := rs, replays := ps } := .of_same

theorem updCore_ending (s : State) (c : Nat) (f : Core → Core) : Ending code s (s.updCore c f) := .of_same

theorem stopBlock_ending (s : State) (b : Nat) : Ending code s (s.stopBlock b) := by
  unfold State.stopBlock
  split
  · exact .refl code s
  · refine Ending.trans ?_ (updBlock_ending fun _ _ => ⟨rfl, rfl, .inl rfl⟩)
    exact ((foldl_ending (fun t w => dropSheafBits_ending t b w) _ s).trans (reqs_ending _ _ _)).trans (updCore_ending _ _ _)

theorem abortBlock_ending (s : State) (b : Nat) : Ending code s (s.abortBlock b code) := by
  unfold State.abortBlock
  split
  · exact .refl code s
  · next p hp =>
    split
    · exact .refl code s
    · next hlive =>
      have hnone : p.aborted = none := by
        rw [Bool.or_eq_true, not_or] at hlive
        exact Option.not_isSome_iff_eq_none.1 hlive.2
      have hstop := stopBlock_ending (code := code) s b
      have habort : Ending code (s.stopBlock b) ((s.stopBlock b).updBlock b (fun x => { x with aborted := some code })) :=
        updBlock_ending fun q hq => by
          obtain ⟨q', hq', e⟩ := hstop.blocks b p hp
          obtain rfl : q' = q := Option.some.inj (hq'.symm.trans hq)
          refine ⟨rfl, rfl, ?_⟩
          rcases e.aborted with h | ⟨-, h⟩
          · exact .inr ⟨h.trans hnone, rfl⟩
          · exact .inl h.symm
      refine (hstop.trans habort).trans (updGrid_ending p.grid fun x => ⟨rfl, rfl, rfl, .rfl, fun hx => ?_, fun _ => rfl, id⟩)
      dsimp only
      split
      · exact hx
      · rfl

/-- A resident block that is not cancelled has aborted with the code of its job. -/
theorem abortBlock_ends {b : Nat} {p : Block} (hp : s.block b = some p) (hc : p.cancelled = false)
    (ha : p.aborted = none ∨ p.aborted = some code) : ∃ q, (s.abortBlock b code).block b = some q ∧ q.aborted = some code := by
  rcases ha with ha | ha
  · exact abortBlock_aborted code hp hc ha
  · obtain ⟨q, hq, e⟩ := (abortBlock_ending (code := code) s b).blocks b p hp
    exact ⟨q, hq, e.stays ha⟩

/-! ### Grids that end (R485) -/

theorem dropImages_ending (s : State) (g : Nat) : Ending code s (s.dropImages g) := by
  have hbits (t : State) (i : SavedImage) : Ending code t (t.dropImageBits i.blk) := .of_same
  exact (foldl_ending hbits (s.images.filter (fun i => i.blk.grid = g)) s).trans .of_same

/-- The end of a grid that is running. -/
def endedGrid (code left saved : Nat) (x : Grid) : Grid :=
  { x with trapcode := code, anyAbort := true, aborts := min 255 (x.aborts + saved), flushed := [], left := left,
           nextIndex := x.gdim.1 * x.gdim.2.1 * x.gdim.2.2, place := (if x.place = .millrace then .dispatcher else x.place) }

theorem endedGrid_ends (code left saved : Nat) (x : Grid) : GridEnds code x (endedGrid code left saved x) := by
  refine ⟨rfl, rfl, rfl, ?_, fun _ => rfl, fun _ => rfl, fun _ => rfl⟩
  simp only [endedGrid]
  split
  · next h => simp [h]
  · exact .rfl

/-- The state in which the blocks of a grid that ends have been aborted. -/
def gridAborted (s : State) (code g : Nat) : State :=
  (s.blocksOf g).foldl (fun t b => t.abortBlock b code) (s.dropImages g)

theorem gridAborted_ending (s : State) (g : Nat) : Ending code s (gridAborted s code g) :=
  (dropImages_ending s g).trans (foldl_ending (fun t b => abortBlock_ending t b) _ _)

theorem disp_ending (s : State) (d : Dispatcher) : Ending code s { s with disp := d } := .of_same

theorem endGrid_of_running {g : Nat} {gr : Grid} (hg : s.grids.get g = some gr) (hplace : gr.place ≠ .done) (hc : gr.cancelled = false) :
    ∃ d saved, s.endGrid code g =
      ({ gridAborted s code g with disp := d } : State).updGrid g (endedGrid code (s.blocksOf g).length saved) := by
  simp only [State.endGrid, hg, hplace, hc, if_false, Bool.false_eq_true]
  exact ⟨_, _, rfl⟩

theorem endGrid_of_cancelled {g : Nat} {gr : Grid} (hg : s.grids.get g = some gr) (hplace : gr.place ≠ .done) (hc : gr.cancelled = true) :
    s.endGrid code g = s.updGrid g (fun x => { x with trapcode := code }) := by
  simp only [State.endGrid, hg, hplace, hc, if_false, if_true]

theorem endGrid_of_done {g : Nat} {gr : Grid} (hg : s.grids.get g = some gr) (hplace : gr.place = .done) : s.endGrid code g = s := by
  simp only [State.endGrid, hg, hplace, if_true]

theorem endGrid_ending (s : State) (g : Nat) : Ending code s (s.endGrid code g) := by
  cases hg : s.grids.get g with
  | none =>
    have hsame : s.endGrid code g = s := by simp only [State.endGrid, hg]
    rw [hsame]
    exact .refl code s
  | some gr =>
    by_cases hplace : gr.place = .done
    · rw [endGrid_of_done hg hplace]
      exact .refl code s
    · cases hc : gr.cancelled with
      | true =>
        rw [endGrid_of_cancelled hg hplace hc]
        exact updGrid_ending g fun x => ⟨rfl, rfl, rfl, .rfl, fun _ => rfl, id, id⟩
      | false =>
        obtain ⟨d, saved, hend⟩ := endGrid_of_running (code := code) hg hplace hc
        rw [hend]
        exact ((gridAborted_ending s g).trans (disp_ending _ d)).trans (updGrid_ending g fun x => endedGrid_ends _ _ _ x)

/-- What the end of its job leaves of a grid: the code, and, of one that was not cancelled, no further block. -/
theorem endGrid_marks {g : Nat} {gr : Grid} (hg : s.grids.get g = some gr) (hplace : gr.place ≠ .done) :
    ∃ h, (s.endGrid code g).grids.get g = some h ∧ h.trapcode = code ∧
      (gr.cancelled = false → h.anyAbort = true ∧ h.nextIndex = gridSize gr) := by
  cases hc : gr.cancelled with
  | true =>
    rw [endGrid_of_cancelled hg hplace hc]
    exact ⟨_, (Tbl.get_upd_self _ _ _).trans (by rw [hg, Option.map_some]), rfl, fun h => absurd h Bool.noConfusion⟩
  | false =>
    obtain ⟨d, saved, hend⟩ := endGrid_of_running (code := code) hg hplace hc
    obtain ⟨h, hh, e⟩ := (gridAborted_ending (code := code) s g).grids g gr hg
    rw [hend]
    exact ⟨_, (Tbl.get_upd_self _ _ _).trans (congrArg _ hh), rfl, fun _ => ⟨rfl, e.size⟩⟩

/-- The resident blocks of a grid that is running abort. -/
theorem endGrid_aborts {g b : Nat} {gr : Grid} {p : Block} (hg : s.grids.get g = some gr) (hplace : gr.place ≠ .done)
    (hc : gr.cancelled = false) (hp : s.block b = some p) (hgrid : p.grid = g) (hlive : p.cancelled = false)
    (ha : p.aborted = none ∨ p.aborted = some code) : ∃ q, (s.endGrid code g).block b = some q ∧ q.aborted = some code := by
  have hmem : b ∈ s.blocksOf g := List.mem_map.2 ⟨(b, p), List.mem_filter.2 ⟨Tbl.mem_of_get _ _ _ hp, decide_eq_true hgrid⟩, rfl⟩
  obtain ⟨t, hbefore, hafter⟩ := foldl_ending_at (code := code) (fun t b => abortBlock_ending t b) hmem (s.dropImages g)
  obtain ⟨q, hq, e⟩ := ((dropImages_ending s g).trans hbefore).blocks b p hp
  obtain ⟨r, hr, hra⟩ := abortBlock_ends hq (e.cancelled.trans hlive) (e.unended ha)
  obtain ⟨r', hr', f⟩ := hafter.blocks b r hr
  obtain ⟨d, saved, hend⟩ := endGrid_of_running (code := code) hg hplace hc
  rw [hend]
  exact ⟨r', hr', f.stays hra⟩

/-! ### Jobs that end (R485) -/

/-- Job `job` has ended with `code`, some of its blocks perhaps before. -/
structure JobOver (s t : State) (job code : Nat) : Prop where
  grids : ∀ g gr, s.grids.get g = some gr → gr.job = job → gr.place ≠ .done → ∃ h, t.grids.get g = some h ∧ h.trapcode = code ∧
    (gr.cancelled = false → h.anyAbort = true ∧ h.nextIndex = gridSize gr)
  blocks : ∀ g gr, s.grids.get g = some gr → gr.job = job → gr.place ≠ .done → gr.cancelled = false → ∀ b p, s.block b = some p →
    p.grid = g → p.cancelled = false → p.aborted = none ∨ p.aborted = some code → ∃ q, t.block b = some q ∧ q.aborted = some code
  held : ∀ e ∈ t.lag, ¬ (e.2.held = true ∧ e.2.job = job)

theorem JobOver.jobEnded {job : Nat} (h : JobOver s t job code) : JobEnded s t job code := by
  refine ⟨fun g gr hg hj hplace => ?_, fun g gr hg hj hc hplace => ⟨?_, fun b p hp hgrid hlive ha => ?_⟩, h.held⟩
  · obtain ⟨x, hx, hcode, -⟩ := h.grids g gr hg hj hplace
    exact ⟨x, hx, hcode⟩
  · obtain ⟨x, hx, hcode, hrun⟩ := h.grids g gr hg hj hplace
    exact ⟨x, hx, hcode, hrun hc⟩
  · exact h.blocks g gr hg hj hplace hc b p hp hgrid hlive (.inl ha)

theorem JobOver.after {job : Nat} (h : Ending code s t) (k : JobOver t u job code) : JobOver s u job code where
  grids g gr hg hj hplace := by
    obtain ⟨x, hx, e⟩ := h.grids g gr hg
    obtain ⟨y, hy, hcode, hrun⟩ := k.grids g x hx (e.job.trans hj) (fun hd => hplace (e.done.1 hd))
    exact ⟨y, hy, hcode, fun hc => ⟨(hrun (e.cancelled.trans hc)).1, (hrun (e.cancelled.trans hc)).2.trans e.size⟩⟩
  blocks g gr hg hj hplace hc b p hp hgrid hlive ha := by
    obtain ⟨x, hx, e⟩ := h.grids g gr hg
    obtain ⟨q, hq, f⟩ := h.blocks b p hp
    exact k.blocks g x hx (e.job.trans hj) (fun hd => hplace (e.done.1 hd)) (e.cancelled.trans hc) b q hq (f.grid.trans hgrid)
      (f.cancelled.trans hlive) (f.unended ha)
  held := k.held

/-- The state in which the grids of a job have ended. -/
def gridsEnded (s : State) (job code : Nat) : State :=
  (s.gridsWhere (fun g => g.job = job)).foldl (fun t g => t.endGrid code g) s

theorem gridsEnded_ending (s : State) (job : Nat) : Ending code s (gridsEnded s job code) :=
  foldl_ending (fun t g => endGrid_ending t g) _ s

/-- Around the end of one grid of a job. -/
theorem gridsEnded_at {job g : Nat} {gr : Grid} (hg : s.grids.get g = some gr) (hj : gr.job = job) :
    ∃ t, Ending code s t ∧ Ending code (t.endGrid code g) (gridsEnded s job code) := by
  have hmem : g ∈ s.gridsWhere (fun g => g.job = job) :=
    List.mem_map.2 ⟨(g, gr), List.mem_filter.2 ⟨Tbl.mem_of_get _ _ _ hg, decide_eq_true hj⟩, rfl⟩
  exact foldl_ending_at (fun t g => endGrid_ending t g) hmem s

theorem dropCopies_ending (s : State) (job : Nat) : Ending code s (s.dropCopies job) := .of_same

theorem dropHeld_ending (s : State) (job : Nat) : Ending code s (s.dropHeld job) := .of_same

theorem endJob_after (s : State) (job : Nat) : Ending code (gridsEnded s job code) (s.endJob job code) :=
  (dropCopies_ending _ job).trans (dropHeld_ending _ job)

theorem endJob_over (s : State) (job : Nat) : JobOver s (s.endJob job code) job code where
  grids g gr hg hj hplace := by
    obtain ⟨t, hbefore, hafter⟩ := gridsEnded_at (code := code) hg hj
    obtain ⟨x, hx, e⟩ := hbefore.grids g gr hg
    obtain ⟨y, hy, hcode, hrun⟩ := endGrid_marks (code := code) hx (fun hd => hplace (e.done.1 hd))
    obtain ⟨z, hz, f⟩ := (hafter.trans (endJob_after s job)).grids g y hy
    refine ⟨z, hz, f.trapcode hcode, fun hc => ?_⟩
    obtain ⟨habort, hindex⟩ := hrun (e.cancelled.trans hc)
    obtain ⟨y', hy', k⟩ := (endGrid_ending (code := code) t g).grids g x hx
    obtain rfl : y' = y := Option.some.inj (hy'.symm.trans hy)
    exact ⟨f.anyAbort habort, (f.nextIndex (hindex.trans k.size.symm)).trans (k.size.trans e.size)⟩
  blocks g gr hg hj hplace hc b p hp hgrid hlive ha := by
    obtain ⟨t, hbefore, hafter⟩ := gridsEnded_at (code := code) hg hj
    obtain ⟨x, hx, e⟩ := hbefore.grids g gr hg
    obtain ⟨q, hq, f⟩ := hbefore.blocks b p hp
    obtain ⟨r, hr, hra⟩ := endGrid_aborts hx (fun hd => hplace (e.done.1 hd)) (e.cancelled.trans hc) hq (f.grid.trans hgrid)
      (f.cancelled.trans hlive) (f.unended ha)
    obtain ⟨r', hr', k⟩ := (hafter.trans (endJob_after s job)).blocks b r hr
    exact ⟨r', hr', k.stays hra⟩
  held e he := by
    have he : e ∈ (gridsEnded s job code).lag.filter (fun e => !(e.2.held && e.2.job = job)) := he
    have hkept := (List.mem_filter.1 he).2
    rw [Bool.not_eq_true', Bool.and_eq_false_iff, decide_eq_false_iff_not] at hkept
    rintro ⟨hheld, hjob⟩
    rcases hkept with h | h
    · exact absurd (hheld.symm.trans h) Bool.noConfusion
    · exact h hjob

/-- R146, R432: a fatal access is reported and ends the job at once. -/
theorem fatalAccess_results (s : State) (core asn ten job need addr grid : Nat) :
    Ending 0x0C s (s.fatalAccess core asn ten job need addr grid) ∧ JobOver s (s.fatalAccess core asn ten job need addr grid) job 0x0C := by
  have hreport := report_ending (code := 0x0C) s 5 core asn ten job need addr grid false
  exact ⟨(hreport.trans (gridsEnded_ending _ job)).trans (endJob_after _ job), .after hreport (endJob_over _ job)⟩

end

end Sys2Proof.Proofs

/-! The fabric (spec/22): replies, flush markers and messages of sessions (R249, R509, R511). -/

namespace Sys2Proof.Proofs

open Sys2Proof.Machine Sys2Proof.Claims

/-! ### The data of a reply bring no packet -/

theorem FillFrame.fabIn {s t : State} (h : FillFrame s t) : t.fabIn = s.fabIn := by
  have hin := congrArg State.fabIn h.2
  exact hin

theorem L2Frame.fabIn {s t : State} (h : L2Frame s t) : t.fabIn = s.fabIn := by
  have hin := congrArg State.fabIn h
  exact hin

theorem ite_fabIn {c : Prop} [Decidable c] {s t u : State} (ht : t.fabIn = s.fabIn) (hu : u.fabIn = s.fabIn) :
    (if c then t else u).fabIn = s.fabIn := by
  split
  · exact ht
  · exact hu

theorem foldl_fabIn {α : Type} {f : State → α → State} (hf : ∀ t x, (f t x).fabIn = t.fabIn) (xs : List α) (s : State) :
    (xs.foldl f s).fabIn = s.fabIn := by
  induction xs generalizing s with
  | nil => rfl
  | cons x xs ih => exact (ih _).trans (hf s x)

theorem homeWrite_fabIn (s : State) (pa : Nat) (bs : List Byte) (a : Alloc) (who : Option (Nat × Nat)) (job : Nat) :
    (s.homeWrite pa bs a who job).fabIn = s.fabIn := by
  have hin := congrArg State.fabIn (homeWrite_writeFrame s pa bs a who job).rest
  exact hin

theorem l1Fill_fabIn (s : State) (core : Nat) (l : L1Line) (first : Bool) : (s.l1Fill core l first).fabIn = s.fabIn := by
  have hother (t : State) (c : Nat) (f : Core → Core) : (if (t.cores.get c).isSome then t.updCore c f else t).fabIn = t.fabIn :=
    ite_fabIn rfl rfl
  exact foldl_fabIn (fun t c => hother t c _) (clusterCores (clusterOf core)) s

theorem loadFill_fabIn (s : State) (id : Nat) (r : Req) (data : List Byte) : (s.loadFill id r data).fabIn = s.fabIn := by
  unfold State.loadFill
  extract_lets t
  have ht : t.fabIn = s.fabIn := rfl
  refine ite_fabIn ht (ite_fabIn ((l1Drop_fillFrame t _ _).fabIn.trans ht) ?_)
  split
  · exact (l1Fill_fabIn _ _ _ _).trans ht
  · exact (l1Drop_fillFrame t _ _).fabIn.trans ht

theorem codeArrives_fabIn (s : State) (id : Nat) (r : Req) (data : List Byte) : (s.codeArrives id r data).fabIn = s.fabIn := by
  have hend (t : State) : (t.endProbe r).fabIn = t.fabIn := ite_fabIn rfl rfl
  exact (hend _).trans (ite_fabIn rfl rfl)

theorem sendRead_fabIn (s : State) (id : Nat) (r : Req) (fuel : Nat) : (s.sendRead id r fuel).fabIn = s.fabIn := by
  induction fuel generalizing r with
  | zero => rfl
  | succ fuel ih =>
    unfold State.sendRead
    refine ite_fabIn rfl ?_
    split
    · rfl
    · exact ite_fabIn rfl (ih _)

/-! ### Rows that move (R215, R218) -/

theorem fillBytes_fabIn (s : State) (r : Req) : (s.fillBytes .clean r).2.fabIn = s.fabIn := by
  have hread (as_ : List LaneAcc) (acc : List (Nat × List Byte) × State) :
      (as_.foldl (fun (acc : List (Nat × List Byte) × State) a =>
        let (bs, t) := acc.2.eccRead .clean a.pa r.core r.grid r.job (acc.2.rd (localOf a.pa) a.n)
        (acc.1 ++ [(a.lane, bs)], t)) acc).2 = acc.2 := by
    induction as_ generalizing acc with
    | nil => rfl
    | cons a as_ ih => exact ih _
  unfold State.fillBytes
  split
  · rfl
  · rw [hread]
    exact (l2Read_l2Frame s r r.line).fabIn

theorem engineWrite_fabIn (s : State) (b o : Nat) (bs : List Byte) : (s.engineWrite b o bs).fabIn = s.fabIn := by
  have hin := congrArg State.fabIn
    (dropShadow_frame (s.updBlock b (fun x => x.spadWrite o bs)) b (fun a => o ≤ a && a < o + bs.length))
  exact hin

theorem drainReq_fabIn (s : State) (b : Block) (r : Req) : (s.drainReq .clean b r).fabIn = s.fabIn := by
  unfold State.drainReq
  extract_lets t m
  have ht : t.fabIn = s.fabIn := foldl_fabIn (fun u a => by
    have hstore := (l1Store_fillFrame u r.core r.line (a.pa % 128) (b.spadRead a.lane a.n)).fabIn
    exact ite_fabIn hstore ((homeWrite_fabIn _ _ _ _ _ _).trans hstore)) r.accs s
  have hnote : (t.noteDrained r).fabIn = t.fabIn := ite_fabIn rfl rfl
  exact ite_fabIn ht (hnote.trans ht)

theorem moveRow_fabIn (s : State) (b : Nat) (es : List (Nat × Req)) : (s.moveRow .clean b es).fabIn = s.fabIn := by
  unfold State.moveRow
  extract_lets t u
  have hserved (v : State) (e : Nat × Req) : (if v.away e.2.line then v else v.served e.2).fabIn = v.fabIn := ite_fabIn rfl rfl
  have ht : t.fabIn = s.fabIn := foldl_fabIn hserved es s
  have hu : u.fabIn = s.fabIn := ht
  refine (foldl_fabIn (fun v e => ?_) es u).trans hu
  split
  · exact (foldl_fabIn (fun w (x : Nat × List Byte) => engineWrite_fabIn w b x.1 x.2) _ _).trans (fillBytes_fabIn v e.2)
  · split
    · exact drainReq_fabIn v _ e.2
    · rfl

theorem copyAdvance_fabIn (s : State) (core id : Nat) : (s.copyAdvance .clean core id).fabIn = s.fabIn := by
  unfold State.copyAdvance
  induction maxRows generalizing s with
  | zero => rfl
  | succ fuel ih =>
    unfold State.moveRows
    split
    · rfl
    · next c _ =>
      have hmoved := moveRow_fabIn s c.blk (s.rowReqsOf id c.moved)
      exact ite_fabIn ((ih _).trans hmoved) rfl

theorem answered1_fabIn (s : State) (id : Nat) (r : Req) (tag : Nat) (data : List Byte) : (s.answered1 id r tag data).fabIn = s.fabIn := by
  unfold State.answered1
  split
  · rfl
  · exact codeArrives_fabIn s id r data
  · exact loadFill_fabIn _ id r data
  · exact ite_fabIn ((copyAdvance_fabIn _ _ _).trans (ite_fabIn rfl (sendRead_fabIn s _ _ _))) (ite_fabIn rfl (sendRead_fabIn s _ _ _))

/-! ### FABRIC_REPLY -/

/-- The state in which a reply has been taken in, and what its core sent to the line before it no longer keeps a path. -/
def replyTaken (s : State) (p : FabPacket) : State := (s.taken p).unpin (fun e => e.dst = p.src && e.tags.contains p.tag) p.tag

theorem replyTaken_rest (s : State) (p : FabPacket) :
    { replyTaken s p with fabIn := s.fabIn, pins := s.pins, ports := s.ports } = s := by
  have hrest := congrArg (fun t : State => { t with fabIn := s.fabIn, pins := s.pins }) (taken_bufFrame s p).rest
  exact hrest

theorem replyTaken_fabIn (s : State) (p : FabPacket) : (replyTaken s p).fabIn = s.fabIn.erase p := (taken_packetTaken s p).arrived

section

variable {s : State} {p : FabPacket}

theorem replyTaken_reqs (s : State) (p : FabPacket) : (replyTaken s p).reqs = s.reqs := by
  have hreqs := congrArg State.reqs (replyTaken_rest s p)
  exact hreqs

theorem replyTaken_sent (s : State) (p : FabPacket) : (replyTaken s p).sent = s.sent := by
  have hsent := congrArg State.sent (replyTaken_rest s p)
  exact hsent

theorem replyTaken_awaiting (s : State) (p : FabPacket) : (replyTaken s p).awaiting p = s.awaiting p := by
  rw [State.awaiting, State.awaiting, replyTaken_reqs]

theorem reply_eq (s : State) (p : FabPacket) : (s.taken p).reply p = match (replyTaken s p).awaiting p with
    | some (id, r) =>
      let w := (replyTaken s p).sentBy r ((r.accs.head?).elim (128 * r.vline) (fun a => a.va))
      if p.status = 1 then
        { replyTaken s p with reqs := (replyTaken s p).reqs.del id }.fatalAccess w.core w.asn w.ten w.job w.need w.va w.rec_
      else if p.status = 2 then ((replyTaken s p).markLoss r.grid).answered1 id r p.tag (p.data.map (fun _ => 0))
      else (replyTaken s p).answered1 id r p.tag p.data
    | none => match (replyTaken s p).sent.get p.tag with
      | some w =>
        if p.status = 1 then
          { replyTaken s p with sent := (replyTaken s p).sent.del p.tag }.fatalAccess w.core w.asn w.ten w.job w.need w.va w.rec_
        else { replyTaken s p with sent := (replyTaken s p).sent.del p.tag }
      | none => replyTaken s p := rfl

theorem reply_next (htyp : p.typ = 4) (hin : s.fabIn.contains p = true) :
    exec (.fabricReply p) s = .next ((s.taken p).reply p) := by
  refine event_next _ _ _ ?_
  rw [hin, decide_eq_true htyp]
  rfl

/-- `u` is `s` with a reply taken in, as far as grids, blocks and other packets go. -/
structure ReplyIn (s : State) (p : FabPacket) (u : State) : Prop where
  arrived : u.fabIn = s.fabIn.erase p
  grids : u.grids = s.grids
  blocks : u.blocks = s.blocks

theorem replyTaken_replyIn (s : State) (p : FabPacket) : ReplyIn s p (replyTaken s p) := by
  have hrest := replyTaken_rest s p
  have hgrids := congrArg State.grids hrest
  have hblocks := congrArg State.blocks hrest
  exact ⟨replyTaken_fabIn s p, hgrids, hblocks⟩

theorem reply_refused {id : Nat} {r : Req} (ha : s.awaiting p = some (id, r)) (hstatus : p.status = 1) :
    ∃ u core asn ten need va rec_, ReplyIn s p u ∧ (s.taken p).reply p = u.fatalAccess core asn ten r.job need va rec_ := by
  obtain ⟨hin, hgrids, hblocks⟩ := replyTaken_replyIn s p
  rw [reply_eq, replyTaken_awaiting, ha]
  simp only [hstatus, if_true]
  exact ⟨{ replyTaken s p with reqs := (replyTaken s p).reqs.del id }, _, _, _, _, _, _, ⟨hin, hgrids, hblocks⟩, rfl⟩

theorem reply_lost {id : Nat} {r : Req} (ha : s.awaiting p = some (id, r)) (hstatus : p.status = 2) :
    (s.taken p).reply p = ((replyTaken s p).markLoss r.grid).answered1 id r p.tag (p.data.map (fun _ => 0)) := by
  rw [reply_eq, replyTaken_awaiting, ha]
  simp [hstatus]

theorem reply_data {id : Nat} {r : Req} (ha : s.awaiting p = some (id, r)) (h1 : p.status ≠ 1) (h2 : p.status ≠ 2) :
    (s.taken p).reply p = (replyTaken s p).answered1 id r p.tag p.data := by
  rw [reply_eq, replyTaken_awaiting, ha]
  simp [h1, h2]

theorem reply_writeRefused {w : SentWrite} (ha : s.awaiting p = none) (hw : s.sent.get p.tag = some w) (hstatus : p.status = 1) :
    ∃ u, ReplyIn s p u ∧ u.sent.get p.tag = none ∧
      (s.taken p).reply p = u.fatalAccess w.core w.asn w.ten w.job w.need w.va w.rec_ := by
  obtain ⟨hin, hgrids, hblocks⟩ := replyTaken_replyIn s p
  have hw : (replyTaken s p).sent.get p.tag = some w := by rwa [replyTaken_sent]
  rw [reply_eq, replyTaken_awaiting, ha, hw]
  simp only [hstatus, if_true]
  exact ⟨{ replyTaken s p with sent := (replyTaken s p).sent.del p.tag }, ⟨hin, hgrids, hblocks⟩, Tbl.get_del_self _ _, rfl⟩

theorem reply_writeDone {w : SentWrite} (ha : s.awaiting p = none) (hw : s.sent.get p.tag = some w) (hstatus : p.status ≠ 1) :
    (s.taken p).reply p = { replyTaken s p with sent := (replyTaken s p).sent.del p.tag } := by
  have hw : (replyTaken s p).sent.get p.tag = some w := by rwa [replyTaken_sent]
  rw [reply_eq, replyTaken_awaiting, ha, hw]
  simp [hstatus]

theorem reply_stray (ha : s.awaiting p = none) (hw : s.sent.get p.tag = none) : (s.taken p).reply p = replyTaken s p := by
  have hw : (replyTaken s p).sent.get p.tag = none := by rwa [replyTaken_sent]
  rw [reply_eq, replyTaken_awaiting, ha, hw]

/-- Of the packets that have arrived, a reply takes itself alone. -/
theorem reply_fabIn (s : State) (p : FabPacket) : ((s.taken p).reply p).fabIn = s.fabIn.erase p := by
  cases ha : s.awaiting p with
  | some e =>
    by_cases h1 : p.status = 1
    · obtain ⟨u, core, asn, ten, need, va, rec_, hu, h⟩ := reply_refused ha h1
      rw [h]
      exact (fatalAccess_results u core asn ten e.2.job need va rec_).1.arrived.trans hu.arrived
    · by_cases h2 : p.status = 2
      · rw [reply_lost ha h2]
        exact (answered1_fabIn _ _ _ _ _).trans (replyTaken_fabIn s p)
      · rw [reply_data ha h1 h2]
        exact (answered1_fabIn _ _ _ _ _).trans (replyTaken_fabIn s p)
  | none =>
    cases hw : s.sent.get p.tag with
    | some w =>
      by_cases h1 : p.status = 1
      · obtain ⟨u, hu, -, h⟩ := reply_writeRefused ha hw h1
        rw [h]
        exact (fatalAccess_results u _ _ _ _ _ _ _).1.arrived.trans hu.arrived
      · rw [reply_writeDone ha hw h1]
        exact replyTaken_fabIn s p
    | none =>
      rw [reply_stray ha hw]
      exact replyTaken_fabIn s p

/-- A load of a whole line that has its data. -/
def loadDone (r : Req) (data : List Byte) : Req := { r with remoteTag := none, olds := r.olds ++ [(lineKey, data)], visible := true }

theorem answered1_load {id tag : Nat} {r : Req} {data : List Byte} {sg : Bool} {hint : Nat} (hk : r.kind = .load sg hint) (hpol : r.pol ≠ 3) :
    s.answered1 id r tag data = { s with reqs := s.reqs.put id (loadDone r data) } := by
  have hread : (ReqKind.load sg hint == .copyRead) = false := rfl
  have hwhole : (r.pol != 3) = true := bne_iff_ne.2 hpol
  simp only [State.answered1, hk, Req.whole, hwhole, hread, if_true, Bool.true_or, Bool.false_eq_true, if_false, loadDone]

/-- A reply with data, or of lost data, completes a load of a whole line. -/
theorem reply_load {id : Nat} {r : Req} {sg : Bool} {hint : Nat} (ha : s.awaiting p = some (id, r)) (hk : r.kind = .load sg hint)
    (hpol : r.pol ≠ 3) :
    (p.status = 0 → ((s.taken p).reply p).reqs.get id = some (loadDone r p.data)) ∧
    (p.status = 2 → ((s.taken p).reply p).reqs.get id = some (loadDone r (p.data.map (fun _ => 0))) ∧
      ∀ gr, s.grids.get r.grid = some gr → ((s.taken p).reply p).grids.get r.grid = some { gr with dataLoss := true }) := by
  refine ⟨fun h0 => ?_, fun h2 => ?_⟩
  · rw [reply_data ha (by omega) (by omega), answered1_load hk hpol]
    exact Tbl.get_put_self _ _ _
  · rw [reply_lost ha h2, answered1_load hk hpol]
    refine ⟨Tbl.get_put_self _ _ _, fun gr hgr => (Tbl.get_upd_self _ _ _).trans ?_⟩
    rw [(replyTaken_replyIn s p).grids, hgr, Option.map_some]

theorem ReplyIn.ends {u : State} (h : ReplyIn s p u) (core asn ten job need va rec_ : Nat) :
    JobEnded s (u.fatalAccess core asn ten job need va rec_) job 0x0C := by
  have hended := (fatalAccess_results u core asn ten job need va rec_).2.jobEnded
  unfold JobEnded State.block at hended
  rw [h.grids, h.blocks] at hended
  exact hended

end

/-- R509: what a reply brings the request that waits for it, and what it says of a write. -/
theorem fabricReply_results (s : State) (p : FabPacket) (htyp : p.typ = 4) (hin : s.fabIn.contains p = true) :
    ∃ t, exec (.fabricReply p) s = .next t ∧ t.fabIn = s.fabIn.erase p ∧
      (∀ id r sg hint, s.awaiting p = some (id, r) → r.kind = .load sg hint → r.pol ≠ 3 →
        (p.status = 0 → t.reqs.get id = some { r with remoteTag := none, olds := r.olds ++ [(lineKey, p.data)], visible := true }) ∧
        (p.status = 2 → t.reqs.get id = some { r with
            remoteTag := none, olds := r.olds ++ [(lineKey, p.data.map (fun _ => 0))], visible := true } ∧
          ∀ gr, s.grids.get r.grid = some gr → t.grids.get r.grid = some { gr with dataLoss := true })) ∧
      (∀ id r, s.awaiting p = some (id, r) → p.status = 1 → JobEnded s t r.job 0x0C) ∧
      (∀ w, s.awaiting p = none → s.sent.get p.tag = some w → t.sent.get p.tag = none ∧ (p.status = 1 → JobEnded s t w.job 0x0C) ∧
        (p.status ≠ 1 → { t with fabIn := s.fabIn, sent := s.sent, pins := s.pins, ports := s.ports } = s)) := by
  refine ⟨_, reply_next htyp hin, reply_fabIn s p, fun id r sg hint ha hk hpol => reply_load ha hk hpol, fun id r ha h1 => ?refused,
    fun w ha hw => ?write⟩
  case refused =>
    obtain ⟨u, core, asn, ten, need, va, rec_, hu, h⟩ := reply_refused ha h1
    rw [h]
    exact hu.ends core asn ten r.job need va rec_
  case write =>
    by_cases h1 : p.status = 1
    · obtain ⟨u, hu, hdel, h⟩ := reply_writeRefused ha hw h1
      have hkeep := (fatalAccess_results u w.core w.asn w.ten w.job w.need w.va w.rec_).1.sent
      rw [h]
      exact ⟨by rw [hkeep, hdel], fun _ => hu.ends _ _ _ _ _ _ _, fun h => absurd h1 h⟩
    · rw [reply_writeDone ha hw h1]
      have hrest := congrArg (fun t : State => { t with sent := s.sent }) (replyTaken_rest s p)
      exact ⟨Tbl.get_del_self _ _, fun h => absurd h h1, fun _ => hrest⟩

/-! ### MARKER, MARKER_ACK and FABRIC_SESSION -/

/-- R249: a marker is acknowledged to its source. -/
theorem marker_results (s : State) (p : FabPacket) (htyp : p.typ = 5) (hdue : s.markerDue p = true) :
    ∃ t, exec (.marker p) s = .next t ∧ AnswersPacket s t p 6 0 [] ∧ t.mem = s.mem := by
  have hexec : exec (.marker p) s = .next ((s.taken p).answerTo p 6 0 []) :=
    event_next _ _ _ (by rw [hdue, decide_eq_true htyp]; rfl)
  exact ⟨_, hexec, (taken_packetTaken s p).answers _ _ _, taken_mem s p⟩

/-- R249: an acknowledged marker is forgotten. -/
theorem markerAck_results (s : State) (p : FabPacket) (htyp : p.typ = 6) (hin : s.fabIn.contains p = true) :
    ∃ t, exec (.markerAck p) s = .next t ∧ t.fabIn = s.fabIn.erase p ∧
      { t with fabIn := s.fabIn, marks := s.marks, pins := s.pins, ports := s.ports, markPath := s.markPath } = s ∧
      (p.tag, p.src) ∉ t.marks ∧ ∀ e, e ≠ (p.tag, p.src) → (e ∈ t.marks ↔ e ∈ s.marks) := by
  have hfree : ∃ pins, (((s.taken p).markPath.get p.tag).elim (s.taken p)
      (fun path => (s.taken p).unpin (fun e => e.dst = p.src && e.path = path) p.tag)) = { s.taken p with pins := pins } := by
    cases (s.taken p).markPath.get p.tag with
    | none => exact ⟨(s.taken p).pins, rfl⟩
    | some path => exact ⟨_, rfl⟩
  obtain ⟨pins, hfree⟩ := hfree
  have hexec : exec (.markerAck p) s = .next { s.taken p with
      pins := pins, marks := (s.taken p).marks.filter (fun e => !(e.1 = p.tag && e.2 = p.src)),
      markPath := (s.taken p).markPath.del p.tag } := by
    refine (event_next _ _ _ (by rw [hin, decide_eq_true htyp]; rfl)).trans ?_
    simp only [hfree]
  have hrest := (taken_bufFrame s p).rest
  have hmarks := congrArg State.marks hrest
  have hmarks : (s.taken p).marks = s.marks := hmarks
  have hframe := congrArg (fun t : State => { t with fabIn := s.fabIn, marks := s.marks, pins := s.pins, markPath := s.markPath }) hrest
  refine ⟨_, hexec, (taken_packetTaken s p).arrived, hframe, ?_, fun e he => ?_⟩
  · simp
  · simp only [hmarks, List.mem_filter, and_iff_left_iff_imp]
    intro _
    have hother : ¬ (e.1 = p.tag ∧ e.2 = p.src) := fun h => he (Prod.ext h.1 h.2)
    simpa only [Bool.not_eq_true', Bool.and_eq_false_iff, decide_eq_false_iff_not, not_and_or] using hother

/-- R511: a fragment of a message joins those before it; the first begins a new message. -/
theorem fabricSession_results (s : State) (p : FabPacket) {port : Nat} {x : FabPort} (htyp : p.typ = 7) (hx : s.ports.get port = some x)
    (hhead : x.sessIn.head? = some p) (hmsg : x.message = none) :
    ∃ t y, exec (.fabricSession port p) s = .next t ∧ t.ports.get port = some y ∧ y.sessIn = x.sessIn.erase p ∧ y.peer = p.src ∧
      y.msgLen = p.addr / 65536 % 65536 ∧
      y.msg = (if p.addr % 65536 = 0 then [(0, p.data)] else x.msg ++ [(p.addr % 65536, p.data)]) := by
  have hexec : exec (.fabricSession port p) s = .next (s.updPort port (fun x => x.fragment p)) :=
    event_next _ _ _ (by simp [htyp, hx, hhead, hmsg])
  refine ⟨_, _, hexec, updPort_get hx _, rfl, rfl, rfl, ?_⟩
  by_cases h0 : p.addr % 65536 = 0 <;> simp [FabPort.fragment, FabPort.free, h0]

/-! ### The packets together -/

/-- Settles O50: a sequence by the port that it leaves and the one packet that arrives with it, a packet by what its type does at its
home. The model's readings of the spec that it rests on are those of the assumption log: control sequences accepted while others are
discarded, and packets dropped before READY (notes/assumptions/38.md); device registers over the fabric (notes/assumptions/16.md); a
REPLY of status 1 without data (PRESUMED, notes/assumptions/83.md). -/
theorem fabricResults : Obligations.FabricResults := by
  unfold Obligations.FabricResults
  intro s
  refine ⟨fun port bs x hx htrained hfenced => ?sequences, fun p => ?packets⟩
  case sequences =>
    have hnext := sequence_next (bs := bs) hx htrained hfenced
    refine ⟨fun hgood => ?damaged, fun hgood hctrl hseq => ⟨fun hd => ?ahead, fun hd => ?discarded⟩, fun hgood hctrl => ?control,
      fun r rest hgood hctrl hseq hparse => ⟨fun data hform hopen htyp => ?accepted, fun k hready hk hphase hopen => ?tag,
        fun k data hready hk hlow hopen => ?replayed⟩⟩
    case damaged => rw [hnext, receive_damaged hgood]; rfl
    case ahead => rw [hnext, receive_other hgood hctrl hseq, hd]; rfl
    case discarded => rw [hnext, receive_other hgood hctrl hseq, hd]; rfl
    case control =>
      obtain ⟨y, hy⟩ := sequence_control hx (seqHead bs)
      exact ⟨_, y, hnext.trans (congrArg _ (receive_control hgood hctrl)), hy⟩
    all_goals have a := receive_expected hx hgood hctrl hseq
    case accepted =>
      obtain ⟨y, hy⟩ := sequence_accepted a hparse hform hopen htyp
      exact ⟨_, y, hnext, hy⟩
    case tag => rw [hnext, sequence_unauthentic a hparse hready hk hphase hopen]; rfl
    case replayed => exact ⟨_, hnext, sequence_replayed a hparse hready hk hlow hopen⟩
  case packets =>
    exact ⟨fun htyp hturn hhome => fabricRead_home htyp hturn hhome, fun htyp hturn hreg => fabricRead_register htyp hturn hreg,
      fun htyp hturn hhome hreg => fabricRead_refused htyp hturn hhome hreg, fun htyp hturn hreg => fabricWrite_register htyp hturn hreg,
      fun htyp hturn hhome hwaits hclear => fabricWrite_home htyp hturn hhome hwaits hclear,
      fun htyp hturn hhome hfirst hreg => fabricWrite_refused htyp hturn hhome hfirst hreg,
      fun htyp _ hturn hwaits => ⟨fun hhome hclear => fabricAtomic_home htyp hturn hwaits hhome hclear,
        fun hhome => fabricAtomic_refused htyp hturn hwaits hhome⟩,
      fun htyp hin => fabricReply_results s p htyp hin, fun htyp hdue => marker_results s p htyp hdue,
      fun htyp hin => markerAck_results s p htyp hin, fun port x htyp hx hhead hmsg => fabricSession_results s p htyp hx hhead hmsg⟩

end Sys2Proof.Proofs
